-- ==== Sys2Proof/Word.lean ====
section
/-! DEFINITION. The word types of the T96 model: a byte, the 32-bit register word, the 64-bit word of
positions and addresses, and the 128-bit instruction word and accumulator entry (R7, R125, R174). -/
namespace Sys2Proof

/-- One byte of any memory (R7: multi-byte structures are little-endian). -/
abbrev Byte := BitVec 8
/-- A BAR0 register (R412). -/
abbrev Word := BitVec 32
/-- A 64-bit quantity: cadence position, bus address, tag word. -/
abbrev DWord := BitVec 64
/-- A tile instruction word (R174) or an accumulator entry (R125). -/
abbrev QWord := BitVec 128

end Sys2Proof
end

