-- ==== Sys2Proof/Syntax.lean ====
section
/-! DEFINITION. The commands of the T96: one constructor of `Instr` per row of the spec's table of
operations and events, with the operands that come from outside the machine (who, which unit, when, and
the data that arrives). Everything else a step needs is in the state. Unit numbers are `Fin` types, so
that no command names a unit the module does not have. -/
namespace Sys2Proof

/-- The five engines of a tile (R151). -/
inductive Engine where
  | mx | ve | sp | ri | ro
  deriving DecidableEq, Repr

/-- Function number: 0 is the physical function, 1 to 63 the virtual ones (R60). -/
abbrev Fn := Fin 64
/-- Local ring number of a function's window (R93). -/
abbrev RingIx := Fin 896
/-- Pack number (R260). -/
abbrev PackIx := Fin 64
/-- Link number (R1). -/
abbrev LinkIx := Fin 48
/-- Cue number (R54). -/
abbrev CueIx := Fin 16
/-- HBM stack number. -/
abbrev StackIx := Fin 12
/-- Fabric region number (R343). -/
abbrev RegionIx := Fin 32
/-- Fabric port number (R254). -/
abbrev PortIx := Fin 64

/-- A logical tile (column, row) of the module's 32 × 32 grid. -/
structure TileId where
  col : Fin 32
  row : Fin 32
  deriving DecidableEq, Repr

/-- A physical tile site (R95: 36 rows by 32 columns). -/
structure SiteId where
  prow : Fin 36
  pcol : Fin 32
  deriving DecidableEq, Repr

/-- The memories of a tile that R96 protects. -/
inductive TileMem where
  | store | acc | check | x | y | table
  deriving DecidableEq, Repr

/-- A physical fault met by one product row of an MXRUN (R107 to R112): the value of column `col` of
product row `row` is off by `delta` accumulator units, or the doubled adder disagrees (R110). -/
structure RowUpset where
  row : Nat
  col : Fin 64
  delta : Int
  adder : Bool
  deriving DecidableEq, Repr

/-- What the physical world does to a tile while one instruction runs (R96, R110): a double-bit error in
a word it reads or partly writes, a parity error, physical rows in which a single-bit error was corrected,
and faults in product rows. The empty upset is the healthy tile. -/
structure Upset where
  doubleBit : Bool := false
  parity : Bool := false
  corrected : List (TileMem × Nat) := []
  rows : List RowUpset := []
  deriving DecidableEq, Repr

/-- What user logic, which a customer builds, does in the fabric (R332, R333): a clock edge at a register of a logic cell,
with its enable, its reset and its data; a cell's carry bit settles; a write or a read at a port of a RAM block; bits of a
RAM word that the world flips; a cycle of the launching clock of a seam channel. -/
inductive UserEvent where
  | cellClock (cell : Fin 2457600) (second ce reset d : Bool)
  | cellCarry (cell : Fin 2457600) (v : Bool)
  | ramWrite (block : Fin 9216) (second : Bool) (a : Fin 32768) (d : BitVec 72)
  | ramRead (block : Fin 9216) (second : Bool) (a : Fin 32768)
  | ramUpset (block : Fin 9216) (word : Fin 512) (x : BitVec 72)
  | seamClock (src dst : Fin 4) (wires : BitVec 1024)
  deriving DecidableEq, Repr

/-- What a host writes in PCI Express configuration space (R60): how many VFs are enabled, and the size of BAR2 as a power
of two; and what the link has trained to: 2.5 to 64 GT/s, x1 to x16, and whether the partner supports flit mode. -/
inductive CfgWrite where
  | vfs (n : Fin 64)
  | bar2 (log2 : Fin 64)
  | link (rate : Fin 6) (width : Fin 5) (flits : Bool)
  deriving DecidableEq, Repr

/-- The inputs that the hub latches at one tick edge (R31): the bytes the host has stored since the last
edge, the bus-address ranges whose reads now fail (R61), the functions whose AtomicOp Swap fails with
Unsupported Request or Completer Abort (R69), Leash's activity estimate in watts (R368), the levels of the GPIO pins and of the
fabric interrupt lines (R345), the logical blocks of the NV store whose erase or program has failed, how many were refreshed (R349), the disagreements among
Nightwatch's voted flip-flops (R358), what user logic has
done in the fabric, in order, and what has changed in PCI Express configuration space (R60), and whether the link reference is present (R426). -/
structure TickIn where
  stores : List (Nat × Byte) := []
  fails : List (Nat × Nat) := []
  swapFails : List Fn := []
  estimate : Nat := 0
  gpio : BitVec 96 := 0
  irq : BitVec 64 := 0
  nvFails : List (Fin 4096) := []
  nvRefreshed : Nat := 0
  nwVotes : Nat := 0
  user : List UserEvent := []
  cfg : List CfgWrite := []
  lref : Bool := true
  deriving DecidableEq, Repr

/-- Which read of the Shepherd failed (R71). -/
inductive RingRead where
  | descriptor | doorbell | summary
  deriving DecidableEq, Repr

/-- The tables rebuilt in use that swap at a tick (R57); the HBM timing sets swap through the frequency
change. -/
inductive SwapTable where
  | remap (col : Fin 32)
  | routing
  | page (fn : Fn)
  | nonlinear (pack : PackIx)
  | retirement
  deriving DecidableEq, Repr

/-- A register of a hub check unit that a write may name (R242, R259). -/
inductive CrcReg where
  | ctrl | expectLo | expectHi | valueLo | valueHi
  deriving DecidableEq, Repr

/-- The direction of a link, seen from this module (R303). -/
inductive LinkDir where
  | tx | rx
  deriving DecidableEq, Repr

/-- The lane marker that one physical lane brings in an alignment-marker codeword (R300): the lane number and codeword
count it names, and when it arrived, in nanoseconds. -/
structure LaneMarker where
  lane : Fin 5
  count : Nat
  at_ : Nat
  deriving DecidableEq, Repr

/-- What a received codeword holds (R298 to R300). -/
inductive Codeword where
  /-- the 544 symbols that the far end coded, and the levels that each physical lane brought for them -/
  | data (sent : List (BitVec 10)) (levels : List (List (Fin 4)))
  /-- an alignment marker: what each physical lane brought -/
  | marker (lanes : List LaneMarker)
  /-- a sleep marker (R307) -/
  | sleep
  deriving DecidableEq, Repr

/-- KIND of a flit (R310). -/
inductive FlitKind where
  | data | control | hold | reserved
  deriving DecidableEq, Repr

/-- The fields of a flit (R310), the virtual channel it travels on, and the outcome of its CRC-32C. -/
structure Flit where
  fseq : BitVec 10
  ack : BitVec 10
  nak : Bool
  crVc : Fin 8
  crN : BitVec 6
  kind : FlitKind
  vc : Fin 8
  crcOk : Bool
  deriving DecidableEq, Repr

/-- The header fields of a link transaction (R319) as they arrive: the source device and virtual channel
it came on, where it goes when that is not this module, its flow number at the source, and the 32-byte header's fields. -/
structure Header where
  src : BitVec 14
  vc : Fin 8
  dest : Option (BitVec 14) := none
  sflow : BitVec 16 := 0
  comb : BitVec 2 := 0
  fwdEn : Bool := false
  status : BitVec 2 := 0
  rflow : BitVec 16 := 0
  seq : BitVec 32 := 0
  token : BitVec 32 := 0
  target : BitVec 64 := 0
  fwdFlow : BitVec 16 := 0
  /-- the link it arrived on -/
  link : Fin 48 := 0
  /-- it answers or concerns a multicast group, whose number is in RFLOW -/
  group : Bool := false
  deriving DecidableEq, Repr

/-- What user logic asks of a port as initiator (R342). -/
inductive PortRequest where
  | read (va : BitVec 57) (len : Fin 257)
  | write (va : BitVec 57) (data : List Byte)
  | signal (pack : PackIx) (col row : Fin 32) (sem : Fin 64) (inc : BitVec 16)
  deriving DecidableEq, Repr

/-- A return beat of a hook (R339). -/
structure Beat where
  tag : BitVec 16
  last : Bool
  data : List Byte
  deriving DecidableEq, Repr

/-- Why a hook failed (R340): a beat not accepted in time, a return not in time, a protocol breach, or the
port isolated or its clock stopped. -/
inductive HookFail where
  | accept | ret | protocol | stopped
  deriving DecidableEq, Repr

/-- A stop of the tile network (R254): a tile by its site, a link block, a fabric port, the hub's stop on a column ring. -/
inductive NetStop where
  | tile (x : SiteId)
  | link (n : LinkIx)
  | port (p : PortIx)
  | hub (col : Fin 32)
  deriving DecidableEq, Repr

/-- What a packet carries (R256): a transaction of the oldest chunk in flight of a stream context, a signal on its way to a
tile, or a transaction that no stream context holds, of a descriptor if of any. -/
inductive NetLoad where
  | piece (tile : TileId) (ctx : Fin 16) (n : Nat)
  | signal (tile : TileId)
  | other (owner : Option Nat)
  deriving DecidableEq, Repr

/-- Errors that the world has put into a stored code unit (R282): the unit of the stripe, 5 for its parity, the code unit in
it, and the erroneous symbols. -/
structure UnitErr where
  pos : Fin 6
  code : Fin 8
  n : Nat
  deriving DecidableEq, Repr

/-- Which supply left its window (R364). -/
inductive Supply where
  | vin48 | vaux | rail (n : Nat)
  deriving DecidableEq, Repr

/-- What Nightwatch finds in a frame (R357). -/
inductive FrameError where
  | clean | single (bit : Fin 4096) | uncorrectable
  deriving DecidableEq, Repr

/-- SPDM protocol version (R403). -/
inductive SpdmVersion where
  | v12 | v13 | v14
  deriving DecidableEq, Repr

/-- One thermal reading, in °C: the three sensors of each thermal site, 24 on each compute die and 4 on the hub, and the
temperature that each HBM stack reports (R374, R375). -/
structure Thermal where
  sites : List (Nat × Nat × Nat)
  stackList : List Nat
  deriving DecidableEq, Repr

/-- The energy figures of a 100 µs interval (R378): the activity of each Pack, the activity of no
descriptor and the base, all in picojoules, and the measured energy. -/
structure EnergyIn where
  activity : List (PackIx × Nat)
  idle : Nat
  base : Nat
  measured : Nat
  deriving DecidableEq, Repr

/-- The commands. The doc comment of each group names the chapter; each constructor's meaning is
`Sys2Proof.Machine.exec<Name>`. -/
inductive Instr where
  -- event tick, registers and staged commit
  | tick (inp : TickIn)
  | hifEarlySample (fn : Fn) (t : Nat)
  | registerWrite (fn : Fn) (off : BitVec 24) (width : Nat) (enables : BitVec 8) (data : DWord)
  | lowWordRead (fn : Fn) (off : BitVec 24) (width : Nat)
  | commitGroups (mask : Word)
  | commitDiscard (mask : Word)
  | vfCommit (fn : Fn)
  | vfDiscard (fn : Fn)
  | commit
  -- cadence and cues
  | timecodeFrame (t : Nat) (bits : BitVec 96) (preambleOk : Bool)
  | encoderTransition (t : Nat) (aLeads : Bool)
  | encoderIndex (t : Nat)
  | cycInEdge (t : Nat) (rising : Bool) (width : Nat)
  | coasting
  | loss
  | jumpBack
  | jumpFwd
  | cadStatusClear (bits : Word)
  | latencyProbe (t : Nat)
  | hardDeadline (d : Nat)
  | cueAction (c : CueIx)
  | cuePulseEnd (c : CueIx)
  | tableSwap (w : SwapTable)
  -- rings and descriptors
  | ringReadError (fn : Fn) (ring : RingIx) (kind : RingRead)
  | run (fn : Fn) (ring : RingIx)
  | copy (fn : Fn) (ring : RingIx)
  | fence (fn : Fn) (ring : RingIx)
  | loopDescriptor (fn : Fn) (ring : RingIx)
  | cadenceSet (fn : Fn) (ring : RingIx)
  | tableLoad (fn : Fn) (ring : RingIx)
  | pageReady (fn : Fn) (ring : RingIx)
  | cancel (fn : Fn) (ring : RingIx)
  | reservedClass (fn : Fn) (ring : RingIx)
  | paramBlockRead (d : Nat) (ok : Bool)
  | dispatch (p : PackIx)
  | fenceComplete (fn : Fn) (ring : RingIx)
  | programComplete (p : PackIx)
  | descriptorRetired (d : Nat)
  | completionRecord (d : Nat)
  | loopResume (p : PackIx)
  | modTimeExpiry (fn : Fn) (ring : RingIx)
  | msixUnmask (fn : Fn) (vec : Fin 2048)
  | functionLevelReset (fn : Fn)
  -- Muzzle and repair
  | muzzleEnter (fn : Fn) (scope : BitVec 2) (index : BitVec 6)
  | muzzleRelease (fn : Fn) (scope : BitVec 2) (index : BitVec 6)
  | muzzleReleaseApply (scope : BitVec 2) (index : BitVec 6)
  | rowSpareReplace (tile : TileId) (mem : TileMem) (row : Nat)
  -- tile instructions: the engine issues the word at its program counter
  | nop (tile : TileId) (e : Engine) (u : Upset)
  | halt (tile : TileId) (e : Engine) (u : Upset)
  | streamEnd (tile : TileId) (e : Engine)
  | jmp (tile : TileId) (e : Engine) (u : Upset)
  | brc (tile : TileId) (e : Engine) (u : Upset)
  | loopInstruction (tile : TileId) (e : Engine) (u : Upset)
  | sig (tile : TileId) (e : Engine) (u : Upset)
  | sigx (tile : TileId) (e : Engine) (u : Upset)
  | signalArrival (tile : TileId) (u : Upset)
  | wait (tile : TileId) (e : Engine) (u : Upset)
  | waitTimeout (tile : TileId) (e : Engine)
  | barrier (tile : TileId) (e : Engine) (u : Upset)
  | syncDeadlock (p : PackIx)
  | undefinedOpcode (tile : TileId) (e : Engine)
  | instructionRetire (tile : TileId) (e : Engine)
  | mxload (tile : TileId) (e : Engine) (u : Upset)
  | mxswap (tile : TileId) (e : Engine) (u : Upset)
  | mxrun (tile : TileId) (e : Engine) (u : Upset)
  | wholeReplay (p : PackIx)
  | mxdrain (tile : TileId) (e : Engine) (u : Upset)
  | vadd (tile : TileId) (e : Engine) (u : Upset)
  | vmul (tile : TileId) (e : Engine) (u : Upset)
  | vfma (tile : TileId) (e : Engine) (u : Upset)
  | vmax (tile : TileId) (e : Engine) (u : Upset)
  | vmin (tile : TileId) (e : Engine) (u : Upset)
  | vred (tile : TileId) (e : Engine) (u : Upset)
  | vtab (tile : TileId) (e : Engine) (u : Upset)
  | vcvt (tile : TileId) (e : Engine) (u : Upset)
  | vtopk (tile : TileId) (e : Engine) (u : Upset)
  | vsample (tile : TileId) (e : Engine) (u : Upset)
  | spfft4 (tile : TileId) (e : Engine) (u : Upset)
  | spmac (tile : TileId) (e : Engine) (u : Upset)
  | spbexp (tile : TileId) (e : Engine) (u : Upset)
  | spnorm (tile : TileId) (e : Engine) (u : Upset)
  | spexp (tile : TileId) (e : Engine) (u : Upset)
  | rget (tile : TileId) (e : Engine) (u : Upset)
  | rput (tile : TileId) (e : Engine) (u : Upset)
  | rgather (tile : TileId) (e : Engine) (u : Upset)
  | rsend (tile : TileId) (e : Engine) (u : Upset)
  | rmcast (tile : TileId) (e : Engine) (u : Upset)
  -- streams, paging and the tile network
  | chunkResident (tile : TileId) (ctx : Fin 16) (u : Upset)
  | writeAcknowledged (tile : TileId) (ctx : Fin 16) (u : Upset)
  | crcHubValueWrite (u : Fin 8) (reg : CrcReg) (v : Word)
  | pageFault (tile : TileId) (ctx : Fin 16)
  | pageFaultTimeout (tile : TileId) (ctx : Fin 16)
  | pgBatchGo
  | bar2Access (off : BitVec 40) (write : Bool) (data : List Byte) (len : Nat)
  | networkPacket (src dest stop : NetStop) (fails : Nat) (load : NetLoad)
  | domainWakeComplete (row : Fin 36) (right : Bool)
  | domainGate (row : Fin 36) (right : Bool)
  | netStatSel (sel : BitVec 11)
  -- Packs, sparing and rotation
  | migrationStart (tile : TileId)
  | migrationComplete (tile : TileId) (lost : Bool)
  | knlQuarantine (site : SiteId)
  | knlRetest (site : SiteId)
  | selfTestDone (site : SiteId) (pass : Bool)
  | rotationStep
  -- HBM
  | hbmRead (a : BitVec 40) (reader : Option Nat) (errs : List UnitErr)
  | hbmWrite (a : BitVec 40) (data : List Byte) (writer : Option Nat) (errs : List UnitErr)
  | wcBufferFlush (grp : Fin 2) (errs : List UnitErr)
  | patrolRead (grp : Fin 2) (stripe : Nat) (errs : List UnitErr)
  | hbmRetireCmd (frame : BitVec 23)
  | retirementCopyDone
  | pseudoChannelFailed (stack : StackIx) (pc : Fin 32)
  | stackFailed (stack : StackIx)
  | selfRefreshEntry (stack : StackIx)
  | freqChangeDrained
  | freqChangeLocked
  | freqChangeRetrained (failed : List (StackIx × Option (Fin 32)))
  | hbmTransactionTimeout (a : BitVec 40) (owner : Option Nat)
  -- link lanes
  | lnkCfgWrite (n : LinkIx) (v : Word)
  | linkTraining (n : LinkIx) (badRx badTx : List (Fin 5)) (farMode : Bool) (t : Nat)
  | trainingStepTimeout (n : LinkIx)
  | retrainTimer (n : LinkIx)
  | codewordReceive (n : LinkIx) (c : Codeword)
  | laneWindowClose (n : LinkIx) (monitorErrs : Nat)
  | swapRequest (n : LinkIx) (lane : Fin 5)
  | swapMarker (n : LinkIx)
  | swapDone (n : LinkIx)
  | swapTimeout (n : LinkIx) (t : Nat)
  | force (n : LinkIx) (lane : BitVec 3)
  | symbolLockLoss (n : LinkIx) (lane : Fin 5)
  | linkSleep (n : LinkIx) (dir : LinkDir)
  | linkWake (n : LinkIx) (dir : LinkDir)
  -- link fabric
  | flitReceive (n : LinkIx) (vc : Fin 8) (bytes : List Byte)
  | linkAckTimeout (n : LinkIx)
  | rread (h : Header) (len : Fin 4097)
  | rwrite (h : Header) (data : List Byte)
  | rsignal (h : Header)
  | tsend (h : Header) (data : List Byte)
  | mcast (h : Header) (data : List Byte)
  | readData (h : Header) (data : List Byte)
  | ack (h : Header)
  | clear (h : Header)
  | withdraw (h : Header)
  | prune (h : Header)
  | position (h : Header) (t : Nat) (rate : Word) (hold : Bool)
  | flowTimeout (flow : BitVec 16)
  | exposureTimeout (p : PackIx)
  | pruneTimeout (group : BitVec 8) (branch : Nat)
  | lfBatchGo
  -- programmable fabric
  | hookReturnBeat (port : PortIx) (b : Beat)
  | hookError (port : PortIx) (why : HookFail)
  | portInitiatorRequest (port : PortIx) (r : PortRequest)
  | pllLockLoss (pll : Fin 32)
  | pllRelock (pll : Fin 32)
  | bankSupplyLost (bank : Fin 4)
  | bankSupplyReturn (bank level : Fin 4)
  | isolate (region : RegionIx)
  | isolateRelease (region : RegionIx)
  -- configuration, Dawn and Nightwatch
  | vauxInRange
  | vin48InRange
  | nightwatchFrame (e : FrameError)
  | nightwatchPassEnd
  | nightwatchStall
  | partialLoadGo (region : RegionIx) (source : Bool)
  | partialLoadStaged (readOk : Bool)
  | partialLoadWritten (readOk : Bool)
  | duskStandby (grace : BitVec 16)
  | duskReset (grace : BitVec 16)
  | duskGraceExpiry
  | fundamentalReset
  | moduleReset
  -- power, Leash and thermal control
  | supplyTrip (w : Supply)
  | opChangeDone
  | capUnmet
  | powerHoldAbort
  | droop (die : Fin 4)
  | powerSensorSample (sample : Int) (input : Int) (t : Nat)
  | modelMismatch
  | sensorDisagreement
  | thermalSample (r : Thermal)
  | hbmThrottle
  | energyIntervalClose (r : EnergyIn)
  -- telemetry and counters
  | metricPeriod
  | cntFreeze (mode : BitVec 2)
  | cntTagSeed (seed : BitVec 24)
  -- security and management
  | secUpdGo (kind : BitVec 2)
  | secSvnCommit
  | debugNew
  | debugSubmit
  | recoveryGo (kind : BitVec 2) (changed : Bool)
  | getVersion
  | getCapabilities (v : SpdmVersion)
  | negotiateAlgorithms (v : SpdmVersion)
  | getDigests
  | getCertificate (slot : Nat) (off : Nat) (len : Nat)
  | challenge (v : SpdmVersion) (nonce : BitVec 256)
  | getMeasurements (v : SpdmVersion) (index : Nat) (signed : Bool) (nonce : BitVec 256)
  | mctpWake
  | mctpStandby
  | mcWatchdogExpiry
  | mcRestart
  | bypass
  | idcode
  | samplePreload (preload : BitVec 96)
  | extest
  | extestPulse
  | extestTrain
  | perstNRelease
  | hubParityError
  | hookRowAccepted (port : PortIx)
  | probeEcho (t : Nat) (sent : Nat) (src : BitVec 14)
  | droopRecovered (die : Fin 4)
  | sensorSelfCheck (ok : Bool)
  | reservedStructureReinit
  deriving DecidableEq, Repr

end Sys2Proof
end

