-- ==== Sys2Proof/Decode.lean ====
section
/-! DEFINITION. The rows of the spec's table of operations carry no bits: a command has no word, and no word
spells a command. -/
namespace Sys2Proof

/-- The command that a word spells: none, for every word. -/
def decodeTableWord (_nbits _w : Nat) : Option Instr := none

end Sys2Proof
end

