-- ==== Sys2Proof/Machine/Bits.lean ====
section
/-! DEFINITION. Bit fields, sign extension and saturating counts. -/
namespace Sys2Proof.Machine

/-- The field of `len` bits at bit `lo` of a number. -/
def bits (x lo len : Nat) : Nat := x / 2 ^ lo % 2 ^ len

/-- Bit `i` of a number. -/
def bit (x i : Nat) : Bool := x / 2 ^ i % 2 == 1

/-- 1 for true. -/
def b2n (b : Bool) : Nat := if b then 1 else 0

/-- A number of `n` bits read as two's complement. -/
def signed (n x : Nat) : Int := if x < 2 ^ (n - 1) then (x : Int) else (x : Int) - 2 ^ n

/-- An integer as two's complement of `n` bits. -/
def unsigned (n : Nat) (x : Int) : Nat := (x % 2 ^ n).toNat

/-- Count up to a ceiling. -/
def sat (n x : Nat) : Nat := min x (2 ^ n - 1)

/-- Replace the field of `len` bits at `lo` of `x` by `v`. -/
def setBits (x lo len v : Nat) : Nat := x - bits x lo len * 2 ^ lo + v % 2 ^ len * 2 ^ lo

/-- Ceiling of a quotient; zero when the divisor is zero. -/
def ceilDiv (a b : Nat) : Nat := (a + b - 1) / b

/-- The bytes of a 32-bit word, low byte first (R7). -/
def wordBytes (w : Word) : List Byte :=
  [w.extractLsb' 0 8, w.extractLsb' 8 8, w.extractLsb' 16 8, w.extractLsb' 24 8]

/-- The write of `v` under byte enables `en` over `old` (R412). -/
def byteEnable (old v : Word) (en : BitVec 4) : Word :=
  let pick (i : Nat) : Word := if en.getLsbD i then (v &&& (0xFF#32 <<< (8 * i))) else (old &&& (0xFF#32 <<< (8 * i)))
  pick 0 ||| pick 1 ||| pick 2 ||| pick 3

end Sys2Proof.Machine
end

