-- ==== Sys2Proof/Machine/Table.lean ====
section
/-! DEFINITION. The sparse tables that hold everything of which the module has many: memories by byte
address, registers by BAR0 address, tiles, links, rings. A table is a list of (index, value) pairs with
strictly rising indexes; an unlisted index has the table's default. -/
namespace Sys2Proof.Machine

/-- A sparse map from indexes to values, indexes strictly rising. -/
abbrev Table (α : Type) := List (Nat × α)

/-- The value at index `k`; an index that is not listed reads as `d`. -/
def Table.get {α : Type} (d : α) : Table α → Nat → α
  | [], _ => d
  | (i, v) :: t, k => if i = k then v else Table.get d t k

/-- Write `v` at index `k`, in order. -/
def Table.put {α : Type} : Table α → Nat → α → Table α
  | [], k, v => [(k, v)]
  | (i, w) :: t, k, v =>
    if k < i then (k, v) :: (i, w) :: t
    else if k = i then (k, v) :: t
    else (i, w) :: Table.put t k v

/-- Forget index `k`. -/
def Table.erase {α : Type} : Table α → Nat → Table α
  | [], _ => []
  | (i, w) :: t, k => if i = k then Table.erase t k else (i, w) :: Table.erase t k

/-- Write `v` at index `k` and keep the canonical form: the default is never listed. -/
def Table.set {α : Type} [DecidableEq α] (d : α) (t : Table α) (k : Nat) (v : α) : Table α :=
  if v = d then Table.erase t k else Table.put t k v

/-- Change the value at index `k`. -/
def Table.modify {α : Type} (d : α) (t : Table α) (k : Nat) (f : α → α) : Table α :=
  Table.put t k (f (Table.get d t k))

/-- The indexes of a table rise strictly, and every one lies above `lo`. -/
def Table.rising {α : Type} : Option Nat → Table α → Bool
  | _, [] => true
  | none, (i, _) :: t => Table.rising (some i) t
  | some l, (i, _) :: t => decide (l < i) && Table.rising (some i) t

/-- The canonical form: rising indexes, and no entry equal to the default. -/
def Table.wf {α : Type} [DecidableEq α] (d : α) (t : Table α) : Bool :=
  Table.rising none t && t.all fun e => decide (e.2 ≠ d)

/-! ## Memories -/

/-- A memory by byte address. An address that is not listed reads as zero: tile memories and HBM are zero after Dawn (R95,
R295), and host memory has no contents in the spec (DESIGN CHOICE, log entry 3). -/
abbrev Memory := Table Byte

/-- The canonical form of a memory. -/
abbrev Memory.wf (m : Memory) : Bool := Table.wf (0 : Byte) m

/-- One byte. -/
def Memory.readByte (m : Memory) (a : Nat) : Byte := Table.get 0 m a

/-- Write one byte. -/
def Memory.writeByte (m : Memory) (a : Nat) (b : Byte) : Memory := Table.set 0 m a b

/-- `n` bytes from address `a`, lowest address first. -/
def Memory.readBytes (m : Memory) (a : Nat) : Nat → List Byte
  | 0 => []
  | n + 1 => m.readByte a :: Memory.readBytes m (a + 1) n

/-- Write a list of bytes from address `a` upwards. -/
def Memory.writeBytes (m : Memory) (a : Nat) : List Byte → Memory
  | [] => m
  | b :: bs => Memory.writeBytes (m.writeByte a b) (a + 1) bs

/-- A little-endian number of `n` bytes (R7). -/
def leNat : List Byte → Nat
  | [] => 0
  | b :: bs => b.toNat + 256 * leNat bs

/-- The `n` bytes of a number, least significant first (R7). -/
def leBytes : Nat → Nat → List Byte
  | 0, _ => []
  | n + 1, x => BitVec.ofNat 8 x :: leBytes n (x / 256)

/-- A little-endian number of `n` bytes at address `a`. -/
def Memory.readLE (m : Memory) (a n : Nat) : Nat := leNat (m.readBytes a n)

/-- Store a number in `n` bytes at address `a`, least significant byte first. -/
def Memory.writeLE (m : Memory) (a n x : Nat) : Memory := m.writeBytes a (leBytes n x)

end Sys2Proof.Machine
end

