-- ==== Sys2Proof/Machine/Crc.lean ====
section
/-! DEFINITION. The check values of the four polynomials (R234, R240), with the parameters of their published
definitions (PRESUMED, log entry 16). -/
namespace Sys2Proof.Machine
open Sys2Proof

/-- The four polynomials (R234). -/
inductive Poly where
  | crc32c | crc32 | crc64 | crc16
  deriving DecidableEq, Repr

/-- CRC_POLY (R234). -/
def polyOf : Nat → Option Poly
  | 1 => some .crc32c
  | 2 => some .crc32
  | 3 => some .crc64
  | 4 => some .crc16
  | _ => none

/-- Bytes of a finished check value (R240). -/
def Poly.bytes : Poly → Nat
  | .crc32c => 4
  | .crc32 => 4
  | .crc64 => 8
  | .crc16 => 2

/-- One bit of a reflected check value: shift right, and XOR the reflected polynomial when a one leaves. -/
def crcReflBit (poly x : Nat) : Nat := if x % 2 = 1 then Nat.xor (x / 2) poly else x / 2

/-- One bit of an unreflected check value of 64 bits. -/
def crcFwdBit (poly x : Nat) : Nat :=
  let y := x * 2 % 2 ^ 64
  if 2 ^ 63 ≤ x then Nat.xor y poly else y

/-- Apply a function `n` times. -/
def times {α : Type} (f : α → α) : Nat → α → α
  | 0, x => x
  | n + 1, x => times f n (f x)

/-- One byte of a running value, before the final XOR. -/
def crcByte (p : Poly) (x : Nat) (b : Byte) : Nat :=
  match p with
  | .crc32c => times (crcReflBit 0x82F63B78) 8 (Nat.xor (x % 2 ^ 32) b.toNat)
  | .crc32 => times (crcReflBit 0xEDB88320) 8 (Nat.xor (x % 2 ^ 32) b.toNat)
  | .crc64 => times (crcFwdBit 0x42F0E1EBA9EA3693) 8 (Nat.xor (x % 2 ^ 64) (b.toNat * 2 ^ 56))
  | .crc16 => times (crcReflBit 0x8408) 8 (Nat.xor (x % 2 ^ 16) b.toNat)

/-- A running value after a list of bytes. -/
def crcBytes (p : Poly) (x : Nat) (l : List Byte) : Nat := l.foldl (crcByte p) x

/-- The value before any byte. -/
def Poly.init : Poly → Nat
  | .crc32c => 0xFFFFFFFF
  | .crc32 => 0xFFFFFFFF
  | .crc64 => 0
  | .crc16 => 0

/-- The finished value (R240). -/
def Poly.finish : Poly → Nat → Nat
  | .crc32c, x => Nat.xor (x % 2 ^ 32) 0xFFFFFFFF
  | .crc32, x => Nat.xor (x % 2 ^ 32) 0xFFFFFFFF
  | .crc64, x => x % 2 ^ 64
  | .crc16, x => x % 2 ^ 16

end Sys2Proof.Machine
end

