-- ==== Sys2Proof/Config.lean ====
section
/-! DEFINITION. What an implementation fixes and the spec does not give: free values, and the functions of
published standards that the spec names and does not define. None has a body, so no proof can see a value. -/
namespace Sys2Proof.Config

/-- Values the spec leaves open, one for each draw (log entry 4). -/
opaque freeValue : Nat → Nat

/-- SHAKE256 of FIPS 202 with 64 bytes of output: H() of chapter 20 (log entry 12). -/
opaque shake256 : List Byte → List Byte

/-- SHA3-512 of FIPS 202, the SPDM base hash (R403). -/
opaque sha3 : List Byte → List Byte

/-- Whether an ML-DSA-65 signature of FIPS 204 over a message verifies under a public key (R399, R400). -/
opaque verify : (key msg sig : List Byte) → Bool

/-- The signature that the identity key, which is derived from SEED, makes over a message (R401, R403, R406). -/
opaque sign : BitVec 256 → List Byte → List Byte

/-- The random nonce of the n-th draw (R406). -/
opaque nonce : Nat → BitVec 256

/-- The fabric PLL that drives a global clock tree under the loaded image; 32 and above for another source (R335). -/
opaque treePll : Nat → Nat

/-- The JTAG identification code of a stepping (R407 names the instruction and gives no code). -/
opaque idcode : BitVec 8 → Nat

/-- The EVENT code of the LOG of a WAIT timeout, which R167 asks for and R384 does not list (log entry 56). -/
opaque waitTimeoutEvent : Nat

/-- The count of retries at a network stop at which the MC sends a tile's site to quarantine (R256, R270 give no number). -/
opaque stopRetryLimit : Nat

/-- What the frames of a column and band make of a logic cell: its LUT, and its registers and carry as they start (R332,
R344; R334 gives the frames no layout: log entry 129). -/
opaque cellTable : List (BitVec 4096) → Nat → BitVec 64
opaque cellImage : List (BitVec 4096) → Nat → BitVec 3

/-- And of a RAM block: its organisation, whether SEC-DED is enabled, and its words as they start (R332, R333, R344). -/
opaque ramMode : List (BitVec 4096) → Nat → Nat
opaque ramEcc : List (BitVec 4096) → Nat → Bool
opaque ramImage : List (BitVec 4096) → Nat → Nat → BitVec 72

/-- The boot ROM's contents, the first component of the boot chain (R402). -/
opaque bootRom : List Byte

end Sys2Proof.Config
end

