-- ==== Sys2Proof/Machine/StateHub.lean ====
section
/-! DEFINITION. The state of the hub: event tick, cadence unit, cues, staged commit, rings, descriptors and
the Muzzle (chapters 02, 03, 04 and 21). -/
namespace Sys2Proof.Machine
open Sys2Proof

/-- The event tick (R31, R59, R72). Times are nanoseconds since the end of Dawn. -/
structure TickSt where
  /-- TICK_COUNT -/
  count : Nat := 0
  /-- time of the last tick edge -/
  now : Nat := 0
  /-- time at which the next tick is due -/
  next : Nat := 1000
  deriving DecidableEq, Repr

/-- CAD_STATUS.STATE (R35, R59). -/
inductive CadState where
  | acquire | locked | coasting | fault
  deriving DecidableEq, Repr

/-- What the tracking loop knows of its source (R36 to R43). -/
structure CadTrack where
  /-- the last accepted source position, 40.24, less CAD_BASE -/
  lastPos : Nat := 0
  /-- when that position applied, ns -/
  lastAt : Nat := 0
  /-- expected period of one source event, ns; 0 while none is known -/
  period : Nat := 0
  /-- estimated rate: `num / den` units of 2^-24 cycle per ns -/
  num : Nat := 0
  den : Nat := 0
  /-- mean rate of the last interval between source events, in the same units; none before the first -/
  meanNum : Nat := 0
  meanDen : Nat := 0
  /-- progress towards the lock condition of R36 -/
  lockCount : Nat := 0
  /-- time of the last index pulse or whole cycle -/
  runAt : Nat := 0
  /-- SEQ of the last frame (R38) -/
  seq : Option Byte := none
  /-- CYC_IN edges counted within the cycle (R40) -/
  edges : Nat := 0
  /-- quadrature count since the index (R39) -/
  encCount : Int := 0
  /-- whole cycles of the ENCODER and CYCLE sources -/
  cycles : Nat := 0
  /-- the tick at which COASTING began, ns -/
  coastAt : Nat := 0
  /-- one-way link latency measured, ns (R41, R324) -/
  latency : Nat := 0
  /-- time the round-trip probe was sent -/
  probeAt : Option Nat := none
  deriving DecidableEq, Repr

/-- The cadence unit (R35 to R49, R59). -/
structure CadSt where
  state : CadState := .locked
  /-- CAD_STATUS.STATE: the state at the last tick edge (R31) -/
  shown : CadState := .locked
  /-- CAD_POS: the position sampled at the last tick; it is frozen in FAULT and held in ACQUIRE -/
  pos : Nat := 0
  loss : Bool := false
  jumpBack : Bool := false
  jumpFwd : Bool := false
  range : Bool := false
  upstreamHold : Bool := false
  faultPos : Nat := 0
  tcCrc : Nat := 0
  glitch : Nat := 0
  base : Nat := 0
  /-- the next CADENCE_SET is a seed (R42) -/
  seed : Bool := true
  /-- the next lock follows a RANGE fault and re-seeds to zero (R49) -/
  zeroSeed : Bool := false
  /-- a source value below its predecessor arrived since the last tick (R45) -/
  backSeen : Bool := false
  /-- a source value too far above the reported position arrived since the last tick (R45) -/
  fwdSeen : Bool := false
  /-- a source value reached the fault position of R49 since the last tick -/
  rangeSeen : Bool := false
  /-- the LOG of R49 was raised for the crossing the position is past -/
  nearLogged : Bool := false
  /-- the position was re-seeded since the last tick and may fall (R35, R47) -/
  reseeded : Bool := false
  track : CadTrack := {}
  deriving DecidableEq, Repr

/-- An entry of a cue list (R55). -/
structure CueEntry where
  pos : Nat
  cue : CueIx
  level : Bool
  onValid : Bool
  pulse : Nat
  deriving DecidableEq, Repr

/-- A scheduled cue action (R56): its order of R56 and what is left to do. -/
structure CueAction where
  pack : Nat
  ring : Nat
  desc : Nat
  entry : Nat
  act : CueEntry
  /-- the ON_VALID condition is met: a record marking the outputs valid was written -/
  armed : Bool
  /-- the return of a pulse: the tick at which it is due and the level it restores -/
  ret : Option (Nat × Bool)
  deriving DecidableEq, Repr

/-- The cue unit (R54, R56, R59). -/
structure CueSt where
  level : BitVec 16 := 0
  conflicts : Nat := 0
  actions : List CueAction := []
  /-- Pack and descriptor that last drove each cue (R21) -/
  owner : Table (Nat × Nat) := []
  /-- cues that have acted at this tick (R56) -/
  acted : List Nat := []
  deriving DecidableEq, Repr

/-- A commit unit: COMMIT_STATUS and the requests that wait for the next tick (R417 to R419, R414). -/
structure CommitSt where
  /-- STATE: 0 idle, 1 pending, 2 applied, 3 refused -/
  state : BitVec 2 := 0
  group : BitVec 5 := 0
  merged : Bool := false
  check : BitVec 8 := 0
  fn : BitVec 6 := 0
  request : Word := 0
  discard : Word := 0
  deriving DecidableEq, Repr

/-- COMMIT_STAGED, COMMIT_TICK and COMMIT_COUNT (R419), and the VFs' commit units. -/
structure Commits where
  pf : CommitSt := {}
  vf : Table CommitSt := []
  staged : Word := 0
  tick : Nat := 0
  applied : Nat := 0
  refused : Nat := 0
  deriving DecidableEq, Repr

/-- A descriptor read that has been issued and has not arrived (R68, R83). -/
structure FetchRead where
  id : Nat
  slot : Nat
  /-- completion ring bound at the fetch (R64) -/
  cq : Nat
  /-- tick at which the doorbell was sampled -/
  tick : Nat
  /-- bus address of the slot -/
  addr : Nat
  deriving DecidableEq, Repr

/-- What the Shepherd keeps for one ring entry (R64, R68, R83, R86, R94). -/
structure RingSt where
  head : Nat := 0
  tailSeen : Nat := 0
  /-- fetching stopped until the ring is disabled and enabled again (R68, R71) -/
  stopped : Bool := false
  overrun : Bool := false
  fetchError : Bool := false
  headError : Bool := false
  epoch : BitVec 16 := 0
  /-- CQ_TAIL: records written since the completion ring was enabled -/
  tail : Nat := 0
  /-- the head word last read: records consumed (R83) -/
  consumed : Nat := 0
  /-- slots reserved by fetched descriptors -/
  reserved : Nat := 0
  /-- tick at which the head word was last read -/
  headRead : Option Nat := none
  /-- p and the tick of the first pending record (R86) -/
  pend : Nat := 0
  pendAt : Nat := 0
  /-- a record with another status than OK or LATE was written in this tick -/
  errNow : Bool := false
  reads : List FetchRead := []
  /-- HEAD changed in this tick: a head write-back is due -/
  headMoved : Bool := false
  deriving DecidableEq, Repr

/-- What the module keeps for one function beside its registers (R30, R69 to R71, R87). -/
structure FnSt where
  atomicFallback : Bool := false
  /-- in sweep mode until the next applied G1 commit (R69) -/
  sweeping : Bool := false
  summaryError : Bool := false
  genIgnored : Nat := 0
  /-- SHP_MZ_CTRL_STATUS.RESULT -/
  mzResult : BitVec 2 := 0
  /-- the function's vectors whose MSI-X pending bit is set -/
  msixPending : List Nat := []
  deriving DecidableEq, Repr

/-- Where a fetched descriptor stands (R9, R89, R90). -/
inductive DPhase where
  /-- its parameter block is being read from a HOST or PEER page (R77) -/
  | reading
  /-- it failed a check and its record is due at the next tick -/
  | rejected
  /-- it passed its checks and the next tick handles it as a new submission -/
  | arrived
  /-- it has passed its checks and is not dispatched -/
  | waiting
  | running
  /-- all of its engines have completed, and the next tick samples it -/
  | finished
  /-- it issues nothing further and waits for its last transaction (R90, R21) -/
  | ending
  /-- ended, its record not written -/
  | ended
  /-- a LOOP between iterations whose record waits for space (R17) -/
  | parked
  | recorded
  deriving DecidableEq, Repr

/-- A submission descriptor as read from its slot (R73). -/
structure Fields where
  cls : Byte := 0
  version : Byte := 2
  pack : Byte := 0
  paramSize : Nat := 0
  job : Word := 0
  flags : Word := 0
  program : DWord := 0
  param : DWord := 0
  start : Nat := 0
  deadline : Nat := 0
  output : DWord := 0
  tag : DWord := 0
  /-- a byte or bit that R73 reserves is not zero -/
  reservedSet : Bool := false
  deriving DecidableEq, Repr

/-- What has happened to a descriptor while it ran (R82, R150, R163, R323, R379). -/
structure DRun where
  startPos : Nat := 0
  /-- START position sampled at dispatch of the first iteration -/
  iter : Nat := 0
  tainted : Bool := false
  overflow : Bool := false
  invalid : Bool := false
  replayed : Bool := false
  /-- the replay has matched (R82) -/
  matched : Bool := false
  /-- that replay is a whole replay (R113) -/
  whole : Bool := false
  deferred : Bool := false
  /-- energy charged so far, pJ (R379) -/
  energy : Nat := 0
  /-- link flows the descriptor sent data on, a group as 65,536 and its number, with the token (R26) -/
  flows : List (Nat × Nat) := []
  /-- data has left on one of them (R113) -/
  sentData : Bool := false
  /-- it has performed a cue action (R113) -/
  cueActed : Bool := false
  deriving DecidableEq, Repr

/-- A fetched descriptor. -/
structure Desc where
  id : Nat
  fn : Fn
  ring : RingIx
  slot : Nat
  cq : Nat
  /-- tick at which its doorbell was sampled -/
  tick : Nat
  f : Fields
  classWord : DWord := 0
  cues : List CueEntry := []
  phase : DPhase := .waiting
  /-- first tick at which the record of a rejected descriptor may be written (R9, R77) -/
  due : Nat := 0
  /-- the status decided so far -/
  status : Nat := 0
  noTarget : Bool := false
  undispatched : Bool := true
  /-- it holds a reserved slot of its completion ring -/
  slotHeld : Bool := true
  /-- ended by a function-level reset: no record is written (R62) -/
  silent : Bool := false
  /-- its program's completion has been sampled and its outcome sent (R152, R323) -/
  outcome : Option Nat := none
  /-- this record of a LOOP is its last (R14) -/
  loopEnd : Bool := true
  /-- the CANCEL's targets whose records it waits for (R91) -/
  targets : List Nat := []
  run : DRun := {}
  deriving DecidableEq, Repr

/-- A Muzzle scope (R24, R30). -/
structure MzScope where
  active : Bool := false
  cause : Nat := 0
  count : Nat := 0
  /-- causes that have triggered since entry (R29) -/
  seen : List Nat := []
  /-- causes whose once-for-all condition of R29 has been met since their last trigger -/
  met : List Nat := []
  causeClear : Bool := false
  deriving DecidableEq, Repr

/-- The scope of a trigger or a release (R21). -/
inductive Scope where
  | module
  | pack (p : PackIx)
  | region (r : RegionIx)
  deriving DecidableEq, Repr

/-- A trigger that the next tick handles in class 1 (R22, R24). -/
structure Trigger where
  scope : Scope
  cause : Nat
  deriving DecidableEq, Repr

/-- The Muzzle (R20 to R30). -/
structure Muzzle where
  module : MzScope := {}
  packs : Table MzScope := []
  regions : Table MzScope := []
  triggers : List Trigger := []
  /-- accepted releases and the functions that asked -/
  releases : List (Scope × Fn) := []
  /-- conditions of R29 met after a trigger that the next tick handles -/
  early : List Trigger := []
  deriving DecidableEq, Repr

/-- What outlives a Dawn (R27): the Muzzles in force, but no trigger and no release that waits for a tick. -/
def Muzzle.kept (m : Muzzle) : Muzzle := { module := m.module, packs := m.packs, regions := m.regions }

/-- The Shepherd: everything about rings and descriptors (chapter 04). -/
structure Shepherd where
  fns : Table FnSt := []
  /-- by 1024 × function + local ring -/
  rings : Table RingSt := []
  /-- in fetch order, until their records are written -/
  descs : List Desc := []
  nextId : Nat := 0
  deriving DecidableEq, Repr

end Sys2Proof.Machine
end

