-- ==== Sys2Proof/Machine/StateIo.lean ====
section
/-! DEFINITION. The state of the module's edges: links and the link fabric, the programmable fabric and its
configuration, power, telemetry and counters, security and management (chapters 14 to 20). -/
namespace Sys2Proof.Machine
open Sys2Proof

/-! ## Links -/

/-- State of a direction of a link (R303). -/
inductive LnkState where
  | off | train | up | swap | sleep | wake | down | fused
  deriving DecidableEq, Repr

/-- One link (R299 to R311, R331). -/
structure LinkSt where
  tx : LnkState := .train
  rx : LnkState := .train
  monitorBad : Bool := false
  clockMismatch : Bool := false
  retrains : Nat := 0
  /-- successive failed trainings (R304) -/
  failures : Nat := 0
  /-- waiting for ENABLE to be written 0 and then 1 (R304) -/
  parked : Bool := false
  /-- receive and transmit lane maps (R309) -/
  rxMap : BitVec 15 := 0x4688
  txMap : BitVec 15 := 0x4688
  /-- LNK_CFG as in effect, and the write that takes effect at the next tick -/
  cfg : Word := 1
  cfgDue : Option Word := none
  thresh : BitVec 16 := 0x0500
  idle : BitVec 16 := 0x0032
  pattern : Bool := false
  prbsErr : Nat := 0
  uncorr : Nat := 0
  swaps : Nat := 0
  downs : Nat := 0
  deriving DecidableEq, Repr

/-- A data flit that the far end has not acknowledged (R311): its number, virtual channel and payload, and how often it
has been resent. -/
structure RetryFlit where
  fseq : BitVec 10
  vc : Nat
  payload : List Byte
  resent : Nat := 0
  deriving DecidableEq, Repr

/-- The running measurements of one link: the open 1 ms window, the closed one and the swap under way
(R305, R306), its lanes (R298 to R302), and its link layer (R310 to R312). -/
structure LinkMeas where
  /-- errors in the open window by physical lane -/
  errs : List Nat := [0, 0, 0, 0, 0]
  /-- LNK_LANE_ERR -/
  closed : List Nat := [0, 0, 0, 0, 0]
  windowUncorr : Nat := 0
  /-- the window overlaps a sleep and is discarded -/
  slept : Bool := false
  /-- physical lane named by a swap in progress, receive and transmit side -/
  swapRx : Option Nat := none
  swapTx : Option Nat := none
  /-- FORCE write waiting for the next tick -/
  forceDue : Option Nat := none
  swapTimeouts : List Nat := []
  /-- elastic buffer fill in blocks (R302), fillers deleted, and gaps passed to the link layer -/
  fill : Nat := 0
  deleted : Nat := 0
  gaps : Nat := 0
  /-- last precoded symbol of each physical lane as received (R298) -/
  rxPre : List (BitVec 2) := [0, 0, 0, 0, 0]
  /-- what this end has sent since training, in picoseconds of codewords; alignment markers and fillers among it, and a
  marker that fell due in SWAP (R300, R302, R308) -/
  txPs : Nat := 0
  txMarkers : Nat := 0
  txFillers : Nat := 0
  markerDue : Bool := false
  /-- next flit expected, next to send, last acknowledged (R311) -/
  rxSeq : BitVec 10 := 0
  txSeq : BitVec 10 := 0
  txAcked : BitVec 10 := 0
  /-- the retry buffer: data flits sent and not acknowledged, oldest first -/
  retry : List RetryFlit := []
  /-- bytes of transactions that have been given to the link and are in no flit yet, by virtual channel -/
  streams : Table (List Byte) := []
  /-- time of the last acknowledgement, or of the first flit since there was none to wait for -/
  ackAt : Nat := 0
  /-- what the next flit has to tell: a NAK, an acknowledgement, and link credits by virtual channel (R310, R315) -/
  nakDue : Bool := false
  ackDue : Bool := false
  creditDue : List Nat := [0, 0, 0, 0, 0, 0, 0, 0]
  /-- the last flit sent was a hold idle (R312) -/
  holdSent : Bool := false
  /-- bytes received of a transaction that is not whole yet -/
  rxTail : List Byte := []
  resent : Nat := 0
  crcFails : Nat := 0
  flitsTx : Nat := 0
  flitsRx : Nat := 0
  /-- link credits held for each virtual channel (R315) -/
  credits : List Nat := [64, 64, 64, 64, 64, 64, 64, 64]
  heldFar : Bool := false
  deriving DecidableEq, Repr

/-- A type of link transaction (R319), and the latency probe of R324. -/
inductive TxType where
  | rread | rwrite | rsignal | tsend | mcast | readData | ack | clear | withdraw | prune | position | probe
  deriving DecidableEq, Repr

/-- A request of this module that is not acknowledged (R316). `first` is the tick at which it was first sent;
a request that waits for credit, a path or space has none, and has no SEQ. -/
structure LinkReq where
  id : Nat
  type : TxType
  flow : Nat
  link : Option Nat := none
  /-- the link of its branch, for a multicast -/
  via : Option Nat := none
  seq : Option Nat := none
  /-- tick at which it was issued -/
  issued : Nat
  first : Option Nat := none
  /-- the descriptor, tile and engine that issued it, and the instruction -/
  desc : Option Nat
  tile : Nat
  engine : Nat
  pc : Nat
  word : QWord
  /-- stream context that waits for it, and the chunk -/
  ctx : Option (Nat × Nat) := none
  /-- the place within the chunk -/
  seg : Nat := 0
  target : Nat
  /-- bytes asked for by an RREAD -/
  len : Nat := 0
  data : List Byte := []
  token : Nat
  comb : Nat := 0
  fwd : Option Nat := none
  deriving DecidableEq, Repr

/-- A control message given to the link layer since the last tick edge: its type, the device it goes to (for one on a
branch of a group, the link), the flow (65,536 and its number for a group), the sequence number, token or offset it
names, and its status. A POSITION's value is the position and, from bit 64 on, the rate; its status is HOLD. -/
structure OutMsg where
  type : TxType
  dest : Nat
  flow : Nat
  value : Nat
  status : Nat
  deriving DecidableEq, Repr

/-- A transaction on its way through this module or along a multicast tree: where it comes from and goes to, its source
flow and virtual channel, the link of a branch, and its bytes (R313, R318, R326). -/
structure Transit where
  src : Nat
  dest : Nat
  flow : Nat
  vc : Nat
  via : Option Nat := none
  bytes : List Byte
  deriving DecidableEq, Repr

/-- A control block or marker codeword that has left on a link since the last tick edge (R300, R305, R307). -/
inductive LaneMsg where
  | swapRequest (lane : Nat)
  | swapMarker
  | swapDone
  | alignment (count : Nat)
  | sleepMarker
  deriving DecidableEq, Repr

/-- What an inbound flow has received (R316). -/
structure InFlow where
  expected : Nat := 0
  /-- status given to each accepted request, newest first, for duplicates -/
  answered : List (Nat × Nat) := []
  deriving DecidableEq, Repr

/-- What an outbound flow has sent (R315, R316). -/
structure OutFlow where
  nextSeq : Nat := 0
  credits : Option Nat := none
  deriving DecidableEq, Repr

/-- Data that a sender's token has written here (R322, R323). -/
structure Exposure where
  device : Nat
  token : Nat
  pack : Nat
  /-- the descriptor exposed; none while no descriptor has been dispatched since the data arrived -/
  desc : Option Nat
  /-- spans written: tile index and store address, or none and HBM address, and the length -/
  spans : List (Option Nat × Nat × Nat)
  cleared : Bool
  /-- multicast group it came on -/
  group : Option Nat
  /-- JOB_ID of the exposed descriptor, once its record is written (R323) -/
  job : Option Word := none
  deriving DecidableEq, Repr

/-- A multicast group in progress at this node (R325, R326): per branch the acknowledged offset, the ticks it
has lagged and whether it is pruned. -/
structure Branch where
  ix : Nat
  acked : Nat
  lag : Nat
  pruned : Bool
  deriving DecidableEq, Repr

/-- A group's running state. -/
structure GroupRun where
  sent : Nat := 0
  total : Nat := 0
  branches : List Branch := []
  delivered : Nat := 0
  /-- bytes to send that no branch has been sent: their tile-store address at the receivers -/
  parts : List (Nat × List Byte) := []
  /-- a drain still adds rows (R213); semaphores to signal once the bytes before an offset are acknowledged -/
  more : Bool := false
  sigs : List (Nat × Nat) := []
  /-- at the root: tile and, for an RMCAST, its stream context; the descriptor and its TOKEN -/
  owner : Option (Nat × Option Nat) := none
  desc : Option Nat := none
  token : Nat := 0
  /-- identifier of the root -/
  root : Nat := 0
  deriving DecidableEq, Repr

/-- The route, flow and group tables (R314, R317, R325). -/
structure LinkTables where
  routes : Table DWord := []
  flows : Table DWord := []
  /-- 24 bytes each -/
  groups : Table (BitVec 192) := []
  deriving DecidableEq, Repr

/-- What has arrived for a tile and waits: a transaction from a link, with LEN and its data, or a signal, with the Pack of
its sender. -/
inductive Inbound where
  | tx (type : TxType) (h : Header) (len : Nat) (data : List Byte)
  | signal (tile : TileId) (sem inc : Nat) (pack : Option Nat)
  deriving DecidableEq, Repr

/-- The link fabric (chapter 15). -/
structure LinkFabric where
  /-- what waits for a tile that sleeps or moves, or for HBM, in the order of arrival (R257, R266, R293) -/
  inbound : List Inbound := []
  active : LinkTables := {}
  staged : LinkTables := {}
  /-- tokens withdrawn: device and token (R323) -/
  withdrawn : List (Nat × Nat) := []
  /-- entries that the MC has reweighted (R318) -/
  rerouted : Table DWord := []
  rerouteDue : Bool := false
  inFlows : Table InFlow := []
  outFlows : Table OutFlow := []
  reqs : List LinkReq := []
  nextReq : Nat := 0
  out : List OutMsg := []
  /-- messages that no link has taken yet, transactions that pass through, flits and control blocks that have left
  since the last tick edge -/
  wait : List OutMsg := []
  transit : List Transit := []
  flits : List (Nat × List Byte) := []
  lanesOut : List (Nat × LaneMsg) := []
  /-- links that lookups may choose: a loss excludes one from the tick that samples it (R318) -/
  usable : List Nat := []
  exposures : List Exposure := []
  groups : Table GroupRun := []
  pruneLo : Table Word := []
  pruneHi : Table Word := []
  batch : BitVec 2 := 0
  busyWrite : Bool := false
  readError : Bool := false
  index : Nat := 0
  linkLost : Nat := 0
  prunes : Nat := 0
  /-- data bytes of READ_DATA answers this module has sent since the last tick -/
  answers : List (Nat × Nat × List Byte) := []
  deriving DecidableEq, Repr

/-- All links. -/
structure Links where
  links : Table LinkSt := []
  meas : Table LinkMeas := []
  fabric : LinkFabric := {}
  deriving DecidableEq, Repr

/-! ## Programmable fabric and its configuration -/

/-- STATE of a region (R343, R347). -/
inductive RegionState where
  | active | isolated | blank | loading
  deriving DecidableEq, Repr

/-- One region. -/
structure RegionSt where
  st : RegionState := .active
  /-- ISOLATE written and not yet in effect -/
  isolateDue : Option Bool := none
  /-- the tick at which its Muzzle isolated it (R346) -/
  mzTick : Nat := 0
  /-- it was ACTIVE when its Muzzle isolated it, and nothing has loaded it since: the release ends the isolation (R343) -/
  byMuzzle : Bool := false
  /-- descriptors that its Muzzle ended, whose records its release waits for (R28) -/
  ended : List Nat := []
  deriving DecidableEq, Repr

/-- Rows of a drain on their way to the tile store: where the first goes, and how far apart they lie. -/
structure DrainBlock where
  dst : Nat
  stride : Nat
  rows : List (List Byte)
  deriving DecidableEq, Repr

/-- A hook in progress on a port (R339, R340): its number, the waiting instruction and the rows, block by block; the
hook of a later block has the next number. -/
structure HookSt where
  number : Nat
  tile : Nat
  engine : Engine
  desc : Nat
  pc : Nat
  word : QWord
  /-- 0 prologue, 1 epilogue tap, 2 epilogue through -/
  kind : Nat
  fmt : Nat
  blocks : List DrainBlock
  /-- rows of a block, and rows in all -/
  perBlock : Nat
  rows : Nat
  /-- return size of each row in bytes, before padding to beats -/
  rowBytes : Nat
  accepted : Nat := 0
  /-- rows returned, and the bytes so far of the row being returned -/
  back : List (List Byte) := []
  partialRow : List Byte := []
  deriving DecidableEq, Repr

/-- An initiator request under way (R342): its parts, none for one that a peer has yet to answer. -/
structure PortAsk where
  id : Nat
  parts : List (Option (List Byte))
  deriving DecidableEq, Repr

/-- One fabric port (R339, R347). -/
structure PortSt where
  overrun : Bool := false
  errors : Nat := 0
  hooks : List HookSt := []
  nextHook : Nat := 0
  /-- FLUSH raised since the last tick -/
  flush : Bool := false
  /-- answer to the last initiator request: none in error (R342) -/
  answer : Option (List Byte) := none
  /-- what user logic has asked for and has no answer yet, and requests that wait for a tracker or for HBM -/
  asks : List PortAsk := []
  nextAsk : Nat := 0
  waiting : List PortRequest := []
  /-- numbers modulo 16 of abandoned hooks, whose late return beats are discarded (R340) -/
  flushed : List Nat := []
  deriving DecidableEq, Repr

/-- A logic cell's two registers and its carry bit (R332). -/
structure CellSt where
  q0 : Bool
  q1 : Bool
  carry : Bool
  deriving DecidableEq, Repr

/-- What the last read at a port of a RAM block gave, and whether a double-bit error was flagged (R333). -/
structure RamOut where
  data : Nat
  flag : Bool
  deriving DecidableEq, Repr

/-- The registers at both ends of a seam channel (R332). -/
structure SeamSt where
  launch : BitVec 1024 := 0
  capture : BitVec 1024 := 0
  deriving DecidableEq, Repr

/-- What user logic holds: cells and RAM words that it has changed since their image was loaded, bits that the world has
flipped in RAM words, by block × 512 + word, RAM outputs by block × 2 + port, and seams by source × 4 + destination. -/
structure LogicSt where
  cells : Table CellSt := []
  words : Table (BitVec 72) := []
  flips : Table (BitVec 72) := []
  outs : Table RamOut := []
  seams : Table SeamSt := []
  deriving DecidableEq, Repr

/-- GPIO banks, pins' levels, PLLs and interrupt lines (R336 to R338, R345). -/
structure FabricSt where
  regions : Table RegionSt := []
  ports : Table PortSt := []
  bankPresent : BitVec 4 := 0xF
  bankMismatch : BitVec 4 := 0
  bankLost : BitVec 4 := 0
  gpioIn : BitVec 96 := 0
  pllLost : Word := 0
  /-- PLLs without lock now -/
  pllDown : Word := 0
  irqPend : BitVec 64 := 0
  outReleased : Bool := true
  writeEn : Bool := true
  resetReleased : Bool := true
  globalClk : Bool := true
  logic : LogicSt := {}
  deriving DecidableEq, Repr

/-- A partial load in progress (R359). -/
structure PartialLoad where
  region : RegionIx
  source : Bool
  image : List Byte
  /-- 0 requested, 1 staged and verified, 2 writing -/
  step : Nat
  deriving DecidableEq, Repr

/-- Configuration, Nightwatch and the NV store's counters (chapter 17). -/
structure ConfigSt where
  dawnStep : BitVec 4 := 8
  settingsDefaulted : Bool := false
  imageBad : Bool := false
  dawnOrder : BitVec 3 := 0
  releaseGap : Byte := 16
  /-- configuration memory by frame address (R334); unlisted frames are the blank frame -/
  frames : Table (BitVec 4096) := []
  load : Option PartialLoad := none
  plState : BitVec 2 := 0
  plResult : BitVec 4 := 0
  plBusyWrite : Bool := false
  plFault : Nat := 0
  plFaultRec : Nat := 0
  /-- the image's regions, in the layout of FAB_REGION_LO, and its golden digest (R352, R357); none for the image of
  `State.reset`, whose digest agrees (log entry 1) -/
  imageRegions : List Nat := []
  staticDigest : Option (List Byte) := none
  /-- last verified partial image of each region (R359) -/
  lastImage : Table (List Byte) := []
  nwRunning : Bool := true
  /-- NW_CTRL as the present pass follows it, and the frame that Nightwatch reads next; none when all are read -/
  nwCtrl : Word := 0x28
  nwNext : Option Nat := some 0
  /-- regions that a stall is to Muzzle once their load completes (R362) -/
  nwStalled : List Nat := []
  nwUnprotected : Bool := false
  nwDigestFail : Bool := false
  nwPasses : Nat := 0
  nwFrames : Nat := 0
  nwCorr : Nat := 0
  nwUncorr : Nat := 0
  nwVote : Nat := 0
  nwLast : Word := 0
  deriving DecidableEq, Repr

/-- The NV store (R348, R349): the areas' contents that the T96 itself uses. -/
structure NvSt where
  firmware : List Byte := []
  image : List Byte := []
  imageOk : Bool := true
  firmwareOk : Bool := true
  retiredSites : Table Nat := []
  /-- FAULTS of the sites, by PROW × 32 + PCOL (R276) -/
  siteFaults : Table Nat := []
  retiredFrames : Table Nat := []
  failedStacks : Table Bool := []
  failedPcs : Table Word := []
  spares : Nat := 128
  replaced : Nat := 0
  refreshes : Nat := 0
  /-- logical blocks that have failed with no spare left (R349) -/
  worn : List Nat := []
  /-- black-box log records, newest first -/
  log : List (List Byte) := []
  certificate : List Byte := []
  deriving DecidableEq, Repr

/-- What Dusk is doing (R361). -/
structure DuskSt where
  /-- 0 none, 1 requested, 2 draining, 3 holding -/
  step : Nat := 0
  grace : Nat := 0
  /-- tick at which step 1 took effect -/
  since : Nat := 0
  thenReset : Bool := false
  deriving DecidableEq, Repr

/-- Where the module is in its life (R354, R361, R405). -/
inductive Power where
  | off | standby | dawnHeld | running | recovery | thermalOff
  deriving DecidableEq, Repr

/-! ## Power -/

/-- Leash (chapter 18). Times in ns, power in watts. -/
structure LeashSt where
  /-- point in effect, and the point of the current rung (R365) -/
  op : Nat := 5
  want : Nat := 5
  /-- issue duty in sixteenths (R367) -/
  duty : Nat := 16
  stall : Bool := false
  throttle : Bool := false
  capUnmet : Bool := false
  modelMismatch : Bool := false
  sensorSuspect : Bool := false
  changing : Bool := false
  capSeen : Bool := false
  mismatchSeen : Bool := false
  suspectSeen : Bool := false
  /-- estimate, output-side and input-side measurement at the last tick -/
  estimate : Nat := 0
  measure : Nat := 0
  input : Nat := 0
  /-- enforced power (R368), in units of 1/4 W -/
  p4 : Nat := 0
  tj : Nat := 25
  stackList : List Nat := []
  stalls : Nat := 0
  droops : Nat := 0
  /-- dies whose clock is stretched (R371) -/
  stretch : BitVec 4 := 0
  deriving DecidableEq, Repr

/-- Leash's timers and averages (R368 to R375). -/
structure LeashTime where
  /-- p at each tick of the last 10 ms: end of the tick, its length and p4, newest first -/
  history : List (Nat × Nat × Nat) := []
  /-- ns since the last step down and up -/
  sinceDown : Nat := 0
  sinceUp : Nat := 0
  /-- avg_10ms has exceeded the limit at the floor since, and has been within it since -/
  overSince : Option Nat := none
  underSince : Option Nat := none
  stallAt : Option Nat := none
  mismatchSince : Option Nat := none
  matchSince : Option Nat := none
  /-- no condition of R373 has held since -/
  goodSince : Option Nat := none
  /-- the 15 % difference of R373 and the excess of R374 have held since -/
  diffSince : Option Nat := none
  excessSince : Option Nat := none
  /-- the latest samples, watts: the output-side sum, and the input side less the calibrated regulator loss -/
  lastSample : Option Int := none
  lastInput : Option Int := none
  /-- an output-side or input-side sample failed its check since the last tick -/
  sampleBad : Bool := false
  inputBad : Bool := false
  selfCheckBad : Bool := false
  /-- in some site no two sensors have agreed since (R374) -/
  thermalSince : Option Nat := none
  /-- supplies, temperature, sensors and power have been inside their limits since (R29) -/
  supplyOkSince : Nat := 0
  tempOkSince : Nat := 0
  sensorsOkSince : Nat := 0
  powerOkSince : Nat := 0
  /-- a stack has been above HBM_THROTTLE since; every stack 10 °C below it since (R375) -/
  hotSince : Option Nat := none
  coolSince : Option Nat := none
  lastThrottle : Option Nat := none
  /-- frequency change that Leash orders at the next class 2: the point -/
  hbmOrder : Option (BitVec 2) := none
  alarmOver : Bool := false
  deriving DecidableEq, Repr

/-- Energy accounting (R378 to R380). -/
structure EnergySt where
  /-- LEASH_E_TOTAL, _CHARGED, µJ, as of the last close -/
  total : Nat := 0
  charged : Nat := 0
  suspect : Nat := 0
  /-- measured and charged since Dawn, pJ -/
  totalPj : Nat := 0
  chargedPj : Nat := 0
  /-- k of the last closed interval as a ratio, and when the open interval began -/
  kNum : Nat := 1
  kDen : Nat := 1
  openedAt : Nat := 0
  /-- ns of the open interval for which each Pack's present descriptor has occupied it -/
  occ : Table Nat := []
  /-- activity of each Pack in the open interval that provisional charges have counted (R379) -/
  spent : Table Nat := []
  deriving DecidableEq, Repr

/-! ## Telemetry and counters -/

/-- Class of a telemetry record (R383). -/
inductive TelClass where
  | alarm | log | trace | metric
  deriving DecidableEq, Repr

/-- An event that waits to become a telemetry record in class 7 (R385), or an ALARM in a path's table. -/
structure TelEvent where
  cls : TelClass
  code : Nat
  inst : Nat
  seq : Nat
  tick : Nat
  count : Nat
  last : Nat
  payload : List Byte
  deriving DecidableEq, Repr

/-- One telemetry path (R385 to R389). -/
structure PathSt where
  /-- alarms that wait, oldest first -/
  alarms : List TelEvent := []
  /-- token bucket, 10^-9 of a record, and when it was last filled, ns -/
  tokens : Nat := 256000000000
  tokensAt : Nat := 0
  dropped : Nat := 0
  /-- drops since the last delivered LOG -/
  sinceLog : Nat := 0
  metrics : List TelEvent := []
  deriving DecidableEq, Repr

/-- The telemetry router (R383 to R389, R396). -/
structure Telemetry where
  pend : List TelEvent := []
  seqAlarm : Nat := 0
  seqLog : Nat := 0
  seqTrace : Nat := 0
  seqMetric : Nat := 0
  host : PathSt := {}
  mctp : PathSt := {}
  nv : PathSt := {}
  ringTail : Nat := 0
  ringHead : Nat := 0
  ringPend : Nat := 0
  ringPendAt : Nat := 0
  ringAlarm : Bool := false
  traceNext : Nat := 0
  traceAck : Nat := 0
  traceOver : Nat := 0
  traceDrop : Nat := 0
  metricDrop : Nat := 0
  /-- TICK_COUNT at which METRIC records were last generated (R389) -/
  metricAt : Option Nat := none
  /-- records that wait for the MC, and those it has carried since the last tick -/
  mctpQueue : List (List Byte) := []
  mctpOut : List (List Byte) := []
  deriving DecidableEq, Repr

/-- One counter (R390, R391). -/
structure Counter where
  cfg : Word := 0
  val : Nat := 0
  deriving DecidableEq, Repr

/-- One counter unit (R390, R394). -/
structure CntUnit where
  frozen : Bool := false
  ovf : Word := 0
  ctrs : Table Counter := []
  deriving DecidableEq, Repr

/-- An instruction sample (R393): where the tagged instruction issued, and for which descriptor. -/
structure Sample where
  site : Nat
  engine : Nat
  opcode : Nat
  pc : Nat
  job : Nat
  desc : Nat
  deriving DecidableEq, Repr

/-- Performance counters and instruction tags (R390 to R397). -/
structure Counters where
  unit : Nat := 0
  units : Table CntUnit := []
  /-- every unit is frozen -/
  frozen : Bool := false
  irqVector : Nat := 0
  irqDue : Bool := false
  tagCtrl : Word := 0
  tagSeed : BitVec 24 := 0
  tagMissed : Nat := 0
  /-- LFSR of each site; unlisted sites hold their seed -/
  lfsr : Table (BitVec 24) := []
  samples : List Sample := []
  deriving DecidableEq, Repr

/-! ## Security and management -/

/-- The fuses (R398). No register reads SEED: the identity key that signs is derived from it (R401). -/
structure Fuses where
  seed : BitVec 256 := 0
  rootDigest : BitVec 512 := 0
  revoked : Word := 0
  minSvn : BitVec 6 := 0
  debugDisabled : Bool := false
  deriving DecidableEq, Repr

/-- An update or recovery unit (R404, R405, R410). -/
structure UpdSt where
  state : BitVec 2 := 0
  busyWrite : Bool := false
  result : BitVec 4 := 0
  waiting : Bool := false
  /-- the NV copy under way: 1 firmware or 2 image, the object, and the time at which it is read back -/
  job : Option (Nat × List Byte × Nat) := none
  deriving DecidableEq, Repr

/-- An answer of the SPDM responder (R403). How its fields are laid out is the SPDM specification's. -/
inductive SpdmAnswer where
  | versions (l : List SpdmVersion)
  | capabilities (v : SpdmVersion)
  /-- SHA3-512 always, and ML-DSA-65 where an asymmetric algorithm can be negotiated -/
  | algorithms (v : SpdmVersion) (mlDsa : Bool)
  /-- the digest of certificate slot 0 -/
  | digests (slot0 : List Byte)
  | certificate (portion : List Byte) (remainder : Nat)
  | challengeAuth (signature : List Byte)
  | measurements (blocks : List (Nat × List Byte)) (signature : Option (List Byte))
  /-- ERROR UnsupportedRequest -/
  | unsupported
  deriving DecidableEq, Repr

/-- The security block and the MC (chapter 20). -/
structure SecSt where
  fuses : Fuses := {}
  fwSvn : BitVec 6 := 0
  imageSvn : BitVec 6 := 0
  revokeMask : Word := 0
  /-- measurements 1 to 6 of R403, 64 bytes each -/
  meas : Table (List Byte) := []
  upd : UpdSt := {}
  rcv : UpdSt := {}
  nonce : BitVec 256 := 0
  /-- the nonce has not yet served a SUBMIT -/
  nonceFresh : Bool := false
  level : BitVec 2 := 0
  refused : Bool := false
  mcRunning : Bool := true
  mcRestarts : Nat := 0
  spdmVersion : Option SpdmVersion := none
  /-- the answer to the last SPDM request, and none while the MC is down -/
  spdmOut : Option SpdmAnswer := none
  deriving DecidableEq, Repr

/-- The boundary-scan port (R407). -/
inductive JtagInstr where
  | bypass | idcode | samplePreload | extest | extestPulse | extestTrain
  deriving DecidableEq, Repr

/-- JTAG and the sidebands (R407, R425). -/
structure PinsSt where
  jtag : JtagInstr := .idcode
  jtagData : BitVec 96 := 0
  preload : BitVec 96 := 0
  /-- what stands on VIO_A to VIO_D, as VSEL numbers the levels (R338, R347) -/
  vio : List Nat := [0, 0, 0, 0]
  /-- asserted low -/
  thermTrip : Bool := false
  muzzle : Bool := false
  /-- the link reference LREF is present (R426) -/
  lref : Bool := true
  /-- PERST_N is asserted -/
  perst : Bool := false
  deriving DecidableEq, Repr

end Sys2Proof.Machine
end

