-- ==== Sys2Proof/Machine/StateMem.lean ====
section
/-! DEFINITION. The state of the memories behind the tiles: HBM and its protection, page tables, the tile
network's domains and counters, and the Kennel (chapters 11 to 13). -/
namespace Sys2Proof.Machine
open Sys2Proof

/-- A write-combining buffer (R285): the global stripe it holds, its bytes by offset in the stripe, and when its
first byte came. -/
structure WcBuf where
  stripe : Nat
  bytes : Table Byte
  since : Nat
  /-- descriptors whose writes it holds, for an unrecoverable read-modify-write (R284) -/
  writers : List Nat
  deriving DecidableEq, Repr

/-- One HBM stack (R289, R292, R297). -/
structure StackSt where
  failed : Bool := false
  asleep : Bool := false
  trained : Bool := true
  srEntries : Nat := 0
  ce : Nat := 0
  repaired : Nat := 0
  unrepaired : Nat := 0
  passes : Nat := 0
  parityRepaired : Nat := 0
  lastErr : Nat := 0
  failedPc : Word := 0
  /-- times of its last request and of its last entry into self-refresh, ns (R292) -/
  lastReq : Nat := 0
  asleepAt : Nat := 0
  deriving DecidableEq, Repr

/-- A page retirement in progress (R287): the frame, its spare frame, the suspect row, or none where HBM_RETIRE_CMD asked
for it, and whether its swap is due. -/
structure RetireSt where
  frame : Nat
  spare : Nat
  row : Option Nat
  done : Bool
  deriving DecidableEq, Repr

/-- A request at a controller: its address, the bytes of a write, and the descriptor it is for (R293). -/
structure HbmReq where
  addr : Nat
  data : Option (List Byte)
  owner : Option Nat
  deriving DecidableEq, Repr

/-- How far a frequency change has come (R293). -/
inductive FreqPhase where
  | idle | draining | refreshing | retraining
  deriving DecidableEq, Repr

/-- Where a byte span of a transaction lies (R244). -/
inductive Seg where
  | hbm (a : Nat) (len : Nat)
  | host (a : Nat) (len : Nat)
  | peer (device : Nat) (a : Nat) (len : Nat)
  deriving DecidableEq, Repr

/-- HBM (chapter 13). -/
structure Hbm where
  /-- bytes by device-internal address: what the data units decode to -/
  data : Memory := []
  /-- stored code units with erroneous symbols: (stripe × 6 + unit, 5 for the parity) × 8 + column → count of symbols -/
  bad : Table Nat := []
  /-- stripe × 256 + offset: the XOR of the stored parity and of the data, where it is not zero (R286) -/
  par : Memory := []
  wc0 : List WcBuf := []
  wc1 : List WcBuf := []
  stackList : Table StackSt := []
  p0Failed : Nat := 15
  p1Failed : Nat := 15
  lost0 : Bool := false
  lost1 : Bool := false
  /-- retirement map: frame → spare frame -/
  retired : Table Nat := []
  retiring : List RetireSt := []
  low : Bool := false
  exhausted : Bool := false
  refused : Nat := 0
  cmdStatus : BitVec 2 := 0
  op : BitVec 2 := 0
  /-- the operating point and timing sets that a change in progress will make active -/
  phase : FreqPhase := .idle
  target : BitVec 2 := 0
  /-- G5 as committed, until the change makes it active (R293) -/
  shadow : Option (Table Word) := none
  changes : Nat := 0
  /-- declared failures that take effect at the next tick: stack, and pseudo-channel or none for all of it -/
  failDue : List (Nat × Option Nat) := []
  /-- requests that a frequency change holds (R293) -/
  waiting : List HbmReq := []
  /-- stacks whose training at the Dawn to come fails (R295) -/
  untrained : List Nat := []
  /-- code-uncorrectable units of a pseudo-channel: stack × 32 + pc → recent times, ns (R289) -/
  ueTimes : Table (List Nat) := []
  /-- corrected symbols of a stack row: key → recent times, ns (R287) -/
  ceTimes : Table (List Nat) := []
  deriving DecidableEq, Repr

/-- One page table copy: virtual page → leaf, 64 KiB pages by VA / 2^16 and 2 MiB pages by VA / 2^21 (R243). -/
structure PageTable where
  small : Table DWord := []
  large : Table DWord := []
  deriving DecidableEq, Repr

/-- A hub check unit (R241, R242, R259). -/
structure CrcUnit where
  owner : Option (Nat × Nat) := none
  mismatch : Bool := false
  writeBusy : Bool := false
  value : DWord := 0
  deriving DecidableEq, Repr

/-- Traffic counters of one initiator (R258). -/
structure NetCount where
  rd : Nat := 0
  wr : Nat := 0
  bins : List Nat := [0, 0, 0, 0, 0, 0, 0, 0]
  deriving DecidableEq, Repr

/-- A read of a PEER page by the hub (R77, R149): the descriptor it is for, its place, and what has come of it: not sent,
under way, failed, or its bytes. -/
inductive PeerAnswer where
  | unsent | asked | failed
  | bytes (b : List Byte)
  deriving DecidableEq, Repr

structure PeerRead where
  id : Nat
  desc : Nat
  fn : Nat
  device : Nat
  addr : Nat
  len : Nat
  got : PeerAnswer := .unsent
  deriving DecidableEq, Repr

/-- A BAR2 access that waits for the release of HBM: direction, bytes, length and places (R293). -/
structure Bar2Held where
  write : Bool
  data : List Byte
  len : Nat
  segs : List Seg
  deriving DecidableEq, Repr

/-- Streams, paging and the tile network (chapter 11). -/
structure Paging where
  tables : Table PageTable := []
  shadow : Table PageTable := []
  batch : BitVec 2 := 0
  batchAt : Nat := 0
  busyWrite : Bool := false
  readError : Bool := false
  index : Nat := 0
  fringTail : Nat := 0
  fringHead : Nat := 0
  faults : Nat := 0
  dropped : Nat := 0
  bar2Refused : Nat := 0
  crc : Table CrcUnit := []
  counts : Table NetCount := []
  latched : NetCount := {}
  sel : Nat := 0
  /-- retries counted at each stop (R256) -/
  retries : Table Nat := []
  /-- sleeping domains, PROW × 2 + half, and since when, ns, a sleeping one has been waking -/
  asleep : List Nat := []
  waking : Table Nat := []
  /-- when each domain was last busy or last woke, ns (R376) -/
  busyAt : Table Nat := []
  /-- BAR2 accesses that a frequency change holds (R293) -/
  bar2Held : List Bar2Held := []
  /-- the hub's reads of PEER pages -/
  peerReads : List PeerRead := []
  nextPeer : Nat := 0
  /-- bytes that the last BAR2 read returned; none for an Unsupported Request -/
  bar2Data : Option (List Byte) := none
  deriving DecidableEq, Repr

/-- State of a physical site (R264, R276). -/
inductive SiteState where
  | inService | spare | testing | quarantine | retired | suspect | fused
  deriving DecidableEq, Repr

/-- A physical site (R264, R271, R276). -/
structure SiteSt where
  st : SiteState
  lrow : Nat := 0
  faults : Nat := 0
  bistRuns : Nat := 0
  lastFail : Bool := false
  /-- self-test runs passed in this stay in QUARANTINE -/
  passed : Nat := 0
  /-- TICK_COUNT of the last passing self-test since Dawn -/
  lastPass : Option Nat := none
  /-- in QUARANTINE by a retest command: on passing it leaves the retirement list -/
  retest : Bool := false
  /-- corrected errors by memory and row, with their times in ns (R96) -/
  corrected : List (TileMem × Nat × Nat) := []
  /-- spare rows used, by memory bank -/
  spareRows : List (TileMem × Nat × Nat) := []
  /-- Packs served since the last passing self-test (R274) -/
  served : List Nat := []
  deriving DecidableEq, Repr

/-- Why a tile is to migrate (R269, R270, R273). -/
inductive MoveWhy where
  | repair | rotation
  deriving DecidableEq, Repr

/-- A migration: waiting for its Pack's quiescent point, or under way (R266). The spare is chosen. -/
structure Move where
  tile : TileId
  from_ : SiteId
  to_ : SiteId
  why : MoveWhy
  started : Bool
  /-- tick of its start -/
  since : Nat := 0
  /-- its copy has ended, and the next tick samples it: true when contents were lost (R266, R268) -/
  done : Option Bool := none
  deriving DecidableEq, Repr

/-- The Kennel (chapter 12). -/
structure Kennel where
  /-- sites by PROW × 32 + PCOL -/
  sites : Table SiteSt := []
  /-- remap entries that differ from the Dawn map: logical row × 32 + column → physical row -/
  remap : Table Nat := []
  moves : List Move := []
  cmdStatus : BitVec 2 := 0
  /-- KNL_CMD commands that take effect at the next tick -/
  cmds : List (SiteId × Bool) := []
  migrations : Nat := 0
  bistFail : Nat := 0
  deferred : Nat := 0
  /-- time at which the Rotation timer started, ns -/
  rotSince : Nat := 0
  deriving DecidableEq, Repr

end Sys2Proof.Machine
end

