-- ==== Sys2Proof/Machine/StateTile.lean ====
section
/-! DEFINITION. The state of the tiles: engines, scoreboard, semaphores, memories, the matrix array and its
check column, accumulator slots, stream contexts and row statistics (chapters 05 to 11). -/
namespace Sys2Proof.Machine
open Sys2Proof

/-- A LOOP instruction under way (R179): body first index, END, passes left. -/
structure LoopSt where
  first : Nat
  last : Nat
  left : Nat
  deriving DecidableEq, Repr

/-- At what an engine is held (R169, R171). -/
inductive Hold where
  | none
  /-- WAIT: semaphore, count, consume, the tick count at issue and TIMEOUT when TO_EN is 1 -/
  | wait (sem count : Nat) (consume : Bool) (timed : Option (Nat × Nat))
  | barrier (num mask : Nat)
  /-- an issue test: the blocking resource in the numbering of R171 -/
  | issue (resource : Nat)
  deriving DecidableEq, Repr

/-- One engine (R95, R149 to R152): where its stream lies, its instruction queue, its PC, its loops and what holds it. -/
structure EngineSt where
  /-- device virtual address of its stream -/
  base : Nat := 0
  /-- length of the stream in instructions -/
  len : Nat := 0
  pc : Nat := 0
  halted : Bool := true
  loops : List LoopSt := []
  hold : Hold := .none
  /-- the instruction queue: index of its first word, and its words (R95, R150) -/
  qbase : Nat := 0
  queue : List QWord := []
  deriving DecidableEq, Repr

/-- An issued instruction that has not retired (R153 to R155): the resources it reads and writes, in the
numbering of R171, and the stream context it holds. -/
structure Flight where
  engine : Engine
  pc : Nat
  word : QWord
  reads : List Nat
  writes : List Nat
  ctx : Option Nat := none
  deriving DecidableEq, Repr

/-- What kind of transfer a stream context carries. -/
inductive CtxKind where
  | get | put | gather | send | mcast
  deriving DecidableEq, Repr

/-- A chunk whose requests have been issued: its index, the places of its memory bytes and of a check value that
follows them, and how many tile-side bytes it has. -/
structure ChunkSt where
  ix : Nat
  segs : List Seg
  len : Nat
  /-- memory-side bytes that an outbound chunk has read from the tile, in the order of its places -/
  data : List Byte := []
  /-- bytes that PEER reads have brought, by place -/
  got : Table (List Byte) := []
  /-- it holds a faulting transaction, or its descriptor has stopped: its data is discarded (R90, R247) -/
  discard : Bool := false
  /-- trackers that its transactions hold (R153, R236) -/
  trackers : Nat := 0
  /-- its transactions reached the HBM controllers in a frequency change, which holds them (R293) -/
  held : Bool := false
  /-- transactions whose packet was dropped (R256) -/
  lost : List Nat := []
  deriving DecidableEq, Repr

/-- A stream record as read at decode (R234). -/
structure StreamRec where
  base : Nat := 0
  len0 : Nat := 0
  cnt1 : Nat := 0
  cnt2 : Nat := 0
  cnt3 : Nat := 0
  stride1 : Int := 0
  stride2 : Int := 0
  stride3 : Int := 0
  conv : Nat := 0
  rnd : Nat := 0
  ovf : Nat := 0
  cfmt : Nat := 0
  exp : Int := 0
  poly : Nat := 0
  cont : Bool := false
  hub : Nat := 0
  prefetch : Nat := 0
  tmem : Nat := 0
  crc : Nat := 0
  deriving DecidableEq, Repr

/-- A stream context (R196, R198, R236, R247). -/
structure CtxSt where
  kind : CtxKind
  /-- program counter of the instruction -/
  pc : Nat
  rcd : StreamRec := {}
  /-- tile-side byte address, and the address of its record -/
  laddr : Nat := 0
  recAddr : Nat := 0
  chunkLog2 : Nat := 6
  slots : Nat := 0
  bind : Bool := false
  empty : Nat := 0
  full : Nat := 0
  /-- chunks in all; for a gather, rows -/
  total : Nat := 0
  /-- next chunk to request, and whether its slot semaphore has been taken -/
  next : Nat := 0
  taken : Bool := false
  inflight : List ChunkSt := []
  /-- chunks resident or acknowledged -/
  done : Nat := 0
  /-- running check value, before the final XOR (R240, R242) -/
  crc : Nat := 0
  /-- stopped on a page fault: address, kind, write, and the tick that sampled it -/
  fault : Option (Nat × Nat × Bool × Option Nat) := none
  /-- gather: index address, row bytes, table stride and rows -/
  idx : Nat := 0
  rowBytes : Nat := 0
  tstride : Nat := 0
  trows : Nat := 0
  /-- send and multicast: group, and the target address -/
  group : Nat := 0
  raddr : Nat := 0
  deriving DecidableEq, Repr

/-- One stationary set (R99, R100, R183, R184): its 64 by 64 cell registers, what it was loaded with, the
regions that back it, and the column whose copy the check column holds. -/
structure StatSet where
  loaded : Bool := false
  fmt : Nat := 0
  part : Nat := 0
  half : Bool := false
  krows : Nat := 0
  cells : Table (BitVec 16) := []
  /-- cells that hold a split zero (R131) -/
  splitZeros : List Nat := []
  held : List Nat := []
  backed : Bool := false
  /-- word of the MXLOAD that loaded it -/
  load : QWord := 0
  chkCol : Nat := 0
  deriving DecidableEq, Repr

/-- The kind a slot records (R184). -/
inductive SlotKind where
  | none | exact | fp32e
  deriving DecidableEq, Repr

/-- One accumulator slot: its recorded kind, k-row count and 64 by 64 entries of 128 bits (R125, R184). -/
structure SlotSt where
  kind : SlotKind := .none
  krows : Nat := 0
  entries : Table QWord := []
  /-- the slot's part of the check store: by row, the check value and the tolerance bound (R95) -/
  check : Table (Nat × Nat) := []
  deriving DecidableEq, Repr

/-- The MX engine's array (chapter 05). -/
structure ArraySt where
  active : StatSet := {}
  shadow : StatSet := {}
  /-- L: MXLOADs issued since Dawn (R107) -/
  loads : Nat := 0
  s0 : SlotSt := {}
  s1 : SlotSt := {}
  s2 : SlotSt := {}
  s3 : SlotSt := {}
  deriving DecidableEq, Repr

/-- A tile's memories. -/
structure TileMems where
  store : Memory := []
  x : Memory := []
  y : Memory := []
  /-- active and shadow nonlinear-function tables, 16 KiB each -/
  nl : Memory := []
  nlShadow : Memory := []
  deriving DecidableEq, Repr

/-- A leaf entry in a translation cache (R246): function, virtual page, its size and the leaf. -/
structure CachedLeaf where
  fn : Nat
  page : Nat
  size : Nat
  word : DWord
  deriving DecidableEq, Repr

/-- A tile. -/
structure TileSt where
  mx : EngineSt := {}
  ve : EngineSt := {}
  sp : EngineSt := {}
  ri : EngineSt := {}
  ro : EngineSt := {}
  sems : Table (BitVec 16) := []
  flights : List Flight := []
  ctxs : Table CtxSt := []
  mem : TileMems := {}
  arr : ArraySt := {}
  /-- BE and HEAD of the SP engine (R191) -/
  be : BitVec 16 := 0
  head : Nat := 31
  /-- the three stochastic-rounding generators (R140) -/
  genMx : DWord := 0
  genVe : DWord := 0
  genSp : DWord := 0
  /-- dispatch epoch (R215) -/
  epoch : Word := 0
  /-- device virtual address of the SEM_INIT table of the tile's program, 0 for none (R148, R150) -/
  semInit : Nat := 0
  /-- the translation cache of its Retriever, latest first, at most 64 entries (R246) -/
  tlb : List CachedLeaf := []
  deriving DecidableEq, Repr

/-- A barrier of a Pack (R162): the mask it was opened with and who has arrived. -/
structure BarrierSt where
  num : Nat
  mask : Nat
  arrived : List (TileId × Engine)
  deriving DecidableEq, Repr

/-- A signal sent with SIGX that the network has not delivered (R160, R181). -/
structure SignalSt where
  target : TileId
  sem : Nat
  inc : Nat
  /-- Pack of the sender, or none for a signal from a link or a port -/
  pack : Option Nat
  deriving DecidableEq, Repr

/-- Why a descriptor's run is to end at the next tick, class 5 (R22, R112, R143, R166, R221). -/
structure FaultEv where
  desc : Nat
  status : Nat
  deriving DecidableEq, Repr

/-- The nonlinear table a TABLE_LOAD has loaded into its Pack's shadow copies (R57, R188). -/
structure TableDue where
  desc : Nat
  /-- tick of its class 6 -/
  since : Nat
  pack : Nat
  table : Nat
  bytes : List Byte
  deriving DecidableEq, Repr

/-- A check mismatch of an MXRUN (R110, R112, R118): the instruction, its product row in running order, the row, S_out
and S_chk as stored in the log record, their difference, and the physical faults still to come. -/
structure Miss where
  tile : TileId
  pc : Nat
  word : QWord
  at_ : Nat
  row : Nat
  mode : Nat
  sOut : Nat
  sChk : Nat
  diff : Nat
  rest : List RowUpset
  deriving DecidableEq, Repr

/-- What a dispatch latches: no register write changes what a running descriptor computes (R8). -/
structure Latched where
  /-- NUM_CVT_CTRL -/
  cvt : Word := 0x1D
  /-- MX_CHK_CTRL -/
  chk : Word := 0x32
  /-- NUM_SR_SALT -/
  salt : Nat := 0
  /-- the output base that the tile program receives (R73) -/
  out : DWord := 0
  deriving DecidableEq, Repr

/-- How far the reads of a program have come (R149): the header once it is there, whether the streams are placed, the
tiles whose semaphores are set, and whether cue actions are to be scheduled when it starts. -/
structure Loading where
  head : Option Nat := none
  placed : Bool
  sems : Nat := 0
  cues : Bool
  deriving DecidableEq, Repr

/-- What a Pack is doing (R78, R90, R112, R170, R262, R268, R276). -/
structure PackSt where
  /-- the descriptor it is running -/
  desc : Option Nat := none
  barriers : List BarrierSt := []
  /-- tick since which the deadlock test has held (R170) -/
  deadSince : Option Nat := none
  /-- check mismatches that wait for their tick (R112, R113) -/
  misses : List Miss := []
  /-- a whole replay waits for the last transaction, with its suspect tile (R115) -/
  replaying : Option TileId := none
  /-- the suspect tile of that replay has been sent to quarantine -/
  spared : Bool := false
  /-- tiles to be quarantined at the next quiescent point, with the JOB_ID (R116) -/
  suspects : List (TileId × Nat) := []
  /-- a migration lost the contents, and the next dispatch fails (R268) -/
  lost : Bool := false
  /-- PACK_STATUS.CONTENTS_LOST -/
  lostFlag : Bool := false
  migrated : Nat := 0
  quiescent : Bool := true
  /-- COPY: bytes already moved, the places of its present chunk at the source, their bytes, none for one that a peer has
  yet to answer, and its fault -/
  copyAt : Nat := 0
  copySrc : List Seg := []
  copyParts : List (Option (List Byte)) := []
  copyFault : Option (Nat × Nat × Bool × Option Nat) := none
  /-- NaN events since the last tick: tile, the words of the record, and how many (R143, R144) -/
  nanPend : List (Nat × List Nat × Nat) := []
  /-- first NaN event of the descriptor recorded (R143) -/
  nanSeen : Bool := false
  /-- first illegal instruction of the descriptor recorded (R164) -/
  illSeen : Bool := false
  /-- an engine of the descriptor has issued (R149) -/
  issued : Bool := false
  /-- settings latched at dispatch (R8) -/
  lat : Latched := {}
  /-- WAIT-for-wake: the Pack's domains were asleep at dispatch (R257) -/
  waking : Bool := false
  /-- the dispatched program is not there yet: reads of its image are outstanding (R149) -/
  loading : Option Loading := none
  deriving DecidableEq, Repr

/-- The words of SHP_ILL (R173), NUM_NAN (R146) and MX_CHK_LAST (R118) for one Pack or for the module. -/
structure FaultRegs where
  ill : Table Word := []
  nan : Table Word := []
  chk : Table Word := []
  deriving DecidableEq, Repr

/-- All tiles and Packs. -/
structure Tiles where
  /-- by row × 32 + column of the logical grid -/
  tiles : Table TileSt := []
  packs : Table PackSt := []
  signals : List SignalSt := []
  /-- SHP_SYNC_COUNT (R173): SYNC_DEADLOCK faults and WAIT timeouts -/
  deadlocks : Nat := 0
  waitTimeouts : Nat := 0
  faults : List FaultEv := []
  swaps : List TableDue := []
  regs : FaultRegs := {}
  deriving DecidableEq, Repr

end Sys2Proof.Machine
end

