-- ==== Sys2Proof/Machine/State.lean ====
section
/-! DEFINITION. The whole state of one T96 module, the reasons a step can stop, and the state at the end of
Dawn. -/
namespace Sys2Proof.Machine
open Sys2Proof

/-- Why a command ends in a fault. -/
inductive Fault where
  /-- Raised by the commands that name a device-internal HBM address (HBM_READ, HBM_WRITE,
  HBM_TRANSACTION_TIMEOUT) when it lies at or above 360 GiB: R278 gives the module no such address. Safe: the
  machine has no behaviour there. -/
  | noSuchAddress
  deriving DecidableEq, Repr

/-- Why a command is refused. -/
inductive Refusal where
  /-- A command whose meaning is not written. Safe: nothing is claimed of it. -/
  | notModelled (mnemonic : String)
  deriving DecidableEq, Repr

/-- The grade (R1). -/
inductive Grade where
  | a | b
  deriving DecidableEq, Repr

/-- What is fixed at manufacture and what the module is doing as a whole (R1, R354, R415). -/
structure ModuleSt where
  grade : Grade := .a
  stepping : Byte := 0x11
  serial : BitVec 128 := 0
  power : Power := .running
  dusk : DuskSt := {}
  pins : PinsSt := {}
  vauxOk : Bool := true
  vin48Ok : Bool := true
  deriving DecidableEq, Repr

/-- The set-up registers (R411, R416): what is in force, the staging copies, the high words that a read of a
low word has latched (R59, R394), and the data that the last register read returned. -/
structure RegFile where
  /-- active values by BAR0 address; VF `f` at 0x100_0000 × f + offset; unlisted: the reset value -/
  active : Table Word := []
  staged : Table Word := []
  latch : Table Word := []
  data : DWord := 0
  deriving DecidableEq, Repr

/-- The PCI Express end of the module (R60): VFs enabled, the size of BAR2 as a power of two, the link's rate, lanes and
whether its partner supports flit mode. The spec gives no reset value (DESIGN CHOICE, log entry 130). -/
structure PcieSt where
  vfs : Fin 64 := 0
  bar2 : Nat := 39
  rate : Fin 6 := 5
  lanes : Nat := 16
  partnerFlits : Bool := true
  deriving DecidableEq, Repr

/-- Host memory as the module reaches it over PCIe (R61): bytes by bus address, the ranges whose reads fail,
and the functions whose AtomicOp Swaps fail. -/
structure HostSt where
  mem : Memory := []
  fails : List (Nat × Nat) := []
  swapFails : List Fn := []
  /-- writes that have left since the last tick edge: the function whose requester identifier each carries, and its
  address (R61, R171) -/
  writes : List (Nat × Nat) := []
  /-- MSI-X messages sent since the last tick edge: function and function-local vector (R85, R87) -/
  msix : List (Nat × Nat) := []
  pcie : PcieSt := {}
  deriving DecidableEq, Repr

/-- The module. -/
structure State where
  /-- commands that wait, first in first out -/
  pending : List Instr := []
  mod : ModuleSt := {}
  tick : TickSt := {}
  cad : CadSt := {}
  cue : CueSt := {}
  commits : Commits := {}
  shep : Shepherd := {}
  muzzle : Muzzle := {}
  regs : RegFile := {}
  host : HostSt := {}
  tiles : Tiles := {}
  hbm : Hbm := {}
  paging : Paging := {}
  kennel : Kennel := {}
  links : Links := {}
  fabric : FabricSt := {}
  config : ConfigSt := {}
  nv : NvSt := {}
  leash : LeashSt := {}
  ltime : LeashTime := {}
  energy : EnergySt := {}
  tel : Telemetry := {}
  cnt : Counters := {}
  sec : SecSt := {}
  /-- free values drawn so far (the model's own field, log entry 4) -/
  fresh : Nat := 0
  deriving DecidableEq, Repr

/-- The module right after reset: the end of Dawn, step 8 of R354, at the first tick. Grade A, stepping B1
(DESIGN CHOICE, log entry 1). -/
def State.reset : State := {}

end Sys2Proof.Machine
end

