-- ==== Sys2Proof/Machine/Regs.lean ====
section
/-! DEFINITION. The register map: which registers are staged, which are plain storage, their groups, defined
bits and reset values (R59, R93, R94, R118, R146, R173, R259, R276, R297, R330, R347, R363, R382, R396, R411 to
R416). Registers whose value is formed from other state are in Machine/Registers.lean. -/
namespace Sys2Proof.Machine
open Sys2Proof

/-- What a stored register is: its group when it is ST, its defined bits, its reset value. -/
structure RegInfo where
  group : Option Nat
  mask : Word
  reset : Word
  deriving DecidableEq, Repr

/-- An ST register of group `g`. -/
def stReg (g : Nat) (mask reset : Word) : Option RegInfo := some ⟨some g, mask, reset⟩

/-- A register that is plain storage (RW, RWL). -/
def rwReg (mask reset : Word) : Option RegInfo := some ⟨none, mask, reset⟩

/-- Address of function `f`'s window offset `off` (R93, R413): the PF's window is HOSTIF. -/
def winAddr (f off : Nat) : Nat := if f = 0 then 0x30000 + off else 0x1000000 * f + off

/-- Ring entry register at entry offset `o` (R94). -/
def ringReg (o : Nat) : Option RegInfo :=
  if o = 0x18 then stReg 1 0x00FFFFFF 0x00FF0008
  else if o = 0x30 then stReg 1 0x0003FFFF 0x00000048
  else if o = 0x34 then stReg 1 0xFFFFFFFF 0x00000001
  else if o = 0x1C ∨ o = 0x38 ∨ o = 0x3C then none
  else stReg 1 0xFFFFFFFF 0

/-- The MSI-X table of PCI Express: address, address, data, vector control, masked at reset (PRESUMED, log
entry 9). -/
def msixReg (o : Nat) : Option RegInfo :=
  if o % 16 = 12 then rwReg 1 1 else if o % 16 = 0 then rwReg 0xFFFFFFFC 0 else rwReg 0xFFFFFFFF 0

/-- The ring window of a function (R93). -/
def windowReg (vf : Bool) (o : Nat) : Option RegInfo :=
  if o < 0xE000 then ringReg (o % 64)
  else if o = 0xE020 then stReg 1 1 0
  else if o = 0xE028 then stReg 1 0xFFFFFFC0 0
  else if o = 0xE02C then stReg 1 0xFFFFFFFF 0
  else if 0xF000 ≤ o ∧ vf then msixReg o
  else if 0xF000 ≤ o ∧ o < 0xF200 then stReg 1 0x007FFFFF 0
  else none

/-- TICK and CADENCE (R59). -/
def cadReg (o : Nat) : Option RegInfo :=
  if o = 0x000 then stReg 0 0x7FF 0x64
  else if o = 0x100 then stReg 0 0x7FFF 0x1004
  else if o = 0x104 then stReg 0 0xFFFFFF 0x1000
  else if o = 0x108 then stReg 0 0xFF 4
  else if o = 0x10C then stReg 0 0xFFFFFFFF 0x8000
  else if o = 0x110 then stReg 0 0xFFFFFFFF 1000
  else if o = 0x114 then stReg 0 0x3FFF 0
  else if o = 0x118 then stReg 0 0x3F 0
  else if 0x200 ≤ o ∧ o < 0x240 then stReg 0 0x1FF 0
  else none

/-- PACK and SHEPHERD (R173, R276). -/
def packReg (o : Nat) : Option RegInfo :=
  if o < 0x200 then stReg 2 (if o % 8 = 0 then 0x7FFFFF else 0x7F) 0
  else if o = 0x800 then stReg 2 0x1FFFF 0x101F4
  else if o = 0xC000 then stReg 2 0xFFFF 0x3E8
  else if 0xC100 ≤ o ∧ o < 0xC300 then stReg 2 0xFFFFFFFF 0
  else none

/-- NUMERIC (R118, R146). -/
def numReg (o : Nat) : Option RegInfo :=
  if o = 0 then stReg 3 0x7F 0x1D
  else if o = 8 ∨ o = 0xC then stReg 3 0xFFFFFFFF 0
  else if o = 0x800 then stReg 3 0x3F 0x32
  else none

/-- RETRIEVER and PAGING (R259). -/
def rtvReg (o : Nat) : Option RegInfo :=
  if o = 0 then stReg 4 0x7FFF 0x88A
  else if o = 4 then stReg 4 0xFFFF 0x2710
  else if o = 0x10 then stReg 4 0x3F 0
  else if o = 0x18 then stReg 4 0xFFFF0000 0
  else if o = 0x1C then stReg 4 0x1FFFFFF 0
  else if o = 0x100 then rwReg 0xFFFFFFE0 0
  else if o = 0x104 then rwReg 0xFFFFFFFF 0
  else if o = 0x108 then rwReg 0xFFFFF 0
  else if o = 0x200 then stReg 4 0xFFFFFFE0 0
  else if o = 0x204 then stReg 4 0xFFFFFFFF 0
  else if o = 0x208 then stReg 4 0x7FFF 4
  else if o = 0x404 then stReg 4 0xFFFF 0x200
  else none

/-- Module-wide HBM registers (R297). The calibrated timing sets are not in the spec: these stand for them
(DESIGN CHOICE, log entry 7). -/
def hbmReg (o : Nat) : Option RegInfo :=
  if o = 0x3004 then stReg 5 3 0
  else if 0x3010 ≤ o ∧ o < 0x3040 then
    (if o % 16 = 0 then stReg 5 0xFFFFFFFF 0x6B4B2020
     else if o % 16 = 4 then stReg 5 0x0FFFFFFF 0x02581028
     else if o % 16 = 8 then stReg 5 0xFFFF 0x230A else none)
  else if 0x3040 ≤ o ∧ o < 0x3050 then rwReg 0x0FFFFFFF (0x80#32 <<< ((o - 0x3040) / 4))
  else if o = 0x3050 then rwReg 0xFFFF 0x64
  else if o = 0x3054 then rwReg 0x1FF 0x19
  else if o = 0x3058 then rwReg 0x3FF 0x32
  else none

/-- The LINKS common window (R330). -/
def lfReg (o : Nat) : Option RegInfo :=
  if o = 0 then stReg 6 0x7FFF 0
  else if o = 4 then stReg 6 0xFFFF 0x2710
  else if o = 8 then stReg 6 0xFFF 0x100
  else if o = 0xC then stReg 6 0x1FF 0
  else if o = 0x10 then rwReg 0xFFFFFFE0 0
  else if o = 0x14 then rwReg 0xFFFFFFFF 0
  else if o = 0x18 then rwReg 0xFFFFF 0
  else none

/-- FABRIC and CONFIG (R347, R363). Values that come from the image take the fallback of R352 (DESIGN CHOICE,
log entry 8). -/
def fabReg (o : Nat) : Option RegInfo :=
  if o < 0x100 then stReg 9 (if o % 8 = 0 then 0x7FFFFFF else 0xFFFF) 0
  else if o < 0x180 then rwReg 1 0
  else if 0x200 ≤ o ∧ o < 0x300 then stReg 9 0x1FFFFF 0x3FC0
  else if 0x400 ≤ o ∧ o < 0x410 then rwReg 3 0
  else if 0x500 ≤ o ∧ o < 0x680 then stReg 9 0x3FFF 0x3F08
  else if 0x900 ≤ o ∧ o < 0xA00 then stReg 9 0x3FFFF 0
  else if o = 0x8010 then rwReg 0xFFFFFFC0 0
  else if o = 0x8014 then rwReg 0xFFFFFFFF 0
  else if o = 0x8018 then rwReg 0x7FFFFFF 0
  else if o = 0x8100 then rwReg 0x7FF 0x28
  else none

/-- LEASH (R382). -/
def leashReg (g : Grade) (o : Nat) : Option RegInfo :=
  if o = 0 then stReg 7 0xFFF (match g with | .a => 1800 | .b => 1450)
  else if o = 4 then stReg 7 0xFFF 2400
  else if o = 8 then stReg 7 0x1F 0x15
  else if o = 0xC then stReg 7 0xFFFFFF 0x5F645F
  else if o = 0x10 then stReg 7 0xFFFF 0x64
  else none

/-- TELEMETRY (R396). -/
def telReg (o : Nat) : Option RegInfo :=
  if o = 0 then stReg 8 7 7
  else if o = 8 ∨ o = 0x20 then stReg 8 0xFFFFFFC0 0
  else if o = 0xC ∨ o = 0x24 then stReg 8 0xFFFFFFFF 0
  else if o = 0x10 then stReg 8 0xFFFF 0xC
  else if o = 0x14 then stReg 8 0xFFFFFFFF 1
  else if o = 0x28 then stReg 8 0x1F 0x10
  else if o = 0x30 then stReg 8 0xFFFFFFFF 0x01000010
  else if o = 0x34 then stReg 8 0x7FFFF 0x303E8
  else if o = 0x38 then stReg 8 0x3FFFFFFF 0
  else if o = 0x3C then stReg 8 0x1FF 8
  else none

/-- SECURITY and RECOVERY (R410). -/
def secReg (o : Nat) : Option RegInfo :=
  if o = 0x200 ∨ o = 0x320 ∨ o = 0x400 then rwReg 0xFFFFFFC0 0
  else if o = 0x204 ∨ o = 0x324 ∨ o = 0x404 then rwReg 0xFFFFFFFF 0
  else if o = 0x208 ∨ o = 0x408 then rwReg 0xFFFFFFF 0
  else none

/-- CRC, the hub check units (R259): the registers that are plain storage. -/
def crcReg (o : Nat) : Option RegInfo :=
  if 0x100 ≤ o then none
  else if o % 32 = 0 then rwReg 0x3FFF 1
  else if o % 32 = 8 ∨ o % 32 = 12 then rwReg 0xFFFFFFFF 0
  else none

/-- The stored register at an address, if one is there (R413). -/
def regInfo (g : Grade) (a : Nat) : Option RegInfo :=
  if a % 4 ≠ 0 then none
  else if 0x1000000 ≤ a then
    (if a % 0x1000000 < 0x10000 then windowReg true (a % 0x1000000) else none)
  else match a / 0x10000 with
    | 0x02 => cadReg (a % 0x10000)
    | 0x03 => windowReg false (a % 0x10000)
    | 0x04 => packReg (a % 0x10000)
    | 0x05 => numReg (a % 0x10000)
    | 0x06 => rtvReg (a % 0x10000)
    | 0x08 => hbmReg (a % 0x10000)
    | 0x0F => lfReg (a % 0x10000)
    | 0x10 => fabReg (a % 0x10000)
    | 0x11 => leashReg g (a % 0x10000)
    | 0x12 => telReg (a % 0x10000)
    | 0x14 => secReg (a % 0x10000)
    | 0x15 => crcReg (a % 0x10000)
    | 0xF0 => if a % 0x10000 < 0x8000 then msixReg (a % 0x10000) else none
    | _ => none

/-- Reset value of a stored register. -/
def regReset (g : Grade) (a : Nat) : Word :=
  match regInfo g a with
  | some i => i.reset
  | none => 0

/-- Group that an ST register belongs to (R416); the PF's G1 and each VF's G1 share the number 1. -/
def regGroup (g : Grade) (a : Nat) : Option Nat :=
  match regInfo g a with
  | some i => i.group
  | none => none

/-- The value of a register in force. -/
def State.reg (s : State) (a : Nat) : Word := Table.get (regReset s.mod.grade a) s.regs.active a

/-- The same as a number. -/
def State.regN (s : State) (a : Nat) : Nat := (s.reg a).toNat

/-- The staged value of a register. -/
def State.staged (s : State) (a : Nat) : Word := Table.get (regReset s.mod.grade a) s.regs.staged a

/-- Set the value in force. -/
def State.setReg (s : State) (a : Nat) (v : Word) : State :=
  { s with regs := { s.regs with active := Table.set (regReset s.mod.grade a) s.regs.active a v } }

/-- Set the staged value. -/
def State.setStaged (s : State) (a : Nat) (v : Word) : State :=
  { s with regs := { s.regs with staged := Table.set (regReset s.mod.grade a) s.regs.staged a v } }

/-- A 64-bit register pair, low word at `a` (R59). -/
def State.reg64 (s : State) (a : Nat) : Nat := s.regN a + 2 ^ 32 * s.regN (a + 4)

/-- Whether a register belongs to a group instance: group `g`, and for G1 the function `f`. -/
def inGroup (gr : Grade) (g f a : Nat) : Bool :=
  regGroup gr a == some g && (g != 1 || a / 0x1000000 == f)

/-- The entries of one group instance become those of the other table (R418). -/
def copyGroup (gr : Grade) (g f : Nat) (src dst : Table Word) : Table Word :=
  let kept := dst.filter fun e => !inGroup gr g f e.1
  (src.filter fun e => inGroup gr g f e.1).foldl (fun t e => Table.put t e.1 e.2) kept

end Sys2Proof.Machine
end

