-- ==== Sys2Proof/Machine/Counters.lean ====
section
/-! DEFINITION. Performance counters and instruction tags (R390 to R397). Events that are quantities of what the model does
are counted exactly; those of cycles are a matter of timing and count a free amount at each tick (log entry 23). -/
namespace Sys2Proof.Machine
open Sys2Proof

/-! ## Units and events (R390, R391) -/

/-- The hub's unit number, and the first of the links' and the HBM controllers' (R397). -/
def hubUnit : Nat := 1212
def linkUnit (n : Nat) : Nat := 1152 + n
def hbmUnit (k : Nat) : Nat := 1200 + k

/-- A unit that exists: fused sites and links have counters that read zero (R390). -/
def unitKnown (u : Nat) : Bool := decide (u ≤ 1212)

/-- Counters of a unit. -/
def unitCounters (u : Nat) : Nat := if u = hubUnit then 32 else if unitKnown u then 8 else 0

/-- An event code that a unit has. -/
def eventOk (u ev : Nat) : Bool :=
  let range (a b : Nat) : Bool := decide (a ≤ ev) && decide (ev ≤ b)
  if u < 1152 then range 1 0x23 else if u < 1200 then range 0x40 0x46 else if u < 1212 then range 0x80 0x88
  else u == hubUnit && range 0xC0 0xCA

/-- Events whose amounts the model knows. -/
def exactEvents : List Nat :=
  [0x001, 0x002, 0x003, 0x004, 0x005, 0x006, 0x009, 0x00A, 0x040, 0x041, 0x042, 0x043, 0x046, 0x080, 0x081, 0x082, 0x083, 0x084, 0x085, 0x0C0, 0x0C1, 0x0C2, 0x0C3,
    0x0C4, 0x0C7]

/-- Fields of CNT_CFG (R397). -/
def Counter.event (c : Counter) : Nat := bits c.cfg.toNat 0 10
def Counter.chain (c : Counter) : Bool := c.cfg.getLsbD 27
def Counter.irq (c : Counter) : Bool := c.cfg.getLsbD 28

def CntUnit.ctr (u : CntUnit) (i : Nat) : Counter := Table.get {} u.ctrs i

/-- Counter `i` wraps without carrying: CNT_OVF, and the interrupt if it asks for one. -/
def CntUnit.wrap (u : CntUnit) (i : Nat) : CntUnit × Bool := ({ u with ovf := u.ovf ||| (1#32 <<< i) }, (u.ctr i).irq)

/-- Add to counter `i`; the wraps of the low half of a chain go to the odd counter. -/
def CntUnit.add (u : CntUnit) (i n : Nat) : CntUnit × Bool :=
  let c := u.ctr i
  let v := c.val + n
  let u := { u with ctrs := Table.put u.ctrs i { c with val := v % 2 ^ 48 } }
  if v < 2 ^ 48 then (u, false)
  else
    let o := u.ctr (i + 1)
    if i % 2 == 0 && o.chain then
      let w := o.val + v / 2 ^ 48
      let u := { u with ctrs := Table.put u.ctrs (i + 1) { o with val := w % 2 ^ 48 } }
      if w < 2 ^ 48 then (u, false) else u.wrap (i + 1)
    else u.wrap i

/-- Counters of a unit that count an event. -/
def CntUnit.counting (u : CntUnit) (p : Nat → Bool) : List Nat :=
  (u.ctrs.filter fun e => !e.2.chain && p e.2.event).map Prod.fst

def State.cntUnit (s : State) (u : Nat) : CntUnit := Table.get {} s.cnt.units u
def State.modCnt (s : State) (f : Counters → Counters) : State := { s with cnt := f s.cnt }
def State.setUnit (s : State) (u : Nat) (v : CntUnit × Bool) : State :=
  s.modCnt fun c => { c with units := Table.put c.units u v.1, irqDue := c.irqDue || v.2 }

/-- A quantity event of a unit (R391). -/
def State.countEv (s : State) (unit ev n : Nat) : State :=
  if s.cnt.units.isEmpty || s.cnt.frozen || (s.cntUnit unit).frozen || n == 0 then s
  else ((s.cntUnit unit).counting (· == ev)).foldl (fun s i => s.setUnit unit ((s.cntUnit unit).add i n)) s

/-! ## Freezing and reading (R394, R397) -/

/-- CNT_FREEZE (R394). -/
def State.cntFreeze (s : State) (mode : Nat) : State :=
  match mode with
  | 0 => s.modCnt fun c => { c with frozen := false, units := c.units.map fun e => (e.1, { e.2 with frozen := false }) }
  | 1 => s.modCnt fun c => { c with units := Table.put c.units c.unit { Table.get {} c.units c.unit with frozen := true } }
  | 2 => s.modCnt fun c => { c with frozen := true }
  | _ => s

/-- CNT_CFG as read: BAD where the unit lacks the event. -/
def State.cntCfgWord (s : State) (i : Nat) : Nat :=
  let c := (s.cntUnit s.cnt.unit).ctr i
  c.cfg.toNat + 2 ^ 29 * b2n (c.event != 0 && !eventOk s.cnt.unit c.event)

/-! ## Instruction tags (R393) -/

/-- One step of the 24-bit Galois register, shifting right. -/
def lfsrNext (x : BitVec 24) : BitVec 24 := if x.getLsbD 0 then (x >>> 1) ^^^ 0xE10000#24 else x >>> 1

/-- The seed of a site. -/
def tagSeed (seed : BitVec 24) (site : Nat) : BitVec 24 :=
  let x := seed ^^^ BitVec.ofNat 24 site
  if x = 0 then 1 else x

/-- CNT_TAG_SEED reseeds every tile. -/
def State.reseed (s : State) (seed : BitVec 24) : State := s.modCnt fun c => { c with tagSeed := seed, lfsr := [] }

/-- An instruction issues on an engine at a site: the register advances, and a tagged one enters the site's buffer. -/
def State.tagStep (s : State) (x : Sample) : State :=
  let per := bits s.cnt.tagCtrl.toNat 0 5
  if per = 0 || !s.cnt.tagCtrl.getLsbD (5 + x.engine) then s
  else
    let r := lfsrNext (Table.get (tagSeed s.cnt.tagSeed x.site) s.cnt.lfsr x.site)
    let s := s.modCnt fun c => { c with lfsr := Table.put c.lfsr x.site r }
    if r.toNat % 2 ^ per ≠ 0 then s
    else if 16 ≤ (s.cnt.samples.filter fun y => y.site == x.site).length then
      s.modCnt fun c => { c with tagMissed := sat 32 (c.tagMissed + 1) }
    else s.modCnt fun c => { c with samples := c.samples ++ [x] }

end Sys2Proof.Machine
end

