-- ==== Sys2Proof/Machine/Ops.lean ====
section
/-! DEFINITION. The named operations that every family uses: reaching tiles, Packs, rings, descriptors, links;
host memory; telemetry events, Muzzle triggers and MSI-X messages; free values. -/
namespace Sys2Proof

/-- Index of a logical tile. -/
def TileId.ix (t : TileId) : Nat := t.row.val * 32 + t.col.val

/-- Index of a physical site. -/
def SiteId.ix (x : SiteId) : Nat := x.prow.val * 32 + x.pcol.val

/-- The number of an engine (R173, R177). -/
def Engine.num : Engine → Nat
  | .mx => 0
  | .ve => 1
  | .sp => 2
  | .ri => 3
  | .ro => 4

end Sys2Proof

namespace Sys2Proof.Machine
open Sys2Proof

/-- The outcome of a command that always has an effect. -/
abbrev Result := Host.Outcome State Fault Refusal

/-! ## Free values -/

/-- Draw one free value (log entry 4). -/
def State.draw (s : State) : Nat × State :=
  (Config.freeValue s.fresh, { s with fresh := s.fresh + 1 })

/-! ## Tiles, Packs and sites -/

/-- The logical tile of an index. -/
def tileOfIx (i : Nat) : TileId := ⟨Fin.ofNat 32 i, Fin.ofNat 32 (i / 32)⟩

/-- The physical site of an index. -/
def siteOfIx (i : Nat) : SiteId := ⟨Fin.ofNat 36 (i / 32), Fin.ofNat 32 i⟩

def State.tile (s : State) (i : Nat) : TileSt := Table.get {} s.tiles.tiles i

def State.setTile (s : State) (i : Nat) (t : TileSt) : State :=
  { s with tiles := { s.tiles with tiles := Table.put s.tiles.tiles i t } }

def State.modTile (s : State) (i : Nat) (f : TileSt → TileSt) : State := s.setTile i (f (s.tile i))

def State.pack (s : State) (p : Nat) : PackSt := Table.get {} s.tiles.packs p

def State.setPack (s : State) (p : Nat) (v : PackSt) : State :=
  { s with tiles := { s.tiles with packs := Table.put s.tiles.packs p v } }

def State.modPack (s : State) (p : Nat) (f : PackSt → PackSt) : State := s.setPack p (f (s.pack p))

/-- A Pack's shape and owner (R260, R276). -/
structure PackShape where
  enabled : Bool
  col0 : Nat
  row0 : Nat
  width : Nat
  height : Nat
  fn : Nat
  deferRot : Bool
  deriving DecidableEq, Repr

/-- Decode PACK_SHAPE and PACK_OWNER (R276). -/
def packShapeOf (sh ow : Word) : PackShape :=
  let x := sh.toNat
  let y := ow.toNat
  ⟨bit x 22, bits x 0 5, bits x 5 5, bits x 10 6, bits x 16 6, bits y 0 6, bit y 6⟩

def State.shape (s : State) (p : Nat) : PackShape :=
  packShapeOf (s.reg (0x40000 + 8 * p)) (s.reg (0x40004 + 8 * p))

/-- Whether a shape covers a logical tile (R260). -/
def PackShape.covers (sh : PackShape) (t : TileId) : Bool :=
  sh.enabled && decide (sh.col0 ≤ t.col.val) && decide (t.col.val < sh.col0 + sh.width) &&
    decide (sh.row0 ≤ t.row.val) && decide (t.row.val < sh.row0 + sh.height)

/-- The logical tile at Pack-relative column and row (R261). -/
def PackShape.at (sh : PackShape) (c r : Nat) : TileId := ⟨Fin.ofNat 32 (sh.col0 + c), Fin.ofNat 32 (sh.row0 + r)⟩

/-- The logical tiles of a Pack in ascending Pack-relative row and then column, as indexes. -/
def PackShape.tiles (sh : PackShape) : List Nat :=
  if sh.enabled then
    (List.range sh.height).flatMap fun r => (List.range sh.width).map fun c => (sh.at c r).ix
  else []

/-- The Pack that owns a logical tile (R260). -/
def State.packOf (s : State) (t : TileId) : Option Nat :=
  (List.range 64).find? fun p => (s.shape p).covers t

/-- What the descriptor of a tile's Pack latched at its dispatch (R8). -/
def State.latched (s : State) (ix : Nat) : Latched :=
  match s.packOf (tileOfIx ix) with
  | some p => (s.pack p).lat
  | none => {}

/-- Rows in service of the grade's logical grid (R1). -/
def Grade.rows : Grade → Nat
  | .a => 32
  | .b => 24

/-- Tiles in service (R1). -/
def Grade.tiles : Grade → Nat
  | .a => 1024
  | .b => 768

/-- Whether a link exists in the grade (R1). -/
def Grade.hasLink (g : Grade) (n : Nat) : Bool :=
  match g with
  | .a => decide (n < 48)
  | .b => decide (n < 48) && decide (n % 12 < 8)

/-- Change the state of every tile of a list. -/
def State.modTiles (s : State) (l : List Nat) (f : TileSt → TileSt) : State :=
  l.foldl (fun s i => s.modTile i f) s

/-- An engine of a tile. -/
def TileSt.engine (t : TileSt) : Engine → EngineSt
  | .mx => t.mx
  | .ve => t.ve
  | .sp => t.sp
  | .ri => t.ri
  | .ro => t.ro

def TileSt.setEngine (t : TileSt) (e : Engine) (v : EngineSt) : TileSt :=
  match e with
  | .mx => { t with mx := v }
  | .ve => { t with ve := v }
  | .sp => { t with sp := v }
  | .ri => { t with ri := v }
  | .ro => { t with ro := v }

/-- The engines in the order of R159. -/
def engines : List Engine := [.mx, .ve, .sp, .ri, .ro]

/-! ## Rings, functions, descriptors -/

/-- Index of a ring. -/
def ringIx (f r : Nat) : Nat := f * 1024 + r

def State.ring (s : State) (f r : Nat) : RingSt := Table.get {} s.shep.rings (ringIx f r)

def State.setRing (s : State) (f r : Nat) (v : RingSt) : State :=
  { s with shep := { s.shep with rings := Table.put s.shep.rings (ringIx f r) v } }

def State.modRing (s : State) (f r : Nat) (g : RingSt → RingSt) : State := s.setRing f r (g (s.ring f r))

def State.fn (s : State) (f : Nat) : FnSt := Table.get {} s.shep.fns f

def State.modFn (s : State) (f : Nat) (g : FnSt → FnSt) : State :=
  { s with shep := { s.shep with fns := Table.put s.shep.fns f (g (s.fn f)) } }

/-- A register of ring entry `r` of function `f` (R94). -/
def State.ringRegN (s : State) (f r o : Nat) : Nat := s.regN (winAddr f (64 * r + o))

/-- The registers of a function's allotment (R94). -/
def State.allocLo (s : State) (f : Nat) : Nat := s.regN (0x3F000 + 8 * f)
def State.allocHi (s : State) (f : Nat) : Nat := s.regN (0x3F004 + 8 * f)

/-- Ring pairs and vectors allotted to a function (R63, R94). -/
def State.ringCount (s : State) (f : Nat) : Nat := bits (s.allocLo f) 12 10
def State.vecCount (s : State) (f : Nat) : Nat := bits (s.allocHi f) 11 12

def State.sqEnabled (s : State) (f r : Nat) : Bool := bit (s.ringRegN f r 0x18) 0
def State.cqEnabled (s : State) (f r : Nat) : Bool := bit (s.ringRegN f r 0x30) 0

/-- Ring sizes in entries (R94). -/
def State.sqSize (s : State) (f r : Nat) : Nat := 2 ^ bits (s.ringRegN f r 0x18) 1 5
def State.cqSize (s : State) (f r : Nat) : Nat := 2 ^ bits (s.ringRegN f r 0x30) 1 5

/-- A 64-bit address register pair of a ring entry. -/
def State.ringAddr (s : State) (f r o : Nat) : Nat := s.ringRegN f r o + 2 ^ 32 * s.ringRegN f r (o + 4)

def State.desc? (s : State) (id : Nat) : Option Desc := s.shep.descs.find? fun d => d.id == id

def State.setDescs (s : State) (l : List Desc) : State := { s with shep := { s.shep with descs := l } }

def State.modDesc (s : State) (id : Nat) (f : Desc → Desc) : State :=
  s.setDescs (s.shep.descs.map fun d => if d.id == id then f d else d)

/-- Fields of FLAGS (R74). -/
def Desc.replayable (d : Desc) : Bool := d.f.flags.getLsbD 0
def Desc.hard (d : Desc) : Bool := d.f.flags.getLsbD 1
def Desc.strict (d : Desc) : Bool := d.f.flags.getLsbD 2
def Desc.exact (d : Desc) : Bool := d.f.flags.getLsbD 3
def Desc.nanAction (d : Desc) : Nat := bits d.f.flags.toNat 4 2
def Desc.allowDefer (d : Desc) : Bool := d.f.flags.getLsbD 6

/-- The Pack a descriptor names (R73). -/
def Desc.pack (d : Desc) : Nat := d.f.pack.toNat % 64

/-- RUN, COPY and LOOP occupy their Pack (R75). -/
def Desc.occupies (d : Desc) : Bool := d.f.cls == 1 || d.f.cls == 2 || d.f.cls == 4

/-- The deadline of an untimed descriptor (R50). -/
def noDeadline : Nat := 2 ^ 64 - 1

/-- A descriptor is timed unless it carries the untimed values (R50). A CADENCE_SET's START is no start. -/
def Desc.timed (d : Desc) : Bool :=
  d.occupies && !(d.f.start == 0 && d.f.deadline == noDeadline)

/-- Phases in which a descriptor has been dispatched and has no record (R262). -/
def Desc.dispatched (d : Desc) : Bool := !d.undispatched

/-- The descriptor that a Pack runs. -/
def State.running (s : State) (p : Nat) : Option Desc :=
  match (s.pack p).desc with
  | some id => s.desc? id
  | none => none

/-! ## Host memory (R61) -/

/-- Whether a read of host bytes fails (R61). -/
def State.hostFails (s : State) (a n : Nat) : Bool :=
  s.host.fails.any fun r => decide (a < r.1 + r.2) && decide (r.1 < a + n) && decide (0 < r.2) && decide (0 < n)

/-- Read host memory; none when the read fails (R61). -/
def State.hostRead (s : State) (a n : Nat) : Option (List Byte) :=
  if s.hostFails a n then none else some (s.host.mem.readBytes a n)

/-- A little-endian number in host memory. -/
def State.hostLE (s : State) (a n : Nat) : Option Nat := (s.hostRead a n).map leNat

/-- Write host memory. -/
def State.hostWrite (s : State) (a : Nat) (b : List Byte) : State :=
  { s with host := { s.host with mem := s.host.mem.writeBytes a b } }

/-- A write that leaves with a function's requester identifier (R61). -/
def State.hostWriteAs (s : State) (fn a : Nat) (b : List Byte) : State :=
  let s := s.hostWrite a b
  { s with host := { s.host with writes := s.host.writes ++ [(fn, a)] } }

/-- The function that owns what a list of descriptors does. -/
def State.ownerFn (s : State) (owners : List Nat) : Nat :=
  ((owners.head?.bind s.desc?).map fun d => d.fn.val).getD 0

/-! ## Telemetry events, triggers, interrupts -/

/-- Instance of an event that names no unit (R383). -/
def noInst : Nat := 0xFFFF

/-- Raise an event; class 7 of the tick that samples it makes it a record (R385). -/
def State.raise (s : State) (cls : TelClass) (code inst : Nat) (payload : List Byte) : State :=
  { s with tel := { s.tel with
      pend := s.tel.pend ++ [⟨cls, code, inst, 0, s.tick.count, 0, 0, payload⟩] } }

/-- Latch a Muzzle trigger for class 1 of the next tick (R22, R31). -/
def State.trigger (s : State) (sc : Scope) (cause : Nat) : State :=
  { s with muzzle := { s.muzzle with
      triggers := s.muzzle.triggers ++ [⟨sc, cause⟩], early := s.muzzle.early.filter (· != ⟨sc, cause⟩) } }

/-- Vector control bit 0 of an MSI-X entry: masked (R87). -/
def msixEntry (f v : Nat) : Nat := if f = 0 then 0xF00000 + 16 * v else 0x1000000 * f + 0xF000 + 16 * v

/-- Send the message of an unmasked vector: a write of its data to its address (R85). -/
def State.msixWrite (s : State) (f v : Nat) : State :=
  let e := msixEntry f v
  let s := s.hostWriteAs f (s.reg64 e) (wordBytes (s.reg (e + 8)))
  { s with host := { s.host with msix := s.host.msix ++ [(f, v)] } }.countEv hubUnit 0x0C4 1

/-- Send a vector of a function: at most one message per vector in a tick; a masked vector sets its pending
bit (R86, R87). -/
def State.msixSend (s : State) (f v : Nat) : State :=
  if s.vecCount f ≤ v then s
  else if s.host.msix.contains (f, v) then s
  else if (s.reg (msixEntry f v + 12)).getLsbD 0 then
    s.modFn f fun x => if x.msixPending.contains v then x else { x with msixPending := x.msixPending ++ [v] }
  else s.msixWrite f v

/-! ## The NV store (R348, R349) -/

/-- Records that the black-box ring holds: a worn block of its area is dropped from it. -/
def NvSt.logRoom (v : NvSt) : Nat := 1024 * (256 - (v.worn.filter fun b => decide (328 ≤ b) && decide (b < 584)).length)

/-- A block of the area of firmware (KIND 1) or of the image (KIND 2) is worn: its next update fails. -/
def NvSt.areaWorn (v : NvSt) (kind : Nat) : Bool :=
  v.worn.any fun b => if kind = 1 then decide (72 ≤ b) && decide (b < 328) else decide (584 ≤ b)

/-- An erase or a program of a logical block fails: a spare replaces it while there is one. -/
def NvSt.blockFails (v : NvSt) (b : Nat) : NvSt :=
  if 0 < v.spares then { v with spares := v.spares - 1, replaced := sat 16 (v.replaced + 1) }
  else
    let v := { v with worn := if v.worn.contains b then v.worn else b :: v.worn }
    { v with log := v.log.take v.logRoom }

/-! ## Sites -/

/-- Rows of a physical column half usable in the grade (R1, R263). -/
def siteFused (g : Grade) (prow : Nat) : Bool :=
  match g with
  | .a => false
  | .b => (decide (14 ≤ prow) && decide (prow < 18)) || decide (32 ≤ prow)

/-- Logical rows that each column half serves (R263). -/
def Grade.halfRows : Grade → Nat
  | .a => 16
  | .b => 12

/-- The physical row that serves a logical row at a Dawn with no retired site (R263). -/
def dawnRow (g : Grade) (lrow : Nat) : Nat :=
  if lrow < g.halfRows then lrow else 18 + (lrow - g.halfRows)

/-- The state of a site at a Dawn with no retired site (R263, R264). -/
def dawnSite (g : Grade) (prow : Nat) : SiteSt :=
  let h := prow % 18
  if siteFused g prow then { st := .fused }
  else if h < g.halfRows then { st := .inService, lrow := h + (if prow < 18 then 0 else g.halfRows) }
  else { st := .spare }

def State.site (s : State) (i : Nat) : SiteSt := Table.get (dawnSite s.mod.grade (i / 32)) s.kennel.sites i

def State.setSite (s : State) (i : Nat) (v : SiteSt) : State :=
  { s with kennel := { s.kennel with sites := Table.put s.kennel.sites i v } }

def State.modSite (s : State) (i : Nat) (f : SiteSt → SiteSt) : State := s.setSite i (f (s.site i))

/-- The physical site of a logical tile, under the active remap table (R254, R263). -/
def State.siteOf (s : State) (t : TileId) : SiteId :=
  ⟨Fin.ofNat 36 (Table.get (dawnRow s.mod.grade t.row.val) s.kennel.remap t.ix), t.col⟩

/-! ## Links -/

def State.link (s : State) (n : Nat) : LinkSt :=
  Table.get (if s.mod.grade.hasLink n then {} else { tx := .fused, rx := .fused, cfg := 0 }) s.links.links n

def State.setLink (s : State) (n : Nat) (v : LinkSt) : State :=
  { s with links := { s.links with links := Table.put s.links.links n v } }

def State.modLink (s : State) (n : Nat) (f : LinkSt → LinkSt) : State := s.setLink n (f (s.link n))

def State.meas (s : State) (n : Nat) : LinkMeas := Table.get {} s.links.meas n

def State.modMeas (s : State) (n : Nat) (f : LinkMeas → LinkMeas) : State :=
  { s with links := { s.links with meas := Table.put s.links.meas n (f (s.meas n)) } }

def State.modLf (s : State) (f : LinkFabric → LinkFabric) : State :=
  { s with links := { s.links with fabric := f s.links.fabric } }

/-- The module's own device identifier, once assigned (R313). -/
def State.devid (s : State) : Option Nat :=
  let w := s.regN 0xF0000
  if bit w 14 then some (bits w 0 14) else none

/-- What a hold idle carries (R312). -/
def TxType.inHold : TxType → Bool
  | .ack => true
  | .clear => true
  | .withdraw => true
  | _ => false

/-- A control message leaves the module (R313, R323); while it is Muzzled, only in a hold idle (R312). -/
def State.sendMsg (s : State) (m : OutMsg) : State :=
  if s.devid.isSome && (!s.muzzle.module.active || m.type.inHold) then
    s.modLf fun l => { l with out := l.out ++ [m], wait := if m.type == .mcast then l.wait else l.wait ++ [m] }
  else s

/-! ## Fabric -/

def State.region (s : State) (r : Nat) : RegionSt := Table.get {} s.fabric.regions r

def State.modRegion (s : State) (r : Nat) (f : RegionSt → RegionSt) : State :=
  { s with fabric := { s.fabric with regions := Table.put s.fabric.regions r (f (s.region r)) } }

def State.port (s : State) (p : Nat) : PortSt := Table.get {} s.fabric.ports p

def State.modPort (s : State) (p : Nat) (f : PortSt → PortSt) : State :=
  { s with fabric := { s.fabric with ports := Table.put s.fabric.ports p (f (s.port p)) } }

/-- Hooks that a port abandons are flushed, and their numbers remembered (R339, R340). -/
def PortSt.abandon (x : PortSt) (gone : HookSt → Bool) : PortSt :=
  let numbers (h : HookSt) : List Nat :=
    (List.range ((h.rows + max 1 h.perBlock - 1) / max 1 h.perBlock)).map fun i => (h.number + i) % 16
  let l := x.hooks.filter gone
  { x with
    hooks := x.hooks.filter fun h => !gone h, flush := x.flush || !l.isEmpty, flushed := x.flushed ++ l.flatMap numbers }

/-- FAB_REGION[r]: enabled, and its rectangle and ports (R347). -/
structure RegionRect where
  enabled : Bool
  die : Nat
  col0 : Nat
  col1 : Nat
  band0 : Nat
  band1 : Nat
  ports : Nat
  deriving DecidableEq, Repr

def regionRectOf (lo hi : Nat) : RegionRect :=
  ⟨bit lo 26, bits lo 0 2, bits lo 2 7, bits lo 9 7, bits lo 16 5, bits lo 21 5, bits hi 0 16⟩

def State.regionRect (s : State) (r : Nat) : RegionRect :=
  regionRectOf (s.regN (0x100000 + 8 * r)) (s.regN (0x100004 + 8 * r))

/-- Whether a region owns a port (R347). -/
def RegionRect.owns (x : RegionRect) (p : Nat) : Bool := x.enabled && x.die == p / 16 && bit x.ports (p % 16)

/-! ## Muzzle scopes -/

def State.mzPack (s : State) (p : Nat) : MzScope := Table.get {} s.muzzle.packs p
def State.mzRegion (s : State) (r : Nat) : MzScope := Table.get {} s.muzzle.regions r

/-- Whether a Pack is held by its own Muzzle or the module's (R21, R25). -/
def State.packMuzzled (s : State) (p : Nat) : Bool := s.muzzle.module.active || (s.mzPack p).active

/-- The word of a Muzzle state register (R30). -/
def MzScope.word (m : MzScope) : Word :=
  BitVec.ofNat 32 (m.cause + 256 * b2n m.active + 512 * b2n m.causeClear + 65536 * m.count)

/-! ## Time -/

/-- Nanoseconds since a moment. -/
def State.since (s : State) (t : Nat) : Nat := s.tick.now - t

/-- A signal of the Pack is under way, or waits for a tile that sleeps or moves (R160, R257, R266). -/
def State.signalsOut (s : State) (p : Nat) : Bool :=
  (s.tiles.signals.any fun g => g.pack == some p) || s.links.fabric.inbound.any fun x =>
    match x with
    | .signal _ _ _ k => k == some p
    | .tx .. => false

end Sys2Proof.Machine
end

