-- ==== Sys2Proof/Machine/Cues.lean ====
section
/-! DEFINITION. Cue outputs (R54 to R56): scheduling, the order of actions on one cue, cancellation to the safe
level, and the commands CUE_ACTION and CUE_PULSE_END. -/
namespace Sys2Proof.Machine
open Sys2Proof

/-- CUE_CFG[c] (R59). -/
def State.cueCfg (s : State) (c : Nat) : Nat := s.regN (0x20200 + 4 * c)
def State.cueEnabled (s : State) (c : Nat) : Bool := bit (s.cueCfg c) 7

/-- Drive a cue's level; a disabled cue drives nothing (R54). -/
def State.cueLevel (s : State) (c : CueIx) (v : Bool) : State :=
  if !s.cueEnabled c.val then s else
  { s with cue := { s.cue with level :=
      if v then s.cue.level ||| (1#16 <<< c.val) else s.cue.level &&& ~~~(1#16 <<< c.val) } }

/-- Drive a cue to its safe level (R21, R54). -/
def State.cueSafe (s : State) (c : CueIx) : State := s.cueLevel c (bit (s.cueCfg c.val) 8)

/-- Cancel the scheduled actions that `p` picks; each cue that had one goes to its safe level (R56). -/
def State.cancelCues (s : State) (p : CueAction → Bool) : State :=
  let hit := s.cue.actions.filter p
  let s := { s with cue := { s.cue with actions := s.cue.actions.filter fun a => !p a } }
  hit.foldl (fun s a => s.cueSafe a.act.cue) s

/-- Schedule the cue list of a descriptor at its dispatch (R56). -/
def State.scheduleCues (s : State) (d : Desc) : State :=
  let acts := (List.zip (List.range d.cues.length) d.cues).map fun e =>
    ({ pack := d.pack, ring := d.ring.val, desc := d.id, entry := e.1, act := e.2, armed := !e.2.onValid, ret := none } : CueAction)
  { s with cue := { s.cue with actions := s.cue.actions ++ acts } }

/-- The order in which actions on one cue at one tick are taken (R56). -/
def CueAction.before (a b : CueAction) : Bool :=
  let k (x : CueAction) := [x.pack, x.ring, x.desc, x.entry]
  decide (k a < k b)

/-- Whether an action acts at the present tick (R55, R56). -/
def State.cueDue (s : State) (a : CueAction) : Bool :=
  match a.ret with
  | some (t, _) => decide (t ≤ s.tick.count)
  | none => a.armed && decide (a.act.pos ≤ s.cad.pos)

/-- The first of a list in the order of R56. -/
def firstCue : List CueAction → Option CueAction
  | [] => none
  | a :: l => match firstCue l with
    | some b => some (if b.before a then b else a)
    | none => some a

/-- Perform an action: drive the level, and begin or end its pulse (R55). While the module or the action's Pack
is Muzzled the cue stays at its safe level until a later action (R21, R28; log entry 15). -/
def State.cuePerform (s : State) (a : CueAction) : State :=
  let c := a.act.cue
  if s.packMuzzled a.pack then s else
  let s := { s with cue := { s.cue with owner := Table.put s.cue.owner c.val (a.pack, a.desc) } }
  match a.ret with
  | some (_, prior) => s.cueLevel c prior
  | none =>
    let prior := s.cue.level.getLsbD c.val
    let s := s.cueLevel c a.act.level
    let s := s.modDesc a.desc fun d => { d with run := { d.run with cueActed := true } }
    if a.act.pulse = 0 then s
    else { s with cue := { s.cue with actions :=
      s.cue.actions ++ [{ a with ret := some (s.tick.count + a.act.pulse, prior) }] } }

/-- The actions due on cue `c`. -/
def State.cuesDue (s : State) (c : CueIx) : List CueAction :=
  s.cue.actions.filter fun a => a.act.cue == c && s.cueDue a

/-- Evaluate one cue at a tick: the first due action is performed, the others, and those of a cue that has
acted at this tick, are discarded and counted (R56). -/
def State.evalCue (s : State) (c : CueIx) : State :=
  match firstCue (s.cuesDue c) with
  | none => s
  | some a =>
    let due := s.cuesDue c
    let again := s.cue.acted.contains c.val
    let s := { s with cue := { s.cue with
      actions := s.cue.actions.filter fun x => !(due.contains x)
      conflicts := sat 8 (s.cue.conflicts + (if again then due.length else due.length - 1))
      acted := c.val :: s.cue.acted } }
    if again then s else s.cuePerform a

/-- Evaluate every cue, in ascending number (R33). -/
def State.evalCues (s : State) : State := (List.finRange 16).foldl State.evalCue s

/-- A new tick: no cue has acted at it (R33). -/
def State.newCueTick (s : State) : State := { s with cue := { s.cue with acted := [] } }

/-- A record that marks its outputs valid arms the descriptor's ON_VALID actions; any other record cancels
them, and a status other than OK or LATE cancels every action of the descriptor (R55, R56). -/
def State.cuesAtRecord (s : State) (d : Desc) (ok valid : Bool) : State :=
  if !ok then s.cancelCues fun a => a.desc == d.id
  else if valid then
    { s with cue := { s.cue with actions := s.cue.actions.map fun a =>
        if a.desc == d.id then { a with armed := true } else a } }
  else s.cancelCues fun a => a.desc == d.id && a.act.onValid && !a.armed

/-- CUE_ACTION (R56): the first action due on the cue is a scheduled action, and it acts. -/
def execCueAction (c : CueIx) (s : State) : Result :=
  match firstCue (s.cuesDue c) with
  | some a => .next (if a.ret.isNone then s.newCueTick.evalCue c else s)
  | none => .next s

/-- CUE_PULSE_END (R55, R56): the first action due on the cue is the return of a pulse, and the cue takes its
prior level. -/
def execCuePulseEnd (c : CueIx) (s : State) : Result :=
  match firstCue (s.cuesDue c) with
  | some a => .next (if a.ret.isSome then s.newCueTick.evalCue c else s)
  | none => .next s

end Sys2Proof.Machine
end

