-- ==== Sys2Proof/Machine/Descriptors.lean ====
section
/-! DEFINITION. How a descriptor ends: what stops at once (R21, R90), when its last transaction has retired, and
the shared ways a run comes to doubt. -/
namespace Sys2Proof.Machine
open Sys2Proof

/-- Status codes (R92). -/
def stOk : Nat := 0x0000
def stCancelled : Nat := 0x0001
def stCancelledAfter : Nat := 0x0002
def stLate : Nat := 0x0003
def stDeadline : Nat := 0x0004
def stTainted : Nat := 0x0010
def stAbsent : Nat := 0x0011
def stDeadlock : Nat := 0x0012
def stWaitTimeout : Nat := 0x0013
def stNan : Nat := 0x0020
def stCheck : Nat := 0x0021
def stMemory : Nat := 0x0022
def stPageTimeout : Nat := 0x0023
def stPruned : Nat := 0x0030
def stLinkLost : Nat := 0x0031
def stMuzzled : Nat := 0x0040
def stCadence : Nat := 0x0041
def stPowerHold : Nat := 0x0042
def stInvalid : Nat := 0x0050
def stHold : Nat := 0x0051

/-- OK and LATE are the statuses of a delivered result (R12, R92). -/
def okStatus (st : Nat) : Bool := st == stOk || st == stLate

/-- A stopped tile: engines halted, no hold, scoreboard and slots released, stream contexts that have
transactions in flight kept until those retire, their data to be discarded, and no set backed (R90, R100, R237).
`busy` tells which contexts have requests out on the links. -/
def TileSt.stopped (busy : Nat → Bool) (t : TileSt) : TileSt :=
  let halt (e : EngineSt) : EngineSt := { e with halted := true, hold := .none, loops := [] }
  let a := t.arr
  { t with
    mx := halt t.mx, ve := halt t.ve, sp := halt t.sp, ri := halt t.ri, ro := halt t.ro
    flights := []
    ctxs := (t.ctxs.filter fun c => !c.2.inflight.isEmpty || busy c.1).map fun c =>
      (c.1, { c.2 with next := c.2.total, fault := none, inflight := c.2.inflight.map fun k => { k with discard := true } })
    arr := { a with active := { a.active with held := [], backed := false }, shadow := { a.shadow with held := [], backed := false } } }

/-- A stream context has requests out on the links. -/
def State.ctxBusy (s : State) (ix c : Nat) : Bool :=
  s.links.fabric.reqs.any fun q => q.tile == ix && (match q.ctx with
    | some k => k.1 == c
    | none => false)

/-- Stop the tiles of a Pack; hub check units of their ended streams are free. -/
def State.stopTiles (s : State) (p : Nat) : State :=
  let s := (s.shape p).tiles.foldl (fun s i => s.modTile i (TileSt.stopped (s.ctxBusy i))) s
  let gone (o : Nat × Nat) : Bool := (s.shape p).tiles.contains o.1 && !((s.tile o.1).ctxs.any fun c => c.1 == o.2)
  let free (u : CrcUnit) : CrcUnit := match u.owner with
    | some o => if gone o then { u with owner := none } else u
    | none => u
  { s with paging := { s.paging with crc := s.paging.crc.map fun e => (e.1, free e.2) } }

/-- A multicast that its root's descriptor stops: nothing beyond what was sent follows, and one with nothing
unacknowledged is over. -/
def LinkFabric.stopGroups (l : LinkFabric) (id : Nat) : LinkFabric :=
  let out (g : Nat) : Bool := l.reqs.any fun q => q.flow == 65536 + g && q.desc == some id
  { l with groups := (l.groups.filter fun e => e.2.desc != some id || out e.1).map fun e =>
      if e.2.desc == some id then (e.1, { e.2 with total := e.2.sent, parts := [], more := false, sigs := [] }) else e }

/-- Stop a Pack's run as a cancel stops it (R90): nothing further issues, signals are not delivered, requests not
yet sent are discarded, hooks end. -/
def State.stopPack (s : State) (p id : Nat) : State :=
  let s := s.modLf fun l => { l with reqs := l.reqs.filter fun q => !(q.desc == some id && q.first.isNone) }
  let s := (s.modLf fun l => l.stopGroups id).stopTiles p
  let s := { s with tiles := { s.tiles with
    signals := s.tiles.signals.filter fun g => g.pack != some p
    faults := s.tiles.faults.filter fun f => f.desc != id } }
  let s := s.modPack p fun k => { k with barriers := [], deadSince := none, loading := none, copySrc := [], copyParts := [], copyFault := none }
  { s with fabric := { s.fabric with ports := s.fabric.ports.map fun e =>
      (e.1, e.2.abandon fun h => h.desc == id) } }

/-- No transaction of the descriptor's Pack is outstanding (R90, R152): no stream context in flight, no request
on the links, no COPY chunk, no signal under way. -/
def State.retired (s : State) (p id : Nat) : Bool :=
  ((s.shape p).tiles.all fun i => (s.tile i).ctxs.isEmpty) && (s.fabric.ports.all fun e => e.2.hooks.all fun h => h.desc != id) &&
    (s.links.fabric.reqs.all fun q => q.desc != some id) &&
    !s.signalsOut p

/-- End a descriptor with a status: a running one stops and waits for its last transaction; one not dispatched is
ended at once; one that is ending or ended keeps the status it has (R53, R89, R90). -/
def State.endDesc (s : State) (id st : Nat) : State :=
  match s.desc? id with
  | none => s
  | some d =>
    match d.phase with
    | .running | .finished =>
      let s := s.stopPack d.pack id
      s.modDesc id fun d => { d with phase := .ending, status := st }
    | .reading | .rejected | .arrived | .waiting | .parked =>
      let s := { s with tiles := { s.tiles with swaps := s.tiles.swaps.filter fun w => w.desc != id } }
      s.modDesc id fun d => { d with phase := .ended, status := st }
    | .ending | .ended | .recorded => s

/-- Latch a class-5 end of a descriptor for the next tick (R31, R32). -/
def State.latchFault (s : State) (id st : Nat) : State :=
  { s with tiles := { s.tiles with faults := s.tiles.faults ++ [⟨id, st⟩] } }

/-- Latch a fault of whatever descriptor runs on a Pack. -/
def State.latchPackFault (s : State) (p st : Nat) : State :=
  match (s.pack p).desc with
  | some id => s.latchFault id st
  | none => s

/-- Latch the end of a descriptor that a command names, if any. -/
def State.latchOwner (s : State) (o : Option Nat) (st : Nat) : State :=
  match o with
  | some id => s.latchFault id st
  | none => s

/-- Reason codes of R163. -/
def rsUndefined : Nat := 0x01
def rsReserved : Nat := 0x02
def rsWrongEngine : Nat := 0x03
def rsAbsent : Nat := 0x04
def rsPair : Nat := 0x05
def rsKBound : Nat := 0x06
def rsExact : Nat := 0x07
def rsAddress : Nat := 0x08
def rsOutside : Nat := 0x09
def rsBranch : Nat := 0x0A
def rsStreamEnd : Nat := 0x0B
def rsLoopDepth : Nat := 0x0C
def rsSemSat : Nat := 0x0D
def rsStrictOnline : Nat := 0x0E
def rsBarrier : Nat := 0x0F

/-- The word of SHP_ILL_TILE without VALID (R173). -/
def illTile (t : TileId) (engine reason : Nat) : Nat :=
  t.col.val + 32 * t.row.val + 1024 * engine + 8192 * reason

/-- Taint the descriptor that runs on a tile's Pack: LOG 0x0101 (R164, R384), the Pack's SHP_ILL registers for
the descriptor's first illegal instruction, its count for later ones (R164, R173), and the taint (R163, R165). -/
def State.taint (s : State) (t : TileId) (engine pc reason : Nat) (word : QWord) : State :=
  match s.packOf t with
  | none => s
  | some p =>
    match s.running p with
    | none => s
    | some d =>
      let w0 := illTile t engine reason
      let s := s.raise .log 0x0101 p (leBytes 4 w0 ++ leBytes 4 pc ++ leBytes 4 d.f.job.toNat ++ leBytes 16 word.toNat)
      let s := s.modDesc d.id fun d => { d with run := { d.run with tainted := true } }
      let put (l : Table Word) (o v : Nat) : Table Word := Table.put l (8 * p + o) (BitVec.ofNat 32 v)
      let ill := s.tiles.regs.ill
      let ill :=
        if (s.pack p).illSeen then
          Table.put ill (8 * p + 7) (BitVec.ofNat 32 (sat 32 ((Table.get 0 ill (8 * p + 7)).toNat + 1)))
        else
          let x := word.toNat
          put (put (put (put (put (put (put ill 0 (w0 + 2 ^ 31)) 1 pc) 2 d.f.job.toNat) 3 x) 4 (x / 2 ^ 32)) 5 (x / 2 ^ 64)) 6 (x / 2 ^ 96)
      let s := { s with tiles := { s.tiles with regs := { s.tiles.regs with ill := ill } } }
      s.modPack p fun k => { k with illSeen := true }

/-- Set the sticky flags of the descriptor that runs on a Pack (R142). -/
def State.setFlags (s : State) (p : Nat) (ovf inv : Bool) : State :=
  match (s.pack p).desc with
  | none => s
  | some id => s.modDesc id fun d =>
      { d with run := { d.run with overflow := d.run.overflow || ovf, invalid := d.run.invalid || inv } }

end Sys2Proof.Machine
end

