-- ==== Sys2Proof/Machine/Cadence.lean ====
section
/-! DEFINITION. The cadence unit (R35 to R53): its sources, the tracking loop, coasting, faults, clearing and
re-acquisition. -/
namespace Sys2Proof.Machine
open Sys2Proof

/-- One cycle in 40.24 form. -/
def oneCycle : Nat := 2 ^ 24
/-- The position of the LOG and of the RANGE fault (R49). -/
def cadLogPos : Nat := 0xFF00000000000000
def cadRangePos : Nat := 0xFFFFFF0000000000

/-- Fields of CAD_SOURCE (R59). -/
def State.cadSource (s : State) : Nat := bits (s.regN 0x20100) 0 3
def State.cycEdge (s : State) : Bool := bit (s.regN 0x20100) 3
def State.cycDiv (s : State) : Nat := bits (s.regN 0x20100) 4 8
def State.encDir (s : State) : Bool := bit (s.regN 0x20100) 14
def State.encCpr (s : State) : Nat := s.regN 0x20104
def State.coastLimit (s : State) : Nat := s.regN 0x20108
/-- CAD_JUMP_LIMIT, 16.16, in units of 2^-24 cycle. -/
def State.jumpLimit (s : State) : Nat := s.regN 0x2010C * 256
/-- CAD_TC_CTRL: INTERVAL in ns, DELAY in ns. -/
def State.tcInterval (s : State) : Nat := bits (s.regN 0x20110) 0 20 * 1000
def State.tcDelay (s : State) : Nat := bits (s.regN 0x20110) 20 12

def State.modCad (s : State) (f : CadSt → CadSt) : State := { s with cad := f s.cad }

/-- The unit runs: LOCKED or COASTING (R51). -/
def CadSt.runs (c : CadSt) : Bool := c.state == .locked || c.state == .coasting

/-- CAD_STATUS (R59). -/
def CadState.code : CadState → Nat
  | .acquire => 0
  | .locked => 1
  | .coasting => 2
  | .fault => 3

def CadSt.statusWord (c : CadSt) : Nat :=
  c.shown.code + 16 * b2n c.loss + 32 * b2n c.jumpBack + 64 * b2n c.jumpFwd + 128 * b2n c.upstreamHold + 256 * b2n c.range

/-- CAD_RATE: the estimated rate in cycles per second, 20.12 (R43, R59). -/
def CadSt.rateWord (c : CadSt) : Nat := sat 32 (c.track.num * 1000000000 / c.track.den / 4096)

/-- The extrapolated position (R43, R44). -/
def CadTrack.extrapolate (t : CadTrack) (now : Nat) : Nat :=
  if t.den = 0 then t.lastPos
  else if t.lastAt ≤ now then t.lastPos + t.num * (now - t.lastAt) / t.den
  else t.lastPos - t.num * (t.lastAt - now) / t.den

/-- The next expected source position (R43): the next count, whole cycle, frame or message. -/
def State.nextSource (s : State) : Nat :=
  let t := s.cad.track
  match s.cadSource with
  | 0 => t.lastPos + t.num * s.tcInterval / t.den
  | 1 => t.lastPos + ceilDiv oneCycle s.encCpr
  | 2 => (t.lastPos / oneCycle + 1) * oneCycle
  | _ => t.lastPos + t.num * t.period / t.den

/-- The position sampled at time `now` (R35, R43, R44). The clamp of R43 holds the position last sampled below
the next expected source position, as the worked example of a lost grid period shows. -/
def State.cadSample (s : State) (now : Nat) : Nat :=
  let c := s.cad
  let floor (x : Nat) : Nat := if c.reseeded then x else max x c.pos
  match c.state with
  | .fault => c.pos
  | .acquire => c.pos
  | .coasting => floor (c.track.extrapolate now)
  | .locked =>
    let raw := c.track.extrapolate now
    let nxt := s.nextSource
    if s.cadSource = 4 ∨ c.track.den = 0 ∨ raw < nxt then floor raw
    else
      let hold := max c.pos c.track.lastPos
      floor (if !c.reseeded && decide (hold < nxt) then hold else nxt - 1)

/-- Enter ACQUIRE (R47, R48). -/
def CadSt.acquire (c : CadSt) : CadSt :=
  { c with state := .acquire, seed := true, backSeen := false, fwdSeen := false, rangeSeen := false,
           track := { c.track with lockCount := 0, edges := 0, num := 0, den := 0, meanNum := 0, meanDen := 0, period := 0 } }

/-- Lock at a source value `v` that applied at `t`, and re-seed (R47, R49). `own` holds for the sources whose
count is the unit's own, ENCODER and CYCLE. -/
def CadSt.lock (c : CadSt) (own : Bool) (v t : Nat) : CadSt :=
  let seed := if c.zeroSeed then 0 else if own then (c.pos / oneCycle + 1) * oneCycle else v - c.base
  { c with
    state := .locked, reseeded := true, zeroSeed := false, seed := false
    base := if c.zeroSeed && !own then v else c.base
    track := { c.track with lastPos := seed, lastAt := t, lockCount := 0, encCount := 0,
                            edges := 0, cycles := seed / oneCycle } }

/-- A source value `v`, already less CAD_BASE, while the unit runs (R44, R45, R49). `back` holds for a
transition that counts down. Every accepted value, a quadrature transition too, starts the time of R44 again (log entry
118). -/
def CadSt.accept (c : CadSt) (limit v t : Nat) (back : Bool) : CadSt :=
  let c := { c with rangeSeen := c.rangeSeen || decide (cadRangePos ≤ v) }
  let ref := if c.reseeded then c.track.lastPos else c.pos
  if back || decide (v < c.track.lastPos) then { c with backSeen := true }
  else if ref + limit < v then { c with fwdSeen := true }
  else { c with state := .locked, track := { c.track with lastPos := v, lastAt := t } }

/-- The rate expected of the interval that begins, from the mean rates of the last two: the last one and its change
again. Under a steady change of s for each cycle its phase error stays within s / 2 (R43, log entry 11). -/
def trendRate (num den num0 den0 : Nat) : Nat × Nat :=
  let up := 2 * num * den0
  if den0 = 0 || decide (up ≤ num0 * den) then (num, den) else (up - num0 * den, den * den0)

/-- An interval with the mean rate `num / den` has ended, and the expected period of the source events is `per`; for
the sources whose event is a whole cycle it follows from the rate (R43, R44). -/
def CadSt.rated (c : CadSt) (num den per : Nat) (whole : Bool) : CadSt :=
  if den = 0 then c
  else
    let r := trendRate num den c.track.meanNum c.track.meanDen
    { c with track := { c.track with
        num := r.1, den := r.2, meanNum := num, meanDen := den
        period := if whole && r.1 != 0 then oneCycle * r.2 / r.1 else per } }

/-! ## Sources -/

/-- Position that a frame carries (R37). -/
def framePos (bits : BitVec 96) : Nat := (bits.extractLsb' 8 40).toNat * oneCycle + (bits.extractLsb' 48 24).toNat

/-- A source that reports positions, TIMECODE or LINK: a valid value `v` that applied at `t`. Two consecutive
ones lock the unit (R36). `fresh` holds for a value that cannot be consecutive to the one before. -/
def CadSt.reported (c : CadSt) (limit v t per : Nat) (fresh : Bool) : CadSt :=
  match c.state with
  | .fault => c
  | .acquire =>
    if c.track.lockCount = 0 ∨ fresh then
      { c with track := { c.track with lockCount := 1, lastPos := v, lastAt := t } }
    else
      let dp := v - c.track.lastPos
      let dt := t - c.track.lastAt
      (c.lock false v t).rated dp dt (if per = 0 then dt else per) false
  | .locked | .coasting =>
    if fresh then c
    else
      let v := v - c.base
      let dp := v - c.track.lastPos
      let dt := t - c.track.lastAt
      let c' := c.accept limit v t false
      if c'.backSeen || c'.fwdSeen then c' else c'.rated dp dt (if per = 0 then dt else per) false

/-- The CRC of a frame (R37): over bits [79:0], least significant bit first. -/
def timecodeCrc (b : BitVec 80) : BitVec 16 := BitVec.ofNat 16 (crcBytes .crc16 0 (leBytes 10 b.toNat))

/-- TIMECODE_FRAME (R36 to R38): a preamble violation and a CRC mismatch discard the frame; a SEQ out of turn
discards it too, except for re-acquisition; a reserved type is ignored, but it has taken its SEQ. The previous SEQ is
that of the last frame that passed its CRC, and a frame's position applies, for coasting too, at its reference instant
plus DELAY (log entry 118). -/
def execTimecodeFrame (t : Nat) (bits : BitVec 96) (preambleOk : Bool) (s : State) : Result :=
  .next <|
    if s.cadSource ≠ 0 then s
    else if !preambleOk || timecodeCrc (bits.extractLsb' 0 80) != bits.extractLsb' 80 16 then
      s.modCad fun c => { c with tcCrc := sat 16 (c.tcCrc + 1) }
    else if bits.extractLsb' 0 4 != 1 then
      s.modCad fun c => { c with track := { c.track with seq := some (bits.extractLsb' 72 8) } }
    else
      let seq : Byte := bits.extractLsb' 72 8
      let inTurn := match s.cad.track.seq with
        | none => true
        | some q => seq == q + 1
      s.modCad fun c =>
        let c := { c with
          track := { c.track with seq := some seq }
          tcCrc := if inTurn then c.tcCrc else sat 16 (c.tcCrc + 1)
          upstreamHold := if inTurn then bits.getLsbD 4 else c.upstreamHold }
        c.reported s.jumpLimit (framePos bits) (t + s.tcDelay) s.tcInterval !inTurn

/-- The source value of the ENCODER source (R39). -/
def CadTrack.encPos (t : CadTrack) (cpr : Nat) : Nat :=
  ((t.cycles * oneCycle : Nat) + min (t.encCount * oneCycle / cpr) (oneCycle - 1) : Int).toNat

/-- ENCODER_TRANSITION (R39). -/
def execEncoderTransition (t : Nat) (aLeads : Bool) (s : State) : Result :=
  .next <|
    if s.cadSource ≠ 1 then s
    else
      let up := aLeads != s.encDir
      s.modCad fun c =>
        let tr := { c.track with encCount := c.track.encCount + (if up then 1 else -1) }
        let c := { c with track := tr }
        if c.runs then c.accept s.jumpLimit (tr.encPos s.encCpr) t (!up) else c

/-- ENCODER_INDEX (R36, R39, R47): the count within the cycle becomes zero and the cycle count advances; in
ACQUIRE a second pulse CAD_ENC_CPR ± CAD_ENC_CPR / 8 counts after the first locks. -/
def execEncoderIndex (t : Nat) (s : State) : Result :=
  .next <|
    if s.cadSource ≠ 1 then s
    else s.modCad fun c =>
      let tr := c.track
      let near := (tr.encCount - s.encCpr).natAbs * 8 ≤ s.encCpr
      let per := t - tr.runAt
      let c := { c with track := { tr with encCount := 0, runAt := t, cycles := tr.cycles + 1 } }
      match c.state with
      | .fault => c
      | .acquire =>
        if tr.lockCount ≠ 0 ∧ near then (c.lock true 0 t).rated oneCycle per per true
        else { c with track := { c.track with lockCount := 1 } }
      | .locked | .coasting =>
        let c' := c.accept s.jumpLimit (c.track.cycles * oneCycle) t false
        if c'.backSeen || c'.fwdSeen then c' else c'.rated oneCycle per per true

/-- A whole cycle of the CYCLE source has ended at `t` (R36, R40). -/
def CadSt.cycleEnd (c : CadSt) (limit t : Nat) : CadSt :=
  let tr := c.track
  let dur := t - tr.runAt
  let c := { c with track := { tr with edges := 0, runAt := t } }
  match c.state with
  | .fault => c
  | .acquire =>
    let within := 2 ≤ tr.lockCount ∧ ((dur : Int) - tr.period).natAbs * 8 ≤ tr.period
    if within then
      if tr.lockCount = 4 then (c.lock true 0 t).rated oneCycle dur dur true
      else { c with track := { c.track with lockCount := tr.lockCount + 1, period := dur } }
    else { c with track := { c.track with lockCount := 2, period := dur } }
  | .locked | .coasting =>
    let c := { c with track := { c.track with cycles := tr.cycles + 1 } }
    let c' := c.accept limit (c.track.cycles * oneCycle) t false
    if c'.backSeen || c'.fwdSeen then c' else c'.rated oneCycle dur dur true

/-- CYC_IN_EDGE (R40): an edge of a pulse of `width` ns. A pulse shorter than 20 ns is ignored and counted once,
at its rising edge. In ACQUIRE the first counted edge starts the first cycle (R36): lockCount 1. -/
def execCycInEdge (t : Nat) (rising : Bool) (width : Nat) (s : State) : Result :=
  .next <|
    if s.cadSource ≠ 2 then s
    else if width < 20 then
      if rising then s.modCad fun c => { c with glitch := sat 16 (c.glitch + 1) } else s
    else if !rising && !s.cycEdge then s
    else s.modCad fun c =>
      if c.state == .acquire && c.track.lockCount == 0 then
        { c with track := { c.track with lockCount := 1, edges := 0, runAt := t } }
      else if c.track.edges = s.cycDiv then c.cycleEnd s.jumpLimit t
      else { c with track := { c.track with edges := c.track.edges + 1 } }

/-- The LINK source (R41, R324): the master's position and rate, compensated by the one-way latency. The compensated
position is the source value that R45 judges and R49 records (log entry 118). -/
def State.cadLink (s : State) (t pos rate : Nat) (hold : Bool) : State :=
  if s.cadSource ≠ 3 then s
  else s.modCad fun c =>
    let v := pos + rate * 4096 * c.track.latency / 1000000000
    let c := { c with upstreamHold := hold }
    c.reported s.jumpLimit v t 0 false

/-! ## Coasting and faults -/

/-- The expected period of R44, ns; zero when none applies. -/
def State.expectedPeriod (s : State) : Nat :=
  match s.cadSource with
  | 0 => s.tcInterval
  | 4 => 0
  | _ => s.cad.track.period

/-- The unit is to enter COASTING at the present tick (R44). -/
def State.coastDue (s : State) : Bool :=
  s.cad.state == .locked && s.cadSource != 4 && s.expectedPeriod != 0 &&
    decide (9 * s.expectedPeriod ≤ 8 * (s.tick.now - s.cad.track.lastAt))

/-- The unit is to take a LOSS fault at the present tick (R44). -/
def State.lossDue (s : State) : Bool :=
  s.cad.state == .coasting && decide (s.coastLimit * s.expectedPeriod ≤ s.tick.now - s.cad.track.coastAt)

/-- Enter COASTING when it is due (R44). -/
def State.coast (s : State) : State :=
  if s.coastDue then s.modCad fun c =>
    { c with state := .coasting, shown := .coasting, track := { c.track with coastAt := s.tick.now } }
  else s

/-- The faults of one tick (R46). -/
structure CadFaults where
  loss : Bool := false
  back : Bool := false
  fwd : Bool := false
  range : Bool := false
  deriving DecidableEq, Repr

/-- A descriptor that a cadence fault ends: timed, and running or waiting for its start (R22, R46). -/
def Desc.cadenceHits (d : Desc) : Bool :=
  d.timed && (d.phase == .running || d.phase == .finished || d.phase == .waiting ||
    d.phase == .arrived || d.phase == .parked)

/-- Take a cadence fault (R46): freeze the position, end the timed descriptors, cancel the cue actions, raise
the ALARM. -/
def State.cadFault (s : State) (f : CadFaults) : State :=
  if !(f.loss || f.back || f.fwd || f.range) then s
  else
    let s := s.modCad fun c => { c with
      state := .fault, shown := .fault, faultPos := c.pos
      loss := c.loss || f.loss, jumpBack := c.jumpBack || f.back, jumpFwd := c.jumpFwd || f.fwd
      range := c.range || f.range, zeroSeed := c.zeroSeed || f.range
      backSeen := false, fwdSeen := false, rangeSeen := false }
    let hit := (s.shep.descs.filter Desc.cadenceHits).map Desc.id
    let s := hit.foldl (fun s id => s.endDesc id stCadence) s
    let s := s.cancelCues fun _ => true
    s.raise .alarm 0x0002 noInst
      (leBytes 4 s.cad.statusWord ++ leBytes 8 s.cad.faultPos)

/-- The faults that hold at the present tick (R44, R45, R49). -/
def State.cadFaultsNow (s : State) : CadFaults :=
  if s.cad.runs then
    ⟨s.lossDue, s.cad.backSeen, s.cad.fwdSeen, s.cad.rangeSeen || decide (cadRangePos ≤ s.cad.pos)⟩
  else {}

/-- The LOG of R49, once for each crossing. -/
def State.cadNear (s : State) : State :=
  if s.cad.pos < cadLogPos then s.modCad fun c => { c with nearLogged := false }
  else if s.cad.nearLogged then s
  else (s.modCad fun c => { c with nearLogged := true }).raise .log 0x010D noInst
    (leBytes 8 s.cad.pos ++ leBytes 8 s.cad.base)

/-- Sample the cadence at a tick edge (R31, R43, R44). -/
def State.cadLatch (s : State) : State :=
  let s := s.coast
  let p := s.cadSample s.tick.now
  (s.modCad fun c => { c with pos := p, shown := c.state, reseeded := false }).cadNear

/-- A CADENCE_SET takes effect (R42): false when it changes nothing and completes INVALID_DESCRIPTOR. One whose position
is a jump completes OK, and its position is not taken (log entry 118). -/
def State.cadSet (s : State) (pos rate : Nat) : Bool × State :=
  if s.cadSource ≠ 4 || s.cad.state == .fault then (false, s)
  else
    let take (c : CadSt) (p : Nat) : CadSt :=
      { c with state := .locked, shown := .locked, pos := p, seed := false, zeroSeed := false
               track := { c.track with lastPos := p, lastAt := s.tick.now, num := rate * 4096, den := 1000000000 } }
    if s.cad.seed then
      (true, (s.modCad fun c => take c (if c.zeroSeed then 0 else pos)).cadNear)
    else if pos < s.cad.pos then (true, s.modCad fun c => { c with backSeen := true })
    else if s.cad.pos + s.jumpLimit < pos then
      (true, s.modCad fun c => { c with fwdSeen := true, rangeSeen := c.rangeSeen || decide (cadRangePos ≤ pos) })
    else (true, (s.modCad fun c => take c pos).cadNear)

/-- Clear fault bits; with none left set, the unit leaves FAULT and enters ACQUIRE (R47). -/
def State.cadClear (s : State) (w : Nat) : State :=
  s.modCad fun c =>
    let c := { c with loss := c.loss && !bit w 4, jumpBack := c.jumpBack && !bit w 5,
                      jumpFwd := c.jumpFwd && !bit w 6, range := c.range && !bit w 8 }
    if c.state == .fault && !(c.loss || c.jumpBack || c.jumpFwd || c.range) then
      { c.acquire with shown := .acquire }
    else c

/-- A G0 commit has changed CAD_SOURCE (R48): CAD_BASE becomes zero, and outside FAULT the unit enters ACQUIRE
and holds the position. -/
def State.cadSourceChanged (s : State) : State :=
  s.modCad fun c =>
    let c := { c with base := 0, track := { c.track with seq := none, encCount := 0 } }
    if c.state == .fault then c else { c.acquire with shown := .acquire }

/-- COASTING (R44). -/
def execCoasting (s : State) : Result := .next s.coast

/-- LOSS (R44, R46). With COAST_LIMIT zero it falls at the tick at which COASTING would begin. -/
def execLoss (s : State) : Result :=
  .next (s.coast.cadFault { loss := s.coast.lossDue })

/-- JUMP_BACK (R45, R46). -/
def execJumpBack (s : State) : Result := .next (s.cadFault { back := s.cad.runs && s.cad.backSeen })

/-- JUMP_FWD (R45, R46). -/
def execJumpFwd (s : State) : Result := .next (s.cadFault { fwd := s.cad.runs && s.cad.fwdSeen })

/-- CAD_STATUS_CLEAR: a write of CAD_STATUS (R47, R59). -/
def execCadStatusClear (w : Word) (s : State) : Result := .next (s.cadClear w.toNat)

/-- Send a probe to the module of CAD_LINK_MASTER: when a link has trained, and every 1 ms (R41, R324). -/
def State.sendProbe (s : State) (t : Nat) : State :=
  if s.devid.isNone || s.devid == some (s.regN 0x20114) then s
  else (s.modCad fun c => { c with track := { c.track with probeAt := some t } }).sendMsg ⟨.probe, s.regN 0x20114, 0, t, 0⟩

/-- LATENCY_PROBE (R41, R324): a module with the LINK source sends a probe to its master. -/
def execLatencyProbe (t : Nat) (s : State) : Result :=
  .next (if s.cadSource ≠ 3 then s else s.sendProbe t)

/-- PROBE_ECHO (R324): at the prober the returned echo of the probe sent at `sent` fixes the one-way latency;
a master echoes a probe of the module `src` unchanged. -/
def execProbeEcho (t sent : Nat) (src : BitVec 14) (s : State) : Result :=
  .next <|
    if s.cad.track.probeAt = some sent then
      s.modCad fun c => { c with track := { c.track with probeAt := none, latency := (t - sent) / 2 } }
    else if bit (s.regN 0xF000C) 0 then s.sendMsg ⟨.probe, src.toNat, 0, sent, 0⟩
    else s

/-- A descriptor with a hard deadline that has not completed at a position at or past it (R15, R52): the
descriptor Muzzle, DEADLINE_WITHHELD. In ACQUIRE no deadline is evaluated (R51). -/
def State.deadlineMissed (s : State) (d : Desc) : Bool :=
  s.cad.runs && d.timed && d.hard && decide (d.f.deadline ≤ s.cad.pos) &&
    (d.phase == .running || d.phase == .finished || d.phase == .waiting || d.phase == .arrived || d.phase == .parked)

/-- HARD_DEADLINE (R52). -/
def State.hardDeadline (s : State) (id : Nat) : State :=
  match s.desc? id with
  | some d => if s.deadlineMissed d then s.endDesc id stDeadline else s
  | none => s

def execHardDeadline (id : Nat) (s : State) : Result := .next (s.hardDeadline id)

end Sys2Proof.Machine
end

