-- ==== Sys2Proof/Machine/Numbers.lean ====
section
/-! DEFINITION. Numbers and formats (R119 to R123, R128, R131, R134 to R141): exact binary values, decoding, correct
rounding, conversion, and the arithmetic that rounds once. -/
namespace Sys2Proof.Machine
open Sys2Proof

/-- A value: NaN, a signed infinity, a signed zero, or (−1)^neg × m × 2^e with m not zero. -/
inductive Num where
  | nan
  | inf (neg : Bool)
  | zero (neg : Bool)
  | fin (neg : Bool) (m : Nat) (e : Int)
  deriving DecidableEq, Repr

/-- The value of an exact integer times a power of two; zero is +0. -/
def Num.ofInt (x : Int) (e : Int) : Num := if x = 0 then .zero false else .fin (decide (x < 0)) x.natAbs e

def Num.isNan : Num → Bool
  | .nan => true
  | _ => false

def Num.isInf : Num → Bool
  | .inf _ => true
  | _ => false

def Num.isZero : Num → Bool
  | .zero _ => true
  | _ => false

/-- NaN or an infinity. -/
def Num.special (x : Num) : Bool := x.isNan || x.isInf

def Num.neg : Num → Bool
  | .nan => false
  | .inf s => s
  | .zero s => s
  | .fin s _ _ => s

def Num.negate : Num → Num
  | .nan => .nan
  | .inf s => .inf !s
  | .zero s => .zero !s
  | .fin s m e => .fin (!s) m e

def Num.abs : Num → Num
  | .nan => .nan
  | .inf _ => .inf false
  | .zero _ => .zero false
  | .fin _ m e => .fin false m e

/-- A finite value as an integer in units of 2^e0; a value with finer bits is truncated toward zero. -/
def Num.units (e0 : Int) : Num → Int
  | .fin s m e =>
    let k : Nat := if e0 ≤ e then m * 2 ^ (e - e0).toNat else m / 2 ^ (e0 - e).toNat
    if s then -(k : Int) else k
  | _ => 0

/-- Exact product; infinity times zero is NaN (R133, R136). -/
def Num.mul : Num → Num → Num
  | .nan, _ => .nan
  | _, .nan => .nan
  | .inf _, .zero _ => .nan
  | .zero _, .inf _ => .nan
  | .inf s, y => .inf (s != y.neg)
  | x, .inf t => .inf (x.neg != t)
  | .zero s, y => .zero (s != y.neg)
  | x, .zero t => .zero (x.neg != t)
  | .fin s m e, .fin t n f => .fin (s != t) (m * n) (e + f)

/-- Exact sum. Opposite infinities give NaN; a sum is −0 only when every term is −0 (R134). A sum of finite values
that is zero is +0. -/
def Num.add : Num → Num → Num
  | .nan, _ => .nan
  | _, .nan => .nan
  | .inf s, .inf t => if s = t then .inf s else .nan
  | .inf s, _ => .inf s
  | _, .inf t => .inf t
  | .zero s, .zero t => .zero (s && t)
  | .zero _, y => y
  | x, .zero _ => x
  | .fin s m e, .fin t n f =>
    let g := min e f
    Num.ofInt (Num.units g (.fin s m e) + Num.units g (.fin t n f)) g

def Num.sub (x y : Num) : Num := x.add y.negate

/-- Order of two values that are not NaN, with −0 equal to +0 (R134). -/
def Num.lt (x y : Num) : Bool :=
  match x, y with
  | .nan, _ => false
  | _, .nan => false
  | .inf s, .inf t => s && !t
  | .inf s, _ => s
  | _, .inf t => !t
  | x, y => match x.sub y with
    | .fin true _ _ => true
    | _ => false

def Num.eq (x y : Num) : Bool := !x.isNan && !y.isNan && !x.lt y && !y.lt x

def Num.le (x y : Num) : Bool := x.lt y || x.eq y

/-- Maximum and minimum ignore a NaN operand; max(+0, −0) is +0 and min(+0, −0) is −0 (R134). -/
def Num.max (x y : Num) : Num :=
  if x.isNan then y else if y.isNan then x
  else if x.lt y then y else if y.lt x then x
  else match x, y with
    | .zero s, .zero t => .zero (s && t)
    | x, _ => x

def Num.min (x y : Num) : Num :=
  if x.isNan then y else if y.isNan then x
  else if x.lt y then x else if y.lt x then y
  else match x, y with
    | .zero s, .zero t => .zero (s || t)
    | x, _ => x

/-- The total order of R135, strictly: NaN < −infinity < negative < −0 < +0 < positive < +infinity. -/
def Num.before (x y : Num) : Bool :=
  match x, y with
  | .nan, .nan => false
  | .nan, _ => true
  | _, .nan => false
  | .zero s, .zero t => s && !t
  | x, y => x.lt y

/-! ## Formats (R119 to R122) -/

/-- A binary floating-point format: precision, exponent of its least subnormal, width, the code of its largest finite
magnitude, the code of infinity if it has one, and its canonical NaN if it has one. -/
structure FloatFmt where
  prec : Nat
  emin : Int
  width : Nat
  maxCode : Nat
  infCode : Option Nat
  nan : Option Nat
  deriving DecidableEq, Repr

def fp32 : FloatFmt := ⟨24, -149, 32, 0x7F7FFFFF, some 0x7F800000, some 0x7FC00000⟩
def bf16 : FloatFmt := ⟨8, -133, 16, 0x7F7F, some 0x7F80, some 0x7FC0⟩
def fp16 : FloatFmt := ⟨11, -24, 16, 0x7BFF, some 0x7C00, some 0x7E00⟩
def e4m3 : FloatFmt := ⟨4, -9, 8, 0x7E, none, some 0x7F⟩
def e5m2 : FloatFmt := ⟨3, -16, 8, 0x7B, some 0x7C, some 0x7E⟩
def fp4 : FloatFmt := ⟨2, -1, 4, 0x7, none, none⟩
/-- FP32e (R128). -/
def fp32e : FloatFmt := ⟨24, -533, 34, 0x1FF7FFFFF, some 0x1FF800000, some 0x1FFC00000⟩

/-- Value of a code. -/
def FloatFmt.decode (f : FloatFmt) (x : Nat) : Num :=
  let s := bit x (f.width - 1)
  let c := x % 2 ^ (f.width - 1)
  let h := 2 ^ (f.prec - 1)
  if some c = f.infCode then .inf s
  else if f.maxCode < c then .nan
  else if c = 0 then .zero s
  else if c < h then .fin s c f.emin
  else .fin s (h + c % h) (f.emin + (c / h : Nat) - 1)

/-- How to round: to nearest with ties to even, toward zero, stochastically with the draw's 24 bits, and toward +∞
for the bounds of the check column (R107, R137, R139). -/
inductive Round where
  | rne | rtz | sr (u : Nat) | up
  deriving DecidableEq, Repr

/-- A magnitude `m × 2^e` in units of `2^q`, rounded. `neg` matters only toward +∞. -/
def roundMag (r : Round) (neg : Bool) (m : Nat) (e q : Int) : Nat :=
  if q ≤ e then m * 2 ^ (e - q).toNat
  else
    let d := (q - e).toNat
    let k := m / 2 ^ d
    let rem := m % 2 ^ d
    match r with
    | .rne => if 2 * rem > 2 ^ d ∨ (2 * rem = 2 ^ d ∧ k % 2 = 1) then k + 1 else k
    | .rtz => k
    | .sr u => if 2 ^ 24 ≤ rem * 2 ^ 24 / 2 ^ d + u then k + 1 else k
    | .up => if rem ≠ 0 ∧ !neg then k + 1 else k

/-- The code of a magnitude rounded to the format's precision, with an unbounded exponent range (R138). -/
def FloatFmt.roundCode (f : FloatFmt) (r : Round) (neg : Bool) (m : Nat) (e : Int) : Nat :=
  let q := max f.emin (e + Nat.log2 m - (f.prec - 1 : Nat))
  (q - f.emin).toNat * 2 ^ (f.prec - 1) + roundMag r neg m e q

/-- Put a sign on a magnitude code. -/
def FloatFmt.signed (f : FloatFmt) (neg : Bool) (c : Nat) : Nat := c + (if neg then 2 ^ (f.width - 1) else 0)

/-- A result with the sticky flags that it sets (R142). -/
structure Flagged where
  code : Nat
  ovf : Bool := false
  inv : Bool := false
  deriving DecidableEq, Repr

/-- Convert to a floating-point format (R141). `ieee` selects the overflow mode. -/
def FloatFmt.convert (f : FloatFmt) (r : Round) (ieee : Bool) (x : Num) : Flagged :=
  match x with
  | .nan => match f.nan with
    | some c => { code := c }
    | none => { code := f.maxCode, inv := true }
  | .inf s => match f.infCode, f.nan with
    | some c, _ => { code := f.signed s c }
    | none, some n => if ieee then { code := n, inv := true } else { code := f.signed s f.maxCode, ovf := true }
    | none, none => { code := f.signed s f.maxCode, ovf := true }
  | .zero s => { code := f.signed s 0 }
  | .fin s m e =>
    let c := f.roundCode r s m e
    if c ≤ f.maxCode then { code := f.signed s c }
    else if !ieee then { code := f.signed s f.maxCode, ovf := true }
    else match f.infCode, f.nan with
      | some i, _ => { code := f.signed s i, ovf := true }
      | none, some n => { code := n, ovf := true }
      | none, none => { code := f.signed s f.maxCode, ovf := true }

/-- Convert to an integer of `n` bits (R141). -/
def convertInt (n : Nat) (r : Round) (x : Num) : Flagged :=
  let top := 2 ^ (n - 1) - 1
  let bottom := 2 ^ (n - 1)
  match x with
  | .nan => { code := 0, inv := true }
  | .inf s => { code := if s then bottom else top, ovf := true }
  | .zero _ => { code := 0 }
  | .fin s m e =>
    let k := roundMag r s m e 0
    if s then (if k ≤ bottom then { code := (2 ^ n - k) % 2 ^ n } else { code := bottom, ovf := true })
    else if k ≤ top then { code := k } else { code := top, ovf := true }

/-- FMT codes (R122). -/
inductive Fmt where
  | fp32 | bf16 | fp16 | e4m3 | e5m2 | fp4 | int8 | int4 | acc
  deriving DecidableEq, Repr

def fmtOf : Nat → Option Fmt
  | 0 => some .fp32
  | 1 => some .bf16
  | 2 => some .fp16
  | 3 => some .e4m3
  | 4 => some .e5m2
  | 5 => some .fp4
  | 6 => some .int8
  | 7 => some .int4
  | 8 => some .acc
  | _ => none

/-- Bits of an element. -/
def Fmt.bits : Fmt → Nat
  | .fp32 => 32
  | .bf16 => 16
  | .fp16 => 16
  | .e4m3 => 8
  | .e5m2 => 8
  | .fp4 => 4
  | .int8 => 8
  | .int4 => 4
  | .acc => 128

/-- Bytes that `n` packed elements take. -/
def Fmt.span (f : Fmt) (n : Nat) : Nat := ceilDiv (n * f.bits) 8

def Fmt.float : Fmt → Option FloatFmt
  | .fp32 => some Sys2Proof.Machine.fp32
  | .bf16 => some Sys2Proof.Machine.bf16
  | .fp16 => some Sys2Proof.Machine.fp16
  | .e4m3 => some Sys2Proof.Machine.e4m3
  | .e5m2 => some Sys2Proof.Machine.e5m2
  | .fp4 => some Sys2Proof.Machine.fp4
  | _ => none

/-- Value of an element; an entry of ACC128 is decoded in Accumulate.lean. -/
def Fmt.decode (f : Fmt) (x : Nat) : Num :=
  match f.float with
  | some g => g.decode (x % 2 ^ g.width)
  | none => Num.ofInt (Sys2Proof.Machine.signed f.bits (x % 2 ^ f.bits)) 0

/-- Convert to a format other than ACC128 (R141). -/
def Fmt.convert (f : Fmt) (r : Round) (ieee : Bool) (x : Num) : Flagged :=
  match f.float with
  | some g => g.convert r ieee x
  | none => convertInt f.bits r x

/-- Value of a scale (R121, R122). -/
def scaleValue (sf : Nat) (x : Nat) : Num :=
  if sf = 1 then (if x % 256 = 255 then .nan else .fin false 1 ((x % 256 : Nat) - 127))
  else if sf = 2 then Sys2Proof.Machine.fp32.decode (x % 2 ^ 32)
  else .fin false 1 0

/-- Bytes of a scale. -/
def scaleBytes (sf : Nat) : Nat := if sf = 1 then 1 else if sf = 2 then 4 else 0

/-! ## FP32 and FP32e operations that round once -/

/-- Overflow modes and default rounding (R146). -/
structure NumCtl where
  defRnd : Nat
  ieee32 : Bool
  ieeeB : Bool
  ieeeH : Bool
  ieee43 : Bool
  ieee52 : Bool
  deriving DecidableEq, Repr

def numCtlOf (w : Nat) : NumCtl := ⟨bits w 0 2, bit w 2, bit w 3, bit w 4, bit w 5, bit w 6⟩

/-- Overflow mode for a target: OVF, or the default (R141). -/
def NumCtl.ieee (c : NumCtl) (ovf : Nat) (f : Fmt) : Bool :=
  if ovf = 1 then false else if ovf = 2 then true
  else match f with
    | .fp32 => c.ieee32
    | .bf16 => c.ieeeB
    | .fp16 => c.ieeeH
    | .e4m3 => c.ieee43
    | .e5m2 => c.ieee52
    | _ => false

/-- A result of FP32e: always RNE (R129). -/
def toE (x : Num) : Nat := (fp32e.convert .rne true x).code

/-- FP32e sum of two codes. -/
def addE (x y : Nat) : Nat := toE ((fp32e.decode x).add (fp32e.decode y))

/-- Pairwise tree over a list of 2^n places; an absent place passes its partner on (R129). -/
def treeE {α : Type} (f : α → α → α) : Nat → List (Option α) → Option α
  | 0, l => (l.head?).join
  | n + 1, l =>
    let h := 2 ^ n
    match treeE f n (l.take h), treeE f n (l.drop h) with
    | some a, some b => some (f a b)
    | some a, none => some a
    | none, b => b

/-- Split of an FP32 operand (R131): hi, mid, lo as BF16 values; the middle and low parts of an infinity or a NaN are
split zeros, which contribute nothing. -/
def splitFp32 (x : Nat) : Num × Option Num × Option Num :=
  let v := fp32.decode x
  let t (y : Num) : Num := bf16.decode (bf16.convert .rtz true y).code
  match v with
  | .nan => (.nan, none, none)
  | .inf s => (.inf s, none, none)
  | _ =>
    let hi := t v
    let r := v.sub hi
    let mid := t r
    (hi, some mid, some (t (r.sub mid)))

/-- Whether a result is a NaN produced from operands none of which is NaN (R142). -/
def madeNan (args : List Num) (r : Num) : Bool := r.isNan && !(args.any Num.isNan)

/-- Quotient of two values, exact but for a sticky last place: enough bits for one correct rounding to FP32 or
FP32e. Zero by zero and infinity by infinity are NaN; a finite value by zero is an infinity. -/
def Num.div : Num → Num → Num
  | .nan, _ => .nan
  | _, .nan => .nan
  | .inf _, .inf _ => .nan
  | .zero _, .zero _ => .nan
  | .inf s, y => .inf (s != y.neg)
  | x, .inf t => .zero (x.neg != t)
  | .zero s, y => .zero (s != y.neg)
  | x, .zero t => .inf (x.neg != t)
  | .fin s m e, .fin t n f =>
    let k := Nat.log2 n + 64
    let q := m * 2 ^ k / n
    .fin (s != t) (2 * q + (if m * 2 ^ k % n = 0 then 0 else 1)) (e - f - k - 1)

/-! ## Stochastic rounding (R140) -/

/-- Advance a generator: one draw. -/
def genStep (s : DWord) : DWord :=
  let s := s ^^^ (s <<< 13)
  let s := s ^^^ (s >>> 7)
  s ^^^ (s <<< 17)

/-- The seed of a generator (R140). -/
def genSeed (salt job iter lrow lcol engine : Nat) : DWord :=
  let b (x n : Nat) : DWord := BitVec.ofNat 64 x <<< n
  let s := b salt 0 ^^^ b job 32 ^^^ b (iter % 65536) 16 ^^^ b lrow 11 ^^^ b lcol 6 ^^^ b engine 4
  if s = 0 then 0x9E3779B97F4A7C15 else s

/-- The 24 bits of a draw that R139 uses. -/
def genBits (s : DWord) : Nat := s.toNat / 2 ^ 40

/-! ## Square root -/

/-- Integer square root by bits from 2^n down. -/
def isqrtGo (x : Nat) : Nat → Nat → Nat
  | 0, r => r
  | n + 1, r => let c := r + 2 ^ n; isqrtGo x n (if c * c ≤ x then c else r)

def isqrt (x : Nat) : Nat := isqrtGo x (Nat.log2 x / 2 + 1) 0

end Sys2Proof.Machine
end

