-- ==== Sys2Proof/Machine/Flags.lean ====
section
/-! DEFINITION. The sticky flags and the NaN events of a numeric instruction (R142 to R144, R146). -/
namespace Sys2Proof.Machine
open Sys2Proof

/-- Where a NaN event arose (R146): ENGINE, SIDE, ROW, COL and K. -/
structure NanPos where
  engine : Nat
  side : Nat
  row : Nat
  col : Nat
  k : Nat
  deriving DecidableEq, Repr

/-- What the arithmetic of an instruction raises: the sticky flags, its first NaN event and how many there are. -/
structure NumEv where
  ovf : Bool := false
  inv : Bool := false
  first : Option NanPos := none
  count : Nat := 0
  deriving DecidableEq, Repr

/-- Events in sequence. -/
def NumEv.andThen (a b : NumEv) : NumEv :=
  ⟨a.ovf || b.ovf, a.inv || b.inv, if a.first.isSome then a.first else b.first, a.count + b.count⟩

/-- Flags of a conversion. -/
def Flagged.ev (f : Flagged) : NumEv := { ovf := f.ovf, inv := f.inv }

/-- One NaN event. -/
def nanEv (p : NanPos) : NumEv := { first := some p, count := 1 }

/-- `n` NaN events of which the first is at `p`. -/
def nanEvs (n : Nat) (p : NanPos) : NumEv := if n = 0 then {} else { first := some p, count := n }

/-- One NaN event if the condition holds. -/
def nanIf (b : Bool) (p : NanPos) : NumEv := if b then nanEv p else {}

/-- A NaN produced from operands none of which is NaN: INVALID, and an event with SIDE 0x4 (R142, R144). -/
def invalidAt (b : Bool) (p : NanPos) : NumEv :=
  if b then { inv := true, first := some { p with side := 4 }, count := 1 } else {}

/-- Events of a list of parts in order. -/
def evsOf (l : List NumEv) : NumEv := l.foldl NumEv.andThen {}

/-- NUM_NAN_TILE without FAULT and VALID (R146). -/
def nanTileWord (t : Nat) (p : NanPos) : Nat := t % 32 + 32 * (t / 32) + 2 ^ 10 * p.engine + 2 ^ 13 * p.side

/-- Apply the events of an instruction at `pc` of a tile: the sticky flags at once, the NaN events for the next tick
unless NAN_ACTION is propagate (R142, R143); under the fault action the trap takes its place among the faults (R145). -/
def State.numEvents (s : State) (tile p pc : Nat) (d : Desc) (ev : NumEv) : State :=
  let s := s.setFlags p ev.ovf ev.inv
  match ev.first with
  | none => s
  | some q =>
    if d.nanAction = 0 then s
    else
      let s := if d.nanAction = 2 then s.latchFault d.id stNan else s
      s.modPack p fun k => { k with
      nanPend := k.nanPend ++ [(tile, [nanTileWord tile q, pc, d.f.job.toNat, q.row + 2 ^ 16 * q.col, q.k], ev.count)] }

/-- The pending events of a Pack with the first of them in front: lower logical row and column first (R144). -/
def firstNan : List (Nat × List Nat × Nat) → Option (Nat × List Nat × Nat)
  | [] => none
  | x :: l => match firstNan l with
    | some y => some (if y.1 < x.1 then y else x)
    | none => some x

/-- Class 5: the NaN events sampled at a tick (R143, R144). -/
def State.sampleNans (s : State) (p : Nat) : State :=
  let k := s.pack p
  match firstNan k.nanPend, s.running p with
  | some f, some d =>
    let total := (k.nanPend.map fun e => e.2.2).foldl (· + ·) 0
    let fault := d.nanAction == 2
    let put (t : Table Word) (o v : Nat) : Table Word := Table.put t (8 * p + o) (BitVec.ofNat 32 v)
    let r := s.tiles.regs.nan
    let count := (Table.get 0 r (8 * p + 5)).toNat
    let words := match f.2.1 with
      | w :: l => (w + 2 ^ 17 * b2n fault + 2 ^ 31) :: l
      | [] => []
    let r :=
      if k.nanSeen then put r 5 (sat 32 (count + total))
      else put ((List.zip (List.range 5) words).foldl (fun t e => put t e.1 e.2) r) 5 (sat 32 (count + total - 1))
    let s := { s with tiles := { s.tiles with regs := { s.tiles.regs with nan := r } } }
    let s := s.modPack p fun k => { k with nanPend := [], nanSeen := true }
    let s := if k.nanSeen then s else s.raise .log 0x0102 p (words.flatMap (leBytes 4))
    if fault then s.endDesc d.id stNan else s
  | _, _ => s

end Sys2Proof.Machine
end

