-- ==== Sys2Proof/Machine/Accumulate.lean ====
section
/-! DEFINITION. Accumulator entries (R125 to R129): exact entries, FP32e entries, and their combination. -/
namespace Sys2Proof.Machine
open Sys2Proof

/-- An exact entry (R125, R126); VALUE is in units of 2^-32. -/
structure Exact where
  value : Int := 0
  pinf : Bool := false
  ninf : Bool := false
  nan : Bool := false
  seen : Bool := false
  negz : Bool := false
  deriving DecidableEq, Repr

/-- Modes of the array (R103). -/
inductive MxMode where
  | mac | l1 | l2sq | minplus | maxplus | cmpcount
  deriving DecidableEq, Repr

def mxModeOf : Nat → Option MxMode
  | 0 => some .mac
  | 1 => some .l1
  | 2 => some .l2sq
  | 3 => some .minplus
  | 4 => some .maxplus
  | 5 => some .cmpcount
  | _ => none

/-- A term as an entry of its own (R127). -/
def Exact.term (x : Num) : Exact :=
  match x with
  | .nan => { nan := true }
  | .inf s => { pinf := !s, ninf := s, seen := true }
  | .zero s => { seen := true, negz := s }
  | x => { value := x.units (-32), seen := true }

/-- The value of an entry (R126). -/
def Exact.num (x : Exact) : Num :=
  if x.nan then .nan
  else if x.pinf then .inf false
  else if x.ninf then .inf true
  else if x.value = 0 then .zero x.negz
  else Num.ofInt x.value (-32)

/-- Ends of the 96-bit range (R124). -/
def exactTop : Int := 2 ^ 95 - 1
def exactBottom : Int := -2 ^ 95

/-- Combination by addition (R127), with the flags it sets. -/
def Exact.add (x y : Exact) : Exact × NumEv :=
  let v := x.value + y.value
  let v' := max exactBottom (min exactTop v)
  let pinf := x.pinf || y.pinf
  let ninf := x.ninf || y.ninf
  let seen := x.seen || y.seen
  ({ value := v', pinf := pinf, ninf := ninf, seen := seen
     nan := x.nan || y.nan || (pinf && ninf)
     negz := seen && v' == 0 && (!x.seen || x.negz) && (!y.seen || y.negz) },
   { ovf := decide (v ≠ v'), inv := pinf && ninf && !x.nan && !y.nan })

/-- Combination in the tropical modes (R127). -/
def Exact.select (least : Bool) (x y : Exact) : Exact × NumEv :=
  (if x.seen && y.seen then
     let a := x.num
     let b := y.num
     let r := if least then a.min b else a.max b
     if r = a then x else y
   else if x.seen then x
   else if y.seen then y
   else { nan := x.nan || y.nan }, {})

def Exact.combine (m : MxMode) (x y : Exact) : Exact × NumEv :=
  match m with
  | .minplus => Exact.select true x y
  | .maxplus => Exact.select false x y
  | _ => x.add y

/-! ## 128-bit entries (R125) -/

/-- An entry holds FP32e. -/
def entryIsE (w : QWord) : Bool := w.getLsbD 101

def Exact.ofEntry (w : QWord) : Exact :=
  ⟨Machine.signed 96 (w.toNat % 2 ^ 96), w.getLsbD 96, w.getLsbD 97, w.getLsbD 98, w.getLsbD 99, w.getLsbD 100⟩

def Exact.entry (x : Exact) : QWord :=
  BitVec.ofNat 128 (unsigned 96 x.value + 2 ^ 96 * b2n x.pinf + 2 ^ 97 * b2n x.ninf + 2 ^ 98 * b2n x.nan +
    2 ^ 99 * b2n x.seen + 2 ^ 100 * b2n x.negz)

/-- The FP32e code of an entry; one that has not started is +0 (R125, R184). -/
def entryE (w : QWord) : Nat := if entryIsE w then w.toNat % 2 ^ 34 else 0

/-- An FP32e code as an entry. -/
def eEntry (c : Nat) : QWord := BitVec.ofNat 128 (c % 2 ^ 34 + 2 ^ 101)

/-- The value of an entry of either kind. -/
def entryNum (w : QWord) : Num := if entryIsE w then fp32e.decode (w.toNat % 2 ^ 34) else (Exact.ofEntry w).num

/-- A NaN entry: NAN set, or an FP32e NaN (R144). -/
def entryNan (w : QWord) : Bool := (entryNum w).isNan

/-- Combine two exact entries, or two FP32e entries with one rounding (R127, R129). -/
def combineEntries (fe : Bool) (m : MxMode) (x y : QWord) : QWord × NumEv :=
  if fe then
    let a := fp32e.decode (entryE x)
    let b := fp32e.decode (entryE y)
    (eEntry (addE (entryE x) (entryE y)), { inv := madeNan [a, b] (a.add b) })
  else
    let (r, ev) := Exact.combine m (Exact.ofEntry x) (Exact.ofEntry y)
    (r.entry, ev)

end Sys2Proof.Machine
end

