-- ==== Sys2Proof/Machine/Operands.lean ====
section
/-! DEFINITION. Instruction words of the tile engines: their layouts (R174, R175, R179, R180, R182, R186, R189, R190, R192,
R197), the words' fields, and the word of an instruction. -/
namespace Sys2Proof.Machine
open Sys2Proof

/-- VADD, VMUL, VFMA, VMAX, VMIN, VTAB and VCVT (R186). -/
inductive ElemOp where
  | vadd | vmul | vfma | vmax | vmin | vtab | vcvt
  deriving DecidableEq, Repr

/-- VRED and VTOPK (R189). -/
inductive RowOp where
  | vred | vtopk
  deriving DecidableEq, Repr

/-- MXLOAD (R182). -/
structure MxLoad where
  src : BitVec 14
  stride : BitVec 14
  fmt : BitVec 4
  part : BitVec 2
  krows : BitVec 8
  half : Bool
  deriving DecidableEq, Repr

/-- MXRUN (R182). -/
structure MxRun where
  src : BitVec 14
  rstride : BitVec 14
  fmt : BitVec 4
  m : BitVec 7
  slot : BitVec 2
  acc : Bool
  mode : BitVec 3
  cmp : BitVec 2
  pass : BitVec 2
  proEn : Bool
  proRec : BitVec 14
  deriving DecidableEq, Repr

/-- MXDRAIN (R182). -/
structure MxDrain where
  dst : BitVec 14
  dstride : BitVec 14
  fmt : BitVec 4
  m : BitVec 7
  slot : BitVec 2
  rnd : BitVec 2
  ovf : BitVec 2
  rscFmt : BitVec 2
  cscFmt : BitVec 2
  rsc : BitVec 14
  csc : BitVec 14
  epiEn : Bool
  epiRec : BitVec 14
  deriving DecidableEq, Repr

/-- The elementwise layout (R186). -/
structure Elem where
  dst : BitVec 14
  src1 : BitVec 14
  src2 : BitVec 14
  src3 : BitVec 14
  fmtD : BitVec 4
  fmt1 : BitVec 4
  fmt2 : BitVec 4
  fmt3 : BitVec 4
  n : BitVec 21
  rnd : BitVec 2
  ovf : BitVec 2
  bc2 : Bool
  bc3 : Bool
  table : BitVec 2
  deriving DecidableEq, Repr

/-- The row layout (R189). -/
structure Row where
  dst : BitVec 14
  src : BitVec 14
  idx : BitVec 14
  rows : BitVec 14
  fmtD : BitVec 4
  fmtS : BitVec 4
  len : BitVec 17
  k : BitVec 13
  op : BitVec 2
  rnd : BitVec 2
  ovf : BitVec 2
  deriving DecidableEq, Repr

/-- VSAMPLE (R190). -/
structure Samp where
  dst : BitVec 14
  src : BitVec 14
  fmt : BitVec 4
  len : BitVec 17
  k : BitVec 13
  ken : Bool
  stopEn : Bool
  psem : BitVec 6
  stop : BitVec 32
  temp : BitVec 16
  deriving DecidableEq, Repr

/-- SPFFT4 (R192). -/
structure Fft where
  src : BitVec 14
  dst : BitVec 14
  log4n : BitVec 4
  stage : BitVec 4
  inv : Bool
  shift : BitVec 2
  deriving DecidableEq, Repr

/-- SPMAC (R192). -/
structure Mac where
  xa : BitVec 13
  ya : BitVec 13
  n : BitVec 13
  conj : Bool
  elem : Bool
  dmem : Bool
  da : BitVec 13
  shift : BitVec 5
  deriving DecidableEq, Repr

/-- SPBEXP, SPNORM and SPEXP (R192). -/
structure Blk where
  mem : BitVec 2
  addr : BitVec 14
  n : BitVec 19
  deriving DecidableEq, Repr

/-- RGET and RPUT (R197). -/
structure Stream where
  ctx : BitVec 4
  laddr : BitVec 14
  chunk : BitVec 5
  slots : BitVec 8
  bind : Bool
  empty : BitVec 6
  full : BitVec 6
  rcd : BitVec 14
  deriving DecidableEq, Repr

/-- RGATHER (R197). -/
structure Gather where
  ctx : BitVec 4
  laddr : BitVec 14
  idx : BitVec 14
  rcd : BitVec 14
  nrows : BitVec 17
  rowb : BitVec 11
  deriving DecidableEq, Repr

/-- RSEND (R197). -/
structure Send where
  laddr : BitVec 14
  raddr : BitVec 14
  bytes : BitVec 21
  via : Bool
  col : BitVec 5
  row : BitVec 5
  flow : BitVec 16
  comb : BitVec 2
  deriving DecidableEq, Repr

/-- RMCAST (R197). -/
structure Mcast where
  laddr : BitVec 14
  raddr : BitVec 14
  bytes : BitVec 21
  group : BitVec 8
  deriving DecidableEq, Repr

/-- An instruction word, with every field of its layout. -/
inductive TileWord where
  | nop (delay : BitVec 16)
  | halt
  | jmp (target : BitVec 24)
  | brc (sem : BitVec 6) (cond : BitVec 2) (imm : BitVec 16) (target : BitVec 24)
  | loop (count last : BitVec 24)
  | sig (sem : BitVec 6) (inc : BitVec 16)
  | sigx (sem : BitVec 6) (via : Bool) (inc : BitVec 16) (col row : BitVec 5) (flow : BitVec 16)
  | wait (sem : BitVec 6) (consume timed : Bool) (count timeout : BitVec 16)
  | barrier (num : BitVec 2) (mask : BitVec 5)
  | mxload (f : MxLoad)
  | mxswap
  | mxrun (f : MxRun)
  | mxdrain (f : MxDrain)
  | elem (op : ElemOp) (f : Elem)
  | row (op : RowOp) (f : Row)
  | vsample (f : Samp)
  | spfft4 (f : Fft)
  | spmac (f : Mac)
  | spbexp (f : Blk)
  | spnorm (f : Blk) (amt : BitVec 6) (useHead : Bool)
  | spexp (f : Blk) (dmem : BitVec 2) (daddr : BitVec 14) (beout : Bool)
  | rget (f : Stream)
  | rput (f : Stream)
  | rgather (f : Gather)
  | rsend (f : Send)
  | rmcast (f : Mcast)
  deriving DecidableEq, Repr

def ElemOp.code : ElemOp → Nat
  | .vadd => 0x40
  | .vmul => 0x41
  | .vfma => 0x42
  | .vmax => 0x43
  | .vmin => 0x44
  | .vtab => 0x46
  | .vcvt => 0x47

def RowOp.code : RowOp → Nat
  | .vred => 0x45
  | .vtopk => 0x48

/-- The opcode (R175). -/
def TileWord.opcode : TileWord → Nat
  | .nop _ => 0x01
  | .halt => 0x02
  | .jmp _ => 0x03
  | .brc .. => 0x04
  | .loop .. => 0x05
  | .sig .. => 0x08
  | .sigx .. => 0x09
  | .wait .. => 0x0A
  | .barrier .. => 0x0B
  | .mxload _ => 0x20
  | .mxswap => 0x21
  | .mxrun _ => 0x22
  | .mxdrain _ => 0x23
  | .elem op _ => op.code
  | .row op _ => op.code
  | .vsample _ => 0x49
  | .spfft4 _ => 0x60
  | .spmac _ => 0x61
  | .spbexp _ => 0x62
  | .spnorm .. => 0x63
  | .spexp .. => 0x64
  | .rget _ => 0x80
  | .rgather _ => 0x81
  | .rput _ => 0xA0
  | .rsend _ => 0xA1
  | .rmcast _ => 0xA2

/-- A field at its place in the word. -/
def at' {n : Nat} (x : BitVec n) (lo : Nat) : QWord := x.setWidth 128 <<< lo

/-- A one-bit field at its place. -/
def bitAt (b : Bool) (lo : Nat) : QWord := at' (BitVec.ofBool b) lo

/-- The word of an instruction: its opcode and its fields at the places its layout names, every other bit zero
(R174). -/
def TileWord.encode (i : TileWord) : QWord :=
  BitVec.ofNat 128 i.opcode |||
  match i with
  | .nop delay => at' delay 8
  | .halt => 0
  | .jmp target => at' target 8
  | .brc sem cond imm target => at' sem 8 ||| at' cond 14 ||| at' imm 16 ||| at' target 32
  | .loop count last => at' count 8 ||| at' last 32
  | .sig sem inc => at' sem 8 ||| at' inc 16
  | .sigx sem via inc c r flow =>
    at' sem 8 ||| bitAt via 14 ||| at' inc 16 ||| at' c 32 ||| at' r 37 ||| at' flow 42
  | .wait sem consume timed count timeout =>
    at' sem 8 ||| bitAt consume 14 ||| bitAt timed 15 ||| at' count 16 ||| at' timeout 32
  | .barrier num mask => at' num 8 ||| at' mask 10
  | .mxload f =>
    at' f.src 8 ||| at' f.stride 22 ||| at' f.fmt 36 ||| at' f.part 40 ||| at' f.krows 42 ||| bitAt f.half 50
  | .mxswap => 0
  | .mxrun f =>
    at' f.src 8 ||| at' f.rstride 22 ||| at' f.fmt 36 ||| at' f.m 40 ||| at' f.slot 47 ||| bitAt f.acc 49 |||
      at' f.mode 50 ||| at' f.cmp 53 ||| at' f.pass 55 ||| bitAt f.proEn 57 ||| at' f.proRec 58
  | .mxdrain f =>
    at' f.dst 8 ||| at' f.dstride 22 ||| at' f.fmt 36 ||| at' f.m 40 ||| at' f.slot 47 ||| at' f.rnd 49 |||
      at' f.ovf 51 ||| at' f.rscFmt 53 ||| at' f.cscFmt 55 ||| at' f.rsc 57 ||| at' f.csc 71 ||| bitAt f.epiEn 85 |||
      at' f.epiRec 86
  | .elem _ f =>
    at' f.dst 8 ||| at' f.src1 22 ||| at' f.src2 36 ||| at' f.src3 50 ||| at' f.fmtD 64 ||| at' f.fmt1 68 |||
      at' f.fmt2 72 ||| at' f.fmt3 76 ||| at' f.n 80 ||| at' f.rnd 101 ||| at' f.ovf 103 ||| bitAt f.bc2 105 |||
      bitAt f.bc3 106 ||| at' f.table 107
  | .row _ f =>
    at' f.dst 8 ||| at' f.src 22 ||| at' f.idx 36 ||| at' f.rows 50 ||| at' f.fmtD 64 ||| at' f.fmtS 68 |||
      at' f.len 72 ||| at' f.k 89 ||| at' f.op 102 ||| at' f.rnd 104 ||| at' f.ovf 106
  | .vsample f =>
    at' f.dst 8 ||| at' f.src 22 ||| at' f.fmt 36 ||| at' f.len 40 ||| at' f.k 57 ||| bitAt f.ken 70 |||
      bitAt f.stopEn 71 ||| at' f.psem 72 ||| at' f.stop 78 ||| at' f.temp 110
  | .spfft4 f =>
    at' f.src 8 ||| at' f.dst 22 ||| at' f.log4n 36 ||| at' f.stage 40 ||| bitAt f.inv 44 ||| at' f.shift 45
  | .spmac f =>
    at' f.xa 8 ||| at' f.ya 21 ||| at' f.n 34 ||| bitAt f.conj 47 ||| bitAt f.elem 48 ||| bitAt f.dmem 49 |||
      at' f.da 50 ||| at' f.shift 63
  | .spbexp f => at' f.mem 8 ||| at' f.addr 10 ||| at' f.n 24
  | .spnorm f amt useHead => at' f.mem 8 ||| at' f.addr 10 ||| at' f.n 24 ||| at' amt 43 ||| bitAt useHead 49
  | .spexp f dmem daddr beout =>
    at' f.mem 8 ||| at' f.addr 10 ||| at' f.n 24 ||| at' dmem 43 ||| at' daddr 45 ||| bitAt beout 59
  | .rget f =>
    at' f.ctx 8 ||| at' f.laddr 12 ||| at' f.chunk 26 ||| at' f.slots 31 ||| bitAt f.bind 39 ||| at' f.empty 40 |||
      at' f.full 46 ||| at' f.rcd 52
  | .rput f =>
    at' f.ctx 8 ||| at' f.laddr 12 ||| at' f.chunk 26 ||| at' f.slots 31 ||| bitAt f.bind 39 ||| at' f.empty 40 |||
      at' f.full 46 ||| at' f.rcd 52
  | .rgather f =>
    at' f.ctx 8 ||| at' f.laddr 12 ||| at' f.idx 26 ||| at' f.rcd 40 ||| at' f.nrows 54 ||| at' f.rowb 71
  | .rsend f =>
    at' f.laddr 12 ||| at' f.raddr 26 ||| at' f.bytes 40 ||| bitAt f.via 61 ||| at' f.col 62 ||| at' f.row 67 |||
      at' f.flow 72 ||| at' f.comb 88
  | .rmcast f => at' f.laddr 12 ||| at' f.raddr 26 ||| at' f.bytes 40 ||| at' f.group 61

/-- A field of a word. -/
def fld (w : QWord) (lo n : Nat) : BitVec n := w.extractLsb' lo n

def elemOf (w : QWord) : Elem :=
  ⟨fld w 8 14, fld w 22 14, fld w 36 14, fld w 50 14, fld w 64 4, fld w 68 4, fld w 72 4, fld w 76 4, fld w 80 21,
    fld w 101 2, fld w 103 2, w.getLsbD 105, w.getLsbD 106, fld w 107 2⟩

def rowOf (w : QWord) : Row :=
  ⟨fld w 8 14, fld w 22 14, fld w 36 14, fld w 50 14, fld w 64 4, fld w 68 4, fld w 72 17, fld w 89 13, fld w 102 2,
    fld w 104 2, fld w 106 2⟩

def blkOf (w : QWord) : Blk := ⟨fld w 8 2, fld w 10 14, fld w 24 19⟩

def streamOf (w : QWord) : Stream :=
  ⟨fld w 8 4, fld w 12 14, fld w 26 5, fld w 31 8, w.getLsbD 39, fld w 40 6, fld w 46 6, fld w 52 14⟩

/-- The fields of a word, by its opcode; none when the opcode is not defined (R175). -/
def TileWord.fields (w : QWord) : Option TileWord :=
  match (fld w 0 8).toNat with
  | 0x01 => some (.nop (fld w 8 16))
  | 0x02 => some .halt
  | 0x03 => some (.jmp (fld w 8 24))
  | 0x04 => some (.brc (fld w 8 6) (fld w 14 2) (fld w 16 16) (fld w 32 24))
  | 0x05 => some (.loop (fld w 8 24) (fld w 32 24))
  | 0x08 => some (.sig (fld w 8 6) (fld w 16 16))
  | 0x09 => some (.sigx (fld w 8 6) (w.getLsbD 14) (fld w 16 16) (fld w 32 5) (fld w 37 5) (fld w 42 16))
  | 0x0A => some (.wait (fld w 8 6) (w.getLsbD 14) (w.getLsbD 15) (fld w 16 16) (fld w 32 16))
  | 0x0B => some (.barrier (fld w 8 2) (fld w 10 5))
  | 0x20 => some (.mxload ⟨fld w 8 14, fld w 22 14, fld w 36 4, fld w 40 2, fld w 42 8, w.getLsbD 50⟩)
  | 0x21 => some .mxswap
  | 0x22 => some (.mxrun ⟨fld w 8 14, fld w 22 14, fld w 36 4, fld w 40 7, fld w 47 2, w.getLsbD 49, fld w 50 3,
      fld w 53 2, fld w 55 2, w.getLsbD 57, fld w 58 14⟩)
  | 0x23 => some (.mxdrain ⟨fld w 8 14, fld w 22 14, fld w 36 4, fld w 40 7, fld w 47 2, fld w 49 2, fld w 51 2,
      fld w 53 2, fld w 55 2, fld w 57 14, fld w 71 14, w.getLsbD 85, fld w 86 14⟩)
  | 0x40 => some (.elem .vadd (elemOf w))
  | 0x41 => some (.elem .vmul (elemOf w))
  | 0x42 => some (.elem .vfma (elemOf w))
  | 0x43 => some (.elem .vmax (elemOf w))
  | 0x44 => some (.elem .vmin (elemOf w))
  | 0x45 => some (.row .vred (rowOf w))
  | 0x46 => some (.elem .vtab (elemOf w))
  | 0x47 => some (.elem .vcvt (elemOf w))
  | 0x48 => some (.row .vtopk (rowOf w))
  | 0x49 => some (.vsample ⟨fld w 8 14, fld w 22 14, fld w 36 4, fld w 40 17, fld w 57 13, w.getLsbD 70, w.getLsbD 71,
      fld w 72 6, fld w 78 32, fld w 110 16⟩)
  | 0x60 => some (.spfft4 ⟨fld w 8 14, fld w 22 14, fld w 36 4, fld w 40 4, w.getLsbD 44, fld w 45 2⟩)
  | 0x61 => some (.spmac ⟨fld w 8 13, fld w 21 13, fld w 34 13, w.getLsbD 47, w.getLsbD 48, w.getLsbD 49, fld w 50 13,
      fld w 63 5⟩)
  | 0x62 => some (.spbexp (blkOf w))
  | 0x63 => some (.spnorm (blkOf w) (fld w 43 6) (w.getLsbD 49))
  | 0x64 => some (.spexp (blkOf w) (fld w 43 2) (fld w 45 14) (w.getLsbD 59))
  | 0x80 => some (.rget (streamOf w))
  | 0x81 => some (.rgather ⟨fld w 8 4, fld w 12 14, fld w 26 14, fld w 40 14, fld w 54 17, fld w 71 11⟩)
  | 0xA0 => some (.rput (streamOf w))
  | 0xA1 => some (.rsend ⟨fld w 12 14, fld w 26 14, fld w 40 21, w.getLsbD 61, fld w 62 5, fld w 67 5, fld w 72 16,
      fld w 88 2⟩)
  | 0xA2 => some (.rmcast ⟨fld w 12 14, fld w 26 14, fld w 40 21, fld w 61 8⟩)
  | _ => none

/-- A word with every reserved bit zero (R174); none when the opcode is not defined or a reserved bit is set. -/
def TileWord.decode (w : QWord) : Option TileWord :=
  match TileWord.fields w with
  | some i => if i.encode = w then some i else none
  | none => none

/-- Engines that accept an opcode (R151). -/
def opcodeEngine (op : Nat) (e : Engine) : Bool :=
  if op < 0x20 then true
  else match e with
    | .mx => decide (op < 0x40)
    | .ve => decide (0x40 ≤ op) && decide (op < 0x60)
    | .sp => decide (0x60 ≤ op) && decide (op < 0x80)
    | .ri => decide (0x80 ≤ op) && decide (op < 0xA0)
    | .ro => decide (0xA0 ≤ op)

end Sys2Proof.Machine
end

