-- ==== Sys2Proof/Machine/LinkLayer.lean ====
section
/-! DEFINITION. The link layer of one link: the layout of flits and transaction headers, the streams of bytes that wait for
a link, the flits that leave, the retry buffer, acknowledgements and link credits (R310 to R315, R319). -/
namespace Sys2Proof.Machine
open Sys2Proof

/-! ## Layouts (R310, R319) -/

/-- CRC-32C of a list of bytes. -/
def crc32c (b : List Byte) : Nat := Poly.crc32c.finish (crcBytes .crc32c Poly.crc32c.init b)

/-- KIND (R310). -/
def flitCode : FlitKind → Nat
  | .data => 0
  | .control => 1
  | .hold => 2
  | .reserved => 3

def flitKindOf : Nat → FlitKind
  | 0 => .data
  | 1 => .control
  | 2 => .hold
  | _ => .reserved

/-- Payload bytes of a flit. -/
def flitPayload : Nat := 248

/-- The 256 bytes of a flit; a payload that is not full ends in zeros (log entry 126). -/
def flitBytes (f : Flit) (payload : List Byte) : List Byte :=
  let w := f.fseq.toNat + 2 ^ 10 * f.ack.toNat + 2 ^ 20 * b2n f.nak + 2 ^ 21 * f.crVc.val + 2 ^ 24 * f.crN.toNat +
    2 ^ 30 * flitCode f.kind
  let b := leBytes 4 w ++ payload ++ List.replicate (flitPayload - payload.length) 0
  b ++ leBytes 4 (crc32c b)

/-- The flit that 256 bytes spell; the CRC of any other number of bytes fails. -/
def flitOf (vc : Fin 8) (b : List Byte) : Flit :=
  let w := leNat (b.take 4)
  { fseq := BitVec.ofNat 10 w, ack := BitVec.ofNat 10 (w / 2 ^ 10), nak := bit w 20, crVc := Fin.ofNat 8 (bits w 21 3)
    crN := BitVec.ofNat 6 (bits w 24 6), kind := flitKindOf (bits w 30 2), vc := vc
    crcOk := decide (b.length = 256) && decide (leNat (b.drop 252) = crc32c (b.take 252)) }

/-- TYPE of a header (R319). A latency probe is sized as an RSIGNAL (R324) and spelled as one (log entry 126). -/
def TxType.code : TxType → Nat
  | .rread => 1
  | .rwrite => 2
  | .rsignal => 3
  | .tsend => 4
  | .mcast => 5
  | .readData => 6
  | .ack => 7
  | .clear => 8
  | .withdraw => 9
  | .prune => 10
  | .position => 11
  | .probe => 3

/-- Data follows a header of this TYPE. -/
def typeHasData (ty : Nat) : Bool := ty == 2 || ty == 4 || ty == 5 || ty == 6

/-- The fields of a header as this module writes it. -/
structure HeaderOut where
  type : TxType
  ctl : Nat := 0
  rflow : Nat := 0
  seq : Nat := 0
  token : Nat := 0
  len : Nat := 0
  target : Nat := 0
  fwdFlow : Nat := 0
  aux : Nat := 0
  deriving DecidableEq, Repr

/-- The 32 bytes of a header. -/
def HeaderOut.bytes (h : HeaderOut) : List Byte :=
  leBytes 1 h.type.code ++ leBytes 1 h.ctl ++ leBytes 2 h.rflow ++ leBytes 4 h.seq ++ leBytes 4 h.token ++ leBytes 4 h.len ++
    leBytes 8 h.target ++ leBytes 2 h.fwdFlow ++ leBytes 6 h.aux

/-- The header fields that 32 bytes spell: their TYPE and LEN, and the rest as it came from `src` on `vc` of `link`. -/
def headerOf (src : BitVec 14) (vc : Fin 8) (link : Fin 48) (b : List Byte) : Nat × Nat × Header :=
  let x := leNat (b.take 32)
  (bits x 0 8, bits x 96 32,
   { src := src, vc := vc, link := link, comb := BitVec.ofNat 2 (bits x 8 2), fwdEn := bit x 10, status := BitVec.ofNat 2 (bits x 11 2)
     rflow := BitVec.ofNat 16 (bits x 16 16), seq := BitVec.ofNat 32 (bits x 32 32), token := BitVec.ofNat 32 (bits x 64 32)
     target := BitVec.ofNat 64 (bits x 128 64), fwdFlow := BitVec.ofNat 16 (bits x 192 16) })

/-- A header that arrived, as it goes on (R313). -/
def headerOut (h : Header) (ty : TxType) (len : Nat) (aux : Nat) : HeaderOut :=
  { type := ty, ctl := h.comb.toNat + 4 * b2n h.fwdEn + 8 * h.status.toNat, rflow := h.rflow.toNat, seq := h.seq.toNat
    token := h.token.toNat, len := len, target := h.target.toNat, fwdFlow := h.fwdFlow.toNat, aux := aux }

/-! ## What waits for a link -/

/-- Bytes given to a link on a virtual channel. -/
def LinkMeas.stream (m : LinkMeas) (vc : Nat) : List Byte := Table.get [] m.streams vc

/-- Data flits sent and not acknowledged. -/
def LinkMeas.outstanding (m : LinkMeas) : Nat := m.retry.length

/-- The first byte of a further transaction would leave at once: the flit that takes it has a credit and a place in the
retry buffer (R311, R315). -/
def LinkMeas.room (m : LinkMeas) (vc : Nat) : Bool :=
  let n := (m.stream vc).length / flitPayload
  decide (n < m.credits.getD vc 0) && decide (n + m.retry.length < 512)

/-- Put the bytes of a transaction behind what waits for a link on a virtual channel. -/
def State.queueBytes (s : State) (n vc : Nat) (b : List Byte) : State :=
  s.modMeas n fun m => { m with streams := Table.put m.streams vc (m.stream vc ++ b) }

/-- Anything to send wakes a sleeping direction (R307). -/
def State.wakeTx (s : State) (n : Nat) : State :=
  if (s.link n).tx == .sleep then s.modLink n fun l => { l with tx := .wake } else s

/-! ## Flits that leave (R310 to R312) -/

/-- The virtual channel whose credits the next flit returns. -/
def LinkMeas.creditVc (m : LinkMeas) : Nat := ((List.range 8).find? fun v => m.creditDue.getD v 0 != 0).getD 0

/-- A flit leaves: with it go a NAK or the acknowledgement, and the link credits of one virtual channel. -/
def State.putFlit (s : State) (n : Nat) (kind : FlitKind) (fseq : BitVec 10) (vc : Nat) (payload : List Byte) : State :=
  let m := s.meas n
  let v := m.creditVc
  let k := min 63 (m.creditDue.getD v 0)
  let f : Flit :=
    { fseq := fseq, ack := m.rxSeq - 1, nak := m.nakDue, crVc := Fin.ofNat 8 v, crN := BitVec.ofNat 6 k, kind := kind
      vc := Fin.ofNat 8 vc, crcOk := true }
  let s := s.modLf fun l => { l with flits := l.flits ++ [(n, flitBytes f payload)] }
  s.modMeas n fun m => { m with
    nakDue := false, ackDue := false, creditDue := m.creditDue.set v (m.creditDue.getD v 0 - k), holdSent := kind == .hold }

/-- The next data flit of a virtual channel leaves, if it has a credit and a place in the retry buffer. -/
def State.flitStep (s : State) (n vc : Nat) : State :=
  let m := s.meas n
  let b := m.stream vc
  let c := m.credits.getD vc 0
  if b.isEmpty || c = 0 || decide (512 ≤ m.retry.length) then s
  else
    let p := b.take flitPayload
    let s := (s.countEv (linkUnit n) 0x040 1).putFlit n .data m.txSeq vc p
    s.modMeas n fun m => { m with
      streams := if b.length ≤ flitPayload then Table.erase m.streams vc else Table.put m.streams vc (b.drop flitPayload)
      credits := m.credits.set vc (c - 1), retry := m.retry ++ [⟨m.txSeq, vc, p, 0⟩], txSeq := m.txSeq + 1
      flitsTx := (m.flitsTx + 1) % 2 ^ 48, ackAt := if m.retry.isEmpty then s.tick.now else m.ackAt }

/-- The data flits of a virtual channel leave as far as they may. -/
def State.flitSteps (s : State) (n vc : Nat) : State :=
  (List.range (((s.meas n).stream vc).length / flitPayload + 1)).foldl (fun s _ => s.flitStep n vc) s

/-- Something is to be told that no data flit has told: a control flit, or a hold idle while the module is Muzzled, tells
it. -/
def State.controlFlit (s : State) (n : Nat) : State :=
  let m := s.meas n
  if m.nakDue || m.ackDue || m.creditDue.any (· != 0) then
    s.putFlit n (if s.muzzle.module.active then .hold else .control) m.txSeq 7 []
  else s

/-- The far end has a flit to come or an answer to get on a link. -/
def LinkMeas.busy (m : LinkMeas) : Bool :=
  m.nakDue || m.ackDue || m.creditDue.any (· != 0) || m.streams.any fun e => !e.2.isEmpty

/-- Everything that may leave on a link leaves; while the module is Muzzled only hold idles do (R312). -/
def State.flushLink (s : State) (n : Nat) : State :=
  if !(s.meas n).busy then s
  else if (s.link n).tx != .up then s.wakeTx n
  else
    let s := if s.muzzle.module.active then s else (List.range 8).foldl (fun s vc => s.flitSteps n vc) s
    s.controlFlit n

def State.flushLinks (s : State) : State := (s.links.meas.map Prod.fst).foldl State.flushLink s

/-- Resend the flits after an acknowledgement (go-back-N); none eight times without one (R311). True: the link is to go
DOWN. -/
def State.resendFlits (s : State) (n : Nat) : Bool × State :=
  let l := (s.meas n).retry
  let s := s.modMeas n fun m => { m with
    retry := l.map fun f => { f with resent := f.resent + 1 }, resent := sat 16 (m.resent + l.length) }
  let s := (s.countEv (linkUnit n) 0x042 l.length)
  if l.any fun f => decide (8 ≤ f.resent + 1) then (true, s)
  else (false, if (s.link n).tx != .up then s else l.foldl (fun s f => s.putFlit n .data f.fseq f.vc f.payload) s)

/-- The link layer of a link begins afresh with its lanes (log entry 126). -/
def LinkMeas.relink (m : LinkMeas) : LinkMeas :=
  { m with
    rxSeq := 0, txSeq := 0, txAcked := 0, retry := [], streams := [], nakDue := false, ackDue := false
    creditDue := [0, 0, 0, 0, 0, 0, 0, 0], credits := [64, 64, 64, 64, 64, 64, 64, 64], rxTail := [], holdSent := false }

end Sys2Proof.Machine
end

