-- ==== Sys2Proof/Machine/Muzzle.lean ====
section
/-! DEFINITION. The Muzzle (R20 to R30): entering at module, Pack and region scope, CAUSE_CLEAR, requests and
releases. -/
namespace Sys2Proof.Machine
open Sys2Proof

/-- Record a trigger at a scope (R24, R29): the first keeps its cause, later ones are counted. -/
def MzScope.enter (m : MzScope) (cause : Nat) : MzScope :=
  if m.active then
    { m with count := sat 8 (m.count + 1), met := m.met.filter (· != cause), causeClear := false
             seen := if m.seen.contains cause then m.seen else m.seen ++ [cause] }
  else { active := true, cause := cause, count := 1, seen := [cause] }

/-- Status of the descriptors that a trigger ends (R22). -/
def mzStatus (cause : Nat) : Nat :=
  if cause = 0x09 then stPowerHold else if cause = 0x0B then stMemory else stMuzzled

/-- A descriptor that a Muzzle ends: it runs, or its completion is sampled at the same tick (R23). -/
def Desc.muzzleHits (d : Desc) : Bool := d.phase == .running || d.phase == .finished || d.phase == .parked

/-- A further trigger of causes 0x05, 0x07, 0x08 and 0x09 starts their second again (R29). -/
def State.restartSecond (s : State) (cause : Nat) : State :=
  let t := s.ltime
  let now := s.tick.now
  { s with ltime :=
      if cause = 0x05 then { t with sensorsOkSince := now }
      else if cause = 0x07 then { t with supplyOkSince := now }
      else if cause = 0x08 then { t with tempOkSince := now }
      else if cause = 0x09 then { t with powerOkSince := now }
      else t }

/-- Every cue goes to its safe level (R21). -/
def State.cuesSafe (s : State) (p : CueIx → Bool) : State :=
  (List.finRange 16).foldl (fun s c => if p c then s.cueSafe c else s) s

/-- A cue is owned by a Pack's descriptors: it has an action of theirs, or one of them drove it last (R21). -/
def State.cueOwned (s : State) (p : Nat) (c : CueIx) : Bool :=
  (s.cue.actions.any fun a => a.pack == p && a.act.cue == c) || (Table.get (64, 0) s.cue.owner c.val).1 == p

/-- A cue is owned by one of some descriptors (R21). -/
def State.cueOf (s : State) (l : List Nat) (c : CueIx) : Bool :=
  (s.cue.actions.any fun a => l.contains a.desc && a.act.cue == c) ||
    (Table.get (64, 0) s.cue.owner c.val).1 != 64 && l.contains (Table.get (64, 0) s.cue.owner c.val).2

/-- The module Muzzle (R21, R22, R425). -/
def State.muzzleModule (s : State) (cause : Nat) : State :=
  let first := !s.muzzle.module.active
  let s := s.restartSecond cause
  let s := { s with muzzle := { s.muzzle with module := s.muzzle.module.enter cause } }
  if !first then s
  else
    let s := s.raise .alarm 0x0001 noInst (wordBytes s.muzzle.module.word)
    let s := { s with mod := { s.mod with pins := { s.mod.pins with muzzle := s.mod.vauxOk } } }
    let hit := (s.shep.descs.filter Desc.muzzleHits).map Desc.id
    (hit.foldl (fun s id => s.endDesc id (mzStatus cause)) s).cuesSafe fun _ => true

/-- A Pack Muzzle (R21, R22). `own` is the descriptor that the trigger ends with a status of its own. -/
def State.muzzlePack (s : State) (p cause : Nat) (own : Option (Nat × Nat)) : State :=
  let first := !(s.mzPack p).active
  let s := { s with muzzle := { s.muzzle with packs := Table.put s.muzzle.packs p ((s.mzPack p).enter cause) } }
  let s := match own with
    | some (id, st) => s.endDesc id st
    | none => s
  if !first then s
  else
    let s := s.raise .alarm 0x0001 p (wordBytes (s.mzPack p).word)
    let hit := (s.shep.descs.filter fun d => d.occupies && d.pack == p && d.muzzleHits).map Desc.id
    (hit.foldl (fun s id => s.endDesc id (mzStatus cause)) s).cuesSafe fun c => s.cueOwned p c

/-- Descriptors that use a hook on a port of a region (R22, R341). -/
def State.regionUsers (s : State) (r : Nat) : List Nat :=
  s.fabric.ports.flatMap fun e =>
    if (s.regionRect r).owns e.1 then e.2.hooks.map HookSt.desc else []

/-- A fabric-region Muzzle (R21, R22). -/
def State.muzzleRegion (s : State) (r cause : Nat) : State :=
  let first := !(s.mzRegion r).active
  let s := { s with muzzle := { s.muzzle with regions := Table.put s.muzzle.regions r ((s.mzRegion r).enter cause) } }
  if !first then s
  else
    let s := s.raise .alarm 0x0001 r (wordBytes (s.mzRegion r).word)
    let users := s.regionUsers r
    let s := s.modRegion r fun x =>
      let x := { x with ended := x.ended ++ users }
      if x.st == .active then { x with st := .isolated, byMuzzle := true, mzTick := s.tick.count } else x
    (users.foldl (fun s id => s.endDesc id stMuzzled) s).cuesSafe (s.cueOf users)

/-- One trigger (R24). -/
def State.muzzle1 (s : State) (t : Trigger) : State :=
  match t.scope with
  | .module => s.muzzleModule t.cause
  | .pack p => s.muzzlePack p.val t.cause none
  | .region r => s.muzzleRegion r.val t.cause

/-- The order of R24: module, Packs, regions; within a scope ascending cause. -/
def Scope.rank : Scope → Nat
  | .module => 0
  | .pack p => 1 + p.val
  | .region r => 65 + r.val

def Trigger.key (t : Trigger) : Nat := t.scope.rank * 32 + t.cause

/-- Insertion by a key, stable. -/
def insertBy {α : Type} (k : α → Nat) (x : α) : List α → List α
  | [] => [x]
  | y :: l => if k x < k y then x :: y :: l else y :: insertBy k x l

def sortBy {α : Type} (k : α → Nat) (l : List α) : List α := l.foldl (fun acc x => insertBy k x acc) []

/-- A state has lasted one second (R29). -/
def State.forSecond (s : State) (t : Nat) : Bool := decide (1000000000 ≤ s.since t)

/-- The condition of R29 for one cause. -/
def State.causeOk (s : State) (m : MzScope) (packDone : Bool) (cause : Nat) : Bool :=
  match cause with
  | 0x05 => s.forSecond s.ltime.sensorsOkSince
  | 0x07 => s.forSecond s.ltime.supplyOkSince
  | 0x08 => s.forSecond s.ltime.tempOkSince
  | 0x09 => s.forSecond s.ltime.powerOkSince
  | 0x0A => packDone
  | 0x0B => false
  | 0x0D => true
  | _ => m.met.contains cause

/-- CAUSE_CLEAR of one scope (R28, R29). -/
def State.clearOf (s : State) (m : MzScope) (packDone : Bool) : MzScope :=
  { m with causeClear := m.active && m.seen.all (s.causeOk m packDone) }

/-- Every transaction of a Pack has retired. -/
def State.packDone (s : State) (p : Nat) : Bool :=
  match (s.pack p).desc with
  | some id => s.retired p id
  | none => true

/-- Evaluate CAUSE_CLEAR at a tick edge (R28, R29). -/
def State.evalCauseClear (s : State) : State :=
  { s with muzzle := { s.muzzle with
      module := s.clearOf s.muzzle.module true
      packs := s.muzzle.packs.map fun e => (e.1, s.clearOf e.2 (s.packDone e.1))
      regions := s.muzzle.regions.map fun e => (e.1, s.clearOf e.2 true) } }

/-- The once-for-all condition of a cause has been met: re-initialisation, reload, a Nightwatch pass, an MC
restart, a function-level reset (R29). -/
def MzScope.meet (m : MzScope) (cause : Nat) : MzScope :=
  if m.active && m.seen.contains cause && !m.met.contains cause then { m with met := m.met ++ [cause] } else m

/-- Meet the condition of a cause at a scope (R29). -/
def State.meetScope (s : State) (t : Trigger) : State :=
  match t.scope with
  | .module => { s with muzzle := { s.muzzle with module := s.muzzle.module.meet t.cause } }
  | .pack p => { s with muzzle := { s.muzzle with packs := Table.put s.muzzle.packs p.val ((s.mzPack p.val).meet t.cause) } }
  | .region r => { s with muzzle := { s.muzzle with regions := Table.put s.muzzle.regions r.val ((s.mzRegion r.val).meet t.cause) } }

/-- The condition of a cause is met: for the Muzzle in force, and for a trigger that waits for its tick (R29). -/
def State.meet (s : State) (t : Trigger) : State :=
  let s := s.meetScope t
  if s.muzzle.triggers.contains t then { s with muzzle := { s.muzzle with early := s.muzzle.early ++ [t] } } else s

def State.meetModule (s : State) (cause : Nat) : State := s.meet ⟨.module, cause⟩

def State.meetRegion (s : State) (r : RegionIx) (cause : Nat) : State := s.meet ⟨.region r, cause⟩

/-- The scope that SHP_MZ_CTRL names (R30). -/
def mzScopeOf (scope : BitVec 2) (index : BitVec 6) : Option Scope :=
  match scope.toNat with
  | 0 => some .module
  | 1 => some (.pack index.toFin)
  | 2 => if h : index.toNat < 32 then some (.region ⟨index.toNat, h⟩) else none
  | _ => none

/-- What a function may name (R27, R30): the PF anything, a VF its own Packs. -/
def State.mayMuzzle (s : State) (fn : Nat) : Scope → Bool
  | .pack p => fn == 0 || ((s.shape p.val).enabled && (s.shape p.val).fn == fn)
  | _ => fn == 0

def State.mzResult (s : State) (fn : Nat) (r : BitVec 2) : State := s.modFn fn fun x => { x with mzResult := r }

/-- The state registers of a scope. -/
def State.mzOf (s : State) : Scope → MzScope
  | .module => s.muzzle.module
  | .pack p => s.mzPack p.val
  | .region r => s.mzRegion r.val

/-- MUZZLE_ENTER (R22, R30): the host request, cause 0x0D, is handled in class 1 of the next tick. -/
def State.mzEnter (s : State) (fn : Nat) (scope : BitVec 2) (index : BitVec 6) : State :=
  match mzScopeOf scope index with
  | none => s.mzResult fn 3
  | some sc => if s.mayMuzzle fn sc then (s.trigger sc 0x0D).mzResult fn 1 else s.mzResult fn 3

/-- A release request can be accepted (R25, R28): CAUSE_CLEAR reads 1; for a Pack or a region the module is not
Muzzled, and every descriptor of it has its record written: for a region, those that the Muzzle ended. -/
def State.mayRelease (s : State) (sc : Scope) : Bool :=
  (s.mzOf sc).causeClear &&
    match sc with
    | .module => true
    | .pack p => !s.muzzle.module.active &&
        !(s.shep.descs.any fun d => d.f.cls != 3 && d.f.cls != 5 && d.f.cls != 8 && d.pack == p.val)
    | .region r => !s.muzzle.module.active && (s.regionUsers r.val).isEmpty &&
        ((s.region r.val).ended.all fun id => (s.desc? id).isNone)

/-- MUZZLE_RELEASE (R28). -/
def State.mzRelease (s : State) (fn : Fn) (scope : BitVec 2) (index : BitVec 6) : State :=
  match mzScopeOf scope index with
  | none => s.mzResult fn.val 3
  | some sc =>
    if !s.mayMuzzle fn.val sc then s.mzResult fn.val 3
    else if s.mayRelease sc then
      { s with muzzle := { s.muzzle with releases := s.muzzle.releases ++ [(sc, fn)] } }.mzResult fn.val 1
    else s.mzResult fn.val 2

/-- Release a scope (R28). A region that its Muzzle isolated is ACTIVE again, unless ISOLATE is set or a load has
left it ISOLATED (R343). -/
def State.unmuzzle (s : State) : Scope → State
  | .module => { s with
      muzzle := { s.muzzle with module := {} }
      mod := { s.mod with pins := { s.mod.pins with muzzle := false } } }
  | .pack p => { s with muzzle := { s.muzzle with packs := Table.put s.muzzle.packs p.val {} } }
  | .region r =>
    let s := { s with muzzle := { s.muzzle with regions := Table.put s.muzzle.regions r.val {} } }
    let held := bit (s.regN (0x100100 + 4 * r.val)) 0
    s.modRegion r.val fun x => { x with
      ended := [], byMuzzle := false, st := if x.byMuzzle && x.st == .isolated && !held then .active else x.st }

/-- An accepted release takes effect unless a trigger for its scope is sampled at the same tick (R24, R28). -/
def State.applyRelease (hit : List Scope) (s : State) (r : Scope × Fn) : State :=
  if hit.contains r.1 then s.mzResult r.2.val 2 else (s.unmuzzle r.1).mzResult r.2.val 0

/-- Class 1 (R24, R28, R32): triggers in their order, then releases. CAUSE_CLEAR follows once the classes are done, so
that it shows a Muzzle that class 5 has entered (R28, R170). -/
def State.class1 (s : State) : State :=
  let ts := sortBy Trigger.key s.muzzle.triggers
  let rs := s.muzzle.releases
  let met := s.muzzle.early
  let s := { s with muzzle := { s.muzzle with triggers := [], releases := [], early := [] } }
  let s := met.foldl State.meetScope (ts.foldl State.muzzle1 s)
  let s := { s with shep := { s.shep with fns := s.shep.fns.map fun e =>
    (e.1, { e.2 with mzResult := if e.2.mzResult == 1 then 0 else e.2.mzResult }) } }
  rs.foldl (State.applyRelease (ts.map Trigger.scope)) s

/-- MUZZLE_ENTER: SHP_MZ_CTRL with ACTION enter (R22, R30). -/
def execMuzzleEnter (fn : Fn) (scope : BitVec 2) (index : BitVec 6) (s : State) : Result :=
  .next (s.mzEnter fn.val scope index)

/-- MUZZLE_RELEASE: SHP_MZ_CTRL with ACTION release (R28, R30). -/
def execMuzzleRelease (fn : Fn) (scope : BitVec 2) (index : BitVec 6) (s : State) : Result :=
  .next (s.mzRelease fn scope index)

/-- MUZZLE_RELEASE_APPLY (R24, R28): an accepted release of the scope takes effect, unless a trigger for it has
arrived. -/
def execMuzzleReleaseApply (scope : BitVec 2) (index : BitVec 6) (s : State) : Result :=
  .next <|
    match mzScopeOf scope index with
    | none => s
    | some sc =>
      let due := s.muzzle.releases.filter fun r => r.1 == sc
      let hit := (s.muzzle.triggers.map Trigger.scope)
      due.foldl (State.applyRelease hit)
        { s with muzzle := { s.muzzle with releases := s.muzzle.releases.filter fun r => r.1 != sc } }

/-- HUB_PARITY_ERROR (R22): a module Muzzle with cause 0x0C. -/
def execHubParityError (s : State) : Result := .next (s.trigger .module 0x0C)

/-- RESERVED_STRUCTURE_REINIT (R29): the condition of cause 0x01 is met; CAUSE_CLEAR shows it from the next
edge. -/
def execReservedStructureReinit (s : State) : Result := .next (s.meetModule 0x01)

end Sys2Proof.Machine
end

