-- ==== Sys2Proof/Machine/Hbm.lean ====
section
/-! DEFINITION. HBM3E (R277 to R297): the stripes of two parity groups, the symbol code, stack parity,
write-combining buffers, patrol scrub, page retirement, failed stacks, self-refresh and frequency changes.

`hbm.data` holds what the data units decode to, by device-internal address; `hbm.bad` counts the erroneous symbols of a
stored code unit; `hbm.par` holds where a stripe's stored parity differs from the XOR of its data, which only an error that
escapes detection brings about. -/
namespace Sys2Proof.Machine
open Sys2Proof

def State.modHbm (s : State) (f : Hbm → Hbm) : State := { s with hbm := f s.hbm }

def State.stack (s : State) (k : Nat) : StackSt := Table.get {} s.hbm.stackList k
def State.modStack (s : State) (k : Nat) (f : StackSt → StackSt) : State :=
  s.modHbm fun h => { h with stackList := Table.put h.stackList k (f (Table.get {} h.stackList k)) }

/-- Ends of the device-internal ranges (R278). -/
def hbmUserEnd : Nat := 0x5000000000
def hbmReservedEnd : Nat := 0x5400000000
def hbmEnd : Nat := 0x5A00000000
/-- Frames of the spare pool. -/
def spareFrames : Nat := 393216

/-- The internal address that serves an address: a retired frame's spare (R278, R287). -/
def Hbm.loc (h : Hbm) (a : Nat) : Nat :=
  if hbmReservedEnd ≤ a then a
  else
    let f := a / 65536
    match Table.get none (h.retired.map fun e => (e.1, some e.2)) f with
    | some n => hbmReservedEnd + n * 65536 + a % 65536
    | none => a

/-- A unit: 256 aligned bytes of a stripe, or its parity (R279). -/
structure UnitId where
  stripe : Nat
  pos : Nat
  deriving DecidableEq, Repr

/-- The unit of an internal address. -/
def unitOf (a : Nat) : UnitId := ⟨a / 1280, a % 1280 / 256⟩

def UnitId.grp (u : UnitId) : Nat := u.stripe % 2
def UnitId.gs (u : UnitId) : Nat := u.stripe / 2
def UnitId.key (u : UnitId) : Nat := u.stripe * 6 + u.pos

/-- The stack of a unit; position 5 is the parity (R279). -/
def UnitId.stack (u : UnitId) : Nat := 6 * u.grp + (if u.pos = 5 then u.gs % 6 else (u.gs % 6 + 1 + u.pos) % 6)

/-- The pseudo-channel of a unit (R280). -/
def UnitId.pc (u : UnitId) : Nat := u.gs % 32

/-- The parity of the ones of a number of 36 bits. -/
def oddOnes (x : Nat) : Bool := ((List.range 36).filter fun i => bit x i).length % 2 == 1

/-- The bank of a stack-local unit index under HBM_BANK_HASH (R280, R281). -/
def State.bankOf (s : State) (v : Nat) : Nat :=
  (List.range 4).foldl (fun acc j => acc + 2 ^ j * b2n (oddOnes (Nat.land (s.regN (0x83040 + 4 * j)) v))) 0

/-- A stack row: stack, pseudo-channel, the bits that give stack identifier and row, and the bank (R280). -/
def State.rowKey (s : State) (u : UnitId) : Nat :=
  let v := u.gs
  (((u.stack * 32 + u.pc) * 2 ^ 21 + v / 2 ^ 11) * 16) + s.bankOf v

/-- A unit lies on a failed stack or pseudo-channel (R289). -/
def Hbm.unitLost (h : Hbm) (u : UnitId) : Bool :=
  let k := Table.get ({} : StackSt) h.stackList u.stack
  k.failed || k.failedPc.getLsbD u.pc

def State.unitLost (s : State) (u : UnitId) : Bool := s.hbm.unitLost u

/-- A code unit (R282): 32 aligned bytes of a unit, or of the parity. -/
structure CellId where
  unit : UnitId
  col : Nat
  deriving DecidableEq, Repr

/-- The code unit of an internal address. -/
def cellOf (a : Nat) : CellId := ⟨unitOf a, a % 256 / 32⟩

def CellId.key (c : CellId) : Nat := c.unit.key * 8 + c.col

/-- Its stack-local address (R279). -/
def CellId.local (c : CellId) : Nat := c.unit.gs * 256 + c.col * 32

/-- The internal address of its first byte, for a data unit. -/
def CellId.base (c : CellId) : Nat := c.unit.stripe * 1280 + c.unit.pos * 256 + c.col * 32

/-- Where the parity's differences for its bytes begin. -/
def CellId.par (c : CellId) : Nat := c.unit.stripe * 256 + c.col * 32

def State.cellBad (s : State) (c : CellId) : Nat := Table.get 0 s.hbm.bad c.key

/-- Store fresh check symbols for a code unit. -/
def State.cellFresh (s : State) (c : CellId) : State := s.modHbm fun h => { h with bad := Table.erase h.bad c.key }

/-- Errors that the world has put into stored code units. -/
def State.unitHit (s : State) (stripe : Nat) (errs : List UnitErr) : State :=
  errs.foldl (fun s e => s.modHbm fun h =>
    let k := CellId.key ⟨⟨stripe, e.pos.val⟩, e.code.val⟩
    { h with bad := Table.set 0 h.bad k (Table.get 0 h.bad k + e.n) }) s

/-- The parity equals the XOR of the data in a code unit's span, all else as it is. -/
def Hbm.parExact (h : Hbm) (c : CellId) : Hbm :=
  { h with par := h.par.filter fun e => !(decide (c.par ≤ e.1) && decide (e.1 < c.par + 32)) }

/-- The bytes that the other five units give for a code unit stand in it (R283). -/
def Hbm.rebuilt (h : Hbm) (c : CellId) : Hbm :=
  let l := h.par.filter fun e => decide (c.par ≤ e.1) && decide (e.1 < c.par + 32)
  let flip (m : Memory) (e : Nat × Byte) : Memory :=
    let a := c.base + (e.1 - c.par)
    m.writeByte a (m.readByte a ^^^ e.2)
  ({ h with data := if c.unit.pos = 5 then h.data else l.foldl flip h.data } : Hbm).parExact c

/-- An error that escapes the code: the code unit decodes to the bytes of `y`, and the parity, as it stands, differs by the
change (R282, R286). -/
def Hbm.escaped (h : Hbm) (c : CellId) (y : Nat) : Hbm :=
  (List.range 32).foldl (fun h i =>
    let new := BitVec.ofNat 8 (y / 256 ^ i)
    let k := c.par + i
    if c.unit.pos = 5 then { h with par := h.par.writeByte k new }
    else
      let a := c.base + i
      { h with data := h.data.writeByte a new, par := h.par.writeByte k (h.par.readByte k ^^^ h.data.readByte a ^^^ new) }) h

/-! ## Page retirement (R287, R288) -/

/-- The lowest spare frame that is free. -/
def Hbm.freeSpare (h : Hbm) : Option Nat :=
  let used := h.retired.map Prod.snd ++ h.retiring.map RetireSt.spare
  (List.range (used.length + 1)).find? fun n => !used.contains n && decide (n < spareFrames)

def Hbm.sparesUsed (h : Hbm) : Nat := h.retired.length + h.retiring.length

/-- HBM_RETIRE_STATUS (R297). -/
def Hbm.retireStatus (h : Hbm) : Nat :=
  h.sparesUsed + 2 ^ 19 * b2n h.low + 2 ^ 20 * b2n h.exhausted + 2 ^ 21 * sat 11 h.refused

/-- Begin to retire a frame (R287), for a suspect row or by command. With the last spare the pool is exhausted (R288). -/
def State.retire (s : State) (frame : Nat) (row : Option Nat) : State :=
  if s.hbm.retiring.any fun r => r.frame == frame then s
  else match s.hbm.freeSpare with
    | none => s.modHbm fun h => { h with
        exhausted := true, refused := sat 11 (h.refused + 1), cmdStatus := if row.isNone then 3 else h.cmdStatus }
    | some n =>
      let s := s.modHbm fun h => { h with
        retiring := h.retiring ++ [{ frame := frame, spare := n, row := row, done := false }]
        cmdStatus := if row.isNone then 1 else h.cmdStatus }
      let s := if spareFrames ≤ s.hbm.sparesUsed then s.modHbm fun h => { h with exhausted := true } else s
      if !s.hbm.low && decide (spareFrames * 9 ≤ s.hbm.sparesUsed * 10) then
        (s.modHbm fun h => { h with low := true }).raise .alarm 0x000A noInst (leBytes 4 s.hbm.retireStatus)
      else s

/-- The user or reserved frame that an internal location serves. -/
def Hbm.frameAt (h : Hbm) (loc : Nat) : Option Nat :=
  if loc < hbmReservedEnd then
    let f := loc / 65536
    if h.retired.any fun e => e.1 == f then none else some f
  else
    let n := (loc - hbmReservedEnd) / 65536
    (h.retired.find? fun e => e.2 == n).map Prod.fst

/-- The address that an internal location serves: of its frame, or the location itself in a free spare (R278). -/
def Hbm.addrOf (h : Hbm) (loc : Nat) : Nat :=
  match h.frameAt loc with
  | some f => f * 65536 + loc % 65536
  | none => loc

/-- The stripes that use the stack row of a unit: its four 256-byte quarters (R280). -/
def State.rowStripes (s : State) (u : UnitId) : List Nat :=
  let v := u.gs
  let bank := s.bankOf v
  (List.range 4).flatMap fun col =>
    ((List.range 16).map fun lo => v / 2 ^ 11 * 2 ^ 11 + lo * 128 + col * 32 + v % 32).filterMap fun w =>
      if s.bankOf w = bank then some (2 * w + u.grp) else none

/-- Retire every frame that has a stripe using the row of a unit (R287). -/
def State.retireRow (s : State) (u : UnitId) : State :=
  let locs := (s.rowStripes u).flatMap fun st => [st * 1280, st * 1280 + 1279]
  locs.foldl (fun s l => match s.hbm.frameAt l with
    | some f => s.retire f (some (s.rowKey u))
    | none => s) s

/-! ## Reads (R282, R283) -/

/-- 24 hours and one second in ns. -/
def dayNs : Nat := 86400000000000
def secondNs : Nat := 1000000000

/-- One corrected symbol (R282): counted; the fourth within 24 hours of a row retires its frames (R287). -/
def State.corrected (s : State) (c : CellId) : State :=
  let u := c.unit
  let s := s.cellFresh c
  let s := s.modStack u.stack fun k => { k with ce := sat 32 (k.ce + 1) }
  let key := s.rowKey u
  let ts := (Table.get [] s.hbm.ceTimes key).filter fun t => decide (s.since t < dayNs)
  let ts := s.tick.now :: ts
  let s := s.modHbm fun h => { h with ceTimes := Table.put h.ceTimes key ts }
  if 4 ≤ ts.length then s.retireRow u else s

/-- Code-uncorrectable units of a pseudo-channel within the last second (R289). -/
def State.recentUes (s : State) (stack pc : Nat) : List Nat :=
  (Table.get [] s.hbm.ueTimes (stack * 32 + pc)).filter fun t => decide (s.since t < secondNs)

/-- A code unit that the code reports uncorrectable (R289, R297): the sixteenth of a pseudo-channel within one second
declares it failed at the next tick. -/
def State.codeFailed (s : State) (c : CellId) : State :=
  let u := c.unit
  let s := s.modStack u.stack fun k => { k with lastErr := c.local }
  let ts := s.tick.now :: s.recentUes u.stack u.pc
  let s := s.modHbm fun h => { h with ueTimes := Table.put h.ueTimes (u.stack * 32 + u.pc) ts }
  if ts.length = 16 then s.modHbm fun h => { h with failDue := h.failDue ++ [(u.stack, some u.pc)] } else s

/-- Read a code unit through its code alone: whether it decodes (R282). One with three or more erroneous symbols may
escape detection: then it decodes to other bytes (a free choice and free bytes, log entry 4). -/
def State.decodeCell (s : State) (c : CellId) : Bool × State :=
  if s.unitLost c.unit then (false, s)
  else
    let s := s.countEv (hbmUnit c.unit.stack) 0x080 1
    match s.cellBad c with
    | 0 => (true, s)
    | 1 => (true, s.corrected c)
    | 2 => (false, s.codeFailed c)
    | _ =>
      let (x, s) := s.draw
      if x % 2 = 0 then (false, s.codeFailed c)
      else
        let (y, s) := (s.cellFresh c).draw
        (true, s.modHbm fun h => h.escaped c y)

/-- Reconstruct a code unit from the same span of the other five units, each read through its code (R283). False:
unrecoverable. -/
def State.rebuild (s : State) (c : CellId) : Bool × State :=
  let u := c.unit
  let others := (List.range 6).filter (· != u.pos)
  let (ok, s) := others.foldl (fun (acc : Bool × State) p =>
    let r := acc.2.decodeCell ⟨⟨u.stripe, p⟩, c.col⟩
    (acc.1 && r.1, r.2)) (true, s)
  if ok then
    let s := s.countEv (hbmUnit u.stack) 0x085 1
    if s.unitLost u then (true, s)
    else
      let s := ((s.cellFresh c).modHbm fun h => h.rebuilt c).modStack u.stack fun k => { k with repaired := sat 16 (k.repaired + 1) }
      (true, s.retireRow u)
  else (false, s.modStack u.stack fun k => { k with unrepaired := sat 16 (k.unrepaired + 1) })

/-- A unit lies on the suspect row of a frame that is being retired (R287). -/
def State.suspectUnit (s : State) (u : UnitId) : Bool :=
  let l := u.stripe * 1280 + u.pos * 256
  s.hbm.retiring.any fun r =>
    let old := s.hbm.loc (r.frame * 65536)
    decide (u.pos < 5) && decide (old ≤ l) && decide (l < old + 65536) && r.row == some (s.rowKey u)

/-- Read a code unit (R282, R283): through the code, or else reconstructed; on a suspect row it is reconstructed until
the retirement swaps (R58, R287). False: unrecoverable. -/
def State.readCell (s : State) (c : CellId) : Bool × State :=
  if s.suspectUnit c.unit then s.rebuild c
  else match s.decodeCell c with
    | (true, s) => (true, s)
    | (false, s) => s.rebuild c

/-- Read code units; false when one is unrecoverable. -/
def State.readCells (s : State) (l : List CellId) : Bool × State :=
  l.foldl (fun (acc : Bool × State) c =>
    let r := acc.2.readCell c
    (acc.1 && r.1, r.2)) (true, s)

/-- An unrecoverable access (R283, R284): a user page ends the descriptors concerned with MEMORY_UNCORRECTABLE,
the device-reserved range Muzzles the module with cause 0x01. -/
def State.memoryDoubt (s : State) (a : Nat) (owners : List Nat) : State :=
  if hbmUserEnd ≤ a ∧ a < hbmReservedEnd then s.trigger .module 0x01
  else owners.foldl (fun s id => s.latchFault id stMemory) s

/-- A request reaches a stack, which leaves self-refresh (R292). -/
def State.touchStack (s : State) (k : Nat) : State :=
  s.modStack k fun x => { x with asleep := false, lastReq := s.tick.now }

/-- The byte that memory gives at an internal location: on a failed stack or pseudo-channel, the one that the other five
units give (R283). -/
def Hbm.stored (h : Hbm) (l : Nat) : Byte :=
  if h.unitLost (unitOf l) then h.data.readByte l ^^^ h.par.readByte (l / 1280 * 256 + l % 1280 % 256) else h.data.readByte l

/-- The byte that a write-combining buffer holds for a location (R285). -/
def Hbm.buffered (h : Hbm) (l : Nat) : Option Byte :=
  match (if l / 1280 % 2 = 0 then h.wc0 else h.wc1).find? fun b => b.stripe == l / 1280 with
  | some b => (b.bytes.find? fun e => e.1 == l % 1280).map Prod.snd
  | none => none

/-- The byte visible at an internal location: a write-combining buffer's, else memory's (R285). -/
def Hbm.byteAt (h : Hbm) (l : Nat) : Byte := (h.buffered l).getD (h.stored l)

/-- Bytes from an address (device physical, or internal above the user range). -/
def Hbm.bytes (h : Hbm) (a : Nat) : Nat → List Byte
  | 0 => []
  | n + 1 => h.byteAt (h.loc a) :: Hbm.bytes h (a + 1) n

/-- A frequency change holds every new request (R293). -/
def Hbm.held (h : Hbm) : Bool := h.phase != .idle

/-- A group has lost its data (R291). -/
def Hbm.lostGroup (h : Hbm) (g : Nat) : Bool := if g = 0 then h.lost0 else h.lost1

/-- Every byte of a span within a code unit stands in a buffer. -/
def Hbm.spanBuffered (h : Hbm) (l n : Nat) : Bool := (List.range n).all fun i => (h.buffered (l + i)).isSome

/-- Read the code units of a byte span: false when one is unrecoverable (R283, R291). What a buffer holds is not read from
memory (R285). -/
def State.checkSpan (s : State) (a n : Nat) : Bool × State :=
  let blocks := (List.range (ceilDiv (a % 32 + n) 32)).map fun i => a / 32 * 32 + i * 32
  blocks.foldl (fun (acc : Bool × State) b =>
    let lo := max a b
    let l := acc.2.hbm.loc lo
    let c := cellOf l
    let s := acc.2.touchStack c.unit.stack
    if s.hbm.spanBuffered l (min (a + n) (b + 32) - lo) then (acc.1, s)
    else if s.hbm.lostGroup c.unit.grp then (false, s)
    else
      let r := s.readCell c
      (acc.1 && r.1, r.2)) (true, s)

/-! ## Writes (R284, R285, R290) -/

/-- Offsets within a code unit that a buffer's bytes cover. -/
def WcBuf.offs (b : WcBuf) (p col : Nat) : List Nat :=
  (b.bytes.filter fun e => e.1 / 256 == p && e.1 % 256 / 32 == col).map fun e => e.1 % 32

/-- Data units that a buffer's bytes touch: t of R284 is their number. -/
def WcBuf.units (b : WcBuf) : List Nat := (List.range 5).filter fun p => b.bytes.any fun e => e.1 / 256 == p
def WcBuf.full (b : WcBuf) : Bool := b.bytes.length == 1280

/-- A reconstruct-write needs unit `p` in a column of code units: somewhere in it another unit is written and `p` is not. -/
def WcBuf.lacks (b : WcBuf) (col p : Nat) : Bool :=
  (List.range 5).any fun q => (b.offs q col).any fun i => !(b.offs p col).contains i

/-- How the parity of one column of code units is formed (R284, R290): the units read, and whether it is formed anew. -/
structure ColumnPlan where
  reads : List Nat
  anew : Bool
  deriving DecidableEq, Repr

/-- The plan of a column: by t in a healthy stripe; in a degraded one the method with the fewest reads that reads no lost
unit. A parity that is lost is not formed. -/
def WcBuf.plan (b : WcBuf) (lost : List Nat) (col : Nat) : ColumnPlan :=
  let here := (List.range 5).filter fun p => !(b.offs p col).isEmpty
  let rmw : ColumnPlan := ⟨here ++ [5], false⟩
  let rcw : ColumnPlan := ⟨(List.range 5).filter (b.lacks col), true⟩
  if here.isEmpty || lost.contains 5 then ⟨[], false⟩
  else if lost.isEmpty then (if b.full || 3 ≤ b.units.length then rcw else rmw)
  else match [rmw, rcw].filter fun x => !(x.reads.any lost.contains) with
    | [x] => x
    | [x, y] => if y.reads.length < x.reads.length then y else x
    | _ => ⟨(List.range 6).filter fun p => !lost.contains p, true⟩

/-- The event that a stripe write counts at its parity unit's controller: full-stripe write, read-modify-write or
reconstruct-write (R284, R391). -/
def writeEvent (touched : List Nat) (full : Bool) : Nat :=
  if full then 0x082 else if touched.length ≤ 2 then 0x083 else 0x084

/-- Write a buffer to memory (R284, R290). A write whose parity cannot be formed writes nothing. -/
def State.flushBuf (s : State) (b : WcBuf) : State :=
  let lost := (List.range 6).filter fun p => s.unitLost ⟨b.stripe, p⟩
  let cols := (List.range 8).filter fun col => (List.range 5).any fun p => !(b.offs p col).isEmpty
  let cell (col p : Nat) : CellId := ⟨⟨b.stripe, p⟩, col⟩
  let (ok, s) := s.readCells (cols.flatMap fun col => (b.plan lost col).reads.map (cell col))
  if ok && !s.hbm.lostGroup (b.stripe % 2) then
    let anew := cols.filter fun col => (b.plan lost col).anew
    let s := s.modHbm fun h => anew.foldl (fun h col => h.parExact (cell col 5)) { h with
      data := b.bytes.foldl (fun m e => m.writeByte (b.stripe * 1280 + e.1) e.2) h.data }
    let s := s.countEv (hbmUnit (UnitId.stack ⟨b.stripe, 5⟩)) (writeEvent b.units b.full) 1
    let put (s : State) (p : Nat) : State :=
      let written := cols.filter fun col => p == 5 || !(b.offs p col).isEmpty
      let s := if lost.contains p then s else s.countEv (hbmUnit (UnitId.stack ⟨b.stripe, p⟩)) 0x081 1
      written.foldl (fun s col => s.cellFresh (cell col p)) s
    (b.units ++ [5]).foldl put s
  else
    let addrs := b.bytes.map fun e => s.hbm.addrOf (b.stripe * 1280 + e.1)
    if addrs.any fun a => decide (hbmUserEnd ≤ a) && decide (a < hbmReservedEnd) then s.trigger .module 0x01
    else s.memoryDoubt 0 b.writers

/-- The buffers of a group. -/
def Hbm.bufs (h : Hbm) (g : Nat) : List WcBuf := if g = 0 then h.wc0 else h.wc1
def State.setBufs (s : State) (g : Nat) (l : List WcBuf) : State :=
  s.modHbm fun h => if g = 0 then { h with wc0 := l } else { h with wc1 := l }

/-- Write the oldest buffer of a group to memory. -/
def State.flushOldest (s : State) (g : Nat) : State :=
  match s.hbm.bufs g with
  | [] => s
  | b :: l => (s.setBufs g l).flushBuf b

/-- One byte span within a stripe enters its buffer (R285). `l` is an internal location. -/
def State.bufferSpan (s : State) (l : Nat) (data : List Byte) (writers : List Nat) : State :=
  let st := l / 1280
  let g := st % 2
  let add (b : WcBuf) : WcBuf :=
    { b with bytes := (data.foldl (fun (acc : Table Byte × Nat) x => (Table.put acc.1 acc.2 x, acc.2 + 1)) (b.bytes, l % 1280)).1
             writers := b.writers ++ writers.filter fun w => !b.writers.contains w }
  let s :=
    if (s.hbm.bufs g).any fun b => b.stripe == st then s
    else
      let s := if 64 ≤ (s.hbm.bufs g).length then s.flushOldest g else s
      s.setBufs g (s.hbm.bufs g ++ [⟨st, [], s.tick.now, []⟩])
  let s := s.setBufs g ((s.hbm.bufs g).map fun b => if b.stripe == st then add b else b)
  match (s.hbm.bufs g).find? fun b => b.stripe == st && b.bytes.length == 1280 with
  | some b => (s.setBufs g ((s.hbm.bufs g).filter fun x => x.stripe != st)).flushBuf b
  | none => s

/-- Write bytes at an address, split at units so that no piece crosses a stripe or a frame. -/
def State.hbmWrite (s : State) (writers : List Nat) (a : Nat) (data : List Byte) : State :=
  let n := data.length
  let blocks := (List.range (ceilDiv (a % 256 + n) 256)).map fun i => a / 256 * 256 + i * 256
  blocks.foldl (fun s b =>
    let lo := max a b
    let hi := min (a + n) (b + 256)
    let l := s.hbm.loc lo
    ((s.touchStack (unitOf l).stack).bufferSpan l ((data.drop (lo - a)).take (hi - lo)) writers)) s

/-- Read bytes for descriptor or agent `owners`: none when unrecoverable, which ends them (R283). -/
def State.hbmRead (s : State) (owners : List Nat) (a n : Nat) : Option (List Byte) × State :=
  if n = 0 then (some [], s)
  else match s.checkSpan a n with
    | (true, s) => (some (s.hbm.bytes a n), s)
    | (false, s) => (none, s.memoryDoubt a owners)

/-! ## Failed stacks (R289 to R291) -/

/-- HBM_STACK_STATE (R297). -/
def StackSt.word (k : StackSt) : Nat :=
  (if k.failed then 2 else if k.asleep then 1 else 0) + 4 * b2n k.trained + 65536 * k.srEntries

/-- The stacks of a group. -/
def groupStacks (g : Nat) : List Nat := (List.range 6).map fun i => 6 * g + i

/-- A group is degraded: it has a failed stack or pseudo-channel (R289). -/
def State.degraded (s : State) (g : Nat) : Bool := (groupStacks g).any fun k => (s.stack k).failed || (s.stack k).failedPc != 0

/-- Two losses of a group share stripes (R291). -/
def State.secondLoss (s : State) (g : Nat) : Bool :=
  let l := groupStacks g
  l.any fun i => l.any fun j => decide (i < j) && (
    let a := s.stack i
    let b := s.stack j
    (a.failed && (b.failed || b.failedPc != 0)) || (b.failed && a.failedPc != 0) || (a.failedPc &&& b.failedPc) != 0)

/-- HBM_PARITY_STATE (R297). -/
def State.parityWord (s : State) : Nat :=
  let st (g : Nat) := if s.hbm.lostGroup g then 2 else if s.degraded g then 1 else 0
  st 0 + 4 * s.hbm.p0Failed + 256 * st 1 + 1024 * s.hbm.p1Failed

/-- A stack fails (R289). -/
def State.failStack (s : State) (k : Nat) : State :=
  let s := s.modStack k fun x => { x with failed := true, trained := false, asleep := false }
  let s := s.modHbm fun h =>
    if k < 6 then { h with p0Failed := if h.p0Failed = 15 then k else h.p0Failed }
    else { h with p1Failed := if h.p1Failed = 15 then k - 6 else h.p1Failed }
  { s with nv := { s.nv with failedStacks := Table.put s.nv.failedStacks k true } }

/-- One declaration (R289). -/
def State.declareFail (s : State) (d : Nat × Option Nat) : State :=
  let k := d.1
  let s := match d.2 with
    | none => s.failStack k
    | some pc =>
      let s := s.modStack k fun x => { x with failedPc := x.failedPc ||| (1#32 <<< pc) }
      let w := (s.stack k).failedPc
      let s := { s with nv := { s.nv with failedPcs := Table.put s.nv.failedPcs k w } }
      if 4 ≤ ((List.range 32).filter fun i => w.getLsbD i).length && !(s.stack k).failed then s.failStack k else s
  s.raise .alarm 0x0009 k (leBytes 4 (s.stack k).word ++ leBytes 4 (s.stack k).failedPc.toNat ++ leBytes 4 s.parityWord)

/-- A held request to a group (R293). -/
def Hbm.waitsOn (h : Hbm) (g : Nat) (q : HbmReq) : Bool := (unitOf (h.loc q.addr)).grp == g

/-- Held requests to a lost group retire in error at once (R291, R296). -/
def State.retireHeld (s : State) (g : Nat) : State :=
  let gone := s.hbm.waiting.filter (s.hbm.waitsOn g)
  let s := s.modHbm fun h => { h with waiting := h.waiting.filter fun q => !h.waitsOn g q }
  gone.foldl (fun s q => s.memoryDoubt q.addr q.owner.toList) s

/-- A group that has taken its second loss loses its data; the module is Muzzled with cause 0x0B (R291). -/
def State.checkLoss (s : State) (g : Nat) : State :=
  if !s.hbm.lostGroup g && s.secondLoss g then
    ((s.modHbm fun h => if g = 0 then { h with lost0 := true } else { h with lost1 := true }).retireHeld g).trigger .module 0x0B
  else s

/-- Declarations take effect at a tick, lowest stack first (R289, R297). -/
def State.applyFails (s : State) : State :=
  let l := sortBy Prod.fst s.hbm.failDue
  let s := s.modHbm fun h => { h with failDue := [] }
  ((l.foldl State.declareFail s).checkLoss 0).checkLoss 1

/-! ## Retirement swap (R57, R287) -/

/-- The code units of the 256 units of a frame, from the location of its first byte. -/
def frameCells (loc : Nat) : List CellId := (List.range 2048).map fun i => cellOf (loc + 32 * i)

/-- A copied byte is written at the spare: the unit's parity follows, and on a lost unit it is formed anew (R284, R290). -/
def Hbm.copyByte (h : Hbm) (e : Nat × Byte) : Hbm :=
  let h' := { h with data := h.data.writeByte e.1 e.2 }
  if h.unitLost (unitOf e.1) then { h' with par := h'.par.writeByte (e.1 / 1280 * 256 + e.1 % 1280 % 256) 0 } else h'

/-- A completed copy swaps: the frame's visible contents, and nothing else, stand at its spare frame, with fresh check
symbols (R287). -/
def State.swapRetired (s : State) (r : RetireSt) : State :=
  let old := s.hbm.loc (r.frame * 65536)
  let new := hbmReservedEnd + r.spare * 65536
  let inside (lo l : Nat) : Bool := decide (lo ≤ l) && decide (l < lo + 65536)
  let odd := (s.hbm.par.flatMap fun e => (List.range 5).map fun p => e.1 / 256 * 1280 + p * 256 + e.1 % 256).filter fun l =>
    s.hbm.unitLost (unitOf l)
  let differs := odd.filter (inside old) ++ (odd.filter (inside new)).map fun l => old + (l - new)
  let kept := ((s.hbm.data.filter fun e => inside old e.1).map Prod.fst ++ differs).map fun l => (new + (l - old), s.hbm.stored l)
  let late := (s.hbm.wc0 ++ s.hbm.wc1).flatMap fun b =>
    (b.bytes.filter fun e => inside old (b.stripe * 1280 + e.1)).map fun e => (new + (b.stripe * 1280 + e.1 - old), e.2)
  let clear (b : WcBuf) : WcBuf := { b with bytes := b.bytes.filter fun e => !inside new (b.stripe * 1280 + e.1) }
  let fresh := (frameCells new).map CellId.key
  let s := s.modHbm fun h => { (kept ++ late).foldl Hbm.copyByte { h with data := h.data.filter fun e => !inside new e.1 } with
    bad := h.bad.filter fun e => !fresh.contains e.1
    wc0 := h.wc0.map clear, wc1 := h.wc1.map clear
    retired := Table.put h.retired r.frame r.spare
    retiring := h.retiring.filter fun x => x.frame != r.frame
    cmdStatus := if r.row.isNone then 2 else h.cmdStatus }
  { s with nv := { s.nv with retiredFrames := Table.put s.nv.retiredFrames r.frame r.spare } }

/-- Every retirement whose copy is complete swaps at the tick (R287). -/
def State.swapRetirements (s : State) : State :=
  (s.hbm.retiring.filter RetireSt.done).foldl State.swapRetired s

/-! ## Frequency change (R293) -/

/-- Begin a frequency change to a point, with the G5 values that it makes active. -/
def State.freqChange (s : State) (op : BitVec 2) (shadow : Option (Table Word)) : State :=
  if s.hbm.held then s
  else s.modHbm fun h => { h with phase := .draining, target := op, shadow := shadow }

/-- Write every buffer to memory. -/
def State.flushAll (s : State) : State :=
  let l := s.hbm.wc0 ++ s.hbm.wc1
  l.foldl State.flushBuf ((s.setBufs 0 []).setBufs 1 [])

/-- Buffers older than HBM_WC_CTRL.TIMEOUT (R285). -/
def State.flushExpired (s : State) : State :=
  if s.hbm.held then s
  else
    let old (b : WcBuf) : Bool := decide (s.regN 0x83058 * 10 ≤ s.since b.since)
    let l := (s.hbm.wc0 ++ s.hbm.wc1).filter old
    let s := (s.setBufs 0 (s.hbm.wc0.filter fun b => !old b)).setBufs 1 (s.hbm.wc1.filter fun b => !old b)
    l.foldl State.flushBuf s

/-! ## Commands -/

/-- A request of HBM_READ or HBM_WRITE is served. -/
def State.serveHbm (s : State) (q : HbmReq) : State :=
  match q.data with
  | none => (s.hbmRead q.owner.toList q.addr 1).2
  | some b => s.hbmWrite q.owner.toList q.addr b

/-- A request reaches its controller: a frequency change holds it until the release (R293); to a group that has lost its
data it retires in error at once (R291, R296). -/
def State.askHbm (s : State) (q : HbmReq) : State :=
  if s.hbm.held && !s.hbm.lostGroup (unitOf (s.hbm.loc q.addr)).grp then s.modHbm fun h => { h with waiting := h.waiting ++ [q] }
  else s.serveHbm q

/-- HBM_READ (R282, R283): the code unit of an address is read, for a descriptor when one is named. -/
def execHbmRead (a : BitVec 40) (reader : Option Nat) (errs : List UnitErr) (s : State) : Result :=
  if hbmEnd ≤ a.toNat then .fault .noSuchAddress
  else .next <| (s.unitHit (unitOf (s.hbm.loc a.toNat)).stripe errs).askHbm ⟨a.toNat, none, reader⟩

/-- HBM_WRITE (R284, R285): the bytes enter the write-combining buffers. -/
def execHbmWrite (a : BitVec 40) (data : List Byte) (writer : Option Nat) (errs : List UnitErr) (s : State) :
    Result :=
  if hbmEnd < a.toNat + data.length ∨ hbmEnd ≤ a.toNat then .fault .noSuchAddress
  else .next <| (s.unitHit (unitOf (s.hbm.loc a.toNat)).stripe errs).askHbm ⟨a.toNat, some data, writer⟩

/-- WC_BUFFER_FLUSH (R285): the oldest buffer of a group is written to memory. -/
def execWcBufferFlush (grp : Fin 2) (errs : List UnitErr) (s : State) : Result :=
  .next <|
    match s.hbm.bufs grp.val with
    | [] => s
    | b :: _ => (s.unitHit b.stripe errs).flushOldest grp.val

/-- Stripes of a group (R279). -/
def groupStripes : Nat := 150994944

/-- The code units of a unit. -/
def UnitId.cells (u : UnitId) : List CellId := (List.range 8).map fun col => ⟨u, col⟩

/-- Patrol reads one unit: whether its code alone decoded it. An unrecoverable one is treated as a read of its address
(R283, R286). -/
def State.patrolUnit (s : State) (u : UnitId) : Bool × State :=
  if s.unitLost u then (false, s)
  else u.cells.foldl (fun (acc : Bool × State) c =>
    match acc.2.decodeCell c with
    | (true, s) => (acc.1, s)
    | (false, s) =>
      let r := s.rebuild c
      (false, if r.1 then r.2 else r.2.memoryDoubt (r.2.hbm.addrOf (if u.pos = 5 then u.stripe * 1280 else c.base)) [])) (true, s)

/-- A stack may take a patrol read: awake, or one second in self-refresh, which it then leaves for one burst (R292). -/
def State.patrolMay (s : State) (k : Nat) : Bool :=
  !(s.stack k).asleep || decide ((s.stack k).asleepAt + secondNs ≤ s.tick.next)

/-- PATROL_READ (R286): the six units of a stripe are read; with all of them decoding, a parity that does not equal the XOR
of the data is rewritten. -/
def execPatrolRead (grp : Fin 2) (stripe : Nat) (errs : List UnitErr) (s : State) : Result :=
  .next <|
    let six := groupStacks grp.val
    if (s.regN 0x83054) % 2 = 0 ∨ groupStripes ≤ stripe ∨ s.hbm.held ∨ !six.all s.patrolMay then s
    else
      let st := 2 * stripe + grp.val
      let s := s.unitHit st errs
      let s := six.foldl (fun s k => s.modStack k fun x => { x with asleep := false }) s
      let (all, s) := (List.range 6).foldl (fun (acc : Bool × State) p =>
        let r := acc.2.patrolUnit ⟨st, p⟩
        (acc.1 && r.1, r.2)) (true, s)
      let differs (e : Nat × Byte) : Bool := e.1 / 256 == st
      let s :=
        if all && s.hbm.par.any differs then
          let k := UnitId.stack ⟨st, 5⟩
          let s := s.modHbm fun h => { h with par := h.par.filter fun e => !differs e }
          (s.modStack k fun x => { x with parityRepaired := sat 16 (x.parityRepaired + 1) }).raise .log 0x0106 k
            (leBytes 8 (s.stack k).lastErr)
        else s
      if stripe + 1 = groupStripes then
        (groupStacks grp.val).foldl (fun s k => s.modStack k fun x => { x with passes := sat 16 (x.passes + 1) }) s
      else s

/-- A write of HBM_RETIRE_CMD (R287, R297). -/
def State.retireCmd (s : State) (frame : Nat) : State :=
  if hbmUserEnd ≤ frame * 65536 then s.modHbm fun h => { h with cmdStatus := 3 }
  else s.retire frame none

/-- HBM_RETIRE_CMD (R287). -/
def execHbmRetireCmd (frame : BitVec 23) (s : State) : Result := .next (s.retireCmd frame.toNat)

/-- The frame stays at its old location, and its spare is free again (R288). -/
def State.abandon (s : State) (r : RetireSt) : State :=
  (s.modHbm fun h => { h with
    retiring := h.retiring.filter fun x => x.frame != r.frame, exhausted := false
    cmdStatus := if r.row.isNone then 3 else h.cmdStatus }).raise .log 0x0107 noInst (leBytes 4 r.frame)

/-- Units of a frame whose reading can change or fail: those with errors, on a failed stack or on the suspect row. -/
def State.weakCells (s : State) (loc : Nat) : List CellId :=
  (frameCells loc).filter fun c => s.cellBad c != 0 || s.unitLost c.unit || s.suspectUnit c.unit

/-- RETIREMENT_COPY_DONE (R287, R288): the oldest copy under way ends. Every unit of the frame has been read; with all of
them recovered the copy is complete and swaps at the next tick, else the retirement is abandoned. A frequency change pauses
the copy (R296). -/
def execRetirementCopyDone (s : State) : Result :=
  .next <|
    match s.hbm.retiring.find? fun r => !r.done with
    | none => s
    | some r =>
      if s.hbm.held then s
      else
        let loc := s.hbm.loc (r.frame * 65536)
        let gone := (frameCells loc).any fun c => s.hbm.lostGroup c.unit.grp
        let (ok, s) := s.readCells (s.weakCells loc)
        if ok && !gone then s.modHbm fun h => { h with retiring := h.retiring.map fun x =>
          if x.frame == r.frame then { x with done := true } else x }
        else s.abandon r

/-- A declaration is due at the next tick (R289). -/
def State.failNext (s : State) (k : Nat) (pc : Option Nat) : State :=
  s.modHbm fun h => { h with failDue := if h.failDue.contains (k, pc) then h.failDue else h.failDue ++ [(k, pc)] }

/-- PSEUDO_CHANNEL_FAILED (R289): sixteen code-uncorrectable units within one second, or a failed retraining. -/
def execPseudoChannelFailed (stack : StackIx) (pc : Fin 32) (s : State) : Result :=
  .next (if s.hbm.phase = .retraining ∨ 16 ≤ (s.recentUes stack.val pc.val).length then s.failNext stack.val (some pc.val) else s)

/-- STACK_FAILED (R289, R295): training, or retraining, has failed. The training of a Dawn that is to come fails it
there. -/
def execStackFailed (stack : StackIx) (s : State) : Result :=
  .next (if s.mod.power = .running then s.failNext stack.val none
    else s.modHbm fun h => { h with untrained := h.untrained ++ [stack.val] })

/-- A stack enters self-refresh. -/
def State.sleepStack (s : State) (k : Nat) : State :=
  if (s.stack k).failed || (s.stack k).asleep then s
  else s.modStack k fun x => { x with asleep := true, asleepAt := s.tick.now, srEntries := sat 16 (x.srEntries + 1) }

/-- A stack has received no request for IDLE µs by time `t`; with IDLE zero none enters self-refresh by itself (R292). -/
def State.stackIdle (s : State) (k t : Nat) : Bool :=
  s.regN 0x83050 != 0 && !s.hbm.held && decide ((s.stack k).lastReq + s.regN 0x83050 * 1000 ≤ t)

/-- SELF_REFRESH_ENTRY (R292). -/
def execSelfRefreshEntry (stack : StackIx) (s : State) : Result :=
  .next (if s.stackIdle stack.val s.tick.next then s.sleepStack stack.val else s)

/-- At a tick every stack that has been idle enters self-refresh (R292). -/
def State.srTick (s : State) : State :=
  (List.range 12).foldl (fun s k => if s.stackIdle k s.tick.now then s.sleepStack k else s) s

/-- FREQ_CHANGE_DRAINED (R293): the buffers are written, the active stacks enter self-refresh, and the committed timing
sets and operating point become active. -/
def execFreqChangeDrained (s : State) : Result :=
  .next <|
    if s.hbm.phase ≠ .draining then s
    else
      let s := (List.range 12).foldl State.sleepStack s.flushAll
      let s := match s.hbm.shadow with
        | some t => { s with regs := { s.regs with active := copyGroup s.mod.grade 5 0 t s.regs.active } }
        | none => s
      s.modHbm fun h => { h with phase := .refreshing, shadow := none }

/-- FREQ_CHANGE_LOCKED (R293): the stacks leave self-refresh and retrain. -/
def execFreqChangeLocked (s : State) : Result :=
  .next <|
    if s.hbm.phase ≠ .refreshing then s
    else
      let s := (List.range 12).foldl (fun s k => s.modStack k fun x => { x with asleep := false }) s
      s.modHbm fun h => { h with phase := .retraining }

/-- Held requests are released in the order of their arrival (R293). -/
def State.releaseHbm (s : State) : State :=
  s.hbm.waiting.foldl State.serveHbm (s.modHbm fun h => { h with waiting := [] })

/-- HBM_TRANSACTION_TIMEOUT (R294): the transaction retires in error, as an unrecoverable one (R283). -/
def execHbmTransactionTimeout (a : BitVec 40) (owner : Option Nat) (s : State) : Result :=
  if hbmEnd ≤ a.toNat then .fault .noSuchAddress
  else .next <|
    let k := (unitOf (s.hbm.loc a.toNat)).stack
    let s := s.modHbm fun h => { h with waiting := h.waiting.filter fun q => !(q.addr == a.toNat && q.owner == owner) }
    (s.modStack k fun x => { x with unrepaired := sat 16 (x.unrepaired + 1) }).memoryDoubt a.toNat owner.toList

end Sys2Proof.Machine
end

