-- ==== Sys2Proof/Machine/Paging.lean ====
section
/-! DEFINITION. Device virtual addresses, page-table batches, page faults, BAR2, the hub check units, and the
tile network's packets, domains and counters (R234 to R259). -/
namespace Sys2Proof.Machine
open Sys2Proof

def State.modPaging (s : State) (f : Paging → Paging) : State := { s with paging := f s.paging }

/-! ## Page tables (R243 to R246) -/

/-- TYPE of a leaf (R244). -/
inductive PageType where
  | nonresident | hbm | host | peer
  deriving DecidableEq, Repr

/-- A leaf that translates an address: its type, WRITE, the address of the byte, the device, the page size. -/
structure Leaf where
  type : PageType
  write : Bool
  addr : Nat
  device : Nat
  size : Nat
  deriving DecidableEq, Repr

def pageType : Nat → PageType
  | 1 => .hbm
  | 2 => .host
  | 3 => .peer
  | _ => .nonresident

/-- The leaf word and page size that map an address (R243). -/
def PageTable.leaf (t : PageTable) (va : Nat) : Option (DWord × Nat) :=
  match t.small.find? fun e => e.1 == va / 65536 with
  | some e => some (e.2, 65536)
  | none => match t.large.find? fun e => e.1 == va / 2 ^ 21 with
    | some e => some (e.2, 2 ^ 21)
    | none => none

/-- A leaf word as it translates an address of its page (R244). -/
def leafAt (w : DWord) (size va : Nat) : Leaf :=
  let x := w.toNat
  let ty := pageType (bits x 0 3)
  let base := if ty = .host then bits x 16 48 else bits x 16 32
  ⟨ty, bit x 3, base * 65536 + va % size, bits x 48 14, size⟩

/-- Translate an address (R243, R244). -/
def PageTable.translate (t : PageTable) (va : Nat) : Option Leaf := (t.leaf va).map fun e => leafAt e.1 e.2 va

def State.pageTable (s : State) (fn : Nat) : PageTable := Table.get {} s.paging.tables fn

def State.translate (s : State) (fn va : Nat) : Option Leaf := (s.pageTable fn).translate va

/-- Split a large leaf into the 32 leaves of its 64 KiB ranges (R245). -/
def PageTable.split (t : PageTable) (va : Nat) : PageTable :=
  match t.large.find? fun e => e.1 == va / 2 ^ 21 with
  | none => t
  | some e =>
    { small := (List.range 32).foldl (fun m i =>
        Table.put m (e.1 * 32 + i) (if bits e.2.toNat 0 3 = 0 then e.2 else e.2 + BitVec.ofNat 64 (i * 65536))) t.small
      large := Table.erase t.large e.1 }

/-- Map or unmap one range (R245). -/
def PageTable.edit (t : PageTable) (va : Nat) (large : Bool) (leaf : Option DWord) : PageTable :=
  if large then
    let k := va / 2 ^ 21
    { small := t.small.filter fun e => e.1 / 32 != k
      large := match leaf with
        | some w => Table.put t.large k w
        | none => Table.erase t.large k }
  else
    let t := t.split va
    { t with small := match leaf with
        | some w => Table.put t.small (va / 65536) w
        | none => Table.erase t.small (va / 65536) }

/-- A batch entry (R245). -/
structure PageEdit where
  va : Nat
  fn : Nat
  large : Bool
  op : Nat
  leaf : Nat
  reserved : Bool
  deriving DecidableEq, Repr

def pageEditOf (b : List Byte) : PageEdit :=
  let x := leNat b
  ⟨bits x 0 57, bits x 64 6, bit x 70, bits x 72 8, bits x 128 64,
    bits x 57 7 != 0 || bit x 71 || bits x 80 48 != 0 || bits x 192 64 != 0⟩

/-- A leaf word that a batch may map (R244, R245). -/
def leafOk (own : Option Nat) (large : Bool) (w : Nat) : Bool :=
  let ty := bits w 0 3
  bits w 4 12 == 0 && (!large || bits w 16 5 == 0) &&
    (if ty = 0 then bits w 16 48 == 0
     else if ty = 1 then bits w 48 16 == 0 && decide (bits w 16 32 * 65536 < hbmUserEnd)
     else if ty = 2 then true
     else ty == 3 && bits w 62 2 == 0 && some (bits w 48 14) != own)

/-- A batch entry passes its checks (R245). -/
def PageEdit.ok (e : PageEdit) (own : Option Nat) : Bool :=
  !e.reserved && e.va % (if e.large then 2 ^ 21 else 65536) == 0 &&
    (if e.op = 1 then leafOk own e.large e.leaf else e.op == 2 && e.leaf == 0)

/-- Apply an entry to the shadow of its function's table, which starts as the active table. -/
def State.applyEdit (s : State) (e : PageEdit) : State :=
  let t := Table.get (s.pageTable e.fn) s.paging.shadow e.fn
  let t := t.edit e.va e.large (if e.op = 1 then some (BitVec.ofNat 64 e.leaf) else none)
  s.modPaging fun p => { p with shadow := Table.put p.shadow e.fn t }

/-- Read a batch's entries from `a`: the entries, or the index of the first that fails as R61 describes. -/
def State.readEdits (s : State) (a : Nat) : Nat → Nat → Except Nat (List PageEdit)
  | _, 0 => .ok []
  | i, n + 1 =>
    match s.hostRead (a + 32 * i) 32 with
    | none => .error i
    | some b => match s.readEdits a (i + 1) n with
      | .ok l => .ok (pageEditOf b :: l)
      | .error j => .error j

/-- PG_BATCH_GO (R245). The shadow is complete at 16 entries per microsecond, counted from the last edge (log
entry 17). -/
def State.pgBatchGo (s : State) : State :=
  if s.paging.batch = 1 then s.modPaging fun p => { p with busyWrite := true }
  else
    let a := s.reg64 0x60100
    let n := s.regN 0x60108
    if n = 0 then s.modPaging fun p => { p with batch := 2, index := 0 }
    else match s.readEdits a 0 n with
      | .error i => s.modPaging fun p => { p with batch := 3, readError := true, index := i }
      | .ok l =>
        match (List.zip (List.range n) l).find? fun e => !e.2.ok s.devid with
        | some e => s.modPaging fun p => { p with batch := 3, index := e.1 }
        | none =>
          let s := s.modPaging fun p => { p with shadow := [] }
          let s := l.foldl State.applyEdit s
          s.modPaging fun p => { p with
            batch := 1, index := 0, batchAt := s.tick.now + ceilDiv n 16 * 1000 }

/-- Entries of a translation cache (R246). -/
def tlbEntries : Nat := 64

/-- Drop the entries of functions. -/
def TileSt.tlbDrop (t : TileSt) (fns : List Nat) : TileSt := { t with tlb := t.tlb.filter fun e => !fns.contains e.fn }

/-- The page tables swap at the first tick after the shadow is complete, and the cache entries of the functions whose
tables change are invalidated (R57, R245, R246). -/
def State.swapPages (s : State) : State :=
  if s.paging.batch = 1 ∧ s.paging.batchAt ≤ s.tick.now then
    let fns := s.paging.shadow.map Prod.fst
    let s := s.modPaging fun p => { p with
      tables := p.shadow.foldl (fun t e => Table.put t e.1 e.2) p.tables, shadow := [], batch := 2 }
    { s with tiles := { s.tiles with tiles := s.tiles.tiles.map fun e => (e.1, e.2.tlbDrop fns) } }
  else s

/-- PG_BATCH_GO. -/
def execPgBatchGo (s : State) : Result := .next s.pgBatchGo

/-! ## Reading and writing through a page table -/

/-- Pieces of a span that cross neither a 256-byte boundary nor a page (R236): address and length. -/
def pieces (va : Nat) : Nat → Nat → List (Nat × Nat)
  | _, 0 => []
  | 0, _ => []
  | fuel + 1, n =>
    let m := min n (256 - va % 256)
    (va, m) :: pieces (va + m) fuel (n - m)

def piecesOf (va n : Nat) : List (Nat × Nat) := pieces va (n / 256 + 2) n

/-- A fault of R247: the first faulting byte, its kind of R248 and whether it was a write. -/
structure PgFault where
  va : Nat
  kind : Nat
  write : Bool
  deriving DecidableEq, Repr

/-- What a piece meets at the leaf that maps it, if one does (R247). -/
def xlateLeaf (write : Bool) (p : Nat × Nat) : Option Leaf → Except PgFault Seg
  | none => .error ⟨p.1, 1, write⟩
  | some l =>
    if l.type = .nonresident then .error ⟨p.1, 0, write⟩
    else if write && !l.write then .error ⟨p.1, 2, write⟩
    else match l.type with
      | .host => .ok (.host l.addr p.2)
      | .peer => .ok (.peer l.device l.addr p.2)
      | _ => .ok (.hbm l.addr p.2)

/-- Translate one piece, or fault (R247). -/
def State.xlate (s : State) (fn : Nat) (write : Bool) (p : Nat × Nat) : Except PgFault Seg :=
  xlateLeaf write p (s.translate fn p.1)

/-- The cached leaf of an address. -/
def TileSt.cached (t : TileSt) (fn va : Nat) : Option Leaf :=
  (t.tlb.find? fun e => e.fn == fn && e.page == va / e.size).map fun e => leafAt e.word e.size va

/-- A leaf enters a tile's translation cache; the oldest of 64 leaves it (DESIGN CHOICE, log entry 128). -/
def TileSt.cache (t : TileSt) (fn va : Nat) (e : DWord × Nat) : TileSt :=
  { t with tlb := (⟨fn, va / e.2, e.2, e.1⟩ :: t.tlb).take tlbEntries }

/-- A tile's Retriever translates an address: through its cache, or by a walk whose leaf enters the cache (R246). -/
def State.tileLeaf (s : State) (ix fn va : Nat) : Option Leaf × State :=
  match (s.tile ix).cached fn va with
  | some l => (some l, s)
  | none => match (s.pageTable fn).leaf va with
    | none => (none, s)
    | some e => (some (leafAt e.1 e.2 va), s.modTile ix fun t => t.cache fn va e)

/-- A tile translates pieces until one faults (R243, R246, R247). -/
def State.xlateTile (s : State) (ix fn : Nat) (write : Bool) : List (Nat × Nat) → (List Seg × Option PgFault) × State
  | [] => (([], none), s)
  | p :: ps =>
    let (l, s) := s.tileLeaf ix fn p.1
    match xlateLeaf write p l with
    | .error e => (([], some e), s)
    | .ok g =>
      let (r, s) := s.xlateTile ix fn write ps
      ((g :: r.1, r.2), s)

/-- Translate pieces until one faults. -/
def State.xlatePrefix (s : State) (fn : Nat) (write : Bool) : List (Nat × Nat) → List Seg × Option PgFault
  | [] => ([], none)
  | p :: ps =>
    match s.xlate fn write p with
    | .error e => ([], some e)
    | .ok g =>
      let r := s.xlatePrefix fn write ps
      (g :: r.1, r.2)

/-- Translate a list of pieces: all of them, or the first fault. -/
def State.xlates (s : State) (fn : Nat) (write : Bool) : List (Nat × Nat) → Except PgFault (List Seg)
  | [] => .ok []
  | p :: ps =>
    match s.xlate fn write p with
    | .error e => .error e
    | .ok g => match s.xlates fn write ps with
      | .error e => .error e
      | .ok l => .ok (g :: l)

def Seg.len : Seg → Nat
  | .hbm _ n => n
  | .host _ n => n
  | .peer _ _ n => n

def segsLen (l : List Seg) : Nat := (l.map Seg.len).foldl (· + ·) 0

def Seg.inHbm : Seg → Bool
  | .hbm _ _ => true
  | _ => false

/-- Count one completed transaction of an initiator (R258). The latency bin is a matter of timing: a free choice (log
entry 4). -/
def State.netOne (s : State) (ini rd wr : Nat) : State :=
  let (x, s) := s.draw
  let b := x % 8
  s.modPaging fun p =>
    let c := Table.get {} p.counts ini
    let c := { c with
      rd := (c.rd + rd) % 2 ^ 48, wr := (c.wr + wr) % 2 ^ 48
      bins := (List.zip (List.range 8) c.bins).map fun e => if e.1 = b then sat 32 (e.2 + 1) else e.2 }
    { p with counts := Table.put p.counts ini c }

/-- Count completed transactions of an initiator: the bytes that each has read or written (R258). -/
def State.netReads (s : State) (ini : Nat) (sizes : List Nat) : State := sizes.foldl (fun s n => s.netOne ini n 0) s
def State.netWrites (s : State) (ini : Nat) (sizes : List Nat) : State := sizes.foldl (fun s n => s.netOne ini 0 n) s

/-- The sizes of the transactions of a span of `n` bytes, aligned at 256 (R236). -/
def spanSizes (n : Nat) : List Nat := (piecesOf 0 n).map Prod.snd

/-- The hub as an initiator (R259). -/
def hubInitiator : Nat := 1216

/-- What a read through a page table gives (R77, R149). -/
inductive VaRead where
  | bytes (b : List Byte)
  /-- a page is unmapped or NONRESIDENT, or a HOST or PEER read failed -/
  | failed
  /-- an HBM read is unrecoverable (R283) -/
  | memory
  /-- a peer has not answered, or a frequency change holds HBM (R293) -/
  | waits
  deriving DecidableEq, Repr

/-- Read segments; each PEER segment takes its bytes from the front of `peer`. -/
def State.readSegs (s : State) (owners : List Nat) (peer : List Byte) : List Seg → VaRead × State
  | [] => (.bytes [], s)
  | g :: gs =>
    let (r, peer, s) : VaRead × List Byte × State :=
      match g with
      | .hbm a n =>
        match s.hbmRead owners a n with
        | (some b, s) => (.bytes b, peer, s)
        | (none, s) => (.memory, peer, s)
      | .host a n =>
        match s.hostRead a n with
        | some b => (.bytes b, peer, s)
        | none => (.failed, peer, s)
      | .peer _ _ n => (.bytes (peer.take n), peer.drop n, s)
    match r with
    | .bytes b =>
      match s.readSegs owners peer gs with
      | (.bytes c, s) => (.bytes (b ++ c), s)
      | other => other
    | bad => (bad, s)

/-- The hub's reads of PEER pages that a list of segments needs for a descriptor. -/
def peerSpots (id fn : Nat) (gs : List Seg) : List PeerRead :=
  gs.filterMap fun
    | .peer dev a n => some { id := 0, desc := id, fn := fn, device := dev, addr := a, len := n }
    | _ => none

/-- Two reads of one place for one descriptor. -/
def PeerRead.same (a b : PeerRead) : Bool := a.desc == b.desc && a.device == b.device && a.addr == b.addr && a.len == b.len

/-- A read that the hub needs joins those it has yet to send, if it is not among them. -/
def State.wantPeer (s : State) (q : PeerRead) : State :=
  if s.paging.peerReads.any q.same then s
  else s.modPaging fun p => { p with nextPeer := p.nextPeer + 1, peerReads := p.peerReads ++ [{ q with id := p.nextPeer }] }

/-- What has come of a read. -/
def State.peerGot (s : State) (q : PeerRead) : PeerAnswer := ((s.paging.peerReads.find? q.same).map PeerRead.got).getD .unsent

def PeerAnswer.data : PeerAnswer → List Byte
  | .bytes b => b
  | _ => []

def PeerAnswer.bad (a : PeerAnswer) : Bool := a == .failed
def PeerAnswer.there : PeerAnswer → Bool
  | .bytes _ => true
  | _ => false

/-- Reads that have served are forgotten. -/
def State.dropPeers (s : State) (l : List PeerRead) : State :=
  s.modPaging fun p => { p with peerReads := p.peerReads.filter fun x => !(l.any x.same) }

/-- Read a span of the addresses of a descriptor's function: PEER pages by RREADs, which `waits` until they are answered
(R77, R149); HBM not while a frequency change holds it (R293). -/
def State.readVa (s : State) (d : Desc) (va n : Nat) : VaRead × State :=
  match s.xlates d.fn.val false (piecesOf va n) with
  | .error _ => (.failed, s)
  | .ok gs =>
    let l := peerSpots d.id d.fn.val gs
    let s := l.foldl State.wantPeer s
    if l.any fun q => (s.peerGot q).bad then (.failed, s.dropPeers l)
    else if !(l.all fun q => (s.peerGot q).there) || (s.hbm.held && gs.any Seg.inHbm) then (.waits, s)
    else
      let peer := l.flatMap fun q => (s.peerGot q).data
      (((s.dropPeers l).netReads hubInitiator (gs.map Seg.len)).readSegs [d.id] peer gs)

/-- Reads of descriptors that are gone are forgotten. -/
def State.sweepPeers (s : State) : State :=
  s.modPaging fun p => { p with peerReads := p.peerReads.filter fun q => s.shep.descs.any fun d => d.id == q.desc }

/-- Some page of a span is of type HOST or PEER, or HBM is held. -/
def State.spanRemote (s : State) (fn va n : Nat) : Bool :=
  match s.xlates fn false (piecesOf va n) with
  | .error _ => false
  | .ok gs => gs.any fun g => !g.inHbm || s.hbm.held

def State.spanMapped (s : State) (fn va n : Nat) : Bool :=
  match s.xlates fn false (piecesOf va n) with
  | .error _ => false
  | .ok _ => true

/-! ## Page faults (R247 to R250) -/

/-- Saturating counts of PG_FAULT_COUNT. -/
def State.countFault (s : State) (dropped : Bool) : State :=
  s.modPaging fun p => { p with faults := sat 16 (p.faults + 1), dropped := if dropped then sat 16 (p.dropped + 1) else p.dropped }

/-- Write a fault record at the tick that samples a fault (R248). -/
def State.faultRecord (s : State) (d : Desc) (t : TileId) (ctx : Nat) (f : PgFault) (chunk : Nat) : State :=
  let base := s.reg64 0x60200
  let cfg := s.regN 0x60208
  let size := 2 ^ bits cfg 0 4
  let tail := s.paging.fringTail
  let b8 := ctx % 16 + 16 * b2n f.write + 32 * f.kind
  let rec' (ph : Nat) : List Byte :=
    leBytes 4 d.f.job.toNat ++ leBytes 1 d.fn.val ++ leBytes 1 d.pack ++ leBytes 1 t.col.val ++ leBytes 1 t.row.val ++
      leBytes 1 (b8 + 128 * ph) ++ leBytes 3 0 ++ leBytes 4 chunk ++ leBytes 8 f.va ++ leBytes 8 s.tick.count
  let s := s.raise .log 0x0104 noInst (rec' 0)
  if base = 0 then s.countFault false
  else if size ≤ (tail + 2 ^ 32 - s.paging.fringHead) % 2 ^ 32 then s.countFault true
  else
    let s := s.hostWriteAs 0 (base + 32 * (tail % size)) (rec' (if tail / size % 2 = 0 then 1 else 0))
    let s := (s.countFault false).modPaging fun p => { p with fringTail := (tail + 1) % 2 ^ 32 }
    s.msixSend 0 (bits cfg 4 11)

/-! ## BAR2 (R252) -/

/-- A refused access (R252). -/
def State.bar2Refuse (s : State) : State :=
  s.modPaging fun p => { p with bar2Refused := sat 32 (p.bar2Refused + 1), bar2Data := none }

/-- Every segment is HBM. -/
def allHbm (gs : List Seg) : Bool := gs.all fun
  | .hbm _ _ => true
  | _ => false

/-- A BAR2 access to HBM pages is served. -/
def State.bar2Serve (s : State) (write : Bool) (data : List Byte) (len : Nat) (gs : List Seg) : State :=
  if write then
    let s := (gs.foldl (fun (acc : State × List Byte) g =>
      match g with
      | .hbm a n => (acc.1.hbmWrite [] a (acc.2.take n), acc.2.drop n)
      | _ => acc) (s, data)).1
    s.netWrites hubInitiator (gs.map Seg.len)
  else
    let (r, s) := s.readSegs [] [] gs
    let (b, s) := match r with
      | .bytes b => (b, s)
      | _ =>
        let (x, s) := s.draw
        (leBytes len x, s)
    (s.netReads hubInitiator (gs.map Seg.len)).modPaging fun p => { p with bar2Data := some b }

/-- BAR2_ACCESS (R60, R252): an offset past BAR2's size is no access; a frequency change holds one until its release
(R293). -/
def execBar2Access (off : BitVec 40) (write : Bool) (data : List Byte) (len : Nat) (s : State) : Result :=
  .next <|
    let fn := s.regN 0x60010 % 64
    let va := (s.reg64 0x60018 + off.toNat) % 2 ^ 57
    if 2 ^ s.host.pcie.bar2 < off.toNat + len then s
    else match s.xlates fn write (piecesOf va len) with
    | .error _ => s.bar2Refuse
    | .ok gs =>
      if !allHbm gs then s.bar2Refuse
      else if s.hbm.held then s.modPaging fun p => { p with bar2Held := p.bar2Held ++ [⟨write, data, len, gs⟩] }
      else s.bar2Serve write data len gs

/-- The BAR2 accesses that a frequency change held are served in the order of their arrival (R293). -/
def State.bar2Release (s : State) : State :=
  s.paging.bar2Held.foldl (fun s b => s.bar2Serve b.write b.data b.len b.segs) (s.modPaging fun p => { p with bar2Held := [] })

/-- FREQ_CHANGE_RETRAINED (R289, R293): held requests are released; a stack, or a pseudo-channel, that fails is declared
failed. -/
def execFreqChangeRetrained (failed : List (StackIx × Option (Fin 32))) (s : State) : Result :=
  .next <|
    if s.hbm.phase ≠ .retraining then s
    else
      let down (k : Nat) : Bool := failed.any fun e => e.1.val == k && e.2.isNone
      let s := (List.range 12).foldl (fun s k => s.modStack k fun x => { x with trained := !x.failed && !down k }) s
      let s := s.modHbm fun h => { h with phase := .idle, op := h.target, changes := sat 16 (h.changes + 1) }
      (failed.foldl (fun s e => s.failNext e.1.val (e.2.map Fin.val)) s).releaseHbm.bar2Release

/-! ## Hub check units (R241, R242, R259) -/

def State.crcUnit (s : State) (u : Nat) : CrcUnit := Table.get {} s.paging.crc u
def State.modCrcUnit (s : State) (u : Nat) (f : CrcUnit → CrcUnit) : State :=
  s.modPaging fun p => { p with crc := Table.put p.crc u (f (Table.get {} p.crc u)) }

def crcCtrlAddr (u : Nat) : Nat := 0x150000 + 32 * u

/-- A write to a hub unit (R242, R259): CTRL and VALUE only while it is idle. -/
def State.crcWrite (s : State) (u : Nat) (reg : CrcReg) (v : Word) : State :=
  let busy := (s.crcUnit u).owner.isSome
  let refuse := s.modCrcUnit u fun c => { c with writeBusy := true }
  match reg with
  | .ctrl => if busy then refuse else s.setReg (crcCtrlAddr u) (v &&& 0x3FFF)
  | .expectLo => s.setReg (crcCtrlAddr u + 8) v
  | .expectHi => s.setReg (crcCtrlAddr u + 12) v
  | .valueLo => if busy then refuse else s.modCrcUnit u fun c => { c with value := c.value.extractLsb' 32 32 ++ v }
  | .valueHi => if busy then refuse else s.modCrcUnit u fun c => { c with value := v ++ c.value.extractLsb' 0 32 }

/-- CRC_HUB_VALUE_WRITE (R242). -/
def execCrcHubValueWrite (u : Fin 8) (reg : CrcReg) (v : Word) (s : State) : Result := .next (s.crcWrite u.val reg v)

/-- A unit takes a stream's memory-side bytes (R241). -/
def State.crcFeed (s : State) (u : Nat) (b : List Byte) : State :=
  match polyOf (s.regN (crcCtrlAddr u) % 8) with
  | none => s
  | some p => s.modCrcUnit u fun c => { c with value := BitVec.ofNat 64 (crcBytes p c.value.toNat b) }

/-- A stream ends with the unit: the unit is free, and without CRC_CONT it compares (R241). -/
def State.crcEnd (s : State) (u : Nat) (cont : Bool) : State :=
  let ctl := s.regN (crcCtrlAddr u)
  let s := s.modCrcUnit u fun c => { c with owner := none }
  match polyOf (ctl % 8) with
  | none => s
  | some p =>
    if cont then s
    else if p.finish (s.crcUnit u).value.toNat = s.reg64 (crcCtrlAddr u + 8) % 2 ^ (8 * p.bytes) then s
    else (s.modCrcUnit u fun c => { c with mismatch := true }).msixSend 0 (bits ctl 3 11)

/-! ## The tile network (R253 to R258) -/

/-- A domain: physical row and die half (R257). -/
def domainIx (row : Nat) (right : Bool) : Nat := row * 2 + b2n right
def SiteId.domain (x : SiteId) : Nat := domainIx x.prow.val (decide (16 ≤ x.pcol.val))

/-- Domains that a Pack's tiles lie in. -/
def State.packDomains (s : State) (p : Nat) : List Nat := (s.shape p).tiles.map fun i => SiteId.domain (s.siteOf (tileOfIx i))

/-- A stop's place among the retry counters. -/
def stopIx : NetStop → Nat
  | .tile x => x.ix
  | .port p => 1152 + p.val
  | .hub c => 1216 + c.val
  | .link n => 1248 + n.val

/-- The network address of a stop: PROW and PCOL (R254). -/
def stopAddr : NetStop → Nat × Nat
  | .tile x => (x.prow.val, x.pcol.val)
  | .link n => (18 * (n.val / 12 / 2) + 3 + n.val % 12, 32 + n.val / 12 % 2)
  | .port p => (if p.val < 32 then 36 else 37, p.val % 32)
  | .hub c => (38, c.val)

/-- The rings that a stop is on (R253, R254). -/
def onRow (x : NetStop) (r : Nat) : Bool := (stopAddr x).1 == r && decide ((stopAddr x).1 < 36)
def onCol (x : NetStop) (c : Nat) : Bool := (stopAddr x).2 == c && decide ((stopAddr x).2 < 32)

/-- The rings of a path, a row ring by true: none where the two are on one ring and it makes no turn (R255). -/
def netPath (src dest : NetStop) : List (Bool × Nat) :=
  let (r, c) := stopAddr src
  let (r', c') := stopAddr dest
  let link : NetStop → Bool
    | .link _ => true
    | _ => false
  if r == r' && decide (r < 36) then [(true, r)]
  else if c == c' && decide (c < 32) then [(false, c)]
  else if 36 ≤ r || link dest && !link src then [(false, c), (true, r')]
  else [(true, r), (false, c')]

/-- A packet's path passes a stop. -/
def stopPassed (x src dest : NetStop) : Bool := (netPath src dest).any fun g => if g.1 then onRow x g.2 else onCol x g.2

/-- A domain is awake; its idle time starts again (R257, R381). -/
def State.wakeDomain (s : State) (d : Nat) : State :=
  s.modPaging fun p => { p with
    asleep := p.asleep.filter (· != d), waking := Table.erase p.waking d, busyAt := Table.put p.busyAt d s.tick.now }

/-- A domain is waking. -/
def Paging.wakes (p : Paging) (d : Nat) : Bool := p.waking.any fun e => e.1 == d

/-- A sleeping domain begins to wake. -/
def State.startWake (s : State) (d : Nat) : State :=
  s.modPaging fun p => if p.asleep.contains d && !p.wakes d then { p with waking := Table.put p.waking d s.tick.now } else p

/-- The domains that are not idle (R376): they serve a Pack with a descriptor dispatched, hold a site in TESTING or
QUARANTINE, or are the target of a migration in progress. -/
def State.busyDomains (s : State) : List Nat :=
  (List.range 64).flatMap (fun p => if (s.pack p).desc.isSome then s.packDomains p else []) ++
    (s.kennel.sites.filter fun e => e.2.st == .testing || e.2.st == .quarantine).map (fun e => SiteId.domain (siteOfIx e.1)) ++
    (s.kennel.moves.filter fun m => m.started).map fun m => SiteId.domain m.to_

/-- Power-gate a domain that has been idle for LEASH_DOMAIN_IDLE µs; 0 gates none (R376). -/
def State.gateDomain (busy : List Nat) (s : State) (d : Nat) : State :=
  let idle := s.regN 0x110010
  if idle = 0 || busy.contains d || s.paging.asleep.contains d || decide (s.tick.now < Table.get 0 s.paging.busyAt d + 1000 * idle) then s
  else s.modPaging fun p => { p with asleep := p.asleep ++ [d] }

/-- DOMAIN_GATE (R257, R376). -/
def execDomainGate (row : Fin 36) (right : Bool) (s : State) : Result :=
  .next (s.gateDomain s.busyDomains (domainIx row.val right))

/-- A write of NET_STAT_SEL latches the counters of the initiator (R258, R259). -/
def State.netStatSel (s : State) (sel : Nat) : State :=
  s.modPaging fun p => { p with sel := sel, latched := if sel ≤ hubInitiator then Table.get {} p.counts sel else p.latched }

/-- NET_STAT_SEL. -/
def execNetStatSel (sel : BitVec 11) (s : State) : Result := .next (s.netStatSel sel.toNat)

end Sys2Proof.Machine
end

