-- ==== Sys2Proof/Machine/Kennel.lean ====
section
/-! DEFINITION. Sites, remapping, migration, quarantine, self-test and Rotation (R260 to R276). A tile's contents are
kept by logical tile, so that a migration leaves them where they are (R267). -/
namespace Sys2Proof.Machine
open Sys2Proof

def State.modKennel (s : State) (f : Kennel → Kennel) : State := { s with kennel := f s.kennel }

/-- STATE of KNL_TILE_STATE (R276). -/
def SiteState.code : SiteState → Nat
  | .inService => 0
  | .spare => 1
  | .testing => 2
  | .quarantine => 3
  | .retired => 4
  | .suspect => 5
  | .fused => 6

/-- KNL_TILE_STATE (R276). -/
def SiteSt.word (x : SiteSt) : Nat :=
  x.st.code + 8 * (if x.st = .inService ∨ x.st = .suspect then x.lrow else 0) + 2 ^ 8 * x.faults + 2 ^ 16 * x.bistRuns +
    2 ^ 24 * b2n x.lastFail

/-- A site serves a logical tile (R264). -/
def SiteSt.serves (x : SiteSt) : Bool := x.st == .inService || x.st == .suspect

/-- Sites of a column, and of a column half, ascending (R263). -/
def columnSites (c : Nat) : List Nat := (List.range 36).map fun r => r * 32 + c
def halfSites (c h : Nat) : List Nat := (List.range 18).map fun r => (18 * h + r) * 32 + c

/-- The lowest SPARE of a list of sites that no migration has chosen. -/
def State.spareOf (s : State) (l : List Nat) : Option Nat :=
  l.find? fun i => (s.site i).st == .spare && !(s.kennel.moves.any fun m => m.to_.ix == i)

/-- A Rotation step that has not started: it holds its spare only until a repair needs it (R269, R270). -/
def Move.mayYield (m : Move) : Bool := m.why == .rotation && !m.started

/-- The lowest SPARE for a repair (R270): a Rotation step that has not started does not hold one back. -/
def State.spareFor (s : State) (l : List Nat) : Option Nat :=
  l.find? fun i => (s.site i).st == .spare && !(s.kennel.moves.any fun m => m.to_.ix == i && !m.mayYield)

/-- KNL_LOW_COLS (R272, R276): columns without a SPARE. -/
def State.lowCols (s : State) : Nat :=
  (List.range 32).foldl (fun acc c =>
    if (columnSites c).any fun i => (s.site i).st == .spare then acc else acc + 2 ^ c) 0

/-- The logical tile that a site serves. -/
def State.servedTile (s : State) (i : Nat) : TileId := ⟨Fin.ofNat 32 i, Fin.ofNat 32 (s.site i).lrow⟩

/-- A step is skipped or late (R273). -/
def State.deferStep (s : State) : State := s.modKennel fun k => { k with deferred := sat 32 (k.deferred + 1) }

/-- A Rotation step whose spare a repair has taken chooses another of the half; with none it is skipped (DESIGN CHOICE,
log entry 121). -/
def State.stepYields (s : State) (j : Nat) : State :=
  match s.kennel.moves.find? fun m => m.to_.ix == j && m.mayYield with
  | none => s
  | some m =>
    match s.spareOf (halfSites m.from_.pcol.val (m.from_.prow.val / 18)) with
    | some n => s.modKennel fun k => { k with moves := k.moves.map fun x => if x.tile == m.tile then { x with to_ := siteOfIx n } else x }
    | none => (s.modKennel fun k => { k with moves := k.moves.filter fun x => x.tile != m.tile }).deferStep

/-- Schedule the move of a served tile to a spare of its own half, else of the other half (R270). False when the
column has none. -/
def State.schedule (s : State) (i : Nat) : Bool × State :=
  let c := i % 32
  let h := i / 32 / 18
  match s.spareFor (halfSites c h ++ halfSites c (1 - h)) with
  | none => (false, s)
  | some j => (true, (s.modKennel fun k => { k with moves := k.moves ++
      [{ tile := s.servedTile i, from_ := siteOfIx i, to_ := siteOfIx j, why := .repair, started := false }] }).stepYields j)

/-- FAULTS of a site, which the NV store keeps (R271, R276). -/
def State.setFaults (s : State) (i n : Nat) : State :=
  let s := s.modSite i fun x => { x with faults := n }
  { s with nv := { s.nv with siteFaults := Table.set 0 s.nv.siteFaults i n } }

/-- A quarantine cause for a site (R270 to R272): `cause` is numbered as in event 0x010E (R384). -/
def State.quarantine (s : State) (i cause job : Nat) : State :=
  let x := s.site i
  match x.st with
  | .suspect => s.raise .log 0x010E i (leBytes 4 x.word ++ leBytes 4 cause ++ leBytes 4 job)
  | .inService =>
    let mine (m : Move) : Bool := m.from_.ix == i
    let more (s : State) := s.setFaults i (sat 8 (x.faults + 1))
    if s.kennel.moves.any fun m => mine m && m.why == .repair then s
    else if s.kennel.moves.any mine then
      (more s).modKennel fun k => { k with moves := k.moves.map fun m => if mine m then { m with why := .repair } else m }
    else
      let (ok, s) := (more s).schedule i
      if ok then s
      else
        let s := s.modSite i fun x => { x with st := .suspect }
        s.raise .alarm 0x0007 i (leBytes 4 s.lowCols ++ leBytes 4 (s.site i).word)
  | _ => s

/-- A quarantine cause in the site that serves a logical tile. -/
def State.quarantineTile (s : State) (t : TileId) (cause job : Nat) : State := s.quarantine (s.siteOf t).ix cause job

/-- A site has become SPARE: SUSPECT tiles of the column move to spares in ascending physical row (R272). -/
def State.serveSuspects (s : State) (c : Nat) : State :=
  (columnSites c).foldl (fun s i =>
    if (s.site i).st == .suspect && !(s.kennel.moves.any fun m => m.from_.ix == i) then (s.schedule i).2 else s) s

/-! ## Quiescent points and migration (R262, R266 to R269) -/

/-- A migration of the Pack's tiles is in progress. -/
def State.packMigrating (s : State) (p : Nat) : Bool :=
  s.kennel.moves.any fun m => m.started && (s.shape p).covers m.tile

/-- No descriptor of the Pack is dispatched without a record, a LOOP between its iterations apart, and no transaction is
outstanding (R262). -/
def State.atRest (s : State) (p : Nat) : Bool :=
  (match s.running p with
   | none => true
   | some d => d.phase == .parked || d.phase == .recorded) &&
    ((s.shape p).tiles.all fun i => (s.tile i).ctxs.isEmpty) &&
    !s.signalsOut p

/-- The Pack is at a quiescent point now (R262). -/
def State.quiescent (s : State) (p : Nat) : Bool := !s.packMigrating p && s.atRest p

/-- A timed descriptor of the Pack is fetched and not yet dispatched (R269). -/
def State.timedWaits (s : State) (p : Nat) : Bool :=
  s.shep.descs.any fun d => d.pack == p && d.timed && (d.phase == .waiting || d.phase == .arrived || d.phase == .reading)

/-- The Pack is stopped in a whole replay whose tile is to be spared: its quiescent point (R115, R262). -/
def State.replayQuiet (s : State) (p : Nat) : Bool :=
  (s.pack p).replaying.isSome && s.packDone p && !s.packMigrating p

/-- Migrations of the Pack may start: its quiescent point, or that of a whole replay. Those that have started at this
very tick move their tiles in parallel (R266). -/
def State.moveTime (s : State) (p : Nat) : Bool :=
  !(s.kennel.moves.any fun m => m.started && decide (m.since ≠ s.tick.count) && (s.shape p).covers m.tile) &&
    (s.atRest p || ((s.pack p).replaying.isSome && s.packDone p))

/-- A scheduled migration may start at this tick (R265, R266, R269): one at a time in a column. -/
def State.mayMove (s : State) (m : Move) : Bool :=
  !m.started &&
    !(s.kennel.moves.any fun x => x.started && x.tile.col == m.tile.col) &&
    (match s.packOf m.tile with
     | none => true
     | some p => s.moveTime p &&
        (m.why == .repair ||
          (!((s.shape p).deferRot && s.timedWaits p) &&
            !(s.kennel.moves.any fun x => x.why == .repair && (s.shape p).covers x.tile))))

/-- Start a migration when it may start (R266): a sleeping spare's domain begins to wake. -/
def State.startMove (s : State) (m : Move) : State :=
  if s.mayMove m then
    let s := s.modKennel fun k => { k with moves := k.moves.map fun x =>
      if x.tile == m.tile then { x with started := true, since := s.tick.count } else x }
    s.startWake (SiteId.domain m.to_)
  else s

/-- Start every migration that may start, repairs first (R269). -/
def State.startMoves (s : State) : State :=
  (s.kennel.moves.filter fun m => m.why == .rotation).foldl State.startMove
    ((s.kennel.moves.filter fun m => m.why == .repair).foldl State.startMove s)

/-- PACK_STATUS (R276): RUNNING is 0 while a LOOP waits between two iterations, whose records are all written. -/
def State.packStatus (s : State) (p : Nat) : Nat :=
  let k := s.pack p
  let busy := match s.running p with
    | some d => d.phase != .parked
    | none => false
  b2n busy + 2 * b2n k.quiescent + 4 * b2n (s.packMigrating p) + 8 * b2n k.lostFlag + 65536 * k.migrated

/-- Every memory of the tile is zero; its semaphores, its epoch and its placed program stay (R98, R268). -/
def TileSt.zeroed (t : TileSt) : TileSt := { t with mem := {}, arr := {} }

/-- A migration ends (R266, R268): the remap entry swaps, the tile's translation cache is empty, the sites change state,
lost contents are zeroed. A double-bit error that a Rotation's copy meets sends the old site to quarantine (R270). -/
def State.endMove (s : State) (m : Move) (lost : Bool) : State :=
  let s := s.modKennel fun k => { k with
    moves := k.moves.filter fun x => x.tile != m.tile
    migrations := sat 16 (k.migrations + 1)
    remap := Table.set (dawnRow s.mod.grade m.tile.row.val) k.remap m.tile.ix m.to_.prow.val }
  let s := s.modTile m.tile.ix fun t => { t with tlb := [] }
  let s := s.modSite m.to_.ix fun x => { x with st := .inService, lrow := m.tile.row.val }
  let s := if m.why == .rotation && lost then s.setFaults m.from_.ix (sat 8 ((s.site m.from_.ix).faults + 1)) else s
  let s := s.modSite m.from_.ix fun x =>
    if m.why == .repair || lost then { x with st := .quarantine, lrow := 0, passed := 0, retest := false }
    else { x with st := .testing, lrow := 0 }
  match s.packOf m.tile with
  | none => if lost then s.modTile m.tile.ix TileSt.zeroed else s
  | some p =>
    let s := s.modPack p fun k => { k with migrated := sat 16 (k.migrated + 1) }
    if lost then
      let s := s.modTile m.tile.ix TileSt.zeroed
      let s := s.modPack p fun k => { k with lost := true, lostFlag := true }
      s.raise .log 0x010C m.to_.ix (leBytes 4 (s.packStatus p) ++ leBytes 4 (s.site m.to_.ix).word)
    else s

/-- MIGRATION_START (R266). -/
def execMigrationStart (tile : TileId) (s : State) : Result :=
  .next ((s.kennel.moves.filter fun m => m.tile == tile).foldl State.startMove s)

/-- A started migration of a tile whose copy goes on: its spare is awake (R266 step 3). -/
def State.copies (s : State) (m : Move) (tile : TileId) : Bool :=
  m.tile == tile && m.started && m.done.isNone && !s.paging.asleep.contains (SiteId.domain m.to_)

/-- MIGRATION_COMPLETE (R266, R268): the copy has ended; the next tick samples it and swaps the remap entry (R33). -/
def execMigrationComplete (tile : TileId) (lost : Bool) (s : State) : Result :=
  .next (s.modKennel fun k => { k with moves := k.moves.map fun m => if s.copies m tile then { m with done := some lost } else m })

/-- The migrations that a tick samples as complete (R33, R266). -/
def State.finishMoves (s : State) : State :=
  (s.kennel.moves.filter fun m => m.done.isSome).foldl (fun s m => s.endMove m (m.done.getD false)) s

/-! ## Commands of KNL_CMD (R270, R276) -/

/-- One command of KNL_CMD takes effect (R276): `retest` or quarantine. A SUSPECT site is not in a state that the action
allows, and the cause is logged (R272; DEDUCED, log entry 121). -/
def State.knlApply (s : State) (c : SiteId × Bool) : State :=
  let i := c.1.ix
  let res (s : State) (r : BitVec 2) := s.modKennel fun k => { k with cmdStatus := r }
  if c.2 then
    if (s.site i).st = .retired then
      res ((s.setFaults i 0).modSite i fun x => { x with st := .quarantine, passed := 0, retest := true }) 1
    else res s 2
  else if (s.site i).st = .inService then res (s.quarantine i 4 0) 1
  else if (s.site i).st = .suspect then res (s.quarantine i 4 0) 2
  else res s 2

/-- Complete migrations swap (R33), and commands written since the last tick take effect (R276). -/
def State.knlTick (s : State) : State :=
  let s := s.finishMoves
  let l := s.kennel.cmds
  l.foldl State.knlApply (s.modKennel fun k => { k with cmds := [] })

/-- KNL_QUARANTINE (R270, R276): takes effect at the next tick. -/
def execKnlQuarantine (site : SiteId) (s : State) : Result :=
  .next (s.modKennel fun k => { k with cmds := k.cmds ++ [(site, false)] })

/-- KNL_RETEST (R276): takes effect at the next tick. -/
def execKnlRetest (site : SiteId) (s : State) : Result :=
  .next (s.modKennel fun k => { k with cmds := k.cmds ++ [(site, true)] })

/-! ## Self-test (R271, R274) -/

/-- A site is retired, and the NV store's list names it (R264). -/
def State.retireSite (s : State) (i : Nat) : State :=
  let s := s.modSite i fun x => { x with st := .retired }
  { s with nv := { s.nv with retiredSites := Table.put s.nv.retiredSites i (s.site i).faults } }

/-- A site becomes SPARE; a site retested by command leaves the NV list (R271, R276). -/
def State.spareSite (s : State) (i : Nat) : State :=
  let s := if (s.site i).retest then
      { s with nv := { s.nv with retiredSites := Table.erase s.nv.retiredSites i } } else s
  (s.modSite i fun x => { x with st := .spare, retest := false, passed := 0 }).serveSuspects (i % 32)

/-- Two bytes for each of 14 Packs, unused ones 0xFFFF (R384). -/
def servedBytes (l : List Nat) : List Byte :=
  ((l ++ List.replicate 14 0xFFFF).take 14).flatMap (leBytes 2)

/-- One run of self-test ends (R271, R274). -/
def State.selfTest (s : State) (i : Nat) (pass : Bool) : State :=
  let x := s.site i
  let run (s : State) := s.modSite i fun x => { x with
    bistRuns := sat 8 (x.bistRuns + 1), lastFail := !pass
    lastPass := if pass then some s.tick.count else x.lastPass, served := if pass then [] else x.served }
  let failed (s : State) := (s.retireSite i).modKennel fun k => { k with bistFail := sat 16 (k.bistFail + 1) }
  match x.st with
  | .testing =>
    if pass then (run s).spareSite i
    else
      let s := failed (run s)
      let (last, s) := match x.lastPass with
        | some t => (t, s)
        | none => s.draw
      s.raise .alarm 0x0008 i (leBytes 4 (s.site i).word ++ leBytes 8 last ++ servedBytes x.served)
  | .quarantine =>
    if !pass then failed (run s)
    else if x.passed + 1 < 3 then (run s).modSite i fun x => { x with passed := x.passed + 1 }
    else if 3 ≤ x.faults then (run s).retireSite i
    else (run s).spareSite i
  | _ => s

/-- SELF_TEST_DONE (R271, R274). -/
def execSelfTestDone (site : SiteId) (pass : Bool) (s : State) : Result := .next (s.selfTest site.ix pass)

/-! ## Rotation (R273) -/

/-- KNL_ROT_CTRL (R276). -/
def State.rotEnabled (s : State) : Bool := bit (s.regN 0x40800) 16

/-- The IN_SERVICE site of a half whose last passing self-test is oldest; none since Dawn ranks oldest, and the
lowest row breaks a tie (R273). -/
def State.oldestSite (s : State) (l : List Nat) : Option Nat :=
  let age (i : Nat) : Nat := match (s.site i).lastPass with
    | none => 0
    | some t => t + 1
  (l.filter fun i => (s.site i).st == .inService && !(s.kennel.moves.any fun m => m.from_.ix == i)).foldl
    (fun acc i => match acc with
      | none => some i
      | some j => if age i < age j then some i else some j) none

/-- A step of one column half (R273); one that still waits for its quiescent point is late, and no second is queued. -/
def State.rotateHalf (s : State) (l : List Nat) : State :=
  if s.kennel.moves.any fun m => m.mayYield && l.contains m.from_.ix then s.deferStep
  else match s.oldestSite l, s.spareOf l with
    | some i, some j => s.modKennel fun k => { k with moves := k.moves ++
        [{ tile := s.servedTile i, from_ := siteOfIx i, to_ := siteOfIx j, why := .rotation, started := false }] }
    | _, none => s.deferStep
    | none, _ => s

/-- ROT_INTERVAL in ns. -/
def State.rotInterval (s : State) : Nat := bits (s.regN 0x40800) 0 16 * 1000000

/-- The interval timer has run out (R273). -/
def State.rotDue (s : State) : Bool :=
  s.rotEnabled && s.rotInterval != 0 && decide (s.kennel.rotSince + s.rotInterval ≤ s.tick.now)

/-- The MC takes one step in each column half at the end of the interval, and the next interval begins (R273). While the MC
is down no step is taken (R408; DEDUCED, log entry 121). -/
def State.rotTick (s : State) : State :=
  if s.rotDue && s.sec.mcRunning then
    let s := (List.range 64).foldl (fun s n => s.rotateHalf (halfSites (n / 2) (n % 2))) s
    s.modKennel fun k => { k with rotSince := k.rotSince + s.rotInterval }
  else s

/-- ROTATION_STEP (R273): the interval timer runs out. -/
def execRotationStep (s : State) : Result := .next s.rotTick

/-- A G2 commit that sets ROT_EN, or changes ROT_INTERVAL, starts the timer again (R273). -/
def State.rotRestart (old s : State) : State :=
  if (s.rotEnabled && !old.rotEnabled) || s.rotInterval != old.rotInterval then s.modKennel fun k => { k with rotSince := s.tick.now } else s

/-! ## Redefined Packs (R98) -/

/-- A tile that leaves a Pack because a G2 commit redefines the Pack (R98). -/
def State.leaves (old s : State) (i : Nat) : Bool :=
  match old.packOf (tileOfIx i) with
  | none => false
  | some p => s.packOf (tileOfIx i) != some p

/-- The tiles that a G2 commit takes from their Packs are zeroed (R98). -/
def State.afterG2 (old s : State) : State :=
  let l := ((List.range 64).filter fun p => old.shape p != s.shape p).flatMap fun p => (old.shape p).tiles
  (old.rotRestart s).modTiles (l.filter (old.leaves s)) TileSt.zeroed

/-! ## Row sparing (R95, R96) -/

/-- Spare rows of a bank of a memory: 16 for each bank of the tile store, 4 for each accumulator slot (R95). -/
def spareRowsOf : TileMem → Nat
  | .store => 16
  | .acc => 4
  | _ => 0

/-- The bank that holds a physical row: 512 rows of 64 bytes in a store bank, 64 rows in a slot (R95). -/
def rowBank : TileMem → Nat → Nat
  | .store, r => r / 512
  | .acc, r => r / 64
  | _, _ => 0

/-- A corrected single-bit error is counted (R96). -/
def State.rowCorrected (s : State) (i : Nat) (m : TileMem) (row : Nat) : State :=
  s.modSite i fun x => { x with corrected := (m, row, s.tick.now) :: x.corrected }

/-- A row has had three corrected errors within 24 hours (R96). -/
def State.rowDue (s : State) (i : Nat) (m : TileMem) (row : Nat) : Bool :=
  decide (3 ≤ ((s.site i).corrected.filter fun e => e.1 == m && e.2.1 == row && decide (s.since e.2.2 < dayNs)).length)

/-- A spare row of the bank takes the place of a row that is due; with none left the site goes to quarantine (R96,
R270). -/
def State.replaceRow (s : State) (i : Nat) (mem : TileMem) (row : Nat) : State :=
  if !s.rowDue i mem row then s
  else
    let b := rowBank mem row
    let used := ((s.site i).spareRows.filter fun e => e.1 == mem && e.2.1 == b).length
    let s := s.modSite i fun x => { x with corrected := x.corrected.filter fun e => !(e.1 == mem && e.2.1 == row) }
    if used < spareRowsOf mem then s.modSite i fun x => { x with spareRows := x.spareRows ++ [(mem, b, row)] }
    else s.quarantine i 2 0

/-- The rows of a Pack's sites that are due, at its quiescent point (R96). -/
def State.replaceRows (s : State) (p : Nat) : State :=
  (s.shape p).tiles.foldl (fun s t =>
    let i := (s.siteOf (tileOfIx t)).ix
    (s.site i).corrected.foldl (fun s e => s.replaceRow i e.1 e.2.1) s) s

/-- ROW_SPARE_REPLACE (R96, R270): at a quiescent point of the Pack. -/
def execRowSpareReplace (tile : TileId) (mem : TileMem) (row : Nat) (s : State) : Result :=
  .next <|
    let quiet := match s.packOf tile with
      | none => true
      | some p => s.quiescent p
    if quiet then s.replaceRow (s.siteOf tile).ix mem row else s

end Sys2Proof.Machine
end

