-- ==== Sys2Proof/Machine/Rings.lean ====
section
/-! DEFINITION. Submission rings: the doorbell sample, fetching, the checks at fetch, and the arrival of each class of
descriptor (R61 to R79). -/
namespace Sys2Proof.Machine
open Sys2Proof

/-! ## Status words -/

/-- SQ_STATUS (R94). -/
def State.sqStatus (s : State) (f r : Nat) : Nat :=
  let k := s.ring f r
  b2n (s.sqEnabled f r && !k.stopped) + 2 * b2n k.overrun + 4 * b2n k.fetchError + 8 * b2n k.headError +
    65536 * k.epoch.toNat

/-- HIF_FN_STATUS (R93). -/
def State.fnStatus (s : State) (f : Nat) : Nat :=
  let k := s.fn f
  b2n k.atomicFallback + 2 * b2n k.summaryError + 65536 * k.genIgnored

/-- The LOG of a ring error (R68, R71, R83, R384). -/
def State.ringLog (s : State) (f r : Nat) : State :=
  s.raise .log 0x0103 noInst (leBytes 4 (s.sqStatus f r) ++ leBytes 2 f ++ leBytes 2 r)

/-- The LOG of a summary error, which names no ring: those two bytes are free (log entry 4). -/
def State.summaryLog (s : State) (f : Nat) : State :=
  let (x, s) := s.draw
  s.raise .log 0x0103 noInst (leBytes 4 (s.fnStatus f) ++ leBytes 2 f ++ leBytes 2 x)

/-- A ring or doorbell read fails (R71). -/
def State.fetchFails (s : State) (f r : Nat) : State :=
  (s.modRing f r fun k => { k with fetchError := true, stopped := true }).ringLog f r

/-- A summary read fails (R71). -/
def State.summaryFails (s : State) (f : Nat) : State :=
  (s.modFn f fun k => { k with summaryError := true }).summaryLog f

/-! ## Completion-ring slots (R83) -/

/-- Slots of a completion ring that are neither written and unread nor reserved. -/
def State.freeSlots (s : State) (f cq : Nat) : Nat :=
  let k := s.ring f cq
  s.cqSize f cq - ((k.tail + 2 ^ 32 - k.consumed) % 2 ^ 32) - k.reserved

/-- Read the head word, at most once in a tick (R83). -/
def State.readHead (s : State) (f cq : Nat) : State :=
  if (s.ring f cq).headRead = some s.tick.count then s
  else
    let s := s.modRing f cq fun k => { k with headRead := some s.tick.count }
    match s.hostLE (s.ringAddr f cq 0x28) 4 with
    | some x => s.modRing f cq fun k => { k with consumed := x }
    | none => (s.modRing f cq fun k => { k with headError := true }).ringLog f cq

/-- Make sure of a free slot if there is one. -/
def State.findSlot (s : State) (f cq : Nat) : State :=
  if s.freeSlots f cq = 0 then s.readHead f cq else s

/-- Reserve a slot; false when none is free. -/
def State.claimSlot (s : State) (f cq : Nat) : Bool × State :=
  let s := s.findSlot f cq
  if s.freeSlots f cq = 0 then (false, s)
  else (true, s.modRing f cq fun k => { k with reserved := k.reserved + 1 })

/-- Give a reservation back. -/
def State.freeSlot (s : State) (f cq : Nat) : State :=
  s.modRing f cq fun k => { k with reserved := k.reserved - 1 }

/-! ## Fetching (R68, R83) -/

/-- Descriptors fetched from a ring and without a record. -/
def State.outstanding (s : State) (f r : Nat) : Nat :=
  (s.shep.descs.filter fun d => d.fn.val == f && d.ring.val == r).length + (s.ring f r).reads.length

/-- Issue the read of the next slot, if the limits allow. -/
def State.fetchOne (s : State) (f r : Nat) : State :=
  let k := s.ring f r
  let cfg := s.ringRegN f r 0x18
  let cq := bits cfg 6 10
  if k.stopped || k.head == k.tailSeen || decide (bits cfg 16 8 + 1 ≤ s.outstanding f r) then s
  else match s.claimSlot f cq with
    | (false, s) => s
    | (true, s) =>
      let id := s.shep.nextId
      let slot := k.head % s.sqSize f r
      let s := { s with shep := { s.shep with nextId := id + 1 } }.countEv hubUnit 0x0C0 1
      s.modRing f r fun k => { k with
        head := (k.head + 1) % 2 ^ 32, headMoved := true
        reads := k.reads ++ [⟨id, slot, cq, s.tick.count, s.ringAddr f r 0 + 64 * slot⟩] }

/-- Fetch within the limits: a window holds at most 256 descriptors. -/
def State.fetchRing (s : State) (f r : Nat) : State :=
  let k := s.ring f r
  if k.stopped || k.head == k.tailSeen then s
  else (List.range 256).foldl (fun s _ => s.fetchOne f r) s

/-- Read a doorbell word (R65, R68). A ring that is stopped fetches nothing, but its doorbell word is read and judged
as that of any enabled ring. -/
def State.readDoorbell (s : State) (f r : Nat) : State :=
  let k := s.ring f r
  let s := s.countEv hubUnit 0x0C2 1
  match s.hostLE (s.ringAddr f r 8) 8 with
    | none => s.fetchFails f r
    | some x =>
      let tail := bits x 0 32
      if bits x 32 16 ≠ k.epoch.toNat then s.modFn f fun k => { k with genIgnored := sat 16 (k.genIgnored + 1) }
      else if s.sqSize f r < (tail + 2 ^ 32 - k.head) % 2 ^ 32 then
        (s.modRing f r fun k => { k with overrun := true, stopped := true }).ringLog f r
      else s.modRing f r fun k => { k with tailSeen := tail }

/-- HEAD write-back (R68, R85). -/
def State.headWriteBack (s : State) (f r : Nat) : State :=
  let a := s.ringAddr f r 0x10
  if !(s.ring f r).headMoved then s
  else
    let s := s.modRing f r fun k => { k with headMoved := false }
    if a = 0 then s else s.hostWriteAs f a (leBytes 4 (s.ring f r).head)

/-- HIF_FN_SUMMARY (R66, R93). -/
def State.summaryAddr (s : State) (f : Nat) : Nat := s.reg64 (winAddr f 0xE028)

/-- The Shepherd swaps summary words with AtomicOps (R69). -/
def State.atomicMode (s : State) (f : Nat) : Bool := bit (s.regN (winAddr f 0xE020)) 0 && !(s.fn f).sweeping

/-- Read and clear the summary words of `n` rings from word `w` on: the words read, or none for a failed read. -/
def State.readSummary (s : State) (f : Nat) : Nat → Nat → List (Option Nat) × State
  | _, 0 => ([], s)
  | w, n + 1 =>
    let a := s.summaryAddr f + 8 * w
    let x := s.hostLE a 8
    let s := s.countEv hubUnit 0x0C3 1
    let s := match x with
      | some v => if v = 0 then s else s.hostWriteAs f a (leBytes 8 0)
      | none => s
    let (l, s) := s.readSummary f (w + 1) n
    (x :: l, s)

/-- Rings of a function that are enabled. -/
def State.enabledRings (s : State) (f : Nat) : List Nat := (List.range (s.ringCount f)).filter (s.sqEnabled f)

/-- The rings whose doorbell words are to be read at this tick (R68 to R71). -/
def State.flagged (s : State) (f : Nat) (on : List Nat) : List Nat × State :=
  if s.atomicMode f && s.host.swapFails.any fun g => g.val == f then
    (on, s.modFn f fun k => { k with sweeping := true, atomicFallback := true })
  else
    let atomic := s.atomicMode f
    let (words, s) := s.readSummary f 0 (ceilDiv (s.ringCount f) 64)
    let failed := words.any Option.isNone
    let s := if failed then s.summaryFails f else s
    let sweepNow := s.tick.count % 256 == 0 && (!atomic || (s.fn f).summaryError)
    let set (r : Nat) : Bool := match (words[r / 64]?).join with
      | some w => bit w (r % 64)
      | none => false
    (on.filter fun r => sweepNow || (!failed && set r), s)

/-- The doorbell sample of one function (R68). -/
def State.sampleFn (s : State) (f : Nat) : State :=
  let on := s.enabledRings f
  if on.isEmpty then s
  else
    let (hit, s) := s.flagged f on
    let s := hit.foldl (fun s r => s.readDoorbell f r) s
    let s := on.foldl (fun s r => s.fetchRing f r) s
    on.foldl (fun s r => s.headWriteBack f r) s

/-- The doorbell sample of a tick (R31, R68). From step 2 of Dusk nothing is fetched (R361). -/
def State.sampleDoorbells (s : State) : State :=
  if 2 ≤ s.mod.dusk.step then s else (List.range 64).foldl State.sampleFn s

/-! ## Descriptors (R73 to R77) -/

/-- Fields of a 64-byte descriptor (R73, R74). -/
def fieldsOf (b : List Byte) : Fields :=
  let x := leNat b
  { cls := BitVec.ofNat 8 x
    version := BitVec.ofNat 8 (bits x 8 8)
    pack := BitVec.ofNat 8 (bits x 16 6)
    paramSize := bits x 32 16
    job := BitVec.ofNat 32 (bits x 64 32)
    flags := BitVec.ofNat 32 (bits x 96 32)
    program := BitVec.ofNat 64 (bits x 128 64)
    param := BitVec.ofNat 64 (bits x 192 64)
    start := bits x 256 64
    deadline := bits x 320 64
    output := BitVec.ofNat 64 (bits x 384 64)
    tag := BitVec.ofNat 64 (bits x 448 64)
    reservedSet := bits x 22 10 != 0 || bits x 48 16 != 0 || bits x 103 25 != 0 || bits x 100 2 == 3 || bits x 448 3 != 0 }

/-- CLASS is one of R75's. -/
def Fields.known (f : Fields) : Bool := decide (1 ≤ f.cls.toNat) && decide (f.cls.toNat ≤ 8)

/-- Classes whose PACK names a Pack (R75). -/
def Fields.namesPack (f : Fields) : Bool :=
  f.cls == 1 || f.cls == 2 || f.cls == 4 || f.cls == 6 || f.cls == 7

/-- Classes that need a class word (R75, R76). -/
def Fields.needsWord (f : Fields) : Bool := f.cls == 2 || f.cls == 4 || f.cls == 5 || f.cls == 6

/-- Check 1 of R77: fields that R75 marks with a dash are zero. -/
def Fields.dashOk (f : Fields) : Bool :=
  (f.namesPack || f.pack == 0) &&
    (if f.cls = 3 ∨ f.cls = 5 then f.program == 0
     else if f.cls = 8 then f.program.toNat / 2 ^ 44 == 0 else true)

/-- Reserved bits of the class word (R75); a class without one needs zero there. -/
def classWordOk (cls : Nat) (w : Nat) : Bool :=
  if cls = 2 then true
  else if cls = 4 then bits w 48 16 == 0
  else if cls = 5 then bits w 32 32 == 0
  else if cls = 6 then bits w 8 56 == 0 && decide (bits w 0 8 ≤ 3)
  else w == 0

/-- PROGRAM is a device virtual address: in every class but FENCE and CADENCE_SET, where it is zero, and CANCEL, where
it names a job (R75). -/
def Fields.programVa (f : Fields) : Bool := f.namesPack

/-- Checks 1 to 4 of R77 before the parameter block is read: the status of the first that fails. -/
def State.checkHead (s : State) (d : Desc) : Option Nat :=
  let f := d.f
  let sh := s.shape d.pack
  if f.version != 2 || !f.known || f.reservedSet || !f.dashOk then some stInvalid
  else if f.namesPack && !(sh.enabled && sh.fn == d.fn.val) then some stInvalid
  else if (f.programVa && f.program.toNat % 256 != 0) || f.output.toNat % 64 != 0 ||
      (f.paramSize != 0 && f.param.toNat % 16 != 0) then some stInvalid
  else if f.needsWord && f.paramSize == 0 then some stInvalid
  else if f.paramSize != 0 && !s.spanMapped d.fn.val f.param.toNat (16 * f.paramSize) then some stInvalid
  else none

/-- An entry of the cue list (R55), with KIND's upper bit and whether a reserved bit is set. -/
def cueEntryOf (b : List Byte) : CueEntry × Bool × Bool :=
  let x := leNat b
  (⟨bits x 0 64, Fin.ofNat 16 (bits x 64 4), bit x 68, bit x 69, bits x 72 16⟩, bit x 70, bit x 71 || bits x 88 40 != 0)

/-- The 16-byte entries of a list. -/
def cueEntries : Nat → List Byte → List (CueEntry × Bool × Bool)
  | 0, _ => []
  | n + 1, b => cueEntryOf (b.take 16) :: cueEntries n (b.drop 16)

/-- PRED_COL and PRED_ROW lie inside the Pack (R75, R77). -/
def predInside (sh : PackShape) (w : Nat) : Bool := decide (bits w 38 5 < sh.width) && decide (bits w 43 5 < sh.height)

/-- START and DEADLINE are allowed for the class and obey R50 (check 6 of R77). -/
def Desc.timesOk (d : Desc) : Bool :=
  if d.occupies then !d.timed || decide (d.f.start < d.f.deadline)
  else if d.f.cls == 5 then d.f.deadline == noDeadline
  else d.f.start == 0 && d.f.deadline == noDeadline

/-- The rest of the checks of R77, over the parameter block. Reserved bits of the block belong to check 1 and are tested
as soon as it has been read; check 6 tests the cue list, its length and its place in the block too (log entry 119). No
field of a descriptor or a parameter block names a link or a collective engine, so check 5 tests the Pack's rows alone
(R2; log entry 119). -/
def State.checkBlock (s : State) (d : Desc) (b : List Byte) : Option Nat :=
  let n := (b.headD 0).toNat
  let w := leNat ((b.drop 8).take 8)
  let fits := decide (n ≤ 16) && (b.isEmpty || decide (1 + n ≤ d.f.paramSize))
  let cues := if fits then cueEntries n (b.drop 16) else []
  let sh := s.shape d.pack
  if leNat ((b.drop 1).take 7) ≠ 0 || !classWordOk d.f.cls.toNat w || cues.any fun c => c.2.2 then some stInvalid
  else if d.f.namesPack && decide (s.mod.grade.rows < sh.row0 + sh.height) then some stAbsent
  else if !d.timesOk || !fits || cues.any (fun c => c.2.1 || !s.cueEnabled c.1.cue.val) ||
      (d.f.cls == 4 && !predInside sh w) ||
      (d.f.cls == 5 && !(s.regN 0x20118 % 64 == d.fn.val && s.cadSource == 4)) then some stInvalid
  else none

/-- Put a descriptor in its place in fetch order. -/
def State.addDesc (s : State) (d : Desc) : State :=
  s.setDescs (insertBy Desc.id d (s.shep.descs.filter fun x => x.id != d.id))

/-- A descriptor that failed a check: its record is due from tick `due` on (R9, R77). -/
def State.reject (s : State) (d : Desc) (st due : Nat) : State :=
  s.addDesc { d with phase := .rejected, status := st, due := due }

/-- A descriptor fetched while its scope is Muzzled or, when timed, while the cadence is in FAULT, is not executed
(R21, R46). A CANCEL still acts (R22). -/
def State.admitStatus (s : State) (d : Desc) : Option Nat :=
  if d.f.cls == 8 then none
  else if s.muzzle.module.active || (d.f.namesPack && (s.mzPack d.pack).active) then some stMuzzled
  else if d.timed && s.cad.state == .fault then some stCadence
  else none

/-- The parameter block is there: the remaining checks, and admission. -/
def State.admitBlock (s : State) (d : Desc) (b : List Byte) (due : Nat) : State :=
  let n := (b.headD 0).toNat
  let d := { d with
    classWord := BitVec.ofNat 64 (leNat ((b.drop 8).take 8))
    cues := (cueEntries (min n 16) (b.drop 16)).map Prod.fst }
  match s.checkBlock d b with
  | some st => s.reject d st due
  | none => match s.admitStatus d with
    | some st => s.reject d st due
    | none => s.addDesc { d with phase := .arrived }

/-- Read the parameter block and go on (R77); a read that is still under way leaves it as it is. -/
def State.readBlock (s : State) (d : Desc) (due : Nat) : State :=
  match s.readVa d d.f.param.toNat (16 * d.f.paramSize) with
  | (.bytes b, s) => s.admitBlock d b due
  | (.failed, s) => s.reject d stInvalid due
  | (.memory, s) => s.reject d stMemory due
  | (.waits, s) => s

/-- The reads of PEER pages that a span needs are asked for. -/
def State.wantSpan (s : State) (d : Desc) (va n : Nat) : State :=
  match s.xlates d.fn.val false (piecesOf va n) with
  | .error _ => s
  | .ok gs => (peerSpots d.id d.fn.val gs).foldl State.wantPeer s

/-- A descriptor has arrived (R9, R77). A block in a HOST or PEER page is read by PARAM_BLOCK_READ. -/
def State.arriveDesc (s : State) (d : Desc) : State :=
  match s.checkHead d with
  | some st => s.reject d st (d.tick + 1)
  | none =>
    if d.f.paramSize = 0 then s.admitBlock d [] (d.tick + 1)
    else if s.spanRemote d.fn.val d.f.param.toNat (16 * d.f.paramSize) then
      (s.addDesc { d with phase := .reading }).wantSpan d d.f.param.toNat (16 * d.f.paramSize)
    else s.readBlock d (d.tick + 1)

/-- The oldest read of a ring arrives, if the slot holds a descriptor that `pick` takes (log entry 6). -/
def State.arrive (s : State) (fn : Fn) (ring : RingIx) (pick : Fields → Bool) : State :=
  match (s.ring fn.val ring.val).reads with
  | [] => s
  | r :: rest =>
    match s.hostRead r.addr 64 with
    | none => s
    | some b =>
      let f := fieldsOf b
      if pick f then
        (s.modRing fn.val ring.val fun k => { k with reads := rest }).arriveDesc
          { id := r.id, fn := fn, ring := ring, slot := r.slot, cq := r.cq, tick := r.tick, f := f }
      else s

/-- A descriptor of a class of R75 in version 2. -/
def ofClass (c : Byte) (f : Fields) : Bool := f.version == 2 && f.cls == c

/-- RING_READ_ERROR (R71): the oldest descriptor read, the doorbell read or the summary read fails. -/
def execRingReadError (fn : Fn) (ring : RingIx) (kind : RingRead) (s : State) : Result :=
  .next <|
    match kind with
    | .descriptor =>
      match (s.ring fn.val ring.val).reads with
      | [] => s
      | r :: rest =>
        ((s.modRing fn.val ring.val fun k => { k with reads := rest }).freeSlot fn.val r.cq).fetchFails fn.val ring.val
    | .doorbell =>
      if (s.enabledRings fn.val).contains ring.val then s.fetchFails fn.val ring.val else s
    | .summary => if (s.enabledRings fn.val).isEmpty then s else s.summaryFails fn.val

/-- RUN (R75, R77). -/
def execRun (fn : Fn) (ring : RingIx) (s : State) : Result := .next (s.arrive fn ring (ofClass 1))
/-- COPY (R75, R77). -/
def execCopy (fn : Fn) (ring : RingIx) (s : State) : Result := .next (s.arrive fn ring (ofClass 2))
/-- FENCE (R75, R77, R79). -/
def execFence (fn : Fn) (ring : RingIx) (s : State) : Result := .next (s.arrive fn ring (ofClass 3))
/-- LOOP descriptor (R13, R75, R77). -/
def execLoopDescriptor (fn : Fn) (ring : RingIx) (s : State) : Result := .next (s.arrive fn ring (ofClass 4))
/-- CADENCE_SET (R42, R75, R77): it takes effect at the next tick. -/
def execCadenceSet (fn : Fn) (ring : RingIx) (s : State) : Result := .next (s.arrive fn ring (ofClass 5))
/-- TABLE_LOAD (R75, R77, R435). -/
def execTableLoad (fn : Fn) (ring : RingIx) (s : State) : Result := .next (s.arrive fn ring (ofClass 6))
/-- PAGE_READY (R75, R77, R249). -/
def execPageReady (fn : Fn) (ring : RingIx) (s : State) : Result := .next (s.arrive fn ring (ofClass 7))
/-- CANCEL (R75, R77, R88). -/
def execCancel (fn : Fn) (ring : RingIx) (s : State) : Result := .next (s.arrive fn ring (ofClass 8))

/-- RESERVED_CLASS (R77): check 1 fails on the class or the version. -/
def execReservedClass (fn : Fn) (ring : RingIx) (s : State) : Result :=
  .next (s.arrive fn ring fun f => !f.known || f.version != 2)

/-- PARAM_BLOCK_READ (R77): the read of a block in a HOST or PEER page completes, once every peer has answered, or fails;
the next tick of R9 then counts from the tick that samples the failure. -/
def execParamBlockRead (d : Nat) (ok : Bool) (s : State) : Result :=
  .next <|
    match s.desc? d with
    | some x =>
      if x.phase == .reading then
        if ok then s.readBlock x (s.tick.count + 2) else s.reject x stInvalid (s.tick.count + 2)
      else s
    | none => s

end Sys2Proof.Machine
end

