-- ==== Sys2Proof/Machine/Flows.lean ====
section
/-! DEFINITION. Outbound traffic of the link fabric: flows, credits, routing, requests and outcome messages
(R26, R312 to R318, R322, R323). -/
namespace Sys2Proof.Machine
open Sys2Proof

/-! ## Flow table (R314) -/

structure Flow where
  peer : Nat
  vc : Nat
  inbound : Bool
  enabled : Bool
  fn : Nat
  pack : Nat
  rw : Bool
  rflow : Nat
  deriving DecidableEq, Repr

def flowOf (w : DWord) : Flow :=
  let x := w.toNat
  ⟨bits x 0 14, bits x 14 3, bit x 17, bit x 18, bits x 19 6, bits x 25 6, bit x 31, bits x 32 16⟩

def State.flow (s : State) (n : Nat) : Flow := flowOf (Table.get 0 s.links.fabric.active.flows n)

/-- An outbound flow in use. -/
def Flow.outbound (f : Flow) : Bool := f.enabled && !f.inbound

/-- The lowest-numbered enabled outbound flow of a function to a device (R320). -/
def State.flowTo (s : State) (fn device : Nat) : Option Nat :=
  (s.links.fabric.active.flows.find? fun e =>
    let f := flowOf e.2
    f.outbound && f.fn == fn && f.peer == device).map Prod.fst

/-! ## Routing (R317, R318) -/

structure Egress where
  link : Nat
  weight : Nat
  dateline : Bool
  deriving DecidableEq, Repr

def egressesOf (w : DWord) : List Egress :=
  (List.range 4).map fun i =>
    let x := w.toNat / 2 ^ (11 * i)
    ⟨bits x 0 6, bits x 6 4, bit x 10⟩

/-- A direction that has not failed: a sleeping one wakes for what is to be sent, and a swap only delays it (R305, R307). -/
def LnkState.alive : LnkState → Bool
  | .up => true
  | .swap => true
  | .sleep => true
  | .wake => true
  | _ => false

/-- A link that traffic can leave by: not lost and not held (R318). -/
def State.linkOpen (s : State) (n : Nat) : Bool := (s.link n).tx.alive && !(s.meas n).heldFar

/-- An egress that lookups may choose (R318). -/
def State.usable (s : State) (e : Egress) : Bool := decide (e.weight ≠ 0) && s.links.fabric.usable.contains e.link

/-- A link has come UP or is no longer held: lookups may choose it. -/
def State.reopen (s : State) (n : Nat) : State :=
  s.modLf fun l => { l with usable := if l.usable.contains n then l.usable else l.usable ++ [n] }

/-- The first egress whose cumulative weight exceeds `h`. -/
def pickEgress : List Egress → Nat → Option Egress
  | [], _ => none
  | e :: l, h => if h < e.weight then some e else pickEgress l (h - e.weight)

/-- The routing entry in force for a device: the MC's reweighted entry where there is one. -/
def State.route (s : State) (device : Nat) : DWord :=
  let f := s.links.fabric
  Table.get (Table.get 0 f.active.routes device) f.rerouted device

/-- The egress of a flit from `src` on `flow` to a device (R318); the entry of the module's own identifier is ignored
(R317). -/
def State.egress (s : State) (src flow device : Nat) : Option Egress :=
  let l := (egressesOf (s.route device)).filter s.usable
  let w := (l.map Egress.weight).foldl (· + ·) 0
  if w = 0 || s.devid == some device then none else pickEgress l ((src * 65537 + flow) % w)

/-- The virtual channel on which traffic of channel `vc` leaves by an egress (R313). -/
def Egress.vcOut (e : Egress) (vc : Nat) : Nat := if e.dateline && vc % 2 == 0 && decide (vc < 6) then vc + 1 else vc

/-- A link has gone or come back: the MC's reweighted entries are to be rebuilt (R318). -/
def State.rerouteNow (s : State) : State := s.modLf fun l => { l with rerouteDue := true }

/-- Replace the weights of an entry's egresses. -/
def reweight (w : Nat) : List (Nat × Nat) → Nat
  | [] => w
  | (i, v) :: l => reweight (setBits w (11 * i + 6) 4 v) l

/-- The MC's shadow of one entry: a lost egress has weight 0, and the surviving ones share its load with weights
that the spec leaves open (log entry 4). -/
def State.rebuildRoute (s : State) (e : Nat × DWord) : State :=
  let l := egressesOf e.2
  if l.all fun x => x.weight == 0 || s.usable x then s
  else
    let (v, s) := (List.zip (List.range 4) l).foldl (fun (acc : List (Nat × Nat) × State) x =>
      if !acc.2.usable x.2 then (acc.1 ++ [(x.1, 0)], acc.2)
      else
        let (r, s) := acc.2.draw
        (acc.1 ++ [(x.1, r % 15 + 1)], s)) ([], s)
    s.modLf fun f => { f with rerouted := Table.put f.rerouted e.1 (BitVec.ofNat 64 (reweight e.2.toNat v)) }

/-- A request that was sent leaves its lost link's replay store only for that of its new path: it is to be resent
(R316, R318). -/
def State.repathReq (s : State) (q : LinkReq) : LinkReq :=
  match q.link, q.via, s.devid with
  | some n, none, some me =>
    match s.egress me q.flow (s.flow q.flow).peer with
    | some e => if e.link = n then q else { q with link := none }
    | none => q
  | _, _, _ => q

/-- The requests of flows that have moved are to be resent. -/
def State.repath (s : State) : State := s.modLf fun l => { l with reqs := l.reqs.map s.repathReq }

/-- The routing table swaps (R57, R318). -/
def State.swapRouting (s : State) : State :=
  if s.links.fabric.rerouteDue then
    let s := s.modLf fun l => { l with rerouteDue := false, rerouted := [], usable := l.usable.filter s.linkOpen }
    (s.links.fabric.active.routes.foldl State.rebuildRoute s).repath
  else s

/-! ## Requests (R315, R316) -/

def State.outFlow (s : State) (n : Nat) : OutFlow := Table.get {} s.links.fabric.outFlows n

def State.flowCredits (s : State) (n : Nat) : Nat := (s.outFlow n).credits.getD (s.regN 0xF0008)

/-- Units of 256 bytes of a request's data (R315). -/
def LinkReq.units (q : LinkReq) : Nat := ceilDiv q.data.length 256

/-- Bytes that the replay store of a link block holds (R316). -/
def State.replayUse (s : State) (n : Nat) : Nat :=
  ((s.links.fabric.reqs.filter fun q => q.link == some n).map fun q => q.data.length).foldl (· + ·) 0

/-- Bytes of a replay store. -/
def replayStore : Nat := 2 * 1024 * 1024

/-! ## Trackers (R153) -/

/-- The first tile numbers of requests that a fabric port issued (R342), of a Pack's COPY, and of the hub's reads of PEER
pages. -/
def portTile : Nat := 1024
def copyTile : Nat := 2048
def hubTile : Nat := 4096

/-- Requests of an issuer that are on the links. -/
def State.reqsOut (s : State) (p : LinkReq → Bool) : Nat := (s.links.fabric.reqs.filter fun q => q.first.isSome && p q).length

/-- Trackers that the Retriever of a tile holds: for its chunks, and for its sends and signals through flows. -/
def State.tileUse (s : State) (ix : Nat) : Nat :=
  ((s.tile ix).ctxs.flatMap fun c => c.2.inflight.map ChunkSt.trackers).foldl (· + ·) 0 +
    s.reqsOut fun q => q.tile == ix && q.type != .rread && q.type != .rwrite

/-- Beats of a row presented to user logic (R339). -/
def HookSt.beats (h : HookSt) : Nat :=
  let row := match h.blocks with
    | b :: _ => (b.rows.headD []).length
    | [] => 0
  max 1 (ceilDiv (if h.kind = 0 then row else h.rowBytes) 64)

/-- Rows of a hook that are under way: begun, and not yet back, or for a tap not yet accepted whole (R339, R340). -/
def HookSt.rowsOut (h : HookSt) : Nat :=
  ceilDiv h.accepted h.beats - (if h.kind = 1 then h.accepted / h.beats else h.back.length)

/-- Trackers that a fabric port holds: for its hooks' rows and for what its user logic has asked for. -/
def PortSt.use (x : PortSt) : Nat :=
  (x.hooks.map HookSt.rowsOut).foldl (· + ·) 0 + (x.asks.map fun a => (a.parts.filter Option.isNone).length).foldl (· + ·) 0

/-- Trackers that the hub holds. -/
def State.hubUse (s : State) : Nat := s.reqsOut fun q => decide (copyTile ≤ q.tile)

def tileTrackers : Nat := 48
def portTrackers : Nat := 128
def hubTrackers : Nat := 8192

/-- A request that has not been sent finds a free tracker (R153); the chunk of an RGET or RPUT, and a port's request, hold
theirs already. -/
def State.trackerFree (s : State) (q : LinkReq) : Bool :=
  q.first.isSome ||
    (if q.tile < portTile then q.type == .rread || q.type == .rwrite || decide (s.tileUse q.tile < tileTrackers)
     else if q.tile < copyTile then true
     else decide (s.hubUse < hubTrackers))

/-- A request as it travels: its header and its data (R319). -/
def State.reqBytes (s : State) (q : LinkReq) : List Byte :=
  HeaderOut.bytes
    { type := q.type, ctl := q.comb + 4 * b2n q.fwd.isSome, rflow := if q.flow < 65536 then (s.flow q.flow).rflow else q.flow - 65536
      seq := q.seq.getD 0, token := q.token, len := if q.type == .rread then q.len else q.data.length, target := q.target
      fwdFlow := q.fwd.getD 0 } ++ q.data

/-- A descriptor has used a flow (R323). -/
def State.usedFlow (s : State) (id flow token : Nat) : State :=
  s.modDesc id fun d =>
    if d.run.flows.contains (flow, token) then d
    else { d with run := { d.run with flows := d.run.flows ++ [(flow, token)] } }

/-- A descriptor has sent data on a flow (R26, R113). -/
def State.sentData (s : State) (id flow token : Nat) : State :=
  (s.usedFlow id flow token).modDesc id fun d => { d with run := { d.run with sentData := true } }

/-- A request has been sent: its flow is among those that its descriptor used, with data but for a signal
(R26, R113, R323). -/
def State.usedBy (s : State) (q : LinkReq) : State :=
  match q.desc with
  | some id =>
    if q.type == .rread then s else if q.type == .rsignal then s.usedFlow id q.flow q.token else s.sentData id q.flow q.token
  | none => s

/-- The link and virtual channel by which a request leaves: its branch's, or its flow's path. A group names no channel
(log entry 126). -/
def State.reqPath (s : State) (me : Nat) (q : LinkReq) : Option (Nat × Nat) :=
  match q.via with
  | some n => some (n, 0)
  | none => let f := s.flow q.flow; (s.egress me q.flow f.peer).map fun e => (e.link, e.vcOut f.vc)

/-- The request is the oldest of its flow, or of its branch, that is in no replay store. -/
def State.reqFirst (s : State) (q : LinkReq) : Bool :=
  !(s.links.fabric.reqs.any fun x => x.flow == q.flow && x.via == q.via && x.link.isNone && decide (x.id < q.id))

/-- The flow holds credits for a request that it has not sent yet; a group needs none. -/
def State.creditOk (s : State) (q : LinkReq) : Bool := q.seq.isSome || decide (q.units ≤ s.flowCredits q.flow)

/-- Give a request to a link: the first time it takes its SEQ and its flow credits. -/
def State.putReq (s : State) (q : LinkReq) (n vc : Nat) : State :=
  let o := s.outFlow q.flow
  let sent := { q with link := some n, seq := some (q.seq.getD o.nextSeq), first := some (q.first.getD s.tick.count) }
  let left := s.flowCredits q.flow - q.units
  let s := (s.queueBytes n vc (s.reqBytes sent)).usedBy q
  s.modLf fun l => { l with
    outFlows := if q.seq.isSome then l.outFlows else Table.put l.outFlows q.flow ⟨(o.nextSeq + 1) % 2 ^ 32, some left⟩
    reqs := l.reqs.map fun x => if x.id == q.id then sent else x }

/-- Send a request, or resend one whose path was lost, if its flow's credits, a path, the replay store, a link credit and
the requests before it allow (R313, R315, R316, R318). While Muzzled no transaction leaves (R21). -/
def State.trySend (s : State) (q : LinkReq) : State :=
  if q.link.isSome || s.muzzle.module.active || !s.reqFirst q then s
  else match s.devid with
    | none => s
    | some me => match s.reqPath me q with
      | none => s
      | some (n, vc) =>
        if (s.link n).tx != .up then s.wakeTx n
        else if !(s.meas n).room vc || !s.creditOk q || !s.trackerFree q || decide (replayStore < s.replayUse n + q.data.length) then s
        else s.putReq q n vc

/-! ## Messages and passing traffic -/

/-- A group's entry names links; a relay's messages to its branches name one. -/
def State.groupWord (s : State) (g : Nat) : Nat := (Table.get 0 s.links.fabric.active.groups g).toNat

/-- The links by which a message leaves, a refusal of a group's data by the link on which it came; none while no path to its device is usable. -/
def State.msgLinks (s : State) (me : Nat) (m : OutMsg) : Option (List Nat) :=
  if m.flow < 65536 then (s.egress me m.flow m.dest).map fun e => [e.link]
  else match m.type with
    | .ack => some [if m.status = 1 then m.dest else bits (s.groupWord (m.flow - 65536)) 48 6]
    | .prune => some [m.dest]
    | .position => some [m.dest]
    | _ => some ((List.range 48).filter fun n => bit (s.groupWord (m.flow - 65536)) n)

/-- A message as it travels (R319). -/
def State.msgBytes (s : State) (m : OutMsg) : List Byte :=
  let group := !decide (m.flow < 65536)
  let base : HeaderOut := { type := m.type, rflow := m.flow % 65536 }
  match m.type with
  | .ack =>
    HeaderOut.bytes (if group then { base with ctl := 8 * m.status, target := 2 ^ 32 * m.value }
      else { base with ctl := 8 * m.status, seq := m.value })
  | .readData =>
    let b := ((s.links.fabric.answers.find? fun a => a.1 == m.dest && a.2.1 == m.value).map fun a => a.2.2).getD []
    HeaderOut.bytes { base with seq := m.value, len := b.length } ++ b
  | .clear => HeaderOut.bytes { base with rflow := if group then m.flow % 65536 else (s.flow m.flow).rflow, token := m.value }
  | .withdraw => HeaderOut.bytes { base with rflow := if group then m.flow % 65536 else (s.flow m.flow).rflow, token := m.value }
  | .prune => HeaderOut.bytes { base with target := 2 ^ 32 * m.value }
  | .position => HeaderOut.bytes { base with target := m.value, aux := m.value / 2 ^ 64 + 2 ^ 32 * m.status }
  | .rsignal => HeaderOut.bytes { base with target := 1024 * m.value + 65536 * m.status }
  | _ => HeaderOut.bytes { base with target := m.value }

/-- A waiting message is given to its links: in a hold idle at once while the module is Muzzled, else on virtual
channel 7 (R312, R313). -/
def State.postMsg (s : State) (m : OutMsg) : State :=
  match s.devid with
  | none => s
  | some me => match s.msgLinks me m with
    | none => s.modLf fun l => { l with wait := l.wait ++ [m] }
    | some l =>
      let b := s.msgBytes m
      l.foldl (fun s n =>
        if !s.muzzle.module.active then s.queueBytes n 7 b
        else if (s.link n).tx == .up then s.putFlit n .hold (s.meas n).txSeq 7 b
        else s.wakeTx n) s

/-- Every message that waits is tried. -/
def State.postMsgs (s : State) : State :=
  let l := s.links.fabric.wait
  l.foldl State.postMsg (s.modLf fun f => { f with wait := [] })

/-- A transaction that passes through is given to its egress (R313, R326). -/
def State.postTransit (s : State) (t : Transit) : State :=
  let path := match t.via with
    | some n => some (n, t.vc)
    | none => (s.egress t.src t.flow t.dest).map fun e => (e.link, if t.vc = 7 then 7 else e.vcOut t.vc)
  match path with
  | none => s.modLf fun l => { l with transit := l.transit ++ [t] }
  | some (n, vc) => s.queueBytes n vc t.bytes

/-- Every transaction that passes through is tried; a Muzzled module forwards none and drops them (R312). -/
def State.postTransits (s : State) : State :=
  let l := s.links.fabric.transit
  if l.isEmpty then s
  else
    let s := s.modLf fun f => { f with transit := [] }
    if s.muzzle.module.active then s else l.foldl State.postTransit s

/-- A request joins those that are to be sent. -/
def State.enqueue (s : State) (q : LinkReq) : State :=
  let id := s.links.fabric.nextReq
  s.modLf fun l => { l with nextReq := id + 1, reqs := l.reqs ++ [{ q with id := id, issued := s.tick.count }] }

/-- What has come of one of the hub's reads of a PEER page. -/
def State.setPeer (s : State) (id : Nat) (a : PeerAnswer) : State :=
  s.modPaging fun p => { p with peerReads := p.peerReads.map fun q => if q.id == id then { q with got := a } else q }

/-- The hub asks a peer for a page's bytes; without a flow to the peer the read is refused (R77, R149, R320). -/
def State.askPeer (s : State) (q : PeerRead) : State :=
  match q.got with
  | .unsent => match s.flowTo q.fn q.device with
    | none => s.setPeer q.id .failed
    | some f => (s.setPeer q.id .asked).enqueue
        { id := 0, type := .rread, flow := f, issued := 0, desc := none, tile := hubTile, engine := 5, pc := 0xFFFFFF, word := 0
          seg := q.id, target := q.addr, len := q.len, token := 0 }
  | _ => s

/-- Whatever can leave leaves: the hub's reads, what waits for a credit or a place, then requests in issue order, messages
and passing traffic. -/
def State.pump (s : State) : State :=
  let s := (s.paging.peerReads.foldl State.askPeer s).flushLinks
  let s := s.links.fabric.reqs.foldl State.trySend s
  s.postMsgs.postTransits.flushLinks

/-- Issue a request. -/
def State.request (s : State) (q : LinkReq) : State := (s.enqueue q).pump

/-- A request retires. -/
def State.dropReq (s : State) (q : LinkReq) : State :=
  s.modLf fun l => { l with reqs := l.reqs.filter fun x => x.id != q.id }

/-- The TOKEN of a tile of a Pack: the Pack and the low 26 bits of the tile's dispatch epoch (R319). -/
def State.token (s : State) (p tile : Nat) : Nat := p + 64 * ((s.tile tile).epoch.toNat % 2 ^ 26)

/-! ## What waits for a tile (R257, R266) -/

/-- A tile that takes no packet now: its domain sleeps, or its migration is under way. -/
def State.away (s : State) (t : TileId) : Bool :=
  s.paging.asleep.contains (SiteId.domain (s.siteOf t)) || s.kennel.moves.any fun m => m.started && m.tile == t

/-- Something for a tile that takes none now waits, and a sleeping domain begins to wake: 16 packets stand in its wake
buffer, others are held by credit at their initiators (R257), and what a moving tile is to get at the link blocks (R266). -/
def State.park (s : State) (t : Option TileId) (x : Inbound) : State :=
  let s := s.modLf fun l => { l with inbound := l.inbound ++ [x] }
  match t with
  | some t => s.startWake (SiteId.domain (s.siteOf t))
  | none => s

/-! ## Exposure (R322, R323) -/

/-- A token's data has been written for a Pack. -/
def State.expose (s : State) (device token pack : Nat) (group : Option Nat) (span : Option Nat × Nat × Nat) : State :=
  let mine (e : Exposure) : Bool := e.device == device && e.token == token && e.pack == pack && e.job.isNone
  let run := match s.running pack with
    | some d => if d.phase == .running || d.phase == .finished then some d.id else none
    | none => none
  let add (l : List Exposure) : List Exposure :=
    if l.any mine then l.map fun e => if mine e then { e with spans := e.spans ++ [span] } else e
    else (l.filter fun e => !(e.device == device && e.token == token && e.pack == pack)) ++
      [⟨device, token, pack, run, [span], false, group, none⟩]
  s.modLf fun l => { l with exposures := add l.exposures }

/-- At a dispatch, the data that arrived before it exposes the descriptor (R322). -/
def State.exposeAtDispatch (s : State) (pack id : Nat) : State :=
  let mark (e : Exposure) : Exposure := if e.pack == pack && e.desc.isNone then { e with desc := some id } else e
  s.modLf fun l => { l with exposures := l.exposures.map mark }

/-- A token of the descriptor is neither cleared nor withdrawn. -/
def State.exposed (s : State) (id : Nat) : Bool :=
  s.links.fabric.exposures.any fun e => e.desc == some id && !e.cleared && e.job.isNone

/-- At its record, a descriptor's exposures become a memory of what reached it (R323). -/
def State.exposuresAtRecord (s : State) (d : Desc) : State :=
  let mark (e : Exposure) : Exposure := if e.desc == some d.id then { e with job := some d.f.job, spans := [] } else e
  s.modLf fun l => { l with exposures := l.exposures.map mark }

/-! ## Outcomes (R323) -/

/-- CLEAR of a token: the exposures to it are resolved. -/
def State.clearToken (s : State) (device token : Nat) : State :=
  let mark (e : Exposure) : Exposure :=
    if e.device == device && e.token == token && e.job.isNone then { e with cleared := true } else e
  s.modLf fun l => { l with exposures := l.exposures.map mark }

/-- Zero what a withdrawn token wrote where no descriptor has been dispatched since. -/
def State.zeroSpan (s : State) (sp : Option Nat × Nat × Nat) : State :=
  match sp.1 with
  | some i => s.modTile i fun t => { t with mem := { t.mem with store := t.mem.store.writeBytes sp.2.1 (List.replicate sp.2.2 0) } }
  | none => s.hbmWrite [] sp.2.1 (List.replicate sp.2.2 0)

/-- What a WITHDRAW does to one exposure: the exposed descriptor ends MUZZLED at the next tick, data that no
descriptor has met is zeroed, and after a record that a CLEAR allowed the ALARM LATE_WITHDRAW is raised. -/
def State.withdrawFrom (s : State) (e : Exposure) : State :=
  match e.job, e.desc with
  | some j, _ =>
    if e.cleared then s.raise .alarm 0x000C noInst (leBytes 4 j.toNat ++ leBytes 4 e.token ++ leBytes 2 e.device) else s
  | none, some id => s.latchFault id stMuzzled
  | none, none => e.spans.foldl State.zeroSpan s

/-- WITHDRAW of a token (R323). -/
def State.withdrawToken (s : State) (device token : Nat) : State :=
  let mine (e : Exposure) : Bool := e.device == device && e.token == token
  let s := (s.links.fabric.exposures.filter mine).foldl State.withdrawFrom s
  s.modLf fun l => { l with
    withdrawn := if l.withdrawn.contains (device, token) then l.withdrawn else l.withdrawn ++ [(device, token)]
    exposures := l.exposures.filter fun e => !mine e || (e.job.isNone && e.desc.isSome) }

/-- Send an outcome on every flow that a descriptor used (R323). A group is named by 65,536 and its number; its local
receivers learn the outcome at once. -/
def State.sendOutcome (s : State) (d : Desc) (t : TxType) : State :=
  d.run.flows.foldl (fun s e =>
    let s := s.sendMsg ⟨t, if e.1 < 65536 then (s.flow e.1).peer else 0, e.1, e.2, 0⟩
    if e.1 < 65536 then s
    else match t with
      | .clear => s.clearToken (s.devid.getD 0) e.2
      | _ => s.withdrawToken (s.devid.getD 0) e.2) s

end Sys2Proof.Machine
end

