-- ==== Sys2Proof/Machine/Rails.lean ====
section
/-! DEFINITION. The module with its rails down: what the VAUX domain keeps (R348, R361, R364, R375, R398). -/
namespace Sys2Proof.Machine
open Sys2Proof

/-- A link with its rails down. -/
def offLink (g : Grade) (n : Nat) : LinkSt :=
  if g.hasLink n then { tx := .off, rx := .off } else { tx := .fused, rx := .fused, cfg := 0 }

/-- An NV rewrite that a loss of power or a reset cuts short leaves its copy invalid (R404). -/
def UpdSt.cut (u : UpdSt) : UpdSt := if u.job.isSome then { u with state := 3, result := 8, job := none } else u

/-- The internal rails fall: everything but the VAUX domain is lost, user logic is held, and MUZZLE_N is asserted until
Dawn opens (R344, R361, R364, R425). Host memory, the pins' external world and the commands that wait are not the
module's to lose. -/
def State.railsDown (s : State) (p : Power) : State :=
  { pending := s.pending
    mod := { s.mod with power := p, dusk := {}, pins := { s.mod.pins with muzzle := s.mod.vauxOk, thermTrip := s.mod.pins.thermTrip && s.mod.vauxOk } }
    host := { s.host with msix := [] }
    muzzle := if s.mod.vauxOk then s.muzzle.kept else {}
    links := { links := (List.range 48).map fun n => (n, offLink s.mod.grade n) }
    fabric := { bankPresent := s.fabric.bankPresent, outReleased := false, writeEn := false, resetReleased := false, globalClk := false }
    config := { s.config with dawnStep := 1, nwRunning := false, load := none, plState := 0, plResult := 0, lastImage := [] }
    nv := s.nv
    sec := { s.sec with upd := s.sec.upd.cut }
    fresh := s.fresh }

end Sys2Proof.Machine
end

