-- ==== Sys2Proof/Machine/Leash.lean ====
section
/-! DEFINITION. Power, Leash and thermal control (R364 to R382): the ladder, the limits, the limiters, the sensors'
checks and the apportioning of energy. -/
namespace Sys2Proof.Machine
open Sys2Proof

def State.modLeash (s : State) (f : LeashSt → LeashSt) : State := { s with leash := f s.leash }
def State.modLtime (s : State) (f : LeashTime → LeashTime) : State := { s with ltime := f s.ltime }
def State.modEnergy (s : State) (f : EnergySt → EnergySt) : State := { s with energy := f s.energy }

/-- LEASH_STATUS, LEASH_POWER and LEASH_TEMP (R382). -/
def LeashSt.status (l : LeashSt) : Nat :=
  l.op + 8 * (l.duty - 1) + 128 * b2n l.stall + 256 * b2n l.throttle + 512 * b2n l.capUnmet +
    1024 * b2n l.modelMismatch + 2048 * b2n l.sensorSuspect + 4096 * b2n l.changing + 8192 * b2n l.capSeen +
    16384 * b2n l.mismatchSeen + 32768 * b2n l.suspectSeen
def LeashSt.power (l : LeashSt) : Nat := sat 16 l.estimate + 65536 * sat 16 l.measure
def LeashSt.tstack (l : LeashSt) : Nat := l.stackList.foldl max 0
def LeashSt.temp (l : LeashSt) : Nat := sat 8 l.tj + 256 * sat 8 l.tstack

/-- Limits (R382). -/
def State.sustLimit (s : State) : Nat := s.regN 0x110000
def State.peakLimit (s : State) : Nat := s.regN 0x110004
def State.fixedOp (s : State) : Nat := bits (s.regN 0x110008) 0 3
def State.fixedEn (s : State) : Bool := bit (s.regN 0x110008) 3
def State.boostEn (s : State) : Bool := bit (s.regN 0x110008) 4
def State.thThrottle (s : State) : Nat := bits (s.regN 0x11000C) 0 8
def State.thAlarm (s : State) : Nat := bits (s.regN 0x11000C) 8 8
def State.hbmThrottle (s : State) : Nat := bits (s.regN 0x11000C) 16 8

/-- LEASH_STATUS and LEASH_POWER, in ascending offset order (R384). -/
def State.leashWords (s : State) : List Byte := leBytes 4 s.leash.status ++ leBytes 4 s.leash.power
def State.leashAlarm (s : State) (code : Nat) : State := s.raise .alarm code noInst s.leashWords
def State.leashLog (s : State) : State := s.raise .log 0x010A noInst s.leashWords

def usNs : Nat := 1000
def msNs : Nat := 1000000

/-! ## Averages (R368) -/

/-- The sum of p4 × ns above the last `w` ns, and the ns it covers (log entry 18). -/
def powerSum (now w : Nat) : List (Nat × Nat × Nat) → Nat × Nat
  | [] => (0, 0)
  | (t, len, p) :: l =>
    let start := now - w
    if t ≤ start then (0, 0)
    else
      let m := min len (t - start)
      let r := powerSum now w l
      (r.1 + p * m, r.2 + m)

/-- The average of p above the last `w` ns exceeds `lim` watts × num / den. -/
def State.avgOver (s : State) (w lim num den : Nat) : Bool :=
  let r := powerSum s.tick.now w s.ltime.history
  decide (lim * num * 4 * r.2 < r.1 * den)

/-- avg_10ms > SUST_LIMIT, avg_10ms < 0.95 × SUST_LIMIT, and the 1 ms average > PEAK_LIMIT. -/
def State.overSust (s : State) : Bool := s.avgOver (10 * msNs) s.sustLimit 1 1
def State.underSust (s : State) : Bool :=
  let r := powerSum s.tick.now (10 * msNs) s.ltime.history
  decide (r.1 * 20 < s.sustLimit * 4 * 19 * r.2)
def State.overPeak (s : State) : Bool := s.avgOver msNs s.peakLimit 1 1

/-- A condition's timer: since when it has held. -/
def holds (now : Nat) (c : Bool) (t : Option Nat) : Option Nat :=
  if c then (match t with | some x => some x | none => some now) else none

/-- The condition has held for `d` ns. -/
def heldFor (now d : Nat) (t : Option Nat) : Bool :=
  match t with
  | some x => decide (x + d ≤ now)
  | none => false

/-! ## Latching a tick (R368, R372 to R374) -/

/-- Estimate and measurement differ by more than 20 % of the larger and by more than 50 W (R372). -/
def LeashSt.differ (l : LeashSt) : Bool :=
  let hi := max l.estimate l.measure
  let d := hi - min l.estimate l.measure
  decide (hi < 5 * d) && decide (50 < d)

/-- The output-side sum differs by more than 15 % from the input side (R373). -/
def LeashSt.inputDiffers (l : LeashSt) : Bool :=
  let d := max l.input l.measure - min l.input l.measure
  decide (15 * l.input < 100 * d)

/-- The input side exceeds the estimate multiplied by 1.25 by more than 15 % (R374). -/
def LeashSt.inputExceeds (l : LeashSt) : Bool := decide (l.estimate * 125 * 115 < l.input * 10000)

/-- MODEL_MISMATCH is set after 10 ms and cleared after 1 s (R372). -/
def State.mismatchTick (s : State) : State :=
  let now := s.tick.now
  let s := s.modLtime fun t => { t with
    mismatchSince := holds now s.leash.differ t.mismatchSince, matchSince := holds now (!s.leash.differ) t.matchSince }
  if !s.leash.modelMismatch && heldFor now (10 * msNs) s.ltime.mismatchSince then
    let s := s.modLeash fun l => { l with modelMismatch := true, mismatchSeen := true }
    s.leashLog
  else if s.leash.modelMismatch && heldFor now secondNs s.ltime.matchSince then
    s.modLeash fun l => { l with modelMismatch := false }
  else s

/-- SENSOR_SUSPECT is set at once and cleared after 1 s (R373). -/
def State.suspectTick (s : State) : State :=
  let now := s.tick.now
  let s := s.modLtime fun t => { t with diffSince := holds now s.leash.inputDiffers t.diffSince }
  let bad := s.ltime.sampleBad || s.ltime.selfCheckBad || heldFor now (10 * msNs) s.ltime.diffSince
  let s := s.modLtime fun t => { t with goodSince := holds now (!bad) t.goodSince, sampleBad := false }
  if bad && !s.leash.sensorSuspect then
    (s.modLeash fun l => { l with sensorSuspect := true, suspectSeen := true }).leashAlarm 0x0006
  else if s.leash.sensorSuspect && heldFor now secondNs s.ltime.goodSince then
    s.modLeash fun l => { l with sensorSuspect := false }
  else s

/-- An unresolved disagreement (R374): the ALARM, and the module Muzzle with cause 0x05. -/
def State.disagree (s : State) : State := (s.leashAlarm 0x0006).trigger .module 0x05

/-- While SENSOR_SUSPECT is set, the input side fails its check or exceeds the scaled estimate; or the sensors of a
thermal site have disagreed for 10 ms (R374). A condition that goes on triggers again after another 10 ms. The sensors agree while no condition of R373 or R374 holds, whatever the flag still reads (R29). -/
def State.disagreeTick (s : State) : State :=
  let now := s.tick.now
  let l := s.leash
  let s := s.modLtime fun t => { t with excessSince := holds now (l.sensorSuspect && l.inputExceeds) t.excessSince }
  let hit := l.sensorSuspect && (s.ltime.inputBad || heldFor now (10 * msNs) s.ltime.excessSince) ||
    heldFor now (10 * msNs) s.ltime.thermalSince
  let s := s.modLtime fun t => { t with
    sensorsOkSince := if t.goodSince.isNone || t.inputBad || hit || t.thermalSince.isSome then now else t.sensorsOkSince
    inputBad := false, excessSince := if hit then none else t.excessSince
    thermalSince := if hit && t.thermalSince.isSome then some now else t.thermalSince }
  if hit then s.disagree else s

/-- The peak-limit abort (R370): power is still above PEAK_LIMIT at the first tick 100 µs after the stall began. -/
def State.holdAbort (s : State) : State :=
  if s.leash.stall && heldFor s.tick.now (100 * usNs) s.ltime.stallAt then
    let t := s.modLtime fun t => { t with stallAt := none }
    if s.peakLimit * 4 < s.leash.p4 then t.trigger .module 0x09 else t
  else s

/-- The start of a tick of `len` ns: the enforced power of R368 joins the history, the checks of R372 to R374 and
the abort of R370 are evaluated. -/
def State.leashLatch (s : State) (estimate len : Nat) : State :=
  let sample (x : Option Int) (old : Nat) : Nat := (x.map Int.toNat).getD old
  let s := s.modLeash fun l => { l with
    estimate := estimate, measure := sample s.ltime.lastSample l.measure, input := sample s.ltime.lastInput l.input }
  let s := s.mismatchTick.suspectTick.disagreeTick
  let l := s.leash
  let p4 := if l.sensorSuspect then l.estimate * 5 else max l.estimate l.measure * 4
  let now := s.tick.now
  let s := s.modLeash fun l => { l with p4 := p4 }
  let s := s.modLtime fun t => { t with
    history := (now, len, p4) :: t.history.filter fun e => decide (now < e.1 + 10 * msNs)
    sinceDown := t.sinceDown + len, sinceUp := t.sinceUp + len
    powerOkSince := if s.sustLimit * 4 ≤ p4 then now else t.powerOkSince }
  s.holdAbort

/-! ## Class 2 (R366, R369, R370) -/

/-- The top rung's point (R366). -/
def State.topOp (s : State) : Nat :=
  if s.leash.sensorSuspect then 4
  else if s.fixedEn then s.fixedOp
  else if s.boostEn && decide (s.leash.tj < 85) then 7
  else 5

/-- Move to a rung: lowering switches the clock first, raising waits for the rail (R365). -/
def LeashSt.toPoint (l : LeashSt) (p : Nat) : LeashSt :=
  if p = l.want then l
  else if p < l.op then { l with want := p, op := p, changing := true }
  else { l with want := p, changing := decide (l.op < p) || l.changing }

/-- One rung down; the floor stays (R366). -/
def LeashSt.down (l : LeashSt) (fixed : Bool) : LeashSt :=
  if l.duty < 16 then { l with duty := max 1 (l.duty - 1) }
  else if fixed || l.want == 0 then { l with duty := 15 }
  else l.toPoint (l.want - 1)

/-- One rung up (R366). -/
def LeashSt.up (l : LeashSt) (top : Nat) : LeashSt :=
  if l.duty < 16 then { l with duty := l.duty + 1 }
  else if l.want < top then l.toPoint (l.want + 1)
  else l

/-- The rung falls to the top rung at once; fixed-frequency mode keeps one point (R366). -/
def State.clampRung (s : State) : State :=
  let top := s.topOp
  if s.fixedEn || decide (top < s.leash.want) then s.modLeash fun l => l.toPoint top else s

/-- CAP_UNMET (R369): at the floor, with the 10 ms average above SUST_LIMIT at every tick for 10 ms. -/
def State.capTick (s : State) : State :=
  let now := s.tick.now
  let above := s.overSust
  let s := s.modLtime fun t => { t with
    overSince := holds now above t.overSince, underSince := holds now (!above) t.underSince }
  if !s.leash.capUnmet && s.leash.duty == 1 && heldFor now (10 * msNs) s.ltime.overSince then
    (s.modLeash fun l => { l with capUnmet := true, capSeen := true }).leashAlarm 0x0005
  else if s.leash.capUnmet && heldFor now secondNs s.ltime.underSince then
    s.modLeash fun l => { l with capUnmet := false }
  else s

/-- The step of R369. -/
def State.ladder (s : State) : State :=
  let l := s.leash
  let th := s.thThrottle
  if s.overSust || decide (th < l.tj) then
    if l.duty != 1 && decide (100 * usNs ≤ s.ltime.sinceDown) then
      (s.modLeash fun l => l.down s.fixedEn).modLtime fun t => { t with sinceDown := 0 }
    else s
  else if s.underSust && decide (l.tj + 5 < th) && (l.duty != 16 || decide (l.want < s.topOp)) &&
      decide (1000 * usNs ≤ s.ltime.sinceUp) then
    (s.modLeash fun l => l.up s.topOp).modLtime fun t => { t with sinceUp := 0 }
  else s

/-- The peak-limit stall (R370). -/
def State.peakStall (s : State) : State :=
  if s.overPeak then
    if s.leash.stall then s
    else (s.modLeash fun l => { l with stall := true, stalls := sat 16 (l.stalls + 1) }).modLtime fun t =>
      { t with stallAt := some s.tick.now }
  else if s.leash.stall then
    (s.modLeash fun l => { (if s.fixedEn then l else l.toPoint 0) with stall := false, duty := 1 }).modLtime fun t =>
      { t with stallAt := none }
  else s

/-- The HBM point that Leash orders (R375): one lower while a stack is hot, one step back when all are cool. -/
def State.hbmOrder (s : State) (hot cool : Bool) : State :=
  let now := s.tick.now
  let ready := match s.ltime.lastThrottle with
    | some t => decide (t + 100 * msNs ≤ now)
    | none => true
  let op := s.hbm.op.toNat
  let order (p : Nat) : State := s.modLtime fun t => { t with
    hbmOrder := some (BitVec.ofNat 2 p), lastThrottle := some now, coolSince := none }
  if s.hbm.held || s.ltime.hbmOrder.isSome then s
  else if hot && ready && decide (op < 2) then order (op + 1)
  else if cool && decide (s.regN 0x83004 < op) then order (op - 1)
  else s

/-- An order of Leash starts its frequency change in class 2 (R293, R296). -/
def State.hbmStart (s : State) : State :=
  match s.ltime.hbmOrder with
  | none => s
  | some p => (s.freqChange p none).modLtime fun t => { t with hbmOrder := none }

/-- Class 2 of a tick (R32, R369, R370). -/
def State.class2 (s : State) : State :=
  let now := s.tick.now
  let s := s.hbmOrder (heldFor now (10 * msNs) s.ltime.hotSince) (heldFor now (10 * secondNs) s.ltime.coolSince)
  let s := s.hbmStart.clampRung.ladder.capTick.peakStall
  s.modLeash fun l => { l with throttle := decide (s.thThrottle < l.tj) }

/-! ## Commands -/

/-- SUPPLY_TRIP (R364): the module Muzzle with cause 0x07 and an ALARM; the rails of VIN48 and VAUX fall. Without VAUX the
sideband outputs are at high impedance (R425, R432). -/
def execSupplyTrip (p : Supply) (s : State) : Result :=
  .next <|
    let n := match p with
      | .vin48 => 0
      | .vaux => 1
      | .rail k => 2 + k
    let s := (s.raise .alarm 0x0003 noInst (leBytes 4 s.leash.power ++ leBytes 1 n)).trigger .module 0x07
    let s := s.modLtime fun t => { t with supplyOkSince := s.tick.now }
    match p with
    | .vin48 => { s with mod := { s.mod with vin48Ok := false } }
    | .vaux => { s with mod := { s.mod with vauxOk := false, pins := { s.mod.pins with muzzle := false, thermTrip := false } } }
    | .rail _ => s

/-- OP_CHANGE_DONE (R365): the rail change completes, and the clock is at the new point. -/
def execOpChangeDone (s : State) : Result :=
  .next (if s.leash.changing then s.modLeash fun l => { l with op := l.want, changing := false } else s)

/-- CAP_UNMET (R369): at the floor, and above the limit now; the sender says that 10 ms have passed. -/
def execCapUnmet (s : State) : Result :=
  .next <|
    if s.leash.duty = 1 ∧ s.overSust ∧ !s.leash.capUnmet then
      (s.modLeash fun l => { l with capUnmet := true, capSeen := true }).leashAlarm 0x0005
    else s

/-- POWER_HOLD_ABORT (R370): stalled and still above PEAK_LIMIT 100 µs after the stall began. -/
def execPowerHoldAbort (s : State) : Result :=
  .next <|
    if s.leash.stall && decide (s.peakLimit * 4 < s.leash.p4) then
      (s.modLtime fun t => { t with stallAt := none }).trigger .module 0x09
    else s

/-- DROOP (R371). -/
def execDroop (die : Fin 4) (s : State) : Result :=
  .next (s.modLeash fun l => { l with droops := sat 16 (l.droops + 1), stretch := l.stretch ||| (1#4 <<< die.val) })

/-- DROOP_RECOVERED (R371). -/
def execDroopRecovered (die : Fin 4) (s : State) : Result :=
  .next (s.modLeash fun l => { l with stretch := l.stretch &&& ~~~(1#4 <<< die.val) })

/-- A sample fails its check (R373). -/
def sampleFails (x : Int) (last : Option Int) : Bool :=
  decide (x < 0) || decide (3000 < x) ||
    (match last with
     | some y => decide (1200 < (x - y).natAbs)
     | none => false)

/-- POWER_SENSOR_SAMPLE (R368, R373): the output-side sum and the input side; the next tick evaluates them. -/
def execPowerSensorSample (sample input : Int) (_t : Nat) (s : State) : Result :=
  .next <| s.modLtime fun t => { t with
    sampleBad := t.sampleBad || sampleFails sample t.lastSample
    inputBad := t.inputBad || sampleFails input t.lastInput
    lastSample := some sample, lastInput := some input }

/-- MODEL_MISMATCH (R372): the values differ now; the sender says that 10 ms have passed. -/
def execModelMismatch (s : State) : Result :=
  .next <|
    if s.leash.differ ∧ !s.leash.modelMismatch then
      let s := s.modLeash fun l => { l with modelMismatch := true, mismatchSeen := true }
      s.leashLog
    else s

/-- SENSOR_DISAGREEMENT (R374). -/
def execSensorDisagreement (s : State) : Result := .next s.disagree

/-- SENSOR_SELF_CHECK (R373). -/
def execSensorSelfCheck (ok : Bool) (s : State) : Result := .next (s.modLtime fun t => { t with selfCheckBad := !ok })

/-- The middle value of a site's three sensors (R375). -/
def middle (x : Nat × Nat × Nat) : Nat := max (min x.1 x.2.1) (min (max x.1 x.2.1) x.2.2)

/-- No two of a site's sensors agree within 5 °C (R374). -/
def apart (x : Nat × Nat × Nat) : Bool :=
  let far (a b : Nat) : Bool := decide (5 < max a b - min a b)
  far x.1 x.2.1 && far x.2.1 x.2.2 && far x.1 x.2.2

/-- The hottest junction of a reading. -/
def hottest (r : Thermal) : Nat := (r.sites.map middle).foldl max 0

/-- THERMAL_SAMPLE (R375): boost and throttling follow from the temperature at the next class 2; the ALARM, the trip
and the removal of the rails act here. With the rails down there is nothing to sample. -/
def execThermalSample (r : Thermal) (s : State) : Result :=
  .next <| if s.mod.power != .running then s else
    let now := s.tick.now
    let tj := hottest r
    let s := s.modLeash fun l => { l with tj := tj, stackList := r.stackList }
    let hot := decide (s.hbmThrottle < s.leash.tstack)
    let cool := decide (s.leash.tstack + 10 < s.hbmThrottle)
    let trip := decide (110 ≤ tj) || decide (105 ≤ s.leash.tstack)
    let above := decide (s.thAlarm < tj)
    let raiseIt := (above && !s.ltime.alarmOver) || trip
    let s := s.modLtime fun t => { t with
      hotSince := holds now hot t.hotSince, coolSince := holds now cool t.coolSince
      thermalSince := holds now (r.sites.any apart) t.thermalSince, alarmOver := above, tempOkSince := if trip then now else t.tempOkSince }
    let s := if raiseIt then s.raise .alarm 0x0004 noInst (leBytes 4 s.leash.status ++ leBytes 4 s.leash.temp) else s
    let s :=
      if trip then { s.trigger .module 0x08 with mod := { s.mod with pins := { s.mod.pins with thermTrip := s.mod.vauxOk } } }
      else { s with mod := { s.mod with pins := { s.mod.pins with thermTrip := false } } }
    if 125 ≤ tj then s.railsDown .thermalOff else s

/-- HBM_THROTTLE (R375): a stack is hot; the sender says that 10 ms have passed. -/
def execHbmThrottle (s : State) : Result := .next (s.hbmOrder (decide (s.hbmThrottle < s.leash.tstack)) false)

/-! ## Energy (R378 to R380) -/

/-- k × x of the last closed interval (R379). -/
def EnergySt.scale (e : EnergySt) (x : Nat) : Nat := if e.kDen = 0 then x else e.kNum * x / e.kDen

/-- The `len` ns up to this edge: each Pack that a descriptor has occupied is charged for them (R378). -/
def State.occupy (s : State) (len : Nat) : State :=
  (List.range 64).foldl (fun s p =>
    match s.running p with
    | some d => if d.phase == .parked then s else
        s.modEnergy fun e => { e with occ := Table.modify 0 e.occ p (· + len) }
    | none => s) s

/-- The energy of a record, µJ, and the provisional charge of the open interval (R379, R380). The Pack's activity up to
the record's tick and the base of the ticks it was occupied for are Leash's estimates: free values (log entry 4). The
activity counts once, though another descriptor may follow on the Pack within the interval. -/
def State.recordEnergy (s : State) (d : Desc) : Nat × State :=
  if (d.undispatched && (s.pack d.pack).desc != some d.id) || !d.occupies then (0, s)
  else
    let (act, s) := s.draw
    let (base, s) := s.draw
    let charge := s.energy.scale (act + base * (s.shape d.pack).tiles.length / s.mod.grade.tiles)
    let e := d.run.energy + charge
    (e / 1000000, s.modEnergy fun g => { g with
      chargedPj := g.chargedPj + charge - e % 1000000, occ := Table.erase g.occ d.pack
      spent := Table.modify 0 g.spent d.pack (· + act) })

/-- ENERGY_INTERVAL_CLOSE (R378, R379): k, the charges of the descriptors that still occupy their Packs, and the
counters. While SENSOR_SUSPECT is set the estimate stands in for the measurement. -/
def execEnergyIntervalClose (r : EnergyIn) (s : State) : Result :=
  .next <|
    let a := r.activity.foldl (fun acc e => acc + e.2) 0 + r.idle + r.base
    let m := if s.leash.sensorSuspect then a else r.measured
    let s := s.modEnergy fun e => { e with
      kNum := if a = 0 then e.kNum else m, kDen := if a = 0 then e.kDen else a
      suspect := if s.leash.sensorSuspect then sat 32 (e.suspect + 1) else e.suspect
      totalPj := e.totalPj + m }
    let span := s.since s.energy.openedAt
    let s := (List.range 64).foldl (fun s p =>
      match s.running p with
      | none => s
      | some d =>
        let act := (r.activity.filter fun e => e.1.val == p).foldl (fun acc e => acc + e.2) 0 - Table.get 0 s.energy.spent p
        let tiles := (s.shape p).tiles.length
        let share := r.base * tiles * Table.get 0 s.energy.occ p / (s.mod.grade.tiles * max 1 span)
        let c := s.energy.scale (act + share)
        (s.modDesc d.id fun d => { d with run := { d.run with energy := d.run.energy + c } }).modEnergy fun e =>
          { e with chargedPj := e.chargedPj + c }) s
    s.modEnergy fun e => { e with
      total := e.totalPj / 1000000, charged := e.chargedPj / 1000000, openedAt := s.tick.now, occ := [], spent := [] }

/-- LEASH_E_UNATTR: TOTAL less CHARGED, two's complement (R380). -/
def EnergySt.unattr (e : EnergySt) : Int := (e.total : Int) - e.charged

end Sys2Proof.Machine
end

