-- ==== Sys2Proof/Machine/Records.lean ====
section
/-! DEFINITION. Completion: when a program is complete, how its completion is sampled, completion records, tag words,
interrupt moderation, FENCE, CANCEL, LOOP between iterations, and function-level reset (R9 to R17, R62, R79 to R92,
R152, R323). -/
namespace Sys2Proof.Machine
open Sys2Proof

/-! ## Completion of a program -/

/-- Length of a COPY (R75). -/
def Desc.copyLen (d : Desc) : Nat := d.classWord.toNat

/-- Every engine of the Pack has halted and every instruction, transaction and signal has finished (R152); a COPY has
moved all its bytes. -/
def State.programDone (s : State) (d : Desc) : Bool :=
  let p := d.pack
  (if d.f.cls == 2 then decide (d.copyLen ≤ (s.pack p).copyAt)
   else (s.shape p).tiles.all fun i =>
     let t := s.tile i
     t.flights.isEmpty && engines.all fun e => (t.engine e).halted) &&
    (s.pack p).replaying.isNone && (s.pack p).misses.isEmpty && (s.pack p).loading.isNone && s.retired p d.id

/-- A completion is latched at a tick edge (R31); a whole replay that comes to its end has matched (R82). -/
def State.finish (s : State) (p : Nat) : State :=
  match s.running p with
  | some d =>
    if d.phase == .running && s.programDone d then s.modDesc d.id fun d => { d with
      phase := .finished, run := { d.run with matched := d.run.matched || d.run.whole } }
    else s
  | none => s

/-- PROGRAM_COMPLETE (R152): the program of a Pack is complete; the next tick samples it. -/
def execProgramComplete (p : PackIx) (s : State) : Result := .next (s.finish p.val)

/-- Status of a delivered or doubtful completion (R12, R52, R163). -/
def State.completionStatus (s : State) (d : Desc) : Nat :=
  if d.run.tainted then stTainted
  else if d.timed && s.cad.runs && decide (d.f.deadline ≤ s.cad.pos) then (if d.hard then stDeadline else stLate)
  else stOk

/-- Class 5: sample a completion (R10, R323). The outcome is sent once; the completion waits for the outcome of every
token to which the descriptor is exposed. -/
def State.sampleCompletion (s : State) (d : Desc) : State :=
  if d.phase != .finished then s
  else
    let s := match d.outcome with
      | some _ => s
      | none =>
        (s.sendOutcome d (if d.run.tainted then .withdraw else .clear)).modDesc d.id fun d =>
          { d with outcome := some s.tick.count }
    let since := s.tick.count - d.outcome.getD s.tick.count
    if s.exposed d.id then
      if s.regN 0xF0004 ≤ since then
        (s.endDesc d.id stLinkLost).modLf fun l => { l with linkLost := sat 16 (l.linkLost + 1) }
      else s
    else
      let st := s.completionStatus d
      s.modDesc d.id fun d => { d with phase := .ended, status := st }

/-- A descriptor whose last transaction has retired has ended (R90). -/
def State.endIfRetired (s : State) (d : Desc) : State :=
  if d.phase == .ending && s.retired d.pack d.id then s.modDesc d.id fun d => { d with phase := .ended } else s

/-- DESCRIPTOR_RETIRED (R90). -/
def execDescriptorRetired (d : Nat) (s : State) : Result :=
  .next <|
    match s.desc? d with
    | some x => s.endIfRetired x
    | none => s

/-! ## Records (R81 to R85) -/

/-- The record is due: the descriptor has ended, or it was rejected and its tick has come (R9, R77). -/
def State.recordDue (s : State) (d : Desc) : Bool :=
  d.phase == .ended || (d.phase == .rejected && decide (d.due ≤ s.tick.count))

/-- FLAGS without PHASE (R82). -/
def Desc.recordFlags (d : Desc) (sat : Bool) : Nat :=
  b2n (okStatus d.status) + 2 * b2n (d.f.cls == 4 && d.loopEnd) + 4 * b2n (d.run.replayed && d.run.matched) +
    8 * b2n d.run.deferred + 16 * b2n d.run.overflow + 32 * b2n d.run.invalid + 64 * b2n d.noTarget + 128 * b2n sat +
    256 * b2n d.undispatched

/-- Predicate semaphore of a LOOP (R13, R75). -/
def State.predicate (s : State) (d : Desc) : Nat :=
  let w := d.classWord.toNat
  let t := (s.shape d.pack).at (bits w 38 5) (bits w 43 5)
  (Table.get 0 (s.tile t.ix).sems (bits w 32 6)).toNat

/-- Another iteration follows (R13, R14). -/
def State.loopGoesOn (s : State) (d : Desc) : Bool :=
  d.f.cls == 4 && okStatus d.status && !d.undispatched && s.predicate d != 0 &&
    decide (d.run.iter + 1 < bits d.classWord.toNat 0 32)

/-- Write one record and its tag word into a reserved slot (R81 to R84). The last record of a LOOP that is ended while
parked has the start position of the iteration before and no UNDISPATCHED (log entry 28). -/
def State.putRecord (s : State) (d : Desc) : State :=
  let f := d.fn.val
  let k := s.ring f d.cq
  let size := s.cqSize f d.cq
  let (energy, s) := s.recordEnergy d
  let phase := if k.tail / size % 2 = 0 then 1 else 0
  let flags := d.recordFlags (decide (2 ^ 32 ≤ energy)) + 32768 * phase
  let start := if d.undispatched || !d.occupies then s.cad.pos else d.run.startPos
  let s := s.hostWriteAs f (s.ringAddr f d.cq 0x20 + 32 * (k.tail % size))
    (leBytes 2 d.status ++ leBytes 2 flags ++ leBytes 4 d.f.job.toNat ++ leBytes 2 d.slot ++ leBytes 2 d.ring.val ++
      leBytes 4 (sat 32 energy) ++ leBytes 8 start ++ leBytes 8 s.cad.pos)
  let s := if d.f.tag = 0 then s
    else s.hostWriteAs f d.f.tag.toNat (leBytes 2 d.status ++ leBytes 2 flags ++ leBytes 4 d.f.job.toNat)
  (s.countEv hubUnit 0x0C1 1).modRing f d.cq fun k => { k with
    tail := (k.tail + 1) % 2 ^ 32, reserved := k.reserved - 1
    pend := k.pend + 1, pendAt := if k.pend = 0 then s.tick.count else k.pendAt
    errNow := k.errNow || !okStatus d.status }

/-- The Pack becomes idle at the tick of the record (R90); its sets are released (R100). -/
def State.idlePack (s : State) (p id : Nat) : State :=
  if (s.pack p).desc = some id then
    let s := s.stopTiles p
    s.modPack p fun k => { k with
      desc := none, barriers := [], deadSince := none, misses := [], replaying := none, spared := false
      copyAt := 0, copySrc := [], copyParts := [], copyFault := none, loading := none, nanPend := [], nanSeen := false, illSeen := false, issued := false, waking := false }
  else s

/-- What follows a record: withdrawal (R26), cues (R56), and either the next iteration of a LOOP or the end. The pending
cue actions of a descriptor that another event than a cadence fault or a Muzzle of wider scope has ended are cancelled
here, at the tick of its record (R56; log entry 118). -/
def State.afterRecord (s : State) (d : Desc) (more : Bool) : State :=
  let ok := okStatus d.status
  let s := if ok then s else s.sendOutcome d .withdraw
  let s := s.cuesAtRecord d ok ok
  if more then
    s.modDesc d.id fun x => { x with
      phase := .parked, status := 0, slotHeld := false, outcome := none
      run := { iter := x.run.iter + 1, startPos := x.run.startPos } }
  else
    let s := (s.exposuresAtRecord d).idlePack d.pack d.id
    s.setDescs (s.shep.descs.filter fun x => x.id != d.id)

/-- A slot for the record: the one held, or a free one claimed now (R17, R83). -/
def State.recordSlot (s : State) (d : Desc) : Bool × State :=
  if d.slotHeld then (true, s) else s.claimSlot d.fn.val d.cq

/-- Write the record of a descriptor that is due, or wait for space. A function-level reset lets none be written
(R62). -/
def State.record1 (s : State) (id : Nat) : State :=
  match s.desc? id with
  | none => s
  | some d =>
    if !s.recordDue d then s
    else if d.silent then
      (if d.slotHeld then s.freeSlot d.fn.val d.cq else s).afterRecord d false
    else match s.recordSlot d with
      | (false, s) => s
      | (true, s) =>
        let more := s.loopGoesOn d
        let d := { d with loopEnd := !more }
        (s.putRecord d).afterRecord d more

/-- CANCELs whose last target has its record (R91). -/
def State.cancelsDue (s : State) : List Nat :=
  (s.shep.descs.filter fun d => d.f.cls == 8 && d.phase == .waiting &&
    d.targets.all fun t => (s.desc? t).isNone).map Desc.id

/-- Write a record, and at once those of the CANCELs it completes (R91). -/
def State.record (s : State) (id : Nat) : State :=
  let s := s.record1 id
  s.cancelsDue.foldl (fun s c => (s.modDesc c fun d => { d with phase := .ended }).record1 c) s

/-- A FENCE completes when every descriptor fetched earlier from its ring has its record (R79). -/
def State.fenceReady (s : State) (d : Desc) : Bool :=
  d.f.cls == 3 && d.phase == .waiting &&
    !(s.shep.descs.any fun x => x.fn == d.fn && x.ring == d.ring && decide (x.id < d.id)) &&
    !((s.ring d.fn.val d.ring.val).reads.any fun r => decide (r.id < d.id))

/-- A descriptor that occupies no Pack: its record, or the completion of a FENCE. -/
def State.recordOther (s : State) (id : Nat) : State :=
  match s.desc? id with
  | none => s
  | some d => if s.fenceReady d then (s.modDesc id fun x => { x with phase := .ended, undispatched := false }).record id else s.record id

/-- Order of records on Pack descriptors (R11) and on the others (R80); `sortBy` is stable, and descriptors of one key stay
in fetch order. The ring number is the local one of R93, and rings of one number go by function (log entry 119). -/
def Desc.packKey (d : Desc) : Nat := (d.pack * 1024 + d.ring.val) * 64 + d.fn.val
def Desc.otherKey (d : Desc) : Nat := d.ring.val * 64 + d.fn.val

/-- Records of Pack descriptors (R11). -/
def State.writePackRecords (s : State) : State :=
  ((sortBy Desc.packKey (s.shep.descs.filter Desc.occupies)).map Desc.id).foldl State.record s

/-- Then those of the others, and again the FENCEs that records of other rings have completed (R79, R80, R85). -/
def State.writeOtherRecords (s : State) : State :=
  let others (s : State) := (sortBy Desc.otherKey (s.shep.descs.filter fun d => !d.occupies)).map Desc.id
  let n := (s.shep.descs.filter fun d => d.f.cls == 3).length + 1
  (List.range n).foldl (fun s _ => (others s).foldl State.recordOther s) s

/-! ## Interrupt moderation (R86, R87) -/

/-- A completion ring's vector is due. -/
def State.modDue (s : State) (f r : Nat) : Bool :=
  let k := s.ring f r
  let m := s.ringRegN f r 0x34
  let count := bits m 0 16
  let time := bits m 16 16
  (count != 0 || time != 0) &&
    ((count != 0 && decide (count ≤ k.pend)) ||
     (time != 0 && k.pend != 0 && decide (time ≤ s.tick.count - k.pendAt)) ||
     (bit (s.ringRegN f r 0x30) 6 && k.errNow))

/-- Send what is due on a completion ring. -/
def State.moderate (s : State) (f r : Nat) : State :=
  let s := if s.modDue f r then
      (s.msixSend f (bits (s.ringRegN f r 0x30) 7 11)).modRing f r fun k => { k with pend := 0 }
    else s
  s.modRing f r fun k => { k with errNow := false }

/-- Moderation of every ring that has pending records. -/
def State.moderateAll (s : State) : State :=
  (s.shep.rings.filter fun e => e.2.pend != 0 || e.2.errNow).foldl (fun s e => s.moderate (e.1 / 1024) (e.1 % 1024)) s

/-- FENCE_COMPLETE (R79). -/
def execFenceComplete (fn : Fn) (ring : RingIx) (s : State) : Result :=
  .next <|
    match s.shep.descs.find? fun d => d.fn == fn && d.ring == ring && s.fenceReady d with
    | some d => (s.recordOther d.id).moderate fn.val d.cq
    | none => s

/-- COMPLETION_RECORD (R10, R81 to R86): the record of a descriptor that is due, its tag word, the head write-back of
its ring, and any message. -/
def execCompletionRecord (d : Nat) (s : State) : Result :=
  .next <|
    match s.desc? d with
    | some x =>
      if s.recordDue x then ((s.record d).headWriteBack x.fn.val x.ring.val).moderate x.fn.val x.cq else s
    | none => s

/-- MOD_TIME_EXPIRY (R86). -/
def execModTimeExpiry (fn : Fn) (ring : RingIx) (s : State) : Result :=
  .next <|
    let k := s.ring fn.val ring.val
    let time := bits (s.ringRegN fn.val ring.val 0x34) 16 16
    if time ≠ 0 ∧ k.pend ≠ 0 ∧ time ≤ s.tick.count - k.pendAt then s.moderate fn.val ring.val else s

/-- Unmask a vector; a pending message is sent at once (R87). -/
def State.unmask (s : State) (f v : Nat) : State :=
  let a := msixEntry f v + 12
  let s := s.setReg a (s.reg a &&& 0xFFFFFFFE)
  if (s.fn f).msixPending.contains v then
    (s.modFn f fun x => { x with msixPending := x.msixPending.filter (· != v) }).msixWrite f v
  else s

/-- MSIX_UNMASK (R87). -/
def execMsixUnmask (fn : Fn) (vec : Fin 2048) (s : State) : Result :=
  .next (if vec.val < s.vecCount fn.val then s.unmask fn.val vec.val else s)

/-! ## Cancellation (R88 to R91) -/

/-- Targets of a CANCEL (R88). -/
def State.cancelTargets (s : State) (c : Desc) : List Desc :=
  let job := c.f.program.extractLsb' 0 32
  let ring := bits c.f.program.toNat 32 12
  s.shep.descs.filter fun d => d.fn == c.fn && d.ring.val == ring && d.f.job == job && d.f.cls != 8 && d.f.cls != 5

/-- End one target (R89). A descriptor that was rejected keeps its status (R77), and one that another event has
ended keeps its own (R22). The completion of a program that is complete is sampled at this tick unless the descriptor is
exposed to a token (R323); one that waits for an outcome is still running. -/
def State.cancelOne (s : State) (d : Desc) : State :=
  match d.phase with
  | .finished => s.endDesc d.id (if s.exposed d.id then stCancelled else stCancelledAfter)
  | .rejected => s
  | _ =>
    let s := s.endDesc d.id stCancelled
    if d.f.cls == 3 || d.f.cls == 6 then s.modDesc d.id fun x => { x with undispatched := false } else s

/-- Handle a CANCEL (R88, R89, R91). -/
def State.cancel (s : State) (c : Desc) : State :=
  let t := s.cancelTargets c
  let s := t.foldl State.cancelOne s
  s.modDesc c.id fun x => { x with
    undispatched := false, targets := t.map Desc.id
    noTarget := t.isEmpty, phase := if t.isEmpty then .ended else .waiting }

/-- Class 4 (R32): the CANCELs that have arrived, in ring order. -/
def State.class4 (s : State) : State :=
  (sortBy Desc.otherKey (s.shep.descs.filter fun d => d.f.cls == 8 && d.phase == .arrived)).foldl State.cancel s

/-! ## Function-level reset (R62) -/

/-- One function is reset. -/
def State.resetFn (s : State) (f : Nat) : State :=
  let mine := s.shep.descs.filter fun d => d.fn.val == f
  let s := mine.foldl (fun s d => (s.modDesc d.id fun x => { x with silent := true }).endDesc d.id stCancelled) s
  let s := mine.foldl (fun s d => if d.f.cls == 8 || d.phase == .rejected then
    s.modDesc d.id fun x => { x with phase := .ended } else s) s
  let clear (e : Nat × RingSt) : Nat × RingSt :=
    if e.1 / 1024 == f then (e.1, { e.2 with reads := [], reserved := 0, pend := 0, errNow := false }) else e
  let keep (t : Table Word) : Table Word := t.filter fun e => !inGroup s.mod.grade 1 f e.1
  let s := { s with
    shep := { s.shep with rings := s.shep.rings.map clear }
    regs := { s.regs with active := keep s.regs.active, staged := keep s.regs.staged } }
  let drop (d : Desc) : Desc := if d.fn.val == f then { d with slotHeld := false } else d
  s.setDescs (s.shep.descs.map drop)

/-- Drop the ended descriptors of reset functions; those that still have transactions follow at their ticks. -/
def State.dropSilent (s : State) : State :=
  ((s.shep.descs.filter Desc.silent).map Desc.id).foldl (fun s id =>
    match s.desc? id with
    | some d => (s.endIfRetired d).record1 id
    | none => s) s

end Sys2Proof.Machine
end

