-- ==== Sys2Proof/Machine/Issue.lean ====
section
/-! DEFINITION. Issue: which engine may issue, fetching its word, the scoreboard, skipping an illegal instruction, loops and
branches, semaphores and waits (R149 to R163, R169, R176, R179). -/
namespace Sys2Proof.Machine
open Sys2Proof

/-- An engine about to issue: tile, engine, Pack, descriptor, PC and word. -/
structure Issuing where
  tile : TileId
  ix : Nat
  e : Engine
  p : Nat
  d : Desc
  pc : Nat
  word : QWord
  deriving DecidableEq, Repr

/-! ## Resources (R171): regions 0 to 255, A0 to A3 from 256, X 260, Y 261, slot 262, any context 263, contexts from
264, hub units from 280 -/

def resAcc (slot : Nat) : Nat := 256 + slot % 4
def resX : Nat := 260
def resY : Nat := 261
def resSlot : Nat := 262
def resAnyCtx : Nat := 263
def resCtx (c : Nat) : Nat := 264 + c % 16
def resHub (u : Nat) : Nat := 280 + u

/-- Regions of a byte span of the tile store (R154). -/
def regionsOf (a n : Nat) : List Nat :=
  if n = 0 then [] else (List.range ((a + n - 1) / 4096 - a / 4096 + 1)).map (· + a / 4096)

/-- Keep the first of equal elements. -/
def dedup : List Nat → List Nat
  | [] => []
  | x :: l => x :: (dedup l).filter (· != x)

/-- Regions of `rows` spans of `len` bytes, `stride` bytes apart. -/
def rowRegions (a stride len rows : Nat) : List Nat :=
  dedup ((List.range rows).flatMap fun i => regionsOf (a + i * stride) len)

/-- Memory of a stream's tile side: 0 store, 1 X, 2 Y (R234). -/
def sideRes (tmem a n : Nat) : List Nat :=
  if n = 0 then [] else if tmem = 1 then [resX] else if tmem = 2 then [resY] else regionsOf a n

/-- The tile-side address of a chunk (R198). -/
def CtxSt.chunkAddr (c : CtxSt) (i : Nat) : Nat :=
  if c.kind = .gather then c.laddr + i * c.rowBytes
  else c.laddr + (if c.bind && c.slots != 0 then i % c.slots else i) * 2 ^ c.chunkLog2

/-- A context writes the tile's memory. -/
def CtxKind.inbound : CtxKind → Bool
  | .get => true
  | .gather => true
  | _ => false

/-- Bytes of a memory element under conversion (R234). -/
def StreamRec.esize (r : StreamRec) : Nat := if r.cfmt = 0 then 4 else 2

/-- Memory-side bytes of a stream (R235). -/
def StreamRec.bytes (r : StreamRec) : Nat := r.len0 * r.cnt1 * r.cnt2 * r.cnt3

/-- Tile-side bytes (R235): with conversion one 4-byte word for each element. -/
def StreamRec.length (r : StreamRec) : Nat := if r.conv = 0 then r.bytes else r.bytes / r.esize * 4

/-- Tile-side bytes of a chunk (R236, R239). -/
def CtxSt.chunkLen (c : CtxSt) (i : Nat) : Nat :=
  if c.kind = .gather then c.rowBytes else min (2 ^ c.chunkLog2) (c.rcd.length - i * 2 ^ c.chunkLog2)

/-- Resources that a context's chunks hold: those an inbound stream has in flight, and the faulting chunk of a stopped
stream (R154, R247). -/
def CtxSt.resources (c : CtxSt) : List Nat :=
  match c.kind with
  | .send => []
  | .mcast => []
  | _ =>
    (if c.kind.inbound then c.inflight.flatMap (fun k => sideRes c.rcd.tmem (c.chunkAddr k.ix) k.len) else []) ++
      (if c.fault.isSome then sideRes c.rcd.tmem (c.chunkAddr c.next) (c.chunkLen c.next) else [])

/-- Pending readers and writers of a tile, the chunks of context `skip` apart (R154, R196). -/
def TileSt.pendReads (t : TileSt) (skip : Option Nat) : List Nat :=
  (t.flights.filter fun f => skip.isNone || f.ctx != skip).flatMap Flight.reads ++ t.arr.active.held ++ t.arr.shadow.held ++
    (t.ctxs.filter fun c => some c.1 != skip && !c.2.kind.inbound).flatMap fun c => c.2.resources

def TileSt.pendWrites (t : TileSt) (skip : Option Nat) : List Nat :=
  (t.flights.filter fun f => skip.isNone || f.ctx != skip).flatMap Flight.writes ++
    (t.ctxs.filter fun c => some c.1 != skip && c.2.kind.inbound).flatMap fun c => c.2.resources

/-- The first resource that fails the test of R155. -/
def TileSt.blocked (t : TileSt) (skip : Option Nat) (reads writes : List Nat) : Option Nat :=
  let pr := t.pendReads skip
  let pw := t.pendWrites skip
  match reads.find? fun r => pw.contains r with
  | some r => some r
  | none => writes.find? fun r => pr.contains r || pw.contains r

/-- No free instruction slot (R153). -/
def TileSt.slotsFull (t : TileSt) (e : Engine) : Bool :=
  decide (64 ≤ t.flights.length) || decide (32 ≤ (t.flights.filter fun f => f.engine == e).length)

/-! ## Program counters, loops and branches (R179) -/

/-- The next PC after the instruction at `pc`, and the loops still active. -/
def loopAdvance : List LoopSt → Nat → Nat × List LoopSt
  | [], pc => (pc + 1, [])
  | l :: rest, pc =>
    if l.last = pc then
      (if 1 < l.left then (l.first, { l with left := l.left - 1 } :: rest) else loopAdvance rest pc)
    else (pc + 1, l :: rest)

/-- Go on after the present instruction. -/
def EngineSt.advance (g : EngineSt) : EngineSt :=
  let r := loopAdvance g.loops g.pc
  { g with pc := r.1, loops := r.2, hold := .none }

/-- A taken branch: loops whose body the target lies outside end. -/
def EngineSt.jump (g : EngineSt) (target : Nat) : EngineSt :=
  { g with
    pc := target, hold := .none
    loops := g.loops.dropWhile fun l => !(decide (l.first ≤ target) && decide (target ≤ l.last)) }

/-- Change an engine of a tile. -/
def State.modEngine (s : State) (ix : Nat) (e : Engine) (f : EngineSt → EngineSt) : State :=
  s.modTile ix fun t => t.setEngine e (f (t.engine e))

/-- The issuing engine goes on to its next instruction. -/
def State.advance (s : State) (c : Issuing) : State := s.modEngine c.ix c.e EngineSt.advance

/-- The engine waits at issue. -/
def State.holdAt (s : State) (c : Issuing) (h : Hold) : State := s.modEngine c.ix c.e fun g => { g with hold := h }

/-- Skip an illegal instruction (R163, R164). -/
def State.skip (s : State) (c : Issuing) (reason : Nat) : State :=
  (s.taint c.tile c.e.num c.pc reason c.word).advance c

/-! ## Issue -/

/-- A prologue hook of a tile stages its rows: the MX engine goes on once the last has come back (R205, R207). -/
def State.staging (s : State) (ix : Nat) : Bool := s.fabric.ports.any fun e => e.2.hooks.any fun h => h.tile == ix && h.kind == 0

/-- The Pack and descriptor for which an engine may issue: a RUN or LOOP runs, its domains are awake, Leash does not
stall issue, the engine has not halted and is at no WAIT or BARRIER; an MX engine whose row awaits its replay does
not go on (R112, R151, R157, R162, R257, R369). -/
def State.issuer (s : State) (tile : TileId) (e : Engine) : Option (Nat × Desc) :=
  match s.packOf tile with
  | none => none
  | some p => match s.running p with
    | none => none
    | some d =>
      let k := s.pack p
      let g := (s.tile tile.ix).engine e
      let free := match g.hold with
        | .wait .. => false
        | .barrier .. => false
        | _ => true
      let stuck := e == .mx && (k.misses.any (fun m => m.tile == tile) || s.staging tile.ix)
      if d.phase == .running && (d.f.cls == 1 || d.f.cls == 4) && !g.halted && free && !stuck && !k.waking && k.loading.isNone &&
          k.replaying.isNone && !s.leash.stall && s.leash.duty != 0 then some (p, d) else none

/-- A fetch of the stream has failed (R149). -/
def State.fetchFailed (s : State) (p : Nat) (d : Desc) : State :=
  if (s.pack p).issued then s.latchFault d.id stMemory
  else (s.stopPack p d.id).modDesc d.id fun x =>
    { x with phase := .rejected, status := stInvalid, undispatched := true, due := s.tick.count + 2 }

/-- Entries of an instruction queue (R95). -/
def queueWords : Nat := 64

/-- What fetching the word at an engine's PC gives (R149): the word, nothing yet, a failed read, or memory that cannot give
it (R283). -/
inductive Fetched where
  | word (w : QWord)
  | waits | failed | memory
  deriving DecidableEq, Repr

/-- The word at the PC, if the queue holds it (R150). -/
def EngineSt.queued (g : EngineSt) : Option QWord := if g.pc < g.qbase then none else g.queue[g.pc - g.qbase]?

/-- Words of 16 bytes each. -/
def wordsOf : Nat → List Byte → List QWord
  | 0, _ => []
  | n + 1, b => BitVec.ofNat 128 (leNat (b.take 16)) :: wordsOf n (b.drop 16)

/-- Discard the queue of an engine and fetch `n` words from its PC on. -/
def State.refill (s : State) (d : Desc) (ix : Nat) (e : Engine) (n : Nat) : Fetched × State :=
  let g := (s.tile ix).engine e
  match s.readVa d (g.base + 16 * g.pc) (16 * n) with
  | (.bytes b, s) =>
    let l := wordsOf n b
    (.word (l.headD 0), s.modEngine ix e fun g => { g with qbase := g.pc, queue := l })
  | (.waits, s) => (.waits, s)
  | (.failed, s) => (.failed, s)
  | (.memory, s) => (.memory, s)

/-- The word at an engine's PC: from its queue, which is refilled where it does not hold it; where words behind the first
cannot be had, with that one alone (R149, R150, R174; log entry 128). -/
def State.fetchWord (s : State) (d : Desc) (ix : Nat) (e : Engine) : Fetched × State :=
  let g := (s.tile ix).engine e
  match g.queued with
  | some w => (.word w, s)
  | none =>
    let n := min queueWords (g.len - g.pc)
    match s.refill d ix e n with
    | (.failed, s) => if n ≤ 1 then (.failed, s) else s.refill d ix e 1
    | (.memory, s) => if n ≤ 1 then (.memory, s) else s.refill d ix e 1
    | r => r

/-- Something that an instruction held at issue may have waited for was released: the engines of the tile try again. -/
def TileSt.retry (t : TileSt) : TileSt :=
  engines.foldl (fun t e => match (t.engine e).hold with
    | .issue _ => t.setEngine e { t.engine e with hold := .none }
    | _ => t) t

/-- An engine of the Pack has issued. -/
def State.markIssued (s : State) (p : Nat) : State := s.modPack p fun k => { k with issued := true }

/-- Issue the word at the engine's PC if its opcode is one that `pick` takes (log entry 6). Checks 1 to 3 of R176 that
need only the word are made here; `body` gets the decoded instruction. -/
def State.issue (s : State) (tile : TileId) (e : Engine) (pick : Nat → Bool) (body : Issuing → TileWord → State → State) : State :=
  match s.issuer tile e with
  | none => s
  | some (p, d) =>
    let g := (s.tile tile.ix).engine e
    if g.len ≤ g.pc then s
    else match s.fetchWord d tile.ix e with
      | (.waits, s) => s
      | (.memory, s) => s
      | (.failed, s) => s.fetchFailed p d
      | (.word w, s') =>
        let c : Issuing := ⟨tile, tile.ix, e, p, d, g.pc, w⟩
        if !pick (w.toNat % 256) then s
        else
          let s := s'
          match TileWord.fields w with
          | none => s.skip c rsUndefined
          | some i =>
            if !opcodeEngine i.opcode e then s.skip c rsWrongEngine
            else if i.encode ≠ w then s.skip c rsReserved
            else body c i s

/-- Issue a word of one opcode. -/
def State.issueOp (s : State) (tile : TileId) (e : Engine) (op : Nat) (body : Issuing → TileWord → State → State) : State :=
  s.issue tile e (· == op) body

/-- An instruction issues: the site's tag register advances (R393), and a failed fetch no longer rejects the descriptor
(R149). -/
def State.tagged (s : State) (c : Issuing) : State :=
  (s.markIssued c.p).tagStep ⟨(s.siteOf c.tile).ix, c.e.num, c.word.toNat % 256, c.pc, c.d.f.job.toNat, c.d.id⟩

/-- Put an issued instruction on the scoreboard and go on. -/
def State.launch (s : State) (c : Issuing) (reads writes : List Nat) (ctx : Option Nat) : State :=
  ((s.tagged c).modTile c.ix fun t => { t with flights := t.flights ++ [⟨c.e, c.pc, c.word, reads, writes, ctx⟩] }).advance c

/-- The order of R176 for an instruction with scoreboard resources: decode checks, slot and scoreboard, issue checks,
then its effect. -/
def State.dispatchOp (s : State) (c : Issuing) (decode : Option Nat) (reads writes : List Nat) (issue : Option Nat)
    (effect : State → State) : State :=
  match decode with
  | some r => s.skip c r
  | none =>
    let t := s.tile c.ix
    if t.slotsFull c.e then s.holdAt c (.issue resSlot)
    else match t.blocked none reads writes with
      | some r => s.holdAt c (.issue r)
      | none => match issue with
        | some r => s.skip c r
        | none => effect (s.launch c reads writes none)

/-- A control instruction: decode checks, a slot, then its effect. -/
def State.controlOp (s : State) (c : Issuing) (decode : Option Nat) (effect : State → State) : State :=
  match decode with
  | some r => s.skip c r
  | none => if (s.tile c.ix).slotsFull c.e then s.holdAt c (.issue resSlot) else effect (s.tagged c)

/-- The first of a list of checks that fails. -/
def firstFail : List (Bool × Nat) → Option Nat
  | [] => none
  | (ok, r) :: l => if ok then firstFail l else some r

/-! ## Semaphores and waits (R157 to R159) -/

def TileSt.sem (t : TileSt) (n : Nat) : Nat := (Table.get 0 t.sems n).toNat
def TileSt.setSem (t : TileSt) (n v : Nat) : TileSt := { t with sems := Table.set 0 t.sems n (BitVec.ofNat 16 v) }

/-- Add to a semaphore; past 65,535 it saturates and taints the descriptor that owns the tile (R158). -/
def State.semAdd (s : State) (ix n inc : Nat) : State :=
  let v := (s.tile ix).sem n + inc
  let s := s.modTile ix fun t => t.setSem n (min v 65535)
  if 65535 < v then s.taint (tileOfIx ix) 5 0xFFFFFF rsSemSat 0 else s

/-- A WAIT that is satisfied. -/
def TileSt.waitOk (t : TileSt) (sem count : Nat) : Bool := count == 0 || decide (count ≤ t.sem sem)

/-- Release an engine whose WAIT is satisfied (R157, R159). -/
def TileSt.releaseWait (t : TileSt) (e : Engine) : TileSt :=
  match (t.engine e).hold with
  | .wait sem count consume _ =>
    if t.waitOk sem count then
      let t := if consume then t.setSem sem (t.sem sem - count) else t
      t.setEngine e (t.engine e).advance
    else t
  | _ => t

/-- Test the waiting engines of a tile in their order (R159). -/
def TileSt.releaseWaits (t : TileSt) : TileSt := engines.foldl TileSt.releaseWait t

/-! ## Memory of a tile under an upset (R96) -/

/-- Corrected errors are counted; a double-bit or parity error ends the descriptor and sends the site to quarantine
(R96, R270). True when the access may take effect. -/
def State.upset (s : State) (tile : TileId) (d : Option Desc) (u : Upset) : Bool × State :=
  let i := (s.siteOf tile).ix
  let s := u.corrected.foldl (fun s e => s.rowCorrected i e.1 e.2) s
  if u.doubleBit || u.parity then
    let s := match d with
      | some d => s.latchFault d.id stMemory
      | none => s
    (false, s.quarantineTile tile 1 ((d.map fun d => d.f.job.toNat).getD 0))
  else (true, s)

/-- The running descriptor of a tile's Pack. -/
def State.owner (s : State) (tile : TileId) : Option Desc :=
  match s.packOf tile with
  | some p => s.running p
  | none => none

/-- An access to a tile's memory that an upset may prevent. -/
def State.tileUnder (s : State) (tile : TileId) (u : Upset) (effect : State → State) : State :=
  match s.upset tile (s.owner tile) u with
  | (true, s) => effect s
  | (false, s) => s

/-- An effect that an upset may prevent. -/
def State.underUpset (s : State) (c : Issuing) (u : Upset) (effect : State → State) : State :=
  match s.upset c.tile (some c.d) u with
  | (true, s) => effect s
  | (false, s) => s

/-- A control instruction whose queue entry or semaphore may have a parity error (R96). -/
def State.controlUnder (s : State) (c : Issuing) (u : Upset) (decode : Option Nat) (effect : State → State) : State :=
  s.controlOp c decode fun s => s.underUpset c u effect

end Sys2Proof.Machine
end

