-- ==== Sys2Proof/Machine/Spans.lean ====
section
/-! DEFINITION. Operands as sets of bytes of a tile's memories: their bounds, overlap, the in-place exception, and their
scoreboard resources (R176 check 6, R434, R154). -/
namespace Sys2Proof.Machine
open Sys2Proof

/-- A memory of the tile that operands name. -/
inductive Side where
  | store | x | y
  deriving DecidableEq, Repr

/-- TMEM (R234): 0 store, 1 X, 2 Y. -/
def sideOf : Nat → Side
  | 1 => .x
  | 2 => .y
  | _ => .store

/-- MEM (R177): 0 X, 1 Y, 2 tile store. -/
def memSide : Nat → Side
  | 0 => .x
  | 1 => .y
  | _ => .store

/-- Bytes of a memory (R95). -/
def Side.size : Side → Nat
  | .store => 1048576
  | .x => 32768
  | .y => 32768

/-- An operand: `rows` rows of `len` bytes, `stride` bytes apart, of elements of `bits` bits, in a format of R122 where
it has one. -/
structure Opnd where
  side : Side := .store
  base : Nat
  stride : Nat := 0
  len : Nat
  rows : Nat := 1
  bits : Nat := 8
  fmt : Option Nat := none
  deriving DecidableEq, Repr

/-- One row. -/
def Opnd.flat (side : Side) (base len bits : Nat) : Opnd := { side := side, base := base, len := len, bits := bits }

/-- The operand lies within its memory. -/
def Opnd.inside (o : Opnd) : Bool :=
  o.rows == 0 || o.len == 0 || decide (o.base + (o.rows - 1) * o.stride + o.len ≤ o.side.size)

def spansMeet (a m b n : Nat) : Bool := decide (a < b + n) && decide (b < a + m) && m != 0 && n != 0

/-- Two operands share a byte. -/
def Opnd.meets (o q : Opnd) : Bool :=
  o.side == q.side && (List.range o.rows).any fun i => (List.range q.rows).any fun j =>
    spansMeet (o.base + i * o.stride) o.len (q.base + j * q.stride) q.len

/-- An operation in place (R434): the same bytes, elements and row layout, in the same format. -/
def Opnd.inPlace (o q : Opnd) : Bool :=
  o.side == q.side && o.base == q.base && o.len == q.len && o.bits == q.bits && o.fmt == q.fmt && o.rows == q.rows &&
    (o.stride == q.stride || decide (o.rows ≤ 1))

/-- Check 6 of R176: every operand inside its memory, and the destinations apart from every source or in place. -/
def operandsOk (srcs dsts : List Opnd) : Bool :=
  (srcs ++ dsts).all Opnd.inside && dsts.all fun d => srcs.all fun q => !d.meets q || d.inPlace q

/-- Scoreboard resources of an operand. -/
def Opnd.res (o : Opnd) : List Nat :=
  if o.rows = 0 ∨ o.len = 0 then []
  else match o.side with
    | .x => [resX]
    | .y => [resY]
    | .store => rowRegions o.base o.stride o.len o.rows

def resOf (l : List Opnd) : List Nat := dedup (l.flatMap Opnd.res)

/-! ## Reading and writing -/

def TileMems.side (m : TileMems) : Side → Memory
  | .store => m.store
  | .x => m.x
  | .y => m.y

def TileMems.setSide (m : TileMems) (k : Side) (v : Memory) : TileMems :=
  match k with
  | .store => { m with store := v }
  | .x => { m with x := v }
  | .y => { m with y := v }

def TileSt.read (t : TileSt) (k : Side) (a n : Nat) : List Byte := (t.mem.side k).readBytes a n
def TileSt.readN (t : TileSt) (k : Side) (a n : Nat) : Nat := (t.mem.side k).readLE a n
def TileSt.write (t : TileSt) (k : Side) (a : Nat) (b : List Byte) : TileSt :=
  { t with mem := t.mem.setSide k ((t.mem.side k).writeBytes a b) }
def TileSt.writeN (t : TileSt) (k : Side) (a n x : Nat) : TileSt := t.write k a (leBytes n x)

/-- Element `i` of a packed array of `bits`-bit elements: 4-bit elements sit two to a byte, the lower first (R121). -/
def TileSt.elem (t : TileSt) (k : Side) (a bits i : Nat) : Nat :=
  if bits = 4 then Machine.bits (t.readN k (a + i / 2) 1) (4 * (i % 2)) 4 else t.readN k (a + i * (bits / 8)) (bits / 8)

/-- Pack element codes into bytes; an odd 4-bit element leaves the upper half zero. -/
def packElems (bits : Nat) : List Nat → List Byte
  | [] => []
  | [x] => if bits = 4 then [BitVec.ofNat 8 (x % 16)] else leBytes (bits / 8) x
  | x :: y :: l =>
    if bits = 4 then BitVec.ofNat 8 (x % 16 + 16 * (y % 16)) :: packElems bits l
    else leBytes (bits / 8) x ++ packElems bits (y :: l)

end Sys2Proof.Machine
end

