-- ==== Sys2Proof/Machine/Dsp.lean ====
section
/-! DEFINITION. The DSP engine (R191 to R195, R226 to R232): fixed-point words, the block exponent, the radix-4 butterfly, and
the conversions into and out of SP form (R227). -/
namespace Sys2Proof.Machine
open Sys2Proof

/-! ## Words -/

def spTop : Int := 2 ^ 31 - 1
def spBottom : Int := -2 ^ 31

/-- Right shift with rounding to nearest, ties to even (R191). -/
def rneShift (x : Int) (n : Nat) : Int :=
  let k := x / 2 ^ n
  let r := x % 2 ^ n
  if 2 ^ n < 2 * r ∨ (2 * r = 2 ^ n ∧ k % 2 = 1) then k + 1 else k

/-- Saturate to a word; true when it saturates. -/
def spSat (x : Int) : Int × Bool :=
  if spTop < x then (spTop, true) else if x < spBottom then (spBottom, true) else (x, false)

/-- Redundant sign bits of a word; 31 for zero (R191). -/
def headroom (x : Int) : Nat :=
  if x = 0 then 31
  else
    let m := if x < 0 then (-x - 1).toNat else x.toNat
    if m = 0 then 31 else 30 - Nat.log2 m

/-- Least headroom of a list; 31 when it is empty. -/
def leastHead (l : List Int) : Nat := l.foldl (fun h x => min h (headroom x)) 31

def TileSt.spWord (t : TileSt) (k : Side) (a : Nat) : Int := Machine.signed 32 (t.readN k a 4)
def TileSt.setSpWord (t : TileSt) (k : Side) (a : Nat) (x : Int) : TileSt := t.writeN k a 4 (unsigned 32 x)

/-- Words from byte address `a`. -/
def TileSt.spWords (t : TileSt) (k : Side) (a n : Nat) : List Int := (List.range n).map fun i => t.spWord k (a + 4 * i)

def TileSt.setSpWords (t : TileSt) (k : Side) (a : Nat) (l : List Int) : TileSt :=
  t.write k a (l.flatMap fun x => leBytes 4 (unsigned 32 x))

/-- A complex value. -/
structure Cx where
  re : Int
  im : Int
  deriving DecidableEq, Repr

def Cx.add (x y : Cx) : Cx := ⟨x.re + y.re, x.im + y.im⟩
def Cx.sub (x y : Cx) : Cx := ⟨x.re - y.re, x.im - y.im⟩
def Cx.mul (x y : Cx) : Cx := ⟨x.re * y.re - x.im * y.im, x.re * y.im + x.im * y.re⟩
def Cx.conj (x : Cx) : Cx := ⟨x.re, -x.im⟩
/-- Multiplication by i. -/
def Cx.rot (x : Cx) : Cx := ⟨-x.im, x.re⟩

def TileSt.cx (t : TileSt) (k : Side) (a : Nat) : Cx := ⟨t.spWord k a, t.spWord k (a + 4)⟩

/-- Shift right by `n` with rounding, and saturate. -/
def Cx.narrow (x : Cx) (n : Nat) : Cx × Bool :=
  let a := spSat (rneShift x.re n)
  let b := spSat (rneShift x.im n)
  (⟨a.1, b.1⟩, a.2 || b.2)

/-! ## Twiddles (R193) -/

/-- π in units of 2^-128. -/
def pi128 : Nat := 0x3243F6A8885A308D313198A2E03707344

/-- One step of a power series: the next term of x^n / n! with alternating signs, `n` and `n + 1` the new factors. -/
def trigTerm (x2 t n : Nat) : Nat := t * x2 / 2 ^ 128 / (n * (n + 1))

/-- Alternating sum from a term on, in units of 2^-128. -/
def trigSum (x2 : Nat) : Nat → Nat → Nat → Int
  | 0, _, _ => 0
  | fuel + 1, t, n => (t : Int) - trigSum x2 fuel (trigTerm x2 t n) (n + 2)

/-- Cosine and sine, in units of 2^-128, of an angle up to π / 4 given in units of 2^-128. -/
def cosSmall (x : Nat) : Int := trigSum (x * x / 2 ^ 128) 24 (2 ^ 128) 1
def sinSmall (x : Nat) : Int := trigSum (x * x / 2 ^ 128) 24 x 2

/-- Cosine of 2πe ÷ 65,536 for e up to 16,384, a quarter turn. -/
def cosQuarter (e : Nat) : Int :=
  if e ≤ 8192 then cosSmall (pi128 * e / 32768) else sinSmall (pi128 * (16384 - e) / 32768)

/-- Cosine of 2πe ÷ 65,536. -/
def cosTurn (e : Nat) : Int :=
  let e := e % 65536
  if e ≤ 16384 then cosQuarter e
  else if e ≤ 32768 then -cosQuarter (32768 - e)
  else if e ≤ 49152 then -cosQuarter (e - 32768)
  else cosQuarter (65536 - e)

/-- A twiddle part: rounded to Q1.31, with +1 held at 0x7FFFFFFF. -/
def twiddlePart (x : Int) : Int := min spTop (rneShift x 97)

/-- exp(∓2πi e ÷ 65,536), the minus sign for INV 0. The part is that of W itself: a part of −1 is held exactly (DEDUCED,
log entry 124). -/
def twiddle (inv : Bool) (e : Nat) : Cx :=
  let s := cosTurn (e + 49152)
  ⟨twiddlePart (cosTurn e), twiddlePart (if inv then s else -s)⟩

/-- One output of a butterfly: q of R193. -/
def butterfly (inv : Bool) (a0 a1 a2 a3 : Cx) (q : Nat) : Cx :=
  let r (x : Cx) : Cx := if inv then (⟨0, 0⟩ : Cx).sub x.rot else x.rot
  match q with
  | 0 => ((a0.add a1).add a2).add a3
  | 1 => ((a0.sub (r a1)).sub a2).add (r a3)
  | 2 => ((a0.sub a1).add a2).sub a3
  | _ => ((a0.add (r a1)).sub a2).sub (r a3)

/-- Output `i` of a stage over the points that `a` reads (R193). -/
def fftPoint (f : Fft) (a : Nat → Cx) (i : Nat) : Cx × Bool :=
  let n := 4 ^ f.log4n.toNat
  let g := n / 4 ^ f.stage.toNat
  let h := g / 4
  let base := i / g * g
  let j := i % g % h
  let q := i % g / h
  let y := butterfly f.inv (a (base + j)) (a (base + j + h)) (a (base + j + 2 * h)) (a (base + j + 3 * h)) q
  if q * j = 0 then y.narrow f.shift.toNat
  else (y.mul (twiddle f.inv (q * j * (65536 / g)))).narrow (31 + f.shift.toNat)

/-- SPFFT4's outputs: LOG4N 0 copies one point, unshifted. -/
def fftStage (f : Fft) (a : Nat → Cx) : List (Cx × Bool) :=
  if f.log4n = 0 then [(a 0, false)]
  else (List.range (4 ^ f.log4n.toNat)).map (fftPoint f a)

/-! ## Instructions -/

/-- Set HEAD, and OVERFLOW when a word saturated. -/
def State.spDone (s : State) (c : Issuing) (outs : List Int) (ovf : Bool) : State :=
  (s.modTile c.ix fun t => { t with head := leastHead outs }).numEvents c.ix c.p c.pc c.d { ovf := ovf }

def cxWords (l : List (Cx × Bool)) : List Int := l.flatMap fun x => [x.1.re, x.1.im]

/-- SPFFT4 (R193). -/
def State.spfft4 (s : State) (c : Issuing) (u : Upset) (f : Fft) : State :=
  let n := 4 ^ f.log4n.toNat
  let src := Opnd.flat .store (f.src.toNat * 64) (8 * n) 64
  let dst := Opnd.flat .store (f.dst.toNat * 64) (8 * n) 64
  let bad := firstFail [
    (decide (f.log4n.toNat ≤ 8) && f.shift != 3 && (decide (f.stage < f.log4n) || (f.log4n == 0 && f.stage == 0)), rsReserved),
    (operandsOk [src] [dst], rsAddress)]
  s.dispatchOp c bad (resOf [src]) (resOf [dst]) none fun s => s.underUpset c u fun s =>
    let t := s.tile c.ix
    let out := fftStage f fun i => t.cx .store (src.base + 8 * i)
    let s := s.modTile c.ix fun t =>
      { t.setSpWords .store dst.base (cxWords out) with be := t.be + BitVec.ofNat 16 f.shift.toNat }
    s.spDone c (cxWords out) (out.any Prod.snd)

/-- A list of `n` complex products of SPMAC (R194). -/
def TileSt.macTerms (t : TileSt) (f : Mac) : List Cx :=
  (List.range f.n.toNat).map fun k =>
    let x := t.cx .x (4 * f.xa.toNat + 8 * k)
    let y := t.cx .y (4 * f.ya.toNat + 8 * k)
    x.mul (if f.conj then y.conj else y)

/-- SPMAC (R194). -/
def State.spmac (s : State) (c : Issuing) (u : Upset) (f : Mac) : State :=
  let n := f.n.toNat
  let x := Opnd.flat .x (4 * f.xa.toNat) (8 * n) 64
  let y := Opnd.flat .y (4 * f.ya.toNat) (8 * n) 64
  let dst := Opnd.flat (if f.dmem then .y else .x) (4 * f.da.toNat) (if f.elem then 8 * n else 8) 64
  let even (a : BitVec 13) : Bool := !a.getLsbD 0
  let bad := firstFail [
    (decide (n ≤ 4096), rsReserved),
    (even f.xa && even f.ya && even f.da && operandsOk [x, y] [dst], rsAddress)]
  s.dispatchOp c bad (resOf [x, y]) (resOf [dst]) none fun s => s.underUpset c u fun s =>
    let terms := (s.tile c.ix).macTerms f
    let out := (if f.elem then terms else [terms.foldl Cx.add ⟨0, 0⟩]).map fun z => z.narrow (31 + f.shift.toNat)
    let s := s.modTile c.ix fun t => t.setSpWords dst.side dst.base (cxWords out)
    s.spDone c (cxWords out) (out.any Prod.snd)

/-- The memory of a block field, and its byte address (R177). -/
def spAddr (mem : BitVec 2) (addr : BitVec 14) : Nat := if mem = 2 then 64 * addr.toNat else 4 * addr.toNat

/-- MEM is not reserved, and a word index has bit 13 clear. -/
def spFieldOk (mem : BitVec 2) (addr : BitVec 14) : Bool := mem != 3 && (mem == 2 || !addr.getLsbD 13)

def Blk.opnd (f : Blk) : Opnd := Opnd.flat (memSide f.mem.toNat) (spAddr f.mem f.addr) (4 * f.n.toNat) 32

/-- SPBEXP (R195). -/
def State.spbexp (s : State) (c : Issuing) (u : Upset) (f : Blk) : State :=
  let src := f.opnd
  let bad := firstFail [(spFieldOk f.mem f.addr, rsReserved), (operandsOk [src] [], rsAddress)]
  s.dispatchOp c bad (resOf [src]) [] none fun s => s.underUpset c u fun s =>
    s.modTile c.ix fun t => { t with head := leastHead (t.spWords src.side src.base f.n.toNat) }

/-- Shift a word by an amount: left with saturation, or right with rounding (R195). -/
def spShift (amount : Int) (x : Int) : Int × Bool :=
  if 0 ≤ amount then spSat (x * 2 ^ amount.toNat) else spSat (rneShift x (-amount).toNat)

/-- SPNORM (R195, R228). -/
def State.spnorm (s : State) (c : Issuing) (u : Upset) (f : Blk) (amt : BitVec 6) (useHead : Bool) : State :=
  let src := f.opnd
  let bad := firstFail [
    (spFieldOk f.mem f.addr && amt != 0x20 && (!useHead || amt == 0), rsReserved),
    (operandsOk [src] [src], rsAddress)]
  s.dispatchOp c bad (resOf [src]) (resOf [src]) none fun s => s.underUpset c u fun s =>
    let t := s.tile c.ix
    let amount : Int := if useHead then t.head else Machine.signed 6 amt.toNat
    let out := (t.spWords src.side src.base f.n.toNat).map (spShift amount)
    let s := s.modTile c.ix fun t =>
      { t.setSpWords src.side src.base (out.map Prod.fst) with be := t.be - BitVec.ofInt 16 amount }
    s.spDone c (out.map Prod.fst) (out.any Prod.snd)

/-- SPEXP (R195). -/
def State.spexp (s : State) (c : Issuing) (u : Upset) (f : Blk) (dmem : BitVec 2) (daddr : BitVec 14) (beout : Bool) : State :=
  let src := f.opnd
  let n := if beout then 1 else f.n.toNat
  let dst := Opnd.flat (memSide dmem.toNat) (spAddr dmem daddr) (4 * n) 32
  let bad := firstFail [
    (spFieldOk f.mem f.addr && spFieldOk dmem daddr && (!beout || f.n == 0), rsReserved),
    (operandsOk [src] [dst], rsAddress)]
  s.dispatchOp c bad (resOf [src]) (resOf [dst]) none fun s => s.underUpset c u fun s =>
    s.modTile c.ix fun t =>
      let out := if beout then [t.be.toInt] else (t.spWords src.side src.base f.n.toNat).map fun x => (headroom x : Int)
      t.setSpWords dst.side dst.base out

/-- SPFFT4 (R193). -/
def execSpfft4 (tile : TileId) (e : Engine) (u : Upset) (s : State) : Result :=
  .next <| s.issueOp tile e 0x60 fun c i s => match i with
    | .spfft4 f => s.spfft4 c u f
    | _ => s

/-- SPMAC (R194). -/
def execSpmac (tile : TileId) (e : Engine) (u : Upset) (s : State) : Result :=
  .next <| s.issueOp tile e 0x61 fun c i s => match i with
    | .spmac f => s.spmac c u f
    | _ => s

/-- SPBEXP (R195). -/
def execSpbexp (tile : TileId) (e : Engine) (u : Upset) (s : State) : Result :=
  .next <| s.issueOp tile e 0x62 fun c i s => match i with
    | .spbexp f => s.spbexp c u f
    | _ => s

/-- SPNORM (R195). -/
def execSpnorm (tile : TileId) (e : Engine) (u : Upset) (s : State) : Result :=
  .next <| s.issueOp tile e 0x63 fun c i s => match i with
    | .spnorm f amt h => s.spnorm c u f amt h
    | _ => s

/-- SPEXP (R195). -/
def execSpexp (tile : TileId) (e : Engine) (u : Upset) (s : State) : Result :=
  .next <| s.issueOp tile e 0x64 fun c i s => match i with
    | .spexp f dmem daddr beout => s.spexp c u f dmem daddr beout
    | _ => s

/-! ## Conversion into and out of SP form (R227) -/

/-- One element into SP form. -/
def intoSp (r : Round) (e : Int) (x : Num) : Flagged :=
  convertInt 32 r (x.mul (.fin false 1 (31 - e)))

/-- A word out of SP form. -/
def outOfSp (f : Fmt) (r : Round) (ieee : Bool) (e w : Int) : Flagged :=
  f.convert r ieee (Num.ofInt w (e - 31))

end Sys2Proof.Machine
end

