-- ==== Sys2Proof/Machine/Vector.lean ====
section
/-! DEFINITION. The vector engine (R123, R134, R135, R137 to R141, R186 to R190, R433). -/
namespace Sys2Proof.Machine
open Sys2Proof

/-! ## Rounding of an instruction -/

/-- NUM_CVT_CTRL (R146). -/
def State.numCtl (s : State) (ix : Nat) : NumCtl := numCtlOf (s.latched ix).cvt.toNat

/-- A rounding mode before its draws. -/
inductive RndMode where
  | rne | rtz | sr
  deriving DecidableEq, Repr

/-- RND of an instruction, with the default of NUM_CVT_CTRL (R137). Where SR is not accepted, a default of SR rounds
RNE. -/
def NumCtl.rnd (c : NumCtl) (rnd : Nat) (srOk : Bool) : RndMode :=
  let r := if rnd = 0 then c.defRnd else rnd
  if r = 2 then .rtz else if r = 3 && srOk then .sr else .rne

/-- Round one element, taking a draw in SR mode (R139, R140). -/
def RndMode.draw (m : RndMode) (g : DWord) : Round × DWord :=
  match m with
  | .rne => (.rne, g)
  | .rtz => (.rtz, g)
  | .sr => let g := genStep g; (.sr (genBits g), g)

/-- Elements rounded so far: their codes newest first, the generator, and the events. -/
structure Rounded where
  codes : List Nat := []
  gen : DWord
  ev : NumEv := {}
  deriving DecidableEq, Repr

/-- What a conversion raises: the flags of R141, and INVALID with a NaN event where it makes a NaN of a value that is
none (R142, R144, R210; log entry 124). -/
def Fmt.convertEv (f : Fmt) (x : Num) (c : Flagged) (pos : NanPos) : NumEv :=
  c.ev.andThen (invalidAt (madeNan [x] (f.decode c.code)) pos)

/-- Round a value into a format and append it; `pos` is the place of an event of the conversion. -/
def Rounded.push (r : Rounded) (f : Fmt) (m : RndMode) (ieee : Bool) (x : Num) (ev : NumEv) (pos : NanPos) : Rounded :=
  let (rd, g) := m.draw r.gen
  let c := f.convert rd ieee x
  ⟨c.code :: r.codes, g, (r.ev.andThen ev).andThen (f.convertEv x c pos)⟩

/-- FP32 rounding of an intermediate step: RNE, with IEEE overflow (R123, R433). -/
def fp32Step (x : Num) : Num × NumEv :=
  let c := fp32.convert .rne true x
  (fp32.decode c.code, { ovf := c.ovf })

/-! ## Elementwise instructions (R186, R187) -/

/-- Position of element `i` (R146). -/
def elemPos (side i : Nat) : NanPos := ⟨1, side, i / 64, i % 64, 0⟩

/-- Value of a source element; an ACC128 element is valued by R126. -/
def TileSt.source (t : TileSt) (f : Fmt) (a i : Nat) : Num :=
  let x := t.elem .store a f.bits i
  match f with
  | .acc => entryNum (BitVec.ofNat 128 x)
  | _ => f.decode x

/-- The four words and coefficients of a table in a table memory (R188). -/
def tableNum (m : Memory) (base o : Nat) : Num := fp32.decode (m.readLE (base + o) 4)

/-- Floor of a value that is not negative. -/
def Num.floorNat (x : Num) : Nat := (x.units 0).toNat

/-- The evaluation of a table, each operation rounded by `rnd` (R188, R210, R433). -/
def vtabBy (rnd : Num → Num × NumEv) (m : Memory) (table : Nat) (x : Num) (pos : NanPos) : Num × NumEv :=
  let b := 4096 * table
  let x0 := tableNum m b 0
  let scale := tableNum m b 4
  let segs := m.readLE (b + 16) 2
  let step (args : List Num) (y : Num) : Num × NumEv :=
    let (z, ev) := rnd y
    (z, ev.andThen (invalidAt (madeNan args y) pos))
  if x.isNan then (.nan, {})
  else
    let (d, e1) := step [x, x0] (x.sub x0)
    let (u, e2) := step [d, scale] (d.mul scale)
    let ev := e1.andThen e2
    if u.isNan then (.nan, ev)
    else if u.lt (.zero false) then (tableNum m b 8, ev)
    else if !(u.lt (Num.ofInt segs 0)) then (tableNum m b 12, ev)
    else
      let i := u.floorNat
      let t := u.sub (Num.ofInt i 0)
      let c (k : Nat) := tableNum m b (32 + 16 * i + 4 * k)
      let (y2, f1) := step [c 3, t, c 2] (((c 3).mul t).add (c 2))
      let (y1, f2) := step [y2, t, c 1] ((y2.mul t).add (c 1))
      let (y0, f3) := step [y1, t, c 0] ((y1.mul t).add (c 0))
      (y0, ((ev.andThen f1).andThen f2).andThen f3)

/-- VTAB's evaluation in FP32. -/
def vtabEval (m : Memory) (table : Nat) (x : Num) (pos : NanPos) : Num × NumEv := vtabBy fp32Step m table x pos

/-- The exact result of one element and its events. -/
def elemValue (op : ElemOp) (nl : Memory) (table : Nat) (a b c : Num) (i : Nat) : Num × NumEv :=
  let inv (args : List Num) (r : Num) : Num × NumEv := (r, invalidAt (madeNan args r) (elemPos 4 i))
  match op with
  | .vadd => inv [a, b] (a.add b)
  | .vmul => inv [a, b] (a.mul b)
  | .vfma => inv [a, b, c] ((a.mul b).add c)
  | .vmax => (a.max b, {})
  | .vmin => (a.min b, {})
  | .vcvt => (a, {})
  | .vtab => vtabEval nl table a (elemPos 4 i)

/-- The instruction has a second source. -/
def ElemOp.two : ElemOp → Bool
  | .vtab => false
  | .vcvt => false
  | _ => true

/-- Fields hold values that their tables allow, and unused fields are zero (R122, R137, R141, R186). -/
def elemFieldsOk (op : ElemOp) (f : Elem) : Bool :=
  let plain (x : BitVec 4) : Bool := decide (x.toNat < 8)
  plain f.fmtD && (plain f.fmt1 || (op == .vcvt && f.fmt1 == 8)) &&
    (if op.two then plain f.fmt2 else f.src2 == 0 && f.fmt2 == 0 && !f.bc2) &&
    (if op == .vfma then plain f.fmt3 else f.src3 == 0 && f.fmt3 == 0 && !f.bc3) &&
    (op == .vtab || f.table == 0) && f.ovf != 3 &&
    (f.rnd != 3 || (op == .vcvt && f.fmtD != 0))

/-- A source operand: one element under broadcast. -/
def elemOpnd (addr : BitVec 14) (fmt : BitVec 4) (n : Nat) (bc : Bool) : Opnd :=
  let b := ((fmtOf fmt.toNat).getD .fp32).bits
  let k := if bc then min n 1 else n
  { Opnd.flat .store (64 * addr.toNat) (ceilDiv (k * b) 8) b with fmt := some fmt.toNat }

/-- VADD, VMUL, VFMA, VMAX, VMIN, VTAB and VCVT. -/
def State.velem (s : State) (c : Issuing) (u : Upset) (op : ElemOp) (f : Elem) : State :=
  let n := f.n.toNat
  let srcs := elemOpnd f.src1 f.fmt1 n false ::
    ((if op.two then [elemOpnd f.src2 f.fmt2 n f.bc2] else []) ++ (if op == .vfma then [elemOpnd f.src3 f.fmt3 n f.bc3] else []))
  let dst := elemOpnd f.dst f.fmtD n false
  let bad := firstFail [(elemFieldsOk op f, rsReserved), (operandsOk srcs [dst], rsAddress)]
  s.dispatchOp c bad (resOf srcs) (resOf [dst]) none fun s => s.underUpset c u fun s =>
    let t := s.tile c.ix
    let fd := (fmtOf f.fmtD.toNat).getD .fp32
    let ctl := s.numCtl c.ix
    let mode := ctl.rnd f.rnd.toNat (op == .vcvt && fd != .fp32)
    let ieee := ctl.ieee f.ovf.toNat fd
    let src (addr : BitVec 14) (fmt : BitVec 4) (bc : Bool) (i : Nat) : Num :=
      t.source ((fmtOf fmt.toNat).getD .fp32) (64 * addr.toNat) (if bc then 0 else i)
    let r := (List.range n).foldl (fun (r : Rounded) i =>
      let a := src f.src1 f.fmt1 false i
      let b := if op.two then src f.src2 f.fmt2 f.bc2 i else .zero false
      let d := if op == .vfma then src f.src3 f.fmt3 f.bc3 i else .zero false
      let ev := evsOf [nanIf a.isNan (elemPos 5 i), nanIf b.isNan (elemPos 6 i), nanIf d.isNan (elemPos 7 i)]
      let (y, ev') := elemValue op t.mem.nl f.table.toNat a b d i
      r.push fd mode ieee y (ev.andThen ev') (elemPos 4 i)) { gen := t.genVe }
    let s := s.modTile c.ix fun t =>
      { t.write .store (64 * f.dst.toNat) (packElems fd.bits r.codes.reverse) with genVe := r.gen }
    s.numEvents c.ix c.p c.pc c.d r.ev

/-! ## Reductions (R189) -/

/-- Levels of the tree over `n` elements. -/
def treeLevels (n : Nat) : Nat := if n ≤ 1 then 0 else Nat.log2 (n - 1) + 1

/-- A node of a tree: FP32, rounded RNE, with the events so far. -/
def addNode (pos : NanPos) (a b : Num × NumEv) : Num × NumEv :=
  let y := a.1.add b.1
  let (z, ev) := fp32Step y
  (z, ((a.2.andThen b.2).andThen ev).andThen (invalidAt (madeNan [a.1, b.1] y) pos))

/-- SUM over a list of FP32 values (R189). -/
def sumTree (pos : NanPos) (l : List Num) : Num × NumEv :=
  (treeE (addNode pos) (treeLevels l.length) (l.map fun x => some (x, {}))).getD (.zero false, {})

/-- SUMSQ: each element is squared to FP32 first. -/
def sumSquares (pos : NanPos) (l : List Num) : Num × NumEv :=
  (treeE (addNode pos) (treeLevels l.length) (l.map fun x => some (fp32Step (x.mul x)))).getD (.zero false, {})

def foldNum (f : Num → Num → Num) : List Num → Num
  | [] => .zero false
  | x :: l => l.foldl f x

/-- OP of VRED. -/
def reduce (op : Nat) (pos : NanPos) (l : List Num) : Num × NumEv :=
  match op with
  | 0 => sumTree pos l
  | 1 => (foldNum Num.max l, {})
  | 2 => (foldNum Num.min l, {})
  | _ => sumSquares pos l

/-- Byte length of a row rounded up to 64 bytes (R189). -/
def rowPitch (n bits : Nat) : Nat := ceilDiv (ceilDiv (n * bits) 8) 64 * 64

/-- NaN events of the elements of a source row (R144, R146). -/
def rowNans (r : Nat) (l : List Num) : NumEv :=
  evsOf ((List.zip (List.range l.length) l).map fun e => nanIf e.2.isNan ⟨1, 5, r, e.1 % 64, e.1 / 64⟩)

def Row.fd (f : Row) : Fmt := (fmtOf f.fmtD.toNat).getD .fp32
def Row.fs (f : Row) : Fmt := (fmtOf f.fmtS.toNat).getD .fp32

def rowFieldsOk (op : RowOp) (f : Row) : Bool :=
  decide (f.fmtD.toNat < 8) && decide (f.fmtS.toNat < 8) && decide (f.len.toNat ≤ 65536) && f.rnd != 3 && f.ovf != 3 &&
    (match op with
     | .vred => f.idx == 0 && f.k == 0
     | .vtopk => decide (f.k.toNat ≤ 4096) && decide (f.k.toNat ≤ f.len.toNat) && !f.op.getLsbD 1)

/-- Source rows. -/
def Row.srcOpnd (f : Row) : Opnd :=
  let b := f.fs.bits
  { base := 64 * f.src.toNat, stride := rowPitch f.len.toNat b, len := ceilDiv (f.len.toNat * b) 8, rows := f.rows.toNat, bits := b
    fmt := some f.fmtS.toNat }

def Row.row (f : Row) (t : TileSt) (r : Nat) : List Num :=
  let o := f.srcOpnd
  (List.range f.len.toNat).map fun i => t.source f.fs (o.base + r * o.stride) i

/-- VRED. -/
def State.vred (s : State) (c : Issuing) (u : Upset) (f : Row) : State :=
  let src := f.srcOpnd
  let dst := { Opnd.flat .store (64 * f.dst.toNat) (ceilDiv (f.rows.toNat * f.fd.bits) 8) f.fd.bits with fmt := some f.fmtD.toNat }
  let bad := firstFail [(rowFieldsOk .vred f, rsReserved), (operandsOk [src] [dst], rsAddress)]
  s.dispatchOp c bad (resOf [src]) (resOf [dst]) none fun s => s.underUpset c u fun s =>
    let t := s.tile c.ix
    let ctl := s.numCtl c.ix
    let r := (List.range f.rows.toNat).foldl (fun (r : Rounded) i =>
      let l := f.row t i
      let (y, ev) := reduce f.op.toNat ⟨1, 4, i, 0, 0⟩ l
      r.push f.fd (ctl.rnd f.rnd.toNat false) (ctl.ieee f.ovf.toNat f.fd) y ((rowNans i l).andThen ev) ⟨1, 4, i, 0, 0⟩) { gen := t.genVe }
    let s := s.modTile c.ix fun t => t.write .store dst.base (packElems f.fd.bits r.codes.reverse)
    s.numEvents c.ix c.p c.pc c.d r.ev

/-! ## Selection (R135, R189, R190) -/

/-- Put an element in its place in an order `lt`, after those that equal it. -/
def insertNum (lt : Num → Num → Bool) (x : Num × Nat) : List (Num × Nat) → List (Num × Nat)
  | [] => [x]
  | y :: l => if lt x.1 y.1 then x :: y :: l else y :: insertNum lt x l

/-- Elements with their indices, sorted; equal values by ascending index. -/
def sortNums (lt : Num → Num → Bool) (l : List Num) : List (Num × Nat) :=
  (List.zip l (List.range l.length)).foldl (fun acc x => insertNum lt x acc) []

def largestFirst (x y : Num) : Bool := y.before x

/-- VTOPK. -/
def State.vtopk (s : State) (c : Issuing) (u : Upset) (f : Row) : State :=
  let src := f.srcOpnd
  let k := f.k.toNat
  let rows := f.rows.toNat
  let b := f.fd.bits
  let dst : Opnd := { base := 64 * f.dst.toNat, stride := rowPitch k b, len := ceilDiv (k * b) 8, rows := rows, bits := b, fmt := some f.fmtD.toNat }
  let idx : Opnd := { base := 64 * f.idx.toNat, stride := rowPitch k 32, len := 4 * k, rows := rows, bits := 32 }
  let bad := firstFail [(rowFieldsOk .vtopk f, rsReserved), (operandsOk [src] [dst, idx], rsAddress)]
  s.dispatchOp c bad (resOf [src]) (resOf [dst, idx]) none fun s => s.underUpset c u fun s =>
    let t := s.tile c.ix
    let ctl := s.numCtl c.ix
    let one (acc : TileSt × NumEv) (i : Nat) : TileSt × NumEv :=
      let l := f.row t i
      let best := (sortNums (if f.op.getLsbD 0 then Num.before else largestFirst) l).take k
      let r := best.foldl (fun (r : Rounded) e =>
        r.push f.fd (ctl.rnd f.rnd.toNat false) (ctl.ieee f.ovf.toNat f.fd) e.1 {} ⟨1, 4, i, e.2 % 64, e.2 / 64⟩) { gen := t.genVe, ev := rowNans i l }
      let t' := acc.1.write .store (dst.base + i * dst.stride) (packElems b r.codes.reverse)
      (t'.write .store (idx.base + i * idx.stride) (best.flatMap fun e => leBytes 4 e.2), acc.2.andThen r.ev)
    let (t', ev) := (List.range rows).foldl one (t, {})
    (s.setTile c.ix t').numEvents c.ix c.p c.pc c.d ev

/-! ## VSAMPLE (R190) -/

/-- ln 2 in units of 2^-192. -/
def ln2 : Nat := 0xB17217F7D1CF79ABC9E3B39803F2F6AF40F343267298B62D

/-- Alternating series of exp(−r), in units of 2^-192. -/
def expSum (r : Nat) : Nat → Nat → Nat → Int
  | 0, _, _ => 0
  | fuel + 1, t, n => (t : Int) - expSum r fuel (t * r / 2 ^ 192 / n) (n + 1)

/-- exp of a value that is zero or negative, with a sticky last place, so that one rounding of it is correct. -/
def expNeg (q : Num) : Num :=
  match q with
  | .zero _ => .fin false 1 0
  | .fin _ m e =>
    let x := (Num.units (-192) (.fin false m e)).toNat
    if 300 * 2 ^ 192 < x then .fin false 1 (-400)
    else
      let n := x / ln2
      let v := (expSum (x % ln2) 64 (2 ^ 192) 1).toNat
      .fin false (2 * v + 1) (-193 - n)
  | .inf _ => .zero false
  | .nan => .nan

/-- Weight of a candidate. VSAMPLE sets no flag (R201). -/
def sampleWeight (m temp x : Num) : Num :=
  if x.isNan || x == .inf true then .zero false
  else if x.eq m then .fin false 1 0
  else if temp.isZero then .zero false
  else (fp32Step (expNeg (fp32Step ((fp32Step (x.sub m)).1.div temp)).1)).1

/-- Running sums of the weights, left to right. -/
def runningSums (acc : Num) : List Num → List Num
  | [] => []
  | w :: l =>
    let a := (fp32Step (acc.add w)).1
    a :: runningSums a l

/-- The candidate chosen: the first whose running sum exceeds `t`, else the last with a positive weight, else 0. -/
def samplePick (w : List Num) (u : Nat) : Nat :=
  let sums := runningSums (.zero false) w
  let total := (sums.getLast?).getD (.zero false)
  let t := (fp32Step ((Num.ofInt u (-24)).mul total)).1
  let ix := List.range w.length
  if total.isZero then 0
  else match (List.zip ix sums).find? fun e => t.lt e.2 with
    | some e => e.1
    | none => (((List.zip ix w).filter fun e => (Num.zero false).lt e.2).map Prod.fst).foldl max 0

def sampFieldsOk (f : Samp) : Bool :=
  let t := f.temp.toNat
  decide (f.fmt.toNat < 3) && decide (f.len.toNat ≤ 65536) &&
    (if f.ken then decide (f.k.toNat ≤ 4096) && decide (f.k.toNat ≤ f.len.toNat) else f.k == 0) && decide (t ≤ 0x7F7F)

/-- VSAMPLE. -/
def State.vsample (s : State) (c : Issuing) (u : Upset) (f : Samp) : State :=
  let fmt := (fmtOf f.fmt.toNat).getD .fp32
  let src := Opnd.flat .store (64 * f.src.toNat) (f.len.toNat * (fmt.bits / 8)) fmt.bits
  let n := if f.ken then f.k.toNat else f.len.toNat
  let dst := Opnd.flat .store (64 * f.dst.toNat) (if n = 0 then 0 else 4) 32
  let bad := firstFail [(sampFieldsOk f, rsReserved), (operandsOk [src] [dst], rsAddress)]
  s.dispatchOp c bad (resOf [src]) (resOf [dst]) none fun s => s.underUpset c u fun s =>
    let t := s.tile c.ix
    let logits := (List.range f.len.toNat).map fun i => t.source fmt src.base i
    let cand := (sortNums largestFirst logits).take n
    match cand with
    | [] => s.numEvents c.ix c.p c.pc c.d (rowNans 0 logits)
    | m :: _ =>
      let w := cand.map fun x => sampleWeight m.1 (bf16.decode f.temp.toNat) x.1
      let g := genStep t.genVe
      let j := samplePick w (genBits g)
      let index := (cand[j]?.map Prod.snd).getD 0
      let s := s.modTile c.ix fun t =>
        let t := { t.writeN .store dst.base 4 index with genVe := g }
        if f.stopEn && index == f.stop.toNat then t.setSem f.psem.toNat 0 else t
      s.numEvents c.ix c.p c.pc c.d (rowNans 0 logits)

/-! ## Commands -/

/-- Issue an elementwise instruction. -/
def State.issueElem (s : State) (tile : TileId) (e : Engine) (u : Upset) (op : ElemOp) : State :=
  s.issueOp tile e op.code fun c i s => match i with
    | .elem o f => s.velem c u o f
    | _ => s

/-- VADD (R187). -/
def execVadd (tile : TileId) (e : Engine) (u : Upset) (s : State) : Result := .next (s.issueElem tile e u .vadd)
/-- VMUL (R187). -/
def execVmul (tile : TileId) (e : Engine) (u : Upset) (s : State) : Result := .next (s.issueElem tile e u .vmul)
/-- VFMA (R187). -/
def execVfma (tile : TileId) (e : Engine) (u : Upset) (s : State) : Result := .next (s.issueElem tile e u .vfma)
/-- VMAX (R134, R187). -/
def execVmax (tile : TileId) (e : Engine) (u : Upset) (s : State) : Result := .next (s.issueElem tile e u .vmax)
/-- VMIN (R134, R187). -/
def execVmin (tile : TileId) (e : Engine) (u : Upset) (s : State) : Result := .next (s.issueElem tile e u .vmin)
/-- VTAB (R188, R433). -/
def execVtab (tile : TileId) (e : Engine) (u : Upset) (s : State) : Result := .next (s.issueElem tile e u .vtab)
/-- VCVT (R141, R187). -/
def execVcvt (tile : TileId) (e : Engine) (u : Upset) (s : State) : Result := .next (s.issueElem tile e u .vcvt)

/-- VRED (R189). -/
def execVred (tile : TileId) (e : Engine) (u : Upset) (s : State) : Result :=
  .next <| s.issueOp tile e 0x45 fun c i s => match i with
    | .row _ f => s.vred c u f
    | _ => s

/-- VTOPK (R189). -/
def execVtopk (tile : TileId) (e : Engine) (u : Upset) (s : State) : Result :=
  .next <| s.issueOp tile e 0x48 fun c i s => match i with
    | .row _ f => s.vtopk c u f
    | _ => s

/-- VSAMPLE (R190). -/
def execVsample (tile : TileId) (e : Engine) (u : Upset) (s : State) : Result :=
  .next <| s.issueOp tile e 0x49 fun c i s => match i with
    | .vsample f => s.vsample c u f
    | _ => s

end Sys2Proof.Machine
end

