-- ==== Sys2Proof/Machine/Array.lean ====
section
/-! DEFINITION. The matrix array: stationary sets, product rows, the check column, and running the rows of an MXRUN into
its slot (R99 to R111, R124 to R133, R144, R183, R184). -/
namespace Sys2Proof.Machine
open Sys2Proof

/-! ## Stationary sets (R101, R183) -/

/-- FP4 and INT4. -/
def fourBit (fmt : Nat) : Bool := fmt == 5 || fmt == 7

/-- Elements of a streamed row, and its bytes (R184, R204). -/
def rowElems (fmt : Nat) : Nat := if fourBit fmt then 128 else 64
def rowLen (fmt : Nat) : Nat := ((fmtOf fmt).getD .fp32).span (rowElems fmt)

/-- Bytes of a cell row. -/
def cellRowBytes (fmt : Nat) (half : Bool) : Nat := if half then 32 else rowLen fmt

/-- Cell rows that an MXLOAD reads. -/
def MxLoad.cellRows (f : MxLoad) : Nat :=
  if fourBit f.fmt.toNat && !f.half then ceilDiv f.krows.toNat 2 else f.krows.toNat

/-- The source of an MXLOAD. -/
def MxLoad.opnd (f : MxLoad) : Opnd :=
  { base := f.src.toNat * 64, stride := f.stride.toNat * 64, len := cellRowBytes f.fmt.toNat f.half, rows := f.cellRows }

/-- What cell (i, n) loads: its register, and whether that is a split zero (R131). -/
def TileSt.loadCell (t : TileSt) (f : MxLoad) (i n : Nat) : BitVec 16 × Bool :=
  let a := f.src.toNat * 64 + i * (f.stride.toNat * 64)
  let fmt := f.fmt.toNat
  if fmt = 0 then
    let s := splitFp32 (t.elem .store a 32 n)
    let v := if f.part = 1 then some s.1 else if f.part = 2 then s.2.1 else s.2.2
    match v with
    | some v => (BitVec.ofNat 16 (bf16.convert .rtz true v).code, false)
    | none => (0, true)
  else if fmt < 3 then (BitVec.ofNat 16 (t.elem .store a 16 n), false)
  else if f.half then (BitVec.ofNat 16 (t.elem .store a 4 n), false)
  else
    let b := t.elem .store a 8 n
    (BitVec.ofNat 16 (if fourBit fmt && f.krows.toNat == 2 * i + 1 then b % 16 else b), false)

/-- The 64 by 64 registers of a load, by i × 64 + n, and its split zeros. -/
def TileSt.loadCells (t : TileSt) (f : MxLoad) : Table (BitVec 16) × List Nat :=
  let l := (List.range f.cellRows).flatMap fun i => (List.range 64).map fun n => (i * 64 + n, t.loadCell f i n)
  ((l.filter fun e => e.2.1 != 0).map (fun e => (e.1, e.2.1)), (l.filter fun e => e.2.2).map Prod.fst)

/-- The stationary value at k-row k and column n; none for a split zero. -/
def StatSet.weight (w : StatSet) (k n : Nat) : Option Num :=
  let i := if fourBit w.fmt && !w.half then k / 2 else k
  let x := (Table.get 0 w.cells (i * 64 + n)).toNat
  if w.splitZeros.contains (i * 64 + n) then none
  else
    let f := if w.fmt = 0 then Fmt.bf16 else (fmtOf w.fmt).getD .fp32
    some (f.decode (if fourBit w.fmt then (if w.half then x % 16 else bits x (4 * (k % 2)) 4) else x % 2 ^ f.bits))

/-- The operand pair of R101 and R103; a set that records no load takes any (R184). -/
def pairOk (fmt mode : Nat) (w : StatSet) : Bool :=
  let e8 (x : Nat) : Bool := x == 3 || x == 4
  if fmt = 8 then false
  else if !w.loaded then true
  else if mode ≠ 0 then (e8 fmt && e8 w.fmt) || (fmt == 6 && w.fmt == 6)
  else if fourBit fmt then fmt == w.fmt && !w.half
  else if e8 fmt then e8 w.fmt || (w.fmt == 5 && w.half)
  else if fmt = 6 then w.fmt == 6 || (w.fmt == 7 && w.half)
  else fmt == w.fmt

/-- MAC with a 16-bit pair or an FP32 pass accumulates in FP32e; all else is exact (R124, R128). -/
def runsFe (fmt mode : Nat) : Bool := mode == 0 && decide (fmt < 3)

/-- Streamed parts that run against a stationary part, in their order (R132): 1 hi, 2 mid, 3 lo. -/
def passParts (pass part : Nat) : List Nat :=
  match pass, part with
  | 1, 1 => [1]
  | 2, 1 => [2, 1]
  | 2, 2 => [1]
  | 3, 1 => [3, 2, 1]
  | 3, 2 => [2, 1]
  | 3, 3 => [1]
  | _, _ => []

/-! ## Events of the array (R133, R142, R144) -/

/-- Flags and NaN events; the first by cycle, then row, column and k-row. -/
structure MxEv where
  ovf : Bool := false
  inv : Bool := false
  count : Nat := 0
  first : Option (Nat × NanPos) := none
  deriving DecidableEq, Repr

def nanBefore (a b : Nat × NanPos) : Bool :=
  if a.1 ≠ b.1 then decide (a.1 < b.1)
  else if a.2.row ≠ b.2.row then decide (a.2.row < b.2.row)
  else if a.2.col ≠ b.2.col then decide (a.2.col < b.2.col)
  else decide (a.2.k < b.2.k)

def MxEv.and (a b : MxEv) : MxEv :=
  { ovf := a.ovf || b.ovf, inv := a.inv || b.inv, count := a.count + b.count
    first := match a.first, b.first with
      | some x, some y => some (if nanBefore y x then y else x)
      | some x, none => some x
      | none, y => y }

/-- One NaN event. -/
def mxNan (cycle : Nat) (p : NanPos) : MxEv := { count := 1, first := some (cycle, p) }

/-- A NaN made from operands none of which is NaN. -/
def mxInvalid (b : Bool) (cycle : Nat) (p : NanPos) : MxEv :=
  if b then { inv := true, count := 1, first := some (cycle, { p with side := 4 }) } else {}

def MxEv.num (e : MxEv) : NumEv := ⟨e.ovf, e.inv, e.first.map Prod.snd, e.count⟩

/-! ## Product rows (R103, R127 to R133) -/

/-- What an MXRUN runs. -/
structure MxPlan where
  set : StatSet
  fe : Bool
  mode : MxMode
  modeCode : Nat
  cmp : Nat
  fmt : Nat
  /-- streamed parts of each row, in order; [0] when the row is not split -/
  parts : List Nat
  m : Nat
  slot : Nat
  acc : Bool
  /-- k-row count of the slot before this MXRUN -/
  kbase : Nat
  tol : Nat
  /-- stationary values, by k-row -/
  w : List (List (Option Num))
  deriving DecidableEq, Repr

/-- CMP (R177). -/
def cmpHolds (cmp : Nat) (a w : Num) : Bool :=
  match cmp with
  | 0 => a.eq w
  | 1 => a.lt w
  | 2 => a.le w
  | _ => a.isNan || w.isNan || !a.eq w

/-- What a cell contributes, and whether it makes a NaN (R103, R133). -/
def cellTerm (mode : MxMode) (cmp : Nat) (a w : Num) : Num × Bool :=
  match mode with
  | .mac => (a.mul w, madeNan [a, w] (a.mul w))
  | .l1 => ((a.sub w).abs, madeNan [a, w] (a.sub w))
  | .l2sq => ((a.sub w).abs.mul (a.sub w).abs, madeNan [a, w] (a.sub w))
  | .minplus => (a.add w, madeNan [a, w] (a.add w))
  | .maxplus => (a.add w, madeNan [a, w] (a.add w))
  | .cmpcount => (if cmpHolds cmp a w then .fin false 1 0 else .zero false, false)

/-- The terms of one column: by k-row, with their events; none where a split zero takes part (R131). -/
def MxPlan.terms (p : MxPlan) (cycle row n : Nat) (a ws : List (Option Num)) : List (Option (Num × MxEv)) :=
  (List.zip (List.range a.length) (List.zip a ws)).map fun (k, x, w) =>
    match x, w with
    | some x, some w =>
      let (v, inv) := cellTerm p.mode p.cmp x w
      let at_ := cycle + (if fourBit p.fmt then k / 2 else k) + n
      let pos : NanPos := ⟨0, if x.isNan then 0 else 1, row, n, p.kbase + k⟩
      some (v, (if x.isNan || w.isNan then mxNan at_ pos else {}).and (mxInvalid inv at_ pos))
    | _, _ => none

/-- The exact entry of a column (R127). -/
def exactColumn (mode : MxMode) (late : Exact × NumEv → MxEv) : List (Option (Num × MxEv)) → Exact × MxEv :=
  fun l => l.foldl (fun acc t => match t with
    | none => acc
    | some (v, ev) =>
      let r := Exact.combine mode acc.1 (Exact.term v)
      (r.1, (acc.2.and ev).and (late r))) ({}, {})

/-- The FP32e block sum of a column (R129): its code and events. -/
def feColumn (late : Bool → MxEv) (l : List (Option (Num × MxEv))) : Nat × MxEv :=
  let node (x y : Nat × MxEv) : Nat × MxEv :=
    let a := fp32e.decode x.1
    let b := fp32e.decode y.1
    (addE x.1 y.1, (x.2.and y.2).and (late (madeNan [a, b] (a.add b))))
  (treeE node 6 (l.map fun t => t.map fun v => (toE v.1, v.2))).getD (0, {})

/-- One column of a product row: its entry and events. `cycle` is the array cycle in which the row enters. -/
def MxPlan.column (p : MxPlan) (cycle row n : Nat) (a ws : List (Option Num)) : QWord × MxEv :=
  let l := p.terms cycle row n a ws
  let pos : NanPos := ⟨0, 4, row, n, p.kbase + (a.length - 1)⟩
  if p.fe then
    let (c, ev) := feColumn (fun b => mxInvalid b (cycle + 128 + n) pos) l
    (eEntry c, ev)
  else
    let (x, ev) := exactColumn p.mode (fun r => { mxInvalid r.2.inv (cycle + 128 + n) pos with ovf := r.2.ovf }) l
    (x.entry, ev)

/-- Column n of the stationary values. -/
def MxPlan.col (p : MxPlan) (n : Nat) : List (Option Num) := p.w.map fun r => (r[n]?).join

/-- The streamed values of a row that meet the block's k-rows (R131). -/
def MxPlan.stream (p : MxPlan) (part : Nat) (codes : List Nat) : List (Option Num) :=
  ((codes.map fun c =>
    if p.fmt = 0 then
      let s := splitFp32 c
      if part = 1 then some s.1 else if part = 2 then s.2.1 else s.2.2
    else some (((fmtOf p.fmt).getD .fp32).decode c)).take p.w.length)

/-- A product row. -/
def MxPlan.product (p : MxPlan) (cycle row : Nat) (a : List (Option Num)) : List (QWord × MxEv) :=
  (List.range 64).map fun n => p.column cycle row n a (p.col n)

/-! ## The check column (R107 to R110) -/

/-- Outcome of a row's check: S_out, S_chk and their difference as the registers hold them (R118), and the tolerance
bound of R108, zero for a test of equality. -/
inductive ChkOut where
  | unchecked
  | checked (ok : Bool) (sOut sChk diff bound : Nat)
  deriving DecidableEq, Repr

/-- A value as an FP32 code. -/
def fp32Code (x : Num) : Nat := (fp32.convert .rne true x).code

/-- Outcome of an exact comparison. -/
def chkExact (o c : Int) : ChkOut :=
  .checked (o == c) (unsigned 96 o) (unsigned 96 c) (unsigned 64 (o - c)) 0

/-- Sum of a list of integers. -/
def isum (l : List Int) : Int := l.foldl (· + ·) 0

/-- A finite value in units of 2^-16, zero for a split zero. -/
def fix16 (x : Option Num) : Int := (x.map fun v => v.units (-16)).getD 0

/-- FP32e sum over 64 places (R129). -/
def feSum (l : List (Option Nat)) : Nat := (treeE addE 6 l).getD 0

/-- d[k]: every node rounds toward +infinity (R107). -/
def upSum (l : List (Option Num)) : Num :=
  let node (x y : Num) : Num := fp32e.decode (fp32e.convert .up true (x.add y)).code
  (treeE node 6 (l.map fun x => x.map Num.abs)).getD (.zero false)

/-- The test of R108 for the FP32e modes. -/
def MxPlan.checkFe (p : MxPlan) (a : List (Option Num)) (out : List QWord) : ChkOut :=
  let so := fp32e.decode (feSum (out.map fun x => some (entryE x)))
  let ck := p.w.map fun r => fp32e.decode (feSum (r.map fun x => x.map toE))
  let sc := fp32e.decode (feSum ((List.zip a ck).map fun e => e.1.map fun x => toE (x.mul e.2)))
  if so.special || sc.special then .unchecked
  else
    let dk := p.w.map upSum
    let b := (List.zip a dk).foldl (fun acc e => match e.1 with
      | some x => acc.add (x.abs.mul e.2)
      | none => acc) (Num.zero false)
    let bc := (fp32e.convert .up true b).code
    let d := so.sub sc
    .checked (d.abs.le ((fp32e.decode bc).mul (.fin false 1 (-(p.tol : Int))))) (fp32Code so) (fp32Code sc) (fp32Code d) bc

/-- The test of R108 for the exact modes. -/
def MxPlan.checkExact (p : MxPlan) (a : List (Option Num)) (out : List QWord) : ChkOut :=
  let ai := a.map fix16
  let so := isum (out.map fun x => (Exact.ofEntry x).value)
  let ac := isum ((List.zip ai p.w).map fun e => e.1 * isum (e.2.map fix16))
  match p.mode with
  | .mac => chkExact so ac
  | .l2sq => chkExact so (64 * isum (ai.map fun x => x * x) - 2 * ac + isum (p.w.map fun r => isum (r.map fun x => fix16 x * fix16 x)))
  | _ =>
    let j := p.set.chkCol
    let o := Exact.ofEntry (out.getD j 0)
    let c := Exact.ofEntry (p.column 0 0 j a (p.col j)).1
    if o.num.special || c.num.special then .unchecked
    else .checked (o == c) (unsigned 96 o.value) (unsigned 96 c.value) (unsigned 64 (o.value - c.value)) 0

/-- The check of a product row (R108, R109). -/
def MxPlan.check (p : MxPlan) (a : List (Option Num)) (out : List QWord) : ChkOut :=
  let odd (x : Option Num) : Bool := (x.map Num.special).getD false
  if a.any odd || p.w.any (fun r => r.any odd) || out.any (fun x => (entryNum x).special) then .unchecked
  else if p.fe then p.checkFe a out
  else p.checkExact a out

/-! ## Physical faults (R110) -/

/-- The first fault of a product row, and the rest. -/
def takeUpset (i : Nat) : List RowUpset → Option RowUpset × List RowUpset
  | [] => (none, [])
  | u :: l => if u.row = i then (some u, l) else
    let r := takeUpset i l
    (r.1, u :: r.2)

/-- A value off by `delta` accumulator units. -/
def faultEntry (fe : Bool) (delta : Int) (x : QWord) : QWord :=
  if fe then eEntry (toE ((fp32e.decode (entryE x)).add (Num.ofInt delta (-32))))
  else
    let e := Exact.ofEntry x
    Exact.entry { e with value := signed 96 (unsigned 96 (e.value + delta)) }

def faultRow (fe : Bool) (u : RowUpset) (l : List QWord) : List QWord :=
  if u.delta = 0 then l
  else (List.zip (List.range l.length) l).map fun e => if e.1 = u.col.val then faultEntry fe u.delta e.2 else e.2

/-! ## Counted cell operations (R105, R391) -/

/-- A cell's product has a zero operand, and its other operand is finite (R105); a split zero is a zero. -/
def gatedTerm (x w : Option Num) : Bool :=
  let zero (v : Option Num) : Bool := (v.map Num.isZero).getD true
  let finite (v : Option Num) : Bool := !((v.map Num.special).getD false)
  (zero x && finite w) || (zero w && finite x)

/-- Gated products of a column, by k-row. A cell of a 4-bit block is gated when both its products are (DEDUCED, log
entry 23). -/
def gatedCells (four : Bool) : List Bool → Nat
  | [] => 0
  | [b] => b2n b
  | a :: b :: l => if four then b2n (a && b) + gatedCells four l else b2n a + gatedCells four (b :: l)

/-- Zero-gated cell-cycles of a product row: only in MAC mode, and two cycles a row where the sum is FP32e (R101, R105). -/
def MxPlan.gated (p : MxPlan) (a : List (Option Num)) : Nat :=
  if p.mode = .mac then
    (if p.fe then 2 else 1) * ((List.range 64).foldl (fun n c =>
      n + gatedCells (fourBit p.fmt) ((List.zip a (p.col c)).map fun e => gatedTerm e.1 e.2)) 0)
  else 0

/-- The event that counts an operand format's cell operations (R391): 4-bit, 8-bit, 16-bit and FP32-pass pairs. -/
def opsEvent (fmt : Nat) : Nat := if fourBit fmt then 1 else if fmt = 0 then 4 else if fmt < 3 then 3 else 2

/-! ## Running rows into the slot (R102, R129, R132, R184) -/

/-- What the rows run so far have done: the slot, the events of the delivered rows, the rows not checked, and the
mismatch that stopped them. -/
structure MxOut where
  slot : SlotSt
  ev : MxEv := {}
  unchecked : Nat := 0
  /-- cell operations and gated cell-cycles of the rows streamed -/
  ops : Nat := 0
  gated : Nat := 0
  rest : List RowUpset
  /-- product row in running order, S_out, S_chk, difference -/
  miss : Option (Nat × Nat × Nat × Nat) := none
  deriving DecidableEq, Repr

/-- Deliver a checked product row. -/
def MxPlan.deliver (p : MxPlan) (o : MxOut) (cycle row : Nat) (first : Bool) (out : List QWord) : MxOut :=
  (List.zip (List.range 64) out).foldl (fun o e =>
    let k := row * 64 + e.1
    if first && !p.acc then { o with slot := { o.slot with entries := Table.set 0 o.slot.entries k e.2 } }
    else
      let old := Table.get 0 o.slot.entries k
      let (y, ev) := combineEntries p.fe p.mode old e.2
      let pos : NanPos := ⟨0, 8, row, e.1, p.kbase⟩
      let ev := { (if entryNan old then mxNan cycle pos else {}).and (mxInvalid ev.inv cycle pos) with ovf := ev.ovf }
      { o with slot := { o.slot with entries := Table.set 0 o.slot.entries k y }, ev := o.ev.and ev }) o

/-- Run one product row; nothing once a row has mismatched. A row that passes leaves its check value and its bound in the
check store (R95; DEDUCED, log entry 123). -/
def MxPlan.runRow (p : MxPlan) (rows : List (List Nat × MxEv)) (o : MxOut) (i : Nat) : MxOut :=
  match o.miss with
  | some _ => o
  | none =>
    let g := p.parts.length
    let row := i / g
    let cycle := (if p.fe then 2 else 1) * i
    let (codes, pro) := rows.getD row ([], {})
    let a := p.stream (p.parts.getD (i % g) 0) codes
    let prod := p.product cycle row a
    let out := prod.map Prod.fst
    let (u, rest) := takeUpset i o.rest
    let out := match u with
      | some u => faultRow p.fe u out
      | none => out
    let o := { o with rest := rest, ops := o.ops + 64 * p.w.length, gated := o.gated + p.gated a }
    let add (n : Nat) : MxOut :=
      let ev := if i % g = 0 then o.ev.and pro else o.ev
      let o := { o with ev := (prod.map Prod.snd).foldl MxEv.and ev, unchecked := o.unchecked + n }
      p.deliver o (cycle + 132) row (i % g == 0) out
    match p.check a out with
    | .unchecked => add 1
    | .checked ok so sc d bound =>
      if !ok || (u.map RowUpset.adder).getD false then { o with miss := some (i, so, sc, d) }
      else
        let o := add 0
        { o with slot := { o.slot with check := Table.put o.slot.check row (sc, bound) } }

/-- Run the product rows from the `start`-th on. `rows` holds the codes of each streamed row, and what its prologue
raised. -/
def MxPlan.run (p : MxPlan) (rows : List (List Nat × MxEv)) (slot : SlotSt) (start : Nat) (rest : List RowUpset) : MxOut :=
  (((List.range (p.m * p.parts.length)).drop start).foldl (p.runRow rows) { slot := slot, rest := rest })

end Sys2Proof.Machine
end

