-- ==== Sys2Proof/Machine/Groups.lean ====
section
/-! DEFINITION. Multicast groups: their entries, delivery to local receivers, the root's pace, acknowledgement and
pruning (R200, R325, R326). -/
namespace Sys2Proof.Machine
open Sys2Proof

/-- A group entry (R325). -/
structure Group where
  egress : Nat
  uplink : Nat
  root : Bool
  enabled : Bool
  /-- Pack, Pack-relative column and row -/
  locals : List (Nat × Nat × Nat)
  slack : Nat
  pruneTicks : Nat
  window : Nat
  deriving DecidableEq, Repr

def groupOf (w : BitVec 192) : Group :=
  let x := w.toNat
  { egress := bits x 0 48, uplink := bits x 48 6, root := bit x 54, enabled := bit x 55
    locals := (List.range (min 4 (bits x 56 3))).map fun j =>
      let r := bits x (64 + 16 * j) 16
      (bits r 0 6, bits r 6 5, bits r 11 5)
    slack := bits x 128 32 * 256, pruneTicks := bits x 160 16, window := bits x 176 16 * 1024 }

def State.group (s : State) (g : Nat) : Group := groupOf (Table.get 0 s.links.fabric.active.groups g)

def State.groupRun (s : State) (g : Nat) : GroupRun := Table.get {} s.links.fabric.groups g
def State.modGroup (s : State) (g : Nat) (f : GroupRun → GroupRun) : State :=
  s.modLf fun l => { l with groups := Table.put l.groups g (f (Table.get {} l.groups g)) }

/-- Links on which data is replicated. -/
def Group.links (g : Group) : List Nat := (List.range 48).filter fun n => bit g.egress n

/-- Branches: an egress by its link, a local receiver by 48 and its place. -/
def Group.branches (g : Group) : List Branch :=
  (g.links ++ (List.range g.locals.length).map (48 + ·)).map fun n => ⟨n, 0, 0, false⟩

/-- The least offset that all unpruned branches have acknowledged, and the greatest. -/
def GroupRun.least (r : GroupRun) : Nat :=
  ((r.branches.filter fun b => !b.pruned).map Branch.acked).foldl min r.sent
def GroupRun.most (r : GroupRun) : Nat := (r.branches.map Branch.acked).foldl max 0

/-- Raise the acknowledged offset of branches. -/
def GroupRun.ack (r : GroupRun) (p : Nat → Bool) (off : Nat) : GroupRun :=
  { r with branches := r.branches.map fun b => if p b.ix && !b.pruned then { b with acked := max b.acked off } else b }

/-- Write data into a tile store from outside the Pack, for a sender's token (R200, R322). Bytes past the end of the
store do not exist. -/
def State.landInTile (s : State) (device token pack : Nat) (group : Option Nat) (tile addr : Nat) (data : List Byte) : State :=
  if 1048576 < addr + data.length then s
  else (s.modTile tile fun t => t.write .store addr data).expose device token pack group (some tile, addr, data.length)

/-- Deliver a piece to the local receivers of a group (R326). -/
def State.deliverLocal (s : State) (g device token addr : Nat) (data : List Byte) : State :=
  (s.group g).locals.foldl (fun s r =>
    s.landInTile device token r.1 (some g) ((s.shape r.1).at r.2.1 r.2.2).ix addr data) s

/-- A stream context ends: its instruction retires (R196). -/
def TileSt.dropCtx (t : TileSt) (c : Nat) : TileSt :=
  TileSt.retry { t with ctxs := Table.erase t.ctxs c, flights := t.flights.filter fun f => f.ctx != some c }

/-- What follows the last byte of a drain's send: each receiver's semaphore (R213). -/
def State.groupSignal (s : State) (g sem : Nat) : State :=
  let e := s.group g
  let s := e.locals.foldl (fun (s : State) r =>
    { s with tiles := { s.tiles with signals := s.tiles.signals ++ [⟨(s.shape r.1).at r.2.1 r.2.2, sem, 1, none⟩] } }) s
  if e.links.isEmpty then s else s.sendMsg ⟨.rsignal, 0, 65536 + g, sem, 1⟩

/-- The signals of the blocks whose last byte every unpruned branch has acknowledged (R213). -/
def State.groupSignals (s : State) (g : Nat) : State :=
  let r := s.groupRun g
  let due (x : Nat × Nat) : Bool := decide (x.1 ≤ r.sent) && decide (x.1 ≤ r.least)
  (r.sigs.filter due).foldl (fun s x => s.groupSignal g x.2)
    (s.modGroup g fun r => { r with sigs := r.sigs.filter fun x => !due x })

/-- The transfer of a group at its root is over when every unpruned branch has acknowledged its last byte. -/
def State.groupDone (s : State) (g : Nat) : State :=
  let r := s.groupRun g
  match r.owner with
  | none => s
  | some (ix, c) =>
    let s := s.groupSignals g
    if r.more || r.sent < r.total || r.least < r.total then s
    else
      let s := s.modLf fun l => { l with
        groups := Table.erase l.groups g, reqs := l.reqs.filter fun q => q.flow != 65536 + g }
      match c with
      | some c => s.modTile ix fun t => t.dropCtx c
      | none => s

/-- Pieces of at most 4 KiB (R319) for a tile-store address. -/
def mcastParts (addr : Nat) : Nat → List Byte → List (Nat × List Byte)
  | 0, _ => []
  | fuel + 1, b => if b.isEmpty then [] else (addr, b.take 4096) :: mcastParts (addr + 4096) fuel (b.drop 4096)

/-- TADDR of a piece, so that TADDR and the offset give its address (R319, R326; log entry 125). -/
def pieceTaddr (addr off : Nat) : Nat := (addr + 2 ^ 20 - off % 2 ^ 20) / 64 % 2 ^ 14

/-- The request of a piece for one branch. -/
def State.pieceReq (s : State) (g : Nat) (r : GroupRun) (addr : Nat) (data : List Byte) (id n : Nat) : LinkReq :=
  { id := id, type := .mcast, flow := 65536 + g, via := some n, seq := some (s.outFlow (65536 + g)).nextSeq, issued := s.tick.count
    first := some s.tick.count, desc := r.desc, tile := (r.owner.map Prod.fst).getD 0, engine := 4, pc := 0, word := 0
    ctx := (r.owner.bind Prod.snd).map fun c => (c, 0), target := pieceTaddr addr r.sent + 2 ^ 32 * r.sent, data := data
    token := r.token }

/-- Local receivers of a group that sleep or move: the root waits for them (R257, R266). -/
def State.groupAway (s : State) (g : Nat) : List TileId :=
  ((s.group g).locals.map fun r => (s.shape r.1).at r.2.1 r.2.2).filter s.away

/-- The root sends one piece, within the replay window (R319, R326). -/
def State.groupStep (s : State) (g : Nat) : State :=
  let r := s.groupRun g
  let e := s.group g
  match r.owner, r.parts with
  | some _, (addr, data) :: rest =>
    let n := data.length
    if !(s.groupAway g).isEmpty then (s.groupAway g).foldl (fun s t => s.startWake (SiteId.domain (s.siteOf t))) s
    else
    if decide (r.least + e.window < r.sent + n) || s.muzzle.module.active || (s.devid.isNone && !e.links.isEmpty) ||
        decide (tileTrackers ≤ s.tileUse ((r.owner.map Prod.fst).getD 0)) then s
    else
      let me := s.devid.getD 0
      let s := s.deliverLocal g me r.token addr data
      let s := match r.owner with
        | some (ix, some _) => s.netWrites (s.siteOf (tileOfIx ix)).ix (spanSizes n)
        | _ => s
      let s := match r.desc with
        | some id => s.sentData id (65536 + g) r.token
        | none => s
      let s := s.modGroup g fun r => { r.ack (48 ≤ ·) (r.sent + n) with sent := r.sent + n, delivered := r.sent + n, parts := rest, root := me }
      if e.links.isEmpty then s
      else
        let o := s.outFlow (65536 + g)
        let q (e : Nat × Nat) : LinkReq := s.pieceReq g r addr data (s.links.fabric.nextReq + e.1) e.2
        s.modLf fun l => { l with
          nextReq := l.nextReq + e.links.length, reqs := l.reqs ++ (List.zip (List.range e.links.length) e.links).map q
          outFlows := Table.put l.outFlows (65536 + g) { o with nextSeq := (o.nextSeq + 1) % 2 ^ 32 } }
  | _, _ => s

/-- Send what the window allows. -/
def State.groupPump (s : State) (g : Nat) : State :=
  (((s.groupRun g).parts.foldl (fun s _ => s.groupStep g) s).groupDone g).pump

/-- The end of the piece that a request carries, as an offset within its transfer. -/
def LinkReq.pieceEnd (q : LinkReq) : Nat := q.target / 2 ^ 32 + q.data.length

/-- Requests of a group's transfer that every branch has acknowledged leave the replay store. -/
def State.dropPieces (s : State) (g off : Nat) : State :=
  s.modLf fun l => { l with reqs := l.reqs.filter fun q => !(q.flow == 65536 + g && decide (q.pieceEnd ≤ off)) }

/-- A branch of the root's or a relay's node has acknowledged (R326). At the root, requests wholly acknowledged
retire; a relay acknowledges upward. -/
def State.groupAck (s : State) (g : Nat) (p : Nat → Bool) (off : Nat) : State :=
  let before := (s.groupRun g).least
  let s := s.modGroup g fun r => r.ack p off
  let after := (s.groupRun g).least
  if after = before then s
  else if (s.groupRun g).owner.isSome then
    (s.dropPieces g after).groupPump g
  else s.sendMsg ⟨.ack, 0, 65536 + g, after, 0⟩

/-- LF_COUNT.prunes. -/
def State.countPrune (s : State) : State := s.modLf fun l => { l with prunes := sat 16 (l.prunes + 1) }

/-- Receivers of a Pack beneath a prune (R326): the record in LF_PRUNE, and the exposed descriptor ends. -/
def State.pruneLocal (s : State) (g ix : Nat) : State :=
  let r := s.groupRun g
  match (s.group g).locals[ix - 48]? with
  | none => s
  | some (p, _, _) =>
    let lo := r.delivered % 2 ^ 21 + 2 ^ 21 * (g % 256) + 2 ^ 31
    let s := s.modLf fun l => { l with
      pruneLo := Table.put l.pruneLo p (BitVec.ofNat 32 lo), pruneHi := Table.put l.pruneHi p (BitVec.ofNat 32 (r.root % 2 ^ 14)) }
    (s.links.fabric.exposures.filter fun e => e.group == some g && e.token == r.token && e.device == r.root && e.pack == p).foldl
      (fun s e => match e.desc with
        | some id => if e.job.isNone then s.latchFault id stPruned else s
        | none => s) s

/-- A branch is pruned at this node (R326): it is told, and the group goes on without it. -/
def State.pruneBranch (s : State) (g ix : Nat) : State :=
  let before := (s.groupRun g).least
  let mark (b : Branch) : Branch := if b.ix == ix then { b with pruned := true } else b
  let s := (s.modGroup g fun r => { r with branches := r.branches.map mark }).countPrune
  let s := if 48 ≤ ix then s.pruneLocal g ix else
    (s.modLf fun l => { l with reqs := l.reqs.filter fun q => !(q.flow == 65536 + g && q.via == some ix) }).sendMsg
      ⟨.prune, ix, 65536 + g, (s.groupRun g).sent, 0⟩
  if (s.groupRun g).owner.isSome then
    (s.dropPieces g (s.groupRun g).least).groupPump g
  else s.sendMsg ⟨.ack, 0, 65536 + g, max before (s.groupRun g).least, 2⟩

/-- A branch lags its node's most advanced one by more than SLACK. -/
def GroupRun.lagging (r : GroupRun) (e : Group) (b : Branch) : Bool :=
  !b.pruned && decide (b.acked + e.slack < r.most)

/-- Count the ticks of lag, and prune at the last of PRUNE_TICKS (R326). -/
def State.groupTick (s : State) (g : Nat) : State :=
  let e := s.group g
  let r := s.groupRun g
  let step (b : Branch) : Branch := if r.lagging e b then { b with lag := b.lag + 1 } else { b with lag := 0 }
  let s := s.modGroup g fun r => { r with branches := r.branches.map step }
  ((s.groupRun g).branches.filter fun b => !b.pruned && b.lag != 0 && decide (e.pruneTicks ≤ b.lag)).foldl
    (fun s b => s.pruneBranch g b.ix) s

end Sys2Proof.Machine
end

