-- ==== Sys2Proof/Machine/Streams.lean ====
section
/-! DEFINITION. Retriever streams: records, chunks, bound semaphores, conversion, check values, page faults, and the
instructions RGET, RPUT, RGATHER, RSEND and RMCAST (R196 to R200, R227, R234 to R242, R247 to R250). -/
namespace Sys2Proof.Machine
open Sys2Proof

/-! ## Records (R234, R239) -/

/-- The record at the bytes whose little-endian value is `x`. -/
def streamRecOf (x : Nat) : StreamRec :=
  { base := bits x 0 57, len0 := bits x 64 24
    cnt1 := bits x 96 25, cnt2 := bits x 128 25, cnt3 := bits x 160 25
    stride1 := signed 64 (bits x 192 64), stride2 := signed 64 (bits x 256 64), stride3 := signed 64 (bits x 320 64)
    conv := bits x 384 2, rnd := bits x 386 2, ovf := bits x 388 2, cfmt := bits x 392 4
    exp := signed 7 (bits x 400 7), poly := bits x 408 3, cont := bit x 411, hub := bits x 412 4
    prefetch := bits x 416 5, tmem := bits x 424 2, crc := bits x 448 64 }

/-- Check 3 of a stream record: reserved bits and values (R234, R235). -/
def streamRecOk (get : Bool) (x : Nat) : Bool :=
  let r := streamRecOf x
  bits x 57 7 == 0 && bits x 88 8 == 0 && decide (r.cnt1 ≤ 2 ^ 24) && decide (r.cnt2 ≤ 2 ^ 24) &&
    decide (r.cnt3 ≤ 2 ^ 24) && bits x 121 7 == 0 && bits x 153 7 == 0 && bits x 185 7 == 0 && bits x 390 2 == 0 &&
    bits x 396 4 == 0 && !bit x 407 && decide (r.poly ≤ 4) && decide (r.hub ≤ 8) && decide (r.prefetch ≤ 16) &&
    bits x 421 3 == 0 && decide (r.tmem < 3) && bits x 426 22 == 0 &&
    (if r.conv = 0 then r.rnd == 0 && r.ovf == 0 && r.cfmt == 0 && r.exp == 0
     else r.conv == (if get then 1 else 2) && decide (r.cfmt ≤ 2) && decide (r.ovf ≤ 2) && r.len0 % r.esize == 0)

/-- The least and greatest offset of a run's start from BASE. -/
def StreamRec.reach (r : StreamRec) : Int × Int :=
  let one (c : Nat) (d : Int) : Int × Int := (min 0 ((c - 1 : Nat) * d), max 0 ((c - 1 : Nat) * d))
  let a := one r.cnt1 r.stride1
  let b := one r.cnt2 r.stride2
  let c := one r.cnt3 r.stride3
  (a.1 + b.1 + c.1, a.2 + b.2 + c.2)

/-- Bytes of the tile side's memory. -/
def sideSize (tmem : Nat) : Nat := (sideOf tmem).size

/-- Check 6 of a stream record (R234, R235). -/
def StreamRec.inside (r : StreamRec) (f : Stream) : Bool :=
  let (lo, hi) := r.reach
  (r.bytes == 0 || (decide (0 ≤ (r.base : Int) + lo) && decide ((r.base : Int) + hi + r.len0 ≤ 2 ^ 57))) &&
    decide (f.laddr.toNat * 64 + (if f.bind then f.slots.toNat * 2 ^ f.chunk.toNat else r.length) ≤ sideSize r.tmem)

/-- Check 3 of a gather record (R239). -/
def gatherRecOk (x : Nat) : Bool :=
  bits x 57 7 == 0 && decide (bits x 160 5 ≤ 16) && bits x 165 3 == 0 && decide (bits x 168 2 < 3) && bits x 170 342 == 0

/-! ## Memory side (R235, R236) -/

/-- The address of run `i`. -/
def StreamRec.runAddr (r : StreamRec) (i : Nat) : Nat :=
  ((r.base : Int) + (i % r.cnt1 : Nat) * r.stride1 + (i / r.cnt1 % r.cnt2 : Nat) * r.stride2 +
    (i / r.cnt1 / r.cnt2 : Nat) * r.stride3).toNat

/-- Memory pieces of `n` bytes from offset `lo` of the stream. -/
def StreamRec.walk (r : StreamRec) : Nat → Nat → Nat → List (Nat × Nat)
  | 0, _, _ => []
  | fuel + 1, lo, n =>
    if n = 0 ∨ r.len0 = 0 then []
    else
      let m := min n (r.len0 - lo % r.len0)
      piecesOf (r.runAddr (lo / r.len0) + lo % r.len0) m ++ r.walk fuel (lo + m) (n - m)

/-- The memory-side bytes of `n` tile-side bytes. -/
def StreamRec.memBytes (r : StreamRec) (n : Nat) : Nat := if r.conv = 0 then n else n / 4 * r.esize

/-- Pieces of a chunk of tile-side bytes. -/
def StreamRec.chunkPieces (r : StreamRec) (lo n : Nat) : List (Nat × Nat) :=
  r.walk (r.memBytes n + 1) (r.memBytes lo) (r.memBytes n)

/-- Pieces of the check value that follows the last byte of the last run (R240). -/
def StreamRec.trailer (r : StreamRec) : List (Nat × Nat) :=
  match polyOf r.poly with
  | none => []
  | some p => if r.cont || r.bytes == 0 then [] else piecesOf (r.runAddr (r.cnt1 * r.cnt2 * r.cnt3 - 1) + r.len0) p.bytes

/-! ## Conversion (R227, R234) -/

/-- Little-endian elements of `k` bytes. -/
def elemsOf (k : Nat) : Nat → List Byte → List Nat
  | 0, _ => []
  | fuel + 1, b => if b.isEmpty then [] else leNat (b.take k) :: elemsOf k fuel (b.drop k)

/-- Convert a chunk between its memory side and SP form; SR draws from the SP generator. -/
def State.convertChunk (s : State) (ix : Nat) (r : StreamRec) (inward : Bool) (b : List Byte) : List Byte × NumEv × State :=
  if r.conv = 0 then (b, {}, s)
  else
    let f := (fmtOf r.cfmt).getD .fp32
    let c := s.numCtl ix
    let m := c.rnd r.rnd true
    let k := if inward then r.esize else 4
    let out := if inward then 4 else r.esize
    let step (acc : List (List Byte) × NumEv × DWord) (x : Nat) : List (List Byte) × NumEv × DWord :=
      let (rd, g) := m.draw acc.2.2
      let y := if inward then intoSp rd r.exp (f.decode x) else outOfSp f rd (c.ieee r.ovf f) r.exp (signed 32 x)
      (leBytes out y.code :: acc.1, acc.2.1.andThen y.ev, g)
    let (l, ev, g) := (elemsOf k (b.length + 1) b).foldl step ([], {}, (s.tile ix).genSp)
    (l.reverse.flatten, ev, s.modTile ix fun t => { t with genSp := g })

/-! ## Contexts -/

def State.modCtx (s : State) (ix c : Nat) (f : CtxSt → CtxSt) : State :=
  s.modTile ix fun t => { t with ctxs := t.ctxs.map fun e => if e.1 = c then (e.1, f e.2) else e }

def TileSt.ctx? (t : TileSt) (c : Nat) : Option CtxSt := (t.ctxs.find? fun e => e.1 == c).map Prod.snd

/-- The semaphore that a bound stream still has to take before its next chunk (R198). -/
def CtxSt.waits (c : CtxSt) : Option Nat :=
  if c.bind && !c.taken && c.fault.isNone && decide (c.next < c.total) then
    some (if c.kind = .put then c.full else c.empty)
  else none

/-- The next chunk may be requested as far as PREFETCH goes (R236). -/
def CtxSt.room (c : CtxSt) : Bool :=
  c.fault.isNone && decide (c.next < c.total) && decide (c.next < c.done + c.rcd.prefetch + 1)

/-- Feed memory-side bytes to the stream's own check value and its hub unit (R240, R241). -/
def State.feed (s : State) (ix c : Nat) (k : CtxSt) (b : List Byte) : State :=
  let s := match polyOf k.rcd.poly with
    | some p => s.modCtx ix c fun x => { x with crc := crcBytes p x.crc b }
    | none => s
  if k.rcd.hub = 0 then s else s.crcFeed (k.rcd.hub - 1) b

/-- Send the PEER requests of a chunk (R319, R320). Without a flow to the peer a read or write is refused there: the
descriptor is tainted with ADDRESS_RANGE, and a read brings bytes that the spec does not state (log entry 4). -/
def State.peerRequests (s : State) (tile : TileId) (d : Desc) (ci : Nat) (k : CtxSt) (ch : ChunkSt) : State :=
  (List.zip (List.range ch.segs.length) ch.segs).foldl (fun (acc : State × List Byte) g =>
    let data := acc.2.take g.2.len
    let rest := acc.2.drop g.2.len
    match g.2 with
    | .peer dev a n =>
      match acc.1.flowTo d.fn.val dev with
      | none =>
        let (x, s) := acc.1.draw
        let word := ((acc.1.tile tile.ix).flights.find? fun f => f.ctx == some ci).map Flight.word
        let s := s.taint tile (if k.kind.inbound then 3 else 4) k.pc rsAddress (word.getD 0)
        (s.modCtx tile.ix ci fun c => { c with inflight := c.inflight.map fun h =>
            if h.ix = ch.ix then { h with got := Table.put h.got g.1 (leBytes n x) } else h }, rest)
      | some f =>
        let token := acc.1.token d.pack tile.ix
        let word := ((acc.1.tile tile.ix).flights.find? fun f => f.ctx == some ci).map Flight.word
        let s := acc.1
        (s.request { id := 0, type := if k.kind = .put then .rwrite else .rread, flow := f, issued := 0, desc := some d.id
                     tile := tile.ix, engine := if k.kind.inbound then 3 else 4, pc := k.pc, word := word.getD 0
                     ctx := some (ci, ch.ix), seg := g.1, target := a, len := n
                     data := if k.kind = .put then data else [], token := token }, rest)
    | _ => (acc.1, rest)) (s, ch.data) |>.1

/-- Put a chunk, or what of it preceded a fault, in flight: its transactions take the tile's free trackers, and where they
are more than those, pass them on among themselves (R153, R236; log entry 128). A frequency change holds what reaches
HBM (R293). -/
def State.putChunk (s : State) (tile : TileId) (d : Desc) (ci : Nat) (ch : ChunkSt) (f : Option PgFault) : State :=
  let ch := { ch with
    discard := f.isSome, trackers := min ch.segs.length (tileTrackers - s.tileUse tile.ix)
    held := s.hbm.held && ch.segs.any Seg.inHbm }
  let s := s.modCtx tile.ix ci fun c => { c with
    inflight := if f.isSome && ch.segs.isEmpty then c.inflight else c.inflight ++ [ch]
    next := if f.isSome then c.next else c.next + 1
    taken := f.isSome && c.taken
    fault := f.map fun e => (e.va, e.kind, e.write, none) }
  match (s.tile tile.ix).ctx? ci with
  | some k => s.peerRequests tile d ci k ch
  | none => s

/-- Request a chunk of an RGET (R236). -/
def State.requestGet (s : State) (tile : TileId) (d : Desc) (ci : Nat) (k : CtxSt) : State :=
  let n := k.chunkLen k.next
  let last := decide (k.next + 1 = k.total)
  let pieces := k.rcd.chunkPieces (k.next * 2 ^ k.chunkLog2) n ++ (if last then k.rcd.trailer else [])
  let ((segs, f), s) := s.xlateTile tile.ix d.fn.val false pieces
  s.putChunk tile d ci { ix := k.next, segs := segs, len := n } f

/-- Issue the writes of a chunk of an RPUT: its source bytes are read once its pages are known (R236, R240, R247). -/
def State.requestPut (s : State) (tile : TileId) (d : Desc) (ci : Nat) (k : CtxSt) : State :=
  let n := k.chunkLen k.next
  let last := decide (k.next + 1 = k.total)
  let pieces := k.rcd.chunkPieces (k.next * 2 ^ k.chunkLog2) n ++ (if last then k.rcd.trailer else [])
  let ((segs, f), s) := s.xlateTile tile.ix d.fn.val true pieces
  let raw := (s.tile tile.ix).read (sideOf k.rcd.tmem) (k.chunkAddr k.next) n
  let (b, ev, s') := s.convertChunk tile.ix k.rcd false raw
  match f with
  | some e => s.putChunk tile d ci { ix := k.next, segs := segs, len := n, data := b } (some e)
  | none =>
    let s := (s'.setFlags d.pack ev.ovf ev.inv).feed tile.ix ci k b
    let crc := match polyOf k.rcd.poly, (s.tile tile.ix).ctx? ci with
      | some p, some k => if last && !k.rcd.trailer.isEmpty then leBytes p.bytes (p.finish k.crc) else []
      | _, _ => []
    let s := s.putChunk tile d ci { ix := k.next, segs := segs, len := n, data := b ++ crc } none
    if k.bind then s.semAdd tile.ix k.empty 1 else s

/-- Request a row of an RGATHER (R199, R239). -/
def State.requestRow (s : State) (tile : TileId) (d : Desc) (ci : Nat) (k : CtxSt) : State :=
  let j := (s.tile tile.ix).readN .store (k.idx + 4 * k.next) 4
  if k.trows ≤ j then
    let word := ((s.tile tile.ix).flights.find? fun f => f.ctx == some ci).map Flight.word
    (s.taint tile 3 k.pc rsAddress (word.getD 0)).putChunk tile d ci { ix := k.next, segs := [], len := k.rowBytes } none
  else
    let ((segs, f), s) := s.xlateTile tile.ix d.fn.val false (piecesOf ((k.rcd.base + j * k.tstride) % 2 ^ 57) k.rowBytes)
    s.putChunk tile d ci { ix := k.next, segs := segs, len := k.rowBytes } f

/-- Take the bound semaphore, make the issue test, and request the next chunk, as far as each and a free tracker allow
(R153, R155, R196, R198, R236). -/
def State.ctxStep (s : State) (tile : TileId) (d : Desc) (ci : Nat) : State :=
  let ix := tile.ix
  match (s.tile ix).ctx? ci with
  | none => s
  | some k =>
    if !k.room || k.kind = .send || k.kind = .mcast || tileTrackers ≤ s.tileUse ix then s
    else
      let open' := match k.waits with
        | some n => (s.tile ix).sem n != 0
        | none => true
      if !open' then s
      else
        let s := match k.waits with
          | some n => (s.modTile ix fun t => t.setSem n (t.sem n - 1)).modCtx ix ci fun k => { k with taken := true }
          | none => s
        let res := sideRes k.rcd.tmem (k.chunkAddr k.next) (k.chunkLen k.next)
        let t := s.tile ix
        if ((if k.kind.inbound then t.blocked (some ci) [] res else t.blocked (some ci) res [])).isSome then s
        else match k.kind with
          | .get => s.requestGet tile d ci k
          | .put => s.requestPut tile d ci k
          | _ => s.requestRow tile d ci k

/-- Let every context of a tile go as far as it can, testing waiting engines after each signal (R159, R161). -/
def State.settle (s : State) (tile : TileId) : State :=
  let ix := tile.ix
  let s := s.modTile ix TileSt.releaseWaits
  match s.packOf tile with
  | none => s
  | some p => match s.running p with
    | none => s
    | some d =>
      if d.phase != .running then s
      else (List.range 18).foldl (fun s _ =>
        let ids := (s.tile ix).ctxs.map Prod.fst
        (ids.foldl (fun s c => s.ctxStep tile d c) s).modTile ix TileSt.releaseWaits) s

/-- A signal applied at a tile (R159). -/
def State.signal (s : State) (tile : TileId) (sem inc : Nat) : State :=
  if inc = 0 then s else (s.semAdd tile.ix sem inc).settle tile

/-! ## Retirement -/

/-- A stream retires: its running value goes back to its record, its hub unit is freed, its context and its
instruction are released (R196, R198, R241, R242). -/
def State.ctxRetire (s : State) (tile : TileId) (ci : Nat) (k : CtxSt) : State :=
  let s := if k.rcd.poly = 0 then s
    else s.modTile tile.ix fun t => t.write .store (k.recAddr + 56) (leBytes 8 k.crc)
  let s := if k.rcd.hub = 0 then s else s.crcEnd (k.rcd.hub - 1) k.rcd.cont
  (s.modTile tile.ix fun t => t.dropCtx ci).settle tile

/-- Retire a stream that has nothing left to do; a stopped one leaves with its last transaction (R90). -/
def State.ctxEnd (s : State) (tile : TileId) (ci : Nat) : State :=
  match (s.tile tile.ix).ctx? ci with
  | none => s
  | some k =>
    if !k.inflight.isEmpty || k.fault.isSome || k.next < k.total then s
    else if k.done < k.total then
      let s := if k.rcd.hub = 0 then s else s.modCrcUnit (k.rcd.hub - 1) fun u => { u with owner := none }
      s.modTile tile.ix fun t => t.dropCtx ci
    else s.ctxRetire tile ci k

/-- Every PEER request of a chunk has been answered. -/
def State.chunkAnswered (s : State) (ix ci : Nat) (ch : ChunkSt) : Bool :=
  !(s.links.fabric.reqs.any fun q => q.tile == ix && q.ctx == some (ci, ch.ix))

/-- The PEER bytes of a chunk in the order of its places. -/
def ChunkSt.peerBytes (ch : ChunkSt) : List Byte :=
  (List.zip (List.range ch.segs.length) ch.segs).flatMap fun g =>
    match g.2 with
    | .peer _ _ n => (Table.get [] ch.got g.1).take n
    | _ => []

/-- The initiator number of a tile's Retriever (R259). -/
def State.netTile (s : State) (tile : TileId) : Nat := (s.siteOf tile).ix

/-- A chunk's data has arrived: convert it, write it, check it, signal FULL (R198, R240, R241). -/
def State.chunkLands (s : State) (tile : TileId) (d : Desc) (ci : Nat) (k : CtxSt) (ch : ChunkSt) : State :=
  let ix := tile.ix
  let (r, s) := s.readSegs [d.id] ch.peerBytes ch.segs
  match r with
  | .bytes all =>
    let n := if k.kind = .gather then ch.len else k.rcd.memBytes ch.len
    let b := if ch.segs.isEmpty then List.replicate n (0 : Byte) else all.take n
    let tail := all.drop n
    let (w, ev, s) := s.convertChunk ix k.rcd true b
    let s := (s.setFlags d.pack ev.ovf ev.inv).modTile ix fun t => t.write (sideOf k.rcd.tmem) (k.chunkAddr ch.ix) w
    let s := (s.feed ix ci k b).countEv (s.netTile tile) 0x009 all.length
    let good := match polyOf k.rcd.poly, (s.tile ix).ctx? ci with
      | some p, some k => tail.isEmpty || leNat tail == p.finish k.crc
      | _, _ => true
    let s := if good then s else s.latchFault d.id stMemory
    let s := s.modCtx ix ci fun k => { k with done := k.done + 1 }
    if k.bind then s.semAdd ix k.full 1 else s
  | .failed => s.latchFault d.id stMemory
  | .memory | .waits => s

/-- A chunk's transactions can have completed: peers have answered, and no frequency change holds HBM; what was in flight
when it began drains first (R293). -/
def State.chunkDone (s : State) (ix ci : Nat) (ch : ChunkSt) : Bool :=
  s.chunkAnswered ix ci ch && (!(ch.segs.any Seg.inHbm) || !s.hbm.held || (!ch.held && s.hbm.phase == .draining))

/-- CHUNK_RESIDENT (R198, R236): the oldest chunk in flight of an inbound stream has all its data. A discarded chunk
is dropped (R90, R247); one whose write finds a double-bit error, or whose context has a parity error, does not land
(R96). -/
def execChunkResident (tile : TileId) (ctx : Fin 16) (u : Upset) (s : State) : Result :=
  .next <|
    let ix := tile.ix
    match (s.tile ix).ctx? ctx.val with
    | none => s
    | some k => match k.inflight with
      | [] => s
      | ch :: rest =>
        if !k.kind.inbound || !s.chunkDone ix ctx.val ch then s
        else
          let s := s.modCtx ix ctx.val fun k => { k with inflight := rest }
          let s := s.netReads (s.netTile tile) (ch.segs.map Seg.len)
          let s : State := match s.owner tile with
            | some d =>
              if ch.discard || !ch.lost.isEmpty || d.phase != .running then s
              else s.tileUnder tile u fun s => s.chunkLands tile d ctx.val k ch
            | none => s
          ((s.modTile ix TileSt.retry).settle tile).ctxEnd tile ctx.val

/-- Write a chunk's bytes to their HBM and HOST places (R236). -/
def State.writeSegs (s : State) (owners : List Nat) : List Seg → List Byte → State
  | [], _ => s
  | g :: gs, b =>
    let x := b.take g.len
    let s := match g with
      | .hbm a _ => s.hbmWrite owners a x
      | .host a _ => s.hostWriteAs (s.ownerFn owners) a x
      | .peer .. => s
    s.writeSegs owners gs (b.drop g.len)

/-- The places and bytes of a chunk without those whose packets were dropped (R256). -/
def ChunkSt.kept (ch : ChunkSt) : List Seg × List Byte :=
  let step (acc : (List Seg × List Byte) × List Byte) (e : Nat × Seg) : (List Seg × List Byte) × List Byte :=
    let rest := acc.2.drop e.2.len
    if ch.lost.contains e.1 then (acc.1, rest) else ((acc.1.1 ++ [e.2], acc.1.2 ++ acc.2.take e.2.len), rest)
  if ch.lost.isEmpty then (ch.segs, ch.data)
  else ((List.zip (List.range ch.segs.length) ch.segs).foldl step (([], []), ch.data)).1

/-- WRITE_ACKNOWLEDGED (R236): the writes of the oldest chunk in flight of an RPUT are visible, unless the tile store
could not give the bytes (R96). -/
def execWriteAcknowledged (tile : TileId) (ctx : Fin 16) (u : Upset) (s : State) : Result :=
  .next <|
    let ix := tile.ix
    match (s.tile ix).ctx? ctx.val with
    | none => s
    | some k => match k.inflight with
      | [] => s
      | ch :: rest =>
        if k.kind.inbound || k.kind = .send || k.kind = .mcast || !s.chunkDone ix ctx.val ch then s
        else
          let owners := ((s.owner tile).map Desc.id).toList
          let n := segsLen ch.segs
          let s := s.tileUnder tile u fun s =>
            ((s.writeSegs owners ch.kept.1 ch.kept.2).netWrites (s.netTile tile) (ch.segs.map Seg.len)).countEv (s.netTile tile) 0x00A n
          let s := s.modCtx ix ctx.val fun k => { k with
            inflight := rest, done := if ch.discard then k.done else k.done + 1 }
          ((s.modTile ix TileSt.retry).settle tile).ctxEnd tile ctx.val

/-! ## Issue -/

/-- A record read at decode waits until its region has no pending writer (R176). -/
def State.withRecord (s : State) (c : Issuing) (addr : Nat) (body : Nat → State) : State :=
  let t := s.tile c.ix
  match (regionsOf addr 64).find? fun r => (t.pendWrites none).contains r with
  | some r => s.holdAt c (.issue r)
  | none => body (t.readN .store addr 64)

/-- Wait for a slot, the scoreboard, a stream context and a hub unit (R153, R155, R196, R241), then issue. -/
def State.issueCtx (s : State) (c : Issuing) (reads : List Nat) (ci hub : Nat) (k : CtxSt) : State :=
  let t := s.tile c.ix
  let busyHub := hub != 0 && ((s.crcUnit (hub - 1)).owner.isSome || s.regN (crcCtrlAddr (hub - 1)) % 8 == 0)
  if t.slotsFull c.e then s.holdAt c (.issue resSlot)
  else match t.blocked none reads [] with
    | some r => s.holdAt c (.issue r)
    | none =>
      if (t.ctx? ci).isSome then s.holdAt c (.issue (resCtx ci))
      else if busyHub then s.holdAt c (.issue (resHub (hub - 1)))
      else
        let s := s.launch c reads [] (some ci)
        let s := s.modTile c.ix fun t => { t with ctxs := Table.put t.ctxs ci k }
        let s := if hub = 0 then s else s.modCrcUnit (hub - 1) fun u => { u with owner := some (c.ix, ci) }
        (s.settle c.tile).ctxEnd c.tile ci

def streamFieldsOk (f : Stream) : Bool :=
  decide (6 ≤ f.chunk.toNat) && decide (f.chunk.toNat ≤ 20) && (if f.bind then f.slots != 0 else f.slots == 0)

/-- RGET and RPUT. -/
def State.stream (s : State) (c : Issuing) (u : Upset) (get : Bool) (f : Stream) : State :=
  if !streamFieldsOk f then s.skip c rsReserved
  else
    let ra := f.rcd.toNat * 64
    s.withRecord c ra fun x =>
      let r := streamRecOf x
      if !streamRecOk get x then s.skip c rsReserved
      else if !r.inside f then s.skip c rsAddress
      else s.underUpset c u fun s =>
        let n := ceilDiv r.length (2 ^ f.chunk.toNat)
        s.issueCtx c (regionsOf ra 64) f.ctx.toNat r.hub
          { kind := if get then .get else .put, pc := c.pc, rcd := r, laddr := f.laddr.toNat * 64, recAddr := ra
            chunkLog2 := f.chunk.toNat, slots := f.slots.toNat, bind := f.bind, empty := f.empty.toNat
            full := f.full.toNat, total := if f.bind then max 1 n else n, crc := r.crc }

/-- RGET (R198). -/
def execRget (tile : TileId) (e : Engine) (u : Upset) (s : State) : Result :=
  .next (s.issueOp tile e 0x80 fun c i s => match i with
    | .rget f => s.stream c u true f
    | _ => s)

/-- RPUT (R198). -/
def execRput (tile : TileId) (e : Engine) (u : Upset) (s : State) : Result :=
  .next (s.issueOp tile e 0xA0 fun c i s => match i with
    | .rput f => s.stream c u false f
    | _ => s)

/-- RGATHER (R199, R239). -/
def State.gather (s : State) (c : Issuing) (u : Upset) (f : Gather) : State :=
  if 65536 < f.nrows.toNat then s.skip c rsReserved
  else
    let ra := f.rcd.toNat * 64
    s.withRecord c ra fun x =>
      let tmem := bits x 168 2
      let rowb := f.rowb.toNat * 64
      if !gatherRecOk x then s.skip c rsReserved
      else if sideSize tmem < f.laddr.toNat * 64 + f.nrows.toNat * rowb ||
          decide (1048576 < f.idx.toNat * 64 + 4 * f.nrows.toNat) ||
          (tmem == 0 && spansMeet (f.laddr.toNat * 64) (f.nrows.toNat * rowb) (f.idx.toNat * 64) (4 * f.nrows.toNat)) then
        s.skip c rsAddress
      else s.underUpset c u fun s =>
        s.issueCtx c (dedup (regionsOf ra 64 ++ regionsOf (f.idx.toNat * 64) (4 * f.nrows.toNat))) f.ctx.toNat 0
          { kind := .gather, pc := c.pc, rcd := { base := bits x 0 57, prefetch := bits x 160 5, tmem := tmem }
            laddr := f.laddr.toNat * 64, recAddr := ra, total := f.nrows.toNat, idx := f.idx.toNat * 64
            rowBytes := rowb, tstride := bits x 64 64, trows := bits x 128 32 }

/-- RGATHER. -/
def execRgather (tile : TileId) (e : Engine) (u : Upset) (s : State) : Result :=
  .next (s.issueOp tile e 0x81 fun c i s => match i with
    | .rgather f => s.gather c u f
    | _ => s)

/-! ## Sends (R200) -/

/-- The lowest-numbered free context. -/
def TileSt.freeCtx (t : TileSt) : Option Nat := (List.range 16).find? fun c => (t.ctx? c).isNone

/-- Whether a descriptor's function may send on a flow (R314). -/
def State.mayUse (s : State) (d : Desc) (n : Nat) : Bool :=
  let f := s.flow n
  f.outbound && f.fn == d.fn.val

/-- TARGET of a TSEND (R319). -/
def tsendTarget (col row taddr : Nat) : Nat := col % 32 + 32 * (row % 32) + 1024 * (taddr % 16384)

/-- Send bytes as TSENDs of at most 4 KiB each (R319). -/
def State.sendPieces (s : State) (q : LinkReq) (col row taddr : Nat) : Nat → List Byte → State
  | 0, _ => s
  | fuel + 1, b =>
    if b.isEmpty then s
    else
      (s.request { q with target := tsendTarget col row taddr, data := b.take 4096 }).sendPieces q col row
        (taddr + 64) fuel (b.drop 4096)

/-- Issue RSEND: within the Pack the bytes are written at once; through a flow they are sent. -/
def State.sendEffect (s : State) (c : Issuing) (f : Send) : State :=
  let n := f.bytes.toNat
  let data := (s.tile c.ix).read .store (f.laddr.toNat * 64) n
  if n = 0 then (s.tagged c).advance c
  else if !f.via then
    let target := ((s.shape c.p).at f.col.toNat f.row.toNat).ix
    let s := (s.tagged c).netWrites (s.siteOf c.tile).ix (spanSizes n)
    (s.modTile target fun t => t.write .store (f.raddr.toNat * 64) data).advance c
  else match (s.tile c.ix).freeCtx with
    | none => s
    | some ci =>
      let token := s.token c.p c.ix
      let s := s.launch c (regionsOf (f.laddr.toNat * 64) n) [] (some ci)
      let s := s.modTile c.ix fun t => { t with ctxs := Table.put t.ctxs ci { kind := .send, pc := c.pc } }
      s.sendPieces { id := 0, type := .tsend, flow := f.flow.toNat, issued := 0, desc := some c.d.id, tile := c.ix
                     engine := 4, pc := c.pc, word := c.word, ctx := some (ci, 0), target := 0, token := token
                     comb := f.comb.toNat } f.col.toNat f.row.toNat f.raddr.toNat 257 data

/-- RSEND. -/
def State.send (s : State) (c : Issuing) (u : Upset) (f : Send) : State :=
  let n := f.bytes.toNat
  let sh := s.shape c.p
  let la := f.laddr.toNat * 64
  let ra := f.raddr.toNat * 64
  let own := !f.via && (sh.at f.col.toNat f.row.toNat).ix == c.ix
  let gradeB := match s.mod.grade with
    | .a => false
    | .b => true
  let bad := firstFail
    [(decide (n ≤ 1048576) && n % 64 == 0 && f.comb != 3 && (f.via || f.flow == 0), rsReserved),
     (!(gradeB && f.comb != 0), rsAbsent),
     (decide (la + n ≤ 1048576) && decide (ra + n ≤ 1048576) && !(own && la != ra && spansMeet la n ra n), rsAddress),
     (if f.via then s.mayUse c.d f.flow.toNat else decide (f.col.toNat < sh.width) && decide (f.row.toNat < sh.height), rsOutside)]
  match bad with
  | some r => s.skip c r
  | none => s.underUpset c u fun s =>
    let t := s.tile c.ix
    if t.slotsFull c.e then s.holdAt c (.issue resSlot)
    else match t.blocked none (regionsOf la n) [] with
      | some r => s.holdAt c (.issue r)
      | none => if t.freeCtx.isNone then s.holdAt c (.issue resAnyCtx) else s.sendEffect c f

/-- RSEND (R200). -/
def execRsend (tile : TileId) (e : Engine) (u : Upset) (s : State) : Result :=
  .next (s.issueOp tile e 0xA1 fun c i s => match i with
    | .rsend f => s.send c u f
    | _ => s)

/-- Start a multicast at its root (R325, R326). -/
def State.mcastStart (s : State) (c : Issuing) (f : Mcast) (ci : Nat) : State :=
  let g := f.group.toNat
  let n := f.bytes.toNat
  let token := s.token c.p c.ix
  let s := s.launch c (regionsOf (f.laddr.toNat * 64) n) [] (some ci)
  let k : CtxSt := { kind := .mcast, pc := c.pc, laddr := f.laddr.toNat * 64, group := g, raddr := f.raddr.toNat * 64 }
  let s := s.modTile c.ix fun t => { t with ctxs := Table.put t.ctxs ci k }
  let data := (s.tile c.ix).read .store (f.laddr.toNat * 64) n
  let run : GroupRun :=
    { total := n, parts := mcastParts (f.raddr.toNat * 64) 257 data, branches := (s.group g).branches
      owner := some (c.ix, some ci), desc := some c.d.id, token := token }
  (s.modGroup g fun _ => run).groupPump g

/-- RMCAST. -/
def State.mcast (s : State) (c : Issuing) (u : Upset) (f : Mcast) : State :=
  let n := f.bytes.toNat
  let la := f.laddr.toNat * 64
  let bad := firstFail
    [(decide (n ≤ 1048576) && n % 64 == 0, rsReserved),
     (decide (la + n ≤ 1048576) && decide (f.raddr.toNat * 64 + n ≤ 1048576), rsAddress)]
  match bad with
  | some r => s.skip c r
  | none => s.underUpset c u fun s =>
    let t := s.tile c.ix
    let g := s.group f.group.toNat
    if t.slotsFull c.e then s.holdAt c (.issue resSlot)
    else match t.blocked none (regionsOf la n) [] with
      | some r => s.holdAt c (.issue r)
      | none =>
        if !(g.root && g.enabled) then ((s.tagged c).taint c.tile c.e.num c.pc rsAddress c.word).advance c
        else if n = 0 || g.branches.isEmpty then (s.tagged c).advance c
        else match t.freeCtx with
          | none => s.holdAt c (.issue resAnyCtx)
          | some ci =>
            if (s.groupRun f.group.toNat).owner.isSome then s.holdAt c (.issue resAnyCtx) else s.mcastStart c f ci

/-- RMCAST (R200, R325). -/
def execRmcast (tile : TileId) (e : Engine) (u : Upset) (s : State) : Result :=
  .next (s.issueOp tile e 0xA2 fun c i s => match i with
    | .rmcast f => s.mcast c u f
    | _ => s)

/-! ## Page faults (R247 to R250) -/

/-- Class 5: sample the fault of a context, and end its descriptor when its time is up. -/
def State.sampleFault (s : State) (tile : TileId) (d : Desc) (ci : Nat) : State :=
  match (s.tile tile.ix).ctx? ci with
  | none => s
  | some k => match k.fault with
    | none => s
    | some (va, kind, write, since) =>
      let s := if since.isSome then s
        else (s.faultRecord d tile ci ⟨va, kind, write⟩ k.next).modCtx tile.ix ci fun k =>
          { k with fault := some (va, kind, write, some s.tick.count) }
      if s.regN 0x60004 ≤ s.tick.count - since.getD s.tick.count then s.endDesc d.id stPageTimeout else s

/-- PAGE_FAULT (R248). -/
def execPageFault (tile : TileId) (ctx : Fin 16) (s : State) : Result :=
  .next (match s.owner tile with
    | some d => if d.phase == .running then s.sampleFault tile d ctx.val else s
    | none => s)

/-- PAGE_FAULT_TIMEOUT (R250). -/
def execPageFaultTimeout (tile : TileId) (ctx : Fin 16) (s : State) : Result :=
  .next (match s.owner tile, (s.tile tile.ix).ctx? ctx.val with
    | some d, some k => match k.fault with
      | some (_, _, _, some t) => if d.phase == .running && decide (s.regN 0x60004 ≤ s.tick.count - t) then s.endDesc d.id stPageTimeout else s
      | _ => s
    | _, _ => s)

/-- Addresses of one page under the active table: the mapping's size, or 64 KiB (R249). -/
def State.samePage (s : State) (fn a b : Nat) : Bool :=
  let size := match s.translate fn a with
    | some l => l.size
    | none => 65536
  a / size == b / size

/-- PAGE_READY for a Pack (R249): whether a stream waited on the page, and the state with those resumed. -/
def State.resumePage (s : State) (p fn va : Nat) : Bool × State :=
  let hit (f : Option (Nat × Nat × Bool × Option Nat)) : Bool := match f with
    | some x => s.samePage fn va x.1
    | none => false
  let tiles := (s.shape p).tiles.filter fun i => (s.tile i).ctxs.any fun c => hit c.2.fault
  let copy := hit (s.pack p).copyFault
  let s' := tiles.foldl (fun s i =>
    let s := s.modTile i fun t => { t with ctxs := t.ctxs.map fun c => if hit c.2.fault then (c.1, { c.2 with fault := none }) else c }
    s.settle (tileOfIx i)) s
  let s' := if copy then s'.modPack p fun k => { k with copyFault := none } else s'
  (copy || !tiles.isEmpty, s')

end Sys2Proof.Machine
end

