-- ==== Sys2Proof/Machine/Prologue.lean ====
section
/-! DEFINITION. Hooks at a fabric port (R205, R214, R339 to R341), statistic regions (R215), and the prologue of an MXRUN
(R202 to R207). -/
namespace Sys2Proof.Machine
open Sys2Proof

/-! ## Records and statistic regions -/

/-- A record of `n` bytes that is read at decode waits until its regions have no pending writer (R176). -/
def State.recordReady (s : State) (c : Issuing) (addr n : Nat) : Option Nat :=
  (regionsOf addr n).find? fun r => ((s.tile c.ix).pendWrites none).contains r

/-- The header of a statistic region (R215). Bytes 12 and 13 are the T96's own: there the model keeps WIDTH_M1 (DESIGN
CHOICE, log entry 19). -/
structure StatHead where
  epoch : Nat
  rows : Nat
  done : Nat
  nb : Nat
  kind : Nat
  strat : Nat
  opened : Bool
  fellBack : Bool
  width : Nat
  deriving DecidableEq, Repr

def TileSt.statHead (t : TileSt) (a : Nat) : StatHead :=
  let x := t.readN .store a 14
  ⟨bits x 0 32, bits x 32 16, bits x 48 16, bits x 64 16, bits x 80 2, bits x 82 2, bit x 84, bit x 85, bits x 96 16⟩

def StatHead.bytes (h : StatHead) : List Byte :=
  leBytes 4 h.epoch ++ leBytes 2 h.rows ++ leBytes 2 h.done ++ leBytes 2 h.nb ++
    leBytes 1 (h.kind + 4 * h.strat + 16 * b2n h.opened + 32 * b2n h.fellBack) ++ leBytes 1 0 ++ leBytes 2 h.width

/-- Bytes of a row record, and of a whole region. -/
def rowRecord (nb : Nat) : Nat := 64 * ceilDiv (8 * nb) 64
def statBytes (nb rows : Nat) : Nat := 64 + rows * rowRecord nb

/-- Address of entry b of row m. -/
def statEntry (a nb m b : Nat) : Nat := a + 64 + m * rowRecord nb + 8 * b

/-- The header is that of a closed statistic of the tile's dispatch epoch. -/
def TileSt.statClosed (t : TileSt) (a : Nat) : Bool :=
  let h := t.statHead a
  !h.opened && h.epoch == t.epoch.toNat

/-! ## Hooks -/

def portCfgAddr (p : Nat) : Nat := 0x100200 + 4 * p
def State.portEnabled (s : State) (p : Nat) : Bool := bit (s.regN (portCfgAddr p)) 0

/-- The region that owns a port. -/
def State.portRegion (s : State) (p : Nat) : Option Nat := (List.range 32).find? fun r => (s.regionRect r).owns p

/-- STALL_POLICY 0 holds the static logic while Nightwatch's protection has lapsed (R358). -/
def State.staticHeld (s : State) : Bool := s.config.nwUnprotected && !s.config.nwCtrl.getLsbD 10

/-- The port is isolated: its region is not ACTIVE, outputs have not been released, or it belongs to static logic
that is held (R343, R344, R358). -/
def State.portIsolated (s : State) (p : Nat) : Bool :=
  !s.fabric.outReleased || (match s.portRegion p with
    | some r => (s.region r).st != .active
    | none => s.staticHeld)

/-- A global tree runs: it has been handed over, and the PLL that drives it has lock (R335, R336, R347). Which PLL
drives a tree is the image's choice (log entry 4). -/
def State.treeRuns (s : State) (t : Nat) : Bool :=
  s.fabric.globalClk && (s.fabric.pllDown == 0 || !s.fabric.pllDown.getLsbD (Config.treePll t))

/-- The clock tree of a port's user side has stopped (R336, R340). -/
def State.portStopped (s : State) (p : Nat) : Bool := !s.treeRuns (bits (s.regN (portCfgAddr p)) 1 5)

/-- The word of FAB_PORT_STATUS (R347). -/
def State.portWord (s : State) (p : Nat) : Nat :=
  b2n (s.port p).overrun + 2 * b2n (s.portIsolated p) + 65536 * (s.port p).errors

/-- Row of its block and number of its hook for the i-th row. -/
def HookSt.tag (h : HookSt) (i : Nat) : Nat :=
  let n := max 1 h.perBlock
  i % n % 4096 + 4096 * ((h.number + i / n) % 16)

/-- A hook fails (R340): it is flushed, the port records it, and its descriptor ends at the next tick. -/
def State.hookFail (s : State) (p : Nat) (h : HookSt) (row event : Nat) : State :=
  let s := s.modPort p fun x =>
    { x.abandon (fun y => y.number == h.number) with overrun := true, errors := sat 16 (x.errors + 1) }
  let job := ((s.desc? h.desc).map fun d => d.f.job.toNat).getD 0
  let s := s.raise .log 0x0108 p (leBytes 4 (s.portWord p) ++ leBytes 2 (h.tag row) ++ leBytes 1 event ++ leBytes 1 0 ++ leBytes 4 job)
  s.latchFault h.desc stMemory

/-- Present the rows of a hook to a port (R339). A port that is isolated fails it at once (R340). -/
def State.startHook (s : State) (p : Nat) (h : HookSt) : State :=
  let n := (s.port p).nextHook
  let h := { h with number := n }
  let count := ceilDiv h.rows (max 1 h.perBlock)
  let used (k : Nat) : Bool := (List.range count).any fun i => (n + i) % 16 == k
  let s := s.modPort p fun x => { x with
    hooks := x.hooks ++ [h], nextHook := (n + max 1 count) % 65536, flushed := x.flushed.filter fun k => !used k }
  if s.portIsolated p || s.portStopped p then s.hookFail p h 0 3 else s

/-! ## The prologue record (R203, R204) -/

structure Pro where
  gather : Bool
  transpose : Bool
  hook : Bool
  convert : Bool
  scaleIn : Bool
  srcFmt : Nat
  rnd : Nat
  ovf : Nat
  scKind : Nat
  scFmt : Nat
  hookFmt : Nat
  port : Nat
  scAddr : Nat
  idx : Nat
  pstage : Nat
  kblock : Nat
  units : Nat
  grows : Nat
  /-- a bit that R203 reserves is set -/
  odd : Bool
  deriving DecidableEq, Repr

def proOf (x : Nat) : Pro :=
  { gather := bit x 0, transpose := bit x 1, hook := bit x 2, convert := bit x 3, scaleIn := bit x 4
    srcFmt := bits x 8 4, rnd := bits x 12 2, ovf := bits x 14 2, scKind := bits x 16 2, scFmt := bits x 18 2
    hookFmt := bits x 20 4, port := bits x 24 6, scAddr := bits x 32 14 * 64, idx := bits x 48 14 * 64
    pstage := bits x 64 14 * 64, kblock := bits x 80 10, units := bits x 90 3, grows := bits x 96 32
    odd := bits x 5 3 != 0 || bits x 30 2 != 0 || bits x 46 2 != 0 || bits x 62 2 != 0 || bits x 78 2 != 0 ||
      bits x 93 3 != 0 || bits x 128 384 != 0 }

/-- The entry format (R204). -/
def Pro.entry (p : Pro) (fmt : Nat) : Nat := if p.hook then p.hookFmt else if p.convert then p.srcFmt else fmt

def fmtBits (fmt : Nat) : Nat := ((fmtOf fmt).getD .fp32).bits

/-- Bytes of a row in the entry format, and of a staged row. -/
def Pro.entryLen (p : Pro) (fmt : Nat) : Nat := ceilDiv (rowElems fmt * fmtBits (p.entry fmt)) 8
def Pro.pad (p : Pro) (fmt : Nat) : Nat := 64 * ceilDiv (p.entryLen fmt) 64

def Pro.staged (p : Pro) : Bool := p.transpose || p.hook

/-- The checks of R203 and R204 that fail with RESERVED_FIELD. -/
def Pro.ok (p : Pro) (fmt : Nat) : Bool :=
  let e := p.entry fmt
  !p.odd && decide (p.srcFmt < 8) && decide (p.hookFmt < 8) && p.rnd != 3 && p.ovf != 3 && p.scKind != 3 && p.scFmt != 3 &&
    (p.scKind != 2 || p.scFmt == 0) && ((p.convert && !p.hook) || p.srcFmt == 0) && (p.hook || p.hookFmt == 0) &&
    (if p.hook then decide (1 ≤ p.units) && decide (p.units ≤ 4) else p.units == 0) && (p.convert || e == fmt) &&
    !(p.gather && p.transpose) && !(p.transpose && p.hook) && !(p.transpose && fourBit e) && decide (fmtBits e ≤ fmtBits fmt)

/-- The rows that an MXRUN of M rows reads and those it writes, with its prologue (R202, R205). Those of its record are
checked with M = 0 too. -/
def TileSt.runOpnds (t : TileSt) (f : MxRun) (pro : Option Pro) : List Opnd × List Opnd :=
  let m := f.m.toNat
  let fmt := f.fmt.toNat
  let a := f.src.toNat * 64
  let stride := f.rstride.toNat * 64
  match pro with
    | none => ([{ base := a, stride := stride, len := rowLen fmt, rows := m }], [])
    | some p =>
      let e := fmtBits (p.entry fmt)
      let rows : List Opnd :=
        if p.gather then
          [Opnd.flat .store a (min (p.grows * stride) (1048576 - a)) 8, Opnd.flat .store p.idx (4 * m) 32]
        else if p.transpose then [{ base := a, stride := stride, len := m * (e / 8), rows := rowElems fmt }]
        else [{ base := a, stride := stride, len := if p.hook then 64 * p.units else p.entryLen fmt, rows := m }]
      let scale : List Opnd :=
        if !p.scaleIn then []
        else if p.scKind = 0 then [Opnd.flat .store p.scAddr (rowElems fmt * scaleBytes p.scFmt) 8]
        else if p.scKind = 1 then [Opnd.flat .store p.scAddr (m * scaleBytes p.scFmt) 8]
        else [Opnd.flat .store p.scAddr (if t.statClosed p.scAddr then statBytes (t.statHead p.scAddr).nb m else 64) 8]
      (rows ++ scale, if p.staged then [Opnd.flat .store p.pstage (m * p.pad fmt) 8] else [])

/-! ## Rows through the prologue (R204 to R206) -/

/-- The address of selected row m; none for an index at or above GROWS. -/
def TileSt.rowAddr (t : TileSt) (f : MxRun) (pro : Option Pro) (m : Nat) : Option Nat :=
  let at_ (i : Nat) : Nat := f.src.toNat * 64 + i * (f.rstride.toNat * 64)
  match pro with
  | some p =>
    if p.gather then
      let i := t.readN .store (p.idx + 4 * m) 4
      if p.grows ≤ i then none else some (at_ i)
    else some (at_ m)
  | none => some (at_ m)

/-- Bytes of a row of the table; what lies past the end of the store is open (log entry 4). -/
def TileSt.rowBytes (t : TileSt) (junk : Nat) (a : Option Nat) (n : Nat) : List Byte :=
  match a with
  | none => List.replicate n 0
  | some a =>
    let k := min n (1048576 - a)
    t.read .store a k ++ leBytes (n - k) junk

/-- Elements of a byte row. -/
def unpackElems (bts n : Nat) (b : List Byte) : List Nat :=
  let x := leNat b
  (List.range n).map fun i => bits x (bts * i) bts

/-- The E codes of streamed row m as they reach step 3. -/
def TileSt.entryRow (t : TileSt) (f : MxRun) (pro : Option Pro) (junk m : Nat) : List Nat :=
  let fmt := f.fmt.toNat
  let n := rowElems fmt
  match pro with
  | none => unpackElems (fmtBits fmt) n (t.rowBytes junk (t.rowAddr f none m) (rowLen fmt))
  | some p =>
    let e := fmtBits (p.entry fmt)
    if p.staged then unpackElems e n (t.read .store (p.pstage + m * p.pad fmt) (p.entryLen fmt))
    else unpackElems e n (t.rowBytes junk (t.rowAddr f pro m) (p.entryLen fmt))

/-- The scale of the element at row m and k-row k (R206). -/
def TileSt.scaleIn (t : TileSt) (p : Pro) (m k : Nat) : Num :=
  let w := scaleBytes p.scFmt
  if p.scKind = 0 then scaleValue p.scFmt (t.readN .store (p.scAddr + k * w) w)
  else if p.scKind = 1 then scaleValue p.scFmt (t.readN .store (p.scAddr + m * w) w)
  else
    let h := t.statHead p.scAddr
    if t.statClosed p.scAddr && h.strat == 2 then
      fp32.decode (t.readN .store (statEntry p.scAddr h.nb m (p.kblock + k / 64) + 4) 4)
    else .fin false 1 0

/-- Step 3: convert and scale a row (R204). `side` is the SIDE of a NaN scale's event. -/
def TileSt.convertRow (t : TileSt) (f : MxRun) (p : Pro) (ctl : NumCtl) (kbase side m : Nat) (l : List Nat) : List Nat × MxEv :=
  if !p.convert && !p.scaleIn then (l, {})
  else
    let fmt := (fmtOf f.fmt.toNat).getD .fp32
    let e := (fmtOf (p.entry f.fmt.toNat)).getD .fp32
    let rd : Round := match ctl.rnd p.rnd false with
      | .rtz => .rtz
      | _ => .rne
    let r := (List.zip (List.range l.length) l).map fun x =>
      let v := e.decode x.2
      let sc := if p.scaleIn then t.scaleIn p m x.1 else .fin false 1 0
      let y := if p.scaleIn then v.mul sc else v
      let pos : NanPos := ⟨0, side, m, 0, kbase + x.1⟩
      let c := fmt.convert rd (ctl.ieee p.ovf fmt) y
      let ev := (if sc.isNan then mxNan (m + x.1) pos else {}).and (mxInvalid (madeNan [v, sc] y) (m + x.1) pos)
      (c.code, { ev with ovf := c.ovf, inv := ev.inv || c.inv })
    (r.map Prod.fst, (r.map Prod.snd).foldl MxEv.and {})

/-- TRANSPOSE: write the staged rows (R205). -/
def TileSt.transpose (t : TileSt) (f : MxRun) (p : Pro) : TileSt :=
  let fmt := f.fmt.toNat
  let e := fmtBits (p.entry fmt)
  let src := t
  (List.range f.m.toNat).foldl (fun t m =>
    t.write .store (p.pstage + m * p.pad fmt)
      (packElems e ((List.range (rowElems fmt)).map fun k =>
        src.elem .store (f.src.toNat * 64 + k * (f.rstride.toNat * 64)) e m))) t

end Sys2Proof.Machine
end

