-- ==== Sys2Proof/Machine/Matrix.lean ====
section
/-! DEFINITION. MXLOAD, MXSWAP and MXRUN (R99 to R118, R182 to R184), their issue checks, and what follows a check
mismatch: the local replay and the start of a whole replay (R112 to R117). -/
namespace Sys2Proof.Machine
open Sys2Proof

def ArraySt.slot (a : ArraySt) (n : Nat) : SlotSt :=
  match n % 4 with
  | 0 => a.s0
  | 1 => a.s1
  | 2 => a.s2
  | _ => a.s3

def ArraySt.setSlot (a : ArraySt) (n : Nat) (v : SlotSt) : ArraySt :=
  match n % 4 with
  | 0 => { a with s0 := v }
  | 1 => { a with s1 := v }
  | 2 => { a with s2 := v }
  | _ => { a with s3 := v }

def TileSt.modArr (t : TileSt) (f : ArraySt → ArraySt) : TileSt := { t with arr := f t.arr }

/-- An MXLOAD is under way (R99, R183). -/
def TileSt.loading (t : TileSt) : Bool := t.flights.any fun f => f.word.toNat % 256 == 0x20

/-! ## MXLOAD and MXSWAP (R183, R99, R100) -/

/-- Field values that R183 allows. -/
def loadFieldsOk (f : MxLoad) : Bool :=
  decide (f.fmt.toNat < 8) && ((f.fmt == 0) == (f.part != 0)) && (fourBit f.fmt.toNat || !f.half) &&
    decide (f.krows.toNat ≤ if fourBit f.fmt.toNat && !f.half then 128 else 64)

/-- Fill the shadow set. -/
def TileSt.loadShadow (t : TileSt) (f : MxLoad) (word : QWord) : TileSt :=
  let r := t.loadCells f
  t.modArr fun a => { a with
    loads := a.loads + 1
    shadow := { loaded := true, fmt := f.fmt.toNat, part := f.part.toNat, half := f.half, krows := f.krows.toNat
                cells := r.1, splitZeros := r.2, held := resOf [f.opnd], backed := true, load := word
                chkCol := a.loads % 64 } }

def State.mxload (s : State) (c : Issuing) (u : Upset) (f : MxLoad) : State :=
  let bad := firstFail [(loadFieldsOk f, rsReserved), (operandsOk [f.opnd] [], rsAddress)]
  if bad.isNone && (s.tile c.ix).loading then s
  else
    let held := (s.tile c.ix).arr.shadow.held
    s.dispatchOp c bad (resOf [f.opnd]) [] none fun s => s.underUpset c u fun s => s.modTile c.ix fun t =>
      let keep (l : List Flight) : List Flight := match l.reverse with
        | x :: r => ({ x with reads := dedup (x.reads ++ held) } :: r).reverse
        | [] => []
      { t.loadShadow f c.word with flights := keep t.flights }

/-- MXLOAD (R183). -/
def execMxload (tile : TileId) (e : Engine) (u : Upset) (s : State) : Result :=
  .next (s.issueOp tile e 0x20 fun c i s => match i with
    | .mxload f => s.mxload c u f
    | _ => s)

/-- Exchange the sets; the regions of the set that becomes inactive are free (R100). -/
def ArraySt.swap (a : ArraySt) : ArraySt :=
  { a with active := a.shadow, shadow := { a.active with held := [], backed := false } }

/-- MXSWAP (R99): what waited for the regions that it frees is tested again (R155). -/
def execMxswap (tile : TileId) (e : Engine) (u : Upset) (s : State) : Result :=
  .next (s.issueOp tile e 0x21 fun c _ s =>
    if (s.tile c.ix).loading then s
    else s.controlUnder c u none fun s => ((s.modTile c.ix fun t => (t.modArr ArraySt.swap).retry).advance c).settle c.tile)

/-! ## MXRUN (R184) -/

/-- The set as an MXRUN sees it: one that records no load runs as KROWS 0 with PART hi. -/
def StatSet.running (w : StatSet) : StatSet := if w.loaded then w else { w with krows := 0, part := 1, held := [] }

/-- How much an MXRUN raises its slot's k-row count. -/
def StatSet.grow (w : StatSet) (fmt : Nat) : Nat := if fmt = 0 && w.part != 1 then 0 else w.krows

/-- Field values that R182 and R184 allow. -/
def runFieldsOk (f : MxRun) : Bool :=
  decide (f.fmt.toNat ≤ 8) && decide (f.m.toNat ≤ 64) && decide (f.mode.toNat < 6) && (f.mode == 5 || f.cmp == 0) &&
    ((f.fmt == 0) == (f.pass != 0))

def MxRun.fe (f : MxRun) : Bool := runsFe f.fmt.toNat f.mode.toNat

/-- The plan of an MXRUN whose slot already counts its k-rows. -/
def State.mxPlan (s : State) (ix : Nat) (f : MxRun) : MxPlan :=
  let a := (s.tile ix).arr
  let w := a.active.running
  let fmt := f.fmt.toNat
  { set := w, fe := f.fe, mode := (mxModeOf f.mode.toNat).getD .mac, modeCode := f.mode.toNat, cmp := f.cmp.toNat, fmt := fmt
    parts := if fmt = 0 then passParts f.pass.toNat w.part else [0]
    m := f.m.toNat, slot := f.slot.toNat, acc := f.acc
    kbase := (a.slot f.slot.toNat).krows - w.grow fmt, tol := bits (s.latched ix).chk.toNat 0 5
    w := (List.range w.krows).map fun k => (List.range 64).map fun n => w.weight k n }

/-- Start an accumulation, or go on with one (R184). -/
def SlotSt.start (sl : SlotSt) (f : MxRun) (grow : Nat) : SlotSt :=
  let kind := if f.fe then SlotKind.fp32e else SlotKind.exact
  if f.acc then { sl with kind := kind, krows := sl.krows + grow }
  else
    { kind := kind, krows := grow
      entries := if sl.kind = kind then sl.entries else sl.entries.filter fun e => decide (e.1 < f.m.toNat * 64) }

/-- Count in MX_CHK_UNCHECKED (R109, R118). -/
def State.countUnchecked (s : State) (n : Nat) : State :=
  let c := s.tiles.regs.chk
  { s with tiles := { s.tiles with regs := { s.tiles.regs with
    chk := Table.put c 2 (BitVec.ofNat 32 (sat 32 ((Table.get 0 c 2).toNat + n))) } } }

/-- Run product rows from the `start`-th on: into the slot, with their flags and events; a mismatch waits for the
tick (R31, R112). -/
def State.mxRows (s : State) (c : Issuing) (f : MxRun) (pro : Option Pro) (start : Nat) (rest : List RowUpset) : State :=
  let plan := s.mxPlan c.ix f
  let (junk, s) := if (pro.map Pro.gather).getD false then s.draw else (0, s)
  let (side, s) : Nat × State := match pro with
    | some p =>
      if !p.scaleIn then (0, s) else if p.scKind = 1 then (2, s)
      else
        let (v, s) := s.draw
        (v % 9, s)
    | none => (0, s)
  let t := s.tile c.ix
  let ctl := s.numCtl c.ix
  let rows := (List.range plan.m).map fun m =>
    let l := t.entryRow f pro junk m
    match pro with
    | some p => t.convertRow f p ctl plan.kbase side m l
    | none => (l, {})
  let o := plan.run rows (t.arr.slot plan.slot) start rest
  let s := (s.modTile c.ix fun t => t.modArr fun a => a.setSlot plan.slot o.slot).countUnchecked o.unchecked |>.countEv (s.siteOf c.tile).ix 0x006 o.unchecked
  let s := (s.countEv (s.siteOf c.tile).ix (opsEvent plan.fmt) o.ops).countEv (s.siteOf c.tile).ix 0x005 o.gated
  let s := s.numEvents c.ix c.p c.pc c.d o.ev.num
  match o.miss with
  | none => s
  | some (i, so, sc, d) =>
    let second := !(s.pack c.p).misses.isEmpty || ((s.desc? c.d.id).map fun x => x.run.replayed).getD false
    let s := if second then s.latchFault c.d.id stCheck else s
    s.modPack c.p fun k => { k with
      misses := k.misses ++ [⟨c.tile, c.pc, c.word, i, i / plan.parts.length, plan.modeCode, so, sc, d, o.rest⟩] }

/-- The effect of an MXRUN after its issue: count and kind of its slot, prologue taints and staging, then its rows,
at once or when a hook has returned the last. -/
def State.mxrunEffect (s : State) (c : Issuing) (u : Upset) (f : MxRun) (pro : Option Pro) : State :=
  let m := f.m.toNat
  let s := s.modTile c.ix fun t => t.modArr fun a =>
    a.setSlot f.slot.toNat ((a.slot f.slot.toNat).start f (a.active.running.grow f.fmt.toNat))
  if m = 0 then s
  else match pro with
    | none => s.mxRows c f none 0 u.rows
    | some p =>
      let t := s.tile c.ix
      let s := (List.range m).foldl (fun (s : State) i =>
        if (t.rowAddr f pro i).isNone then s.taint c.tile c.e.num c.pc rsAddress c.word else s) s
      let s := if p.scaleIn && p.scKind == 2 && !t.statClosed p.scAddr then s.taint c.tile c.e.num c.pc rsReserved c.word else s
      let s := if p.transpose then s.modTile c.ix fun t => t.transpose f p else s
      if p.hook then
        let (junk, s) := if p.gather then s.draw else (0, s)
        let rows := (List.range m).map fun i => t.rowBytes junk (t.rowAddr f pro i) (64 * p.units)
        s.startHook p.port
          { number := 0, tile := c.ix, engine := c.e, desc := c.d.id, pc := c.pc, word := c.word, kind := 0
            fmt := p.hookFmt, blocks := [⟨p.pstage, p.pad f.fmt.toNat, rows⟩], perBlock := m, rows := m
            rowBytes := p.entryLen f.fmt.toNat }
      else s.mxRows c f pro 0 u.rows

/-- MXRUN with its prologue record, if it names one. -/
def State.mxrunWith (s : State) (c : Issuing) (u : Upset) (f : MxRun) (pro : Option Pro) : State :=
  let t := s.tile c.ix
  let fmt := f.fmt.toNat
  let w := t.arr.active.running
  let sl := t.arr.slot f.slot.toNat
  let kind := if f.fe then SlotKind.fp32e else SlotKind.exact
  let (srcs, dsts) := t.runOpnds f pro
  let proOk := match pro with
    | some p => p.ok fmt && (!p.hook || s.portEnabled p.port)
    | none => true
  let record := if f.proEn then regionsOf (f.proRec.toNat * 64) 64 else []
  let bad := firstFail
    [(proOk, rsReserved),
     (pairOk fmt f.mode.toNat t.arr.active && (!f.acc || sl.kind == .none || sl.kind == kind), rsPair),
     (operandsOk srcs dsts, rsAddress)]
  let issue := firstFail
    [(decide ((if f.acc then sl.krows else 0) + w.grow fmt ≤ 2 ^ 24), rsKBound), (!(c.d.exact && f.fe), rsExact)]
  let used (l : List Opnd) : List Nat := if f.m = 0 then [] else resOf l
  s.dispatchOp c bad (dedup (used srcs ++ record)) (resAcc f.slot.toNat :: used dsts) issue
    fun s => s.underUpset c u fun s => s.mxrunEffect c u f pro

/-- MXRUN: its own fields, then its record, which must have no pending writer (R176). -/
def State.mxrun (s : State) (c : Issuing) (u : Upset) (f : MxRun) : State :=
  if !runFieldsOk f then s.skip c rsReserved
  else if !f.proEn then s.mxrunWith c u f none
  else
    let a := f.proRec.toNat * 64
    match s.recordReady c a 64 with
    | some r => s.holdAt c (.issue r)
    | none => s.mxrunWith c u f (some (proOf ((s.tile c.ix).readN .store a 64)))

/-- MXRUN (R184). -/
def execMxrun (tile : TileId) (e : Engine) (u : Upset) (s : State) : Result :=
  .next (s.issueOp tile e 0x22 fun c i s => match i with
    | .mxrun f => s.mxrun c u f
    | _ => s)

/-! ## After a hook or a mismatch -/

/-- The MXRUN in flight that a word spells, with its record as it read it. -/
def State.runOf (s : State) (ix : Nat) (word : QWord) : Option (MxRun × Option Pro) :=
  match TileWord.fields word with
  | some (.mxrun f) =>
    some (f, if f.proEn then some (proOf ((s.tile ix).readN .store (f.proRec.toNat * 64) 64)) else none)
  | _ => none

/-- The last row of a prologue hook is staged: the rows stream (R205). -/
def State.stagedHook (s : State) (h : HookSt) : State :=
  match s.runOf h.tile h.word, s.packOf (tileOfIx h.tile), s.desc? h.desc with
  | some (f, pro), some p, some d => s.mxRows ⟨tileOfIx h.tile, h.tile, h.engine, p, d, h.pc, h.word⟩ f pro 0 []
  | _, _, _ => s

/-- The words of MX_CHK_LAST_* for a mismatch (R118). -/
def State.missWords (s : State) (p : Nat) (d : Desc) (m : Miss) (whole second : Bool) : List Nat :=
  let site := s.siteOf m.tile
  [site.prow.val + 64 * site.pcol.val + 2 ^ 11 * p + 2 ^ 17 * m.row + 2 ^ 23 * m.mode + 2 ^ 26 * b2n whole +
     2 ^ 27 * b2n second + 2 ^ 28, d.f.job.toNat]

/-- Record a mismatch: the registers and the LOG (R118, R384). -/
def State.recordMiss (s : State) (p : Nat) (d : Desc) (m : Miss) (whole second : Bool) : State :=
  let w := s.missWords p d m whole second
  let put (t : Table Word) (k v : Nat) : Table Word := Table.put t k (BitVec.ofNat 32 v)
  let c := s.tiles.regs.chk
  let c := put (put (put (put c 4 (w.getD 0 0)) 5 (w.getD 1 0)) 6 m.diff) 7 (m.diff / 2 ^ 32)
  let s := { s with tiles := { s.tiles with regs := { s.tiles.regs with chk := c } } }
  s.raise .log 0x0100 p (w.flatMap (leBytes 4) ++ leBytes 4 m.pc ++ leBytes 12 m.sOut ++ leBytes 12 m.sChk)

/-- Count in a half of MX_CHK_COUNT: 0 REPLAY_OK, 1 SECOND. -/
def State.countReplay (s : State) (half : Nat) : State :=
  let c := s.tiles.regs.chk
  let v := (Table.get 0 c 1).toNat
  { s with tiles := { s.tiles with regs := { s.tiles.regs with
    chk := Table.put c 1 (BitVec.ofNat 32 (setBits v (16 * half) 16 (sat 16 (bits v (16 * half) 16 + 1)))) } } }

/-- The replay is whole (R113). -/
def State.wholeReplay (s : State) (d : Desc) : Bool :=
  d.replayable && bit (s.pack d.pack).lat.chk.toNat 5 && !d.run.sentData && !d.run.cueActed

/-- Reload the active set from its regions (R114). -/
def TileSt.reload (t : TileSt) : TileSt :=
  match TileWord.fields t.arr.active.load with
  | some (.mxload f) =>
    let r := t.loadCells f
    t.modArr fun a => { a with active := { a.active with cells := r.1, splitZeros := r.2 } }
  | _ => t

/-- A local replay: the tile reloads its set and streams again from the failed row; a clean replay is counted, and the
tile is to be quarantined at the Pack's next quiescent point (R114, R116). -/
def State.localReplay (s : State) (p : Nat) (d : Desc) (m : Miss) : State :=
  let s := s.modPack p fun k => { k with misses := [], suspects := (k.suspects.filter fun x => x.1 != m.tile) ++ [(m.tile, d.f.job.toNat)] }
  let s := s.modTile m.tile.ix TileSt.reload
  match s.runOf m.tile.ix m.word with
  | some (f, pro) =>
    let s := s.mxRows ⟨m.tile, m.tile.ix, .mx, p, d, m.pc, m.word⟩ f pro m.at_ m.rest
    if (s.pack p).misses.isEmpty then
      (s.countReplay 0).modDesc d.id fun d => { d with run := { d.run with matched := true } }
    else s
  | none => s

/-- The mismatches of a Pack in the order of its tiles. -/
def sortMisses (l : List Miss) : List Miss :=
  l.foldl (fun acc m => (acc.filter fun x => decide (x.tile.ix ≤ m.tile.ix)) ++ m :: acc.filter fun x => decide (m.tile.ix < x.tile.ix)) []

/-- Mismatches that start no replay and do not end the descriptor: each is recorded (R118). -/
def State.recordMisses (s : State) (p : Nat) (d : Desc) (l : List Miss) : State :=
  l.foldl (fun s m => s.recordMiss p d m false false) s

/-- A second mismatch ends the descriptor; those after it are recorded (R112, R118). -/
def State.secondMiss (s : State) (p : Nat) (d : Desc) (m : Miss) (whole : Bool) (rest : List Miss) : State :=
  (((s.recordMiss p d m whole true).countReplay 1).recordMisses p d rest).endDesc d.id stCheck

/-- Class 5: the check mismatches of a Pack that the tick samples (R112 to R115, R117). Those of a descriptor that this
tick has already ended start no replay. -/
def State.sampleMisses (s : State) (p : Nat) : State :=
  match s.running p, sortMisses (s.pack p).misses with
  | some d, m :: rest =>
    if d.phase != .running then (s.recordMisses p d (m :: rest)).modPack p fun k => { k with misses := [] }
    else if d.run.replayed then s.secondMiss p d m d.run.whole rest
    else if !rest.isEmpty then (s.recordMiss p d m (s.wholeReplay d) false).secondMiss p d (rest.headD m) false rest.tail
    else if s.wholeReplay d then
      let s := (s.recordMiss p d m true false).modDesc d.id fun d => { d with run := { d.run with replayed := true, whole := true } }
      (s.stopPack p d.id).modPack p fun k => { k with replaying := some m.tile, spared := false, misses := [] }
    else
      let s := s.modDesc d.id fun d => { d with run := { d.run with replayed := true } }
      if (s.tile m.tile.ix).arr.active.backed then (s.recordMiss p d m false false).localReplay p d m
      else s.secondMiss p d m false []
  | _, _ => s

end Sys2Proof.Machine
end

