-- ==== Sys2Proof/Machine/Epilogue.lean ====
section
/-! DEFINITION. The epilogue record and the arithmetic of its steps: scales, bias, residual, activation, row statistics
and conversion (R136, R208 to R212, R215 to R220). -/
namespace Sys2Proof.Machine
open Sys2Proof

/-! ## The record (R208) -/

structure Epi where
  bias : Bool
  res : Bool
  act : Bool
  stat : Bool
  rred : Bool
  cred : Bool
  send : Bool
  hook : Bool
  biasFmt : Nat
  resFmt : Nat
  biasAddr : Nat
  resAddr : Nat
  resStride : Nat
  actTable : Nat
  expTable : Nat
  rredOp : Nat
  credOp : Nat
  ifmt : Nat
  rredAddr : Nat
  credAddr : Nat
  kind : Nat
  strat : Nat
  final : Bool
  target : Nat
  statAddr : Nat
  holdAddr : Nat
  holdLen : Nat
  widthM1 : Nat
  eps : Nat
  sendKind : Nat
  sigEn : Bool
  sendSem : Nat
  sendRaddr : Nat
  sendCol : Nat
  sendRow : Nat
  sendFlow : Nat
  sendGroup : Nat
  port : Nat
  through : Bool
  /-- a bit that R208 reserves is set -/
  odd : Bool
  deriving DecidableEq, Repr

def epiOf (x : Nat) : Epi :=
  { bias := bit x 0, res := bit x 1, act := bit x 2, stat := bit x 3, rred := bit x 4, cred := bit x 5, send := bit x 6
    hook := bit x 7, biasFmt := bits x 8 4, resFmt := bits x 12 4, biasAddr := bits x 16 14 * 64
    resAddr := bits x 32 14 * 64, resStride := bits x 48 14 * 64, actTable := bits x 64 2, expTable := bits x 66 2
    rredOp := bits x 68 2, credOp := bits x 70 2, ifmt := bits x 72 4, rredAddr := bits x 80 14 * 64
    credAddr := bits x 96 14 * 64, kind := bits x 112 2, strat := bits x 114 2, final := bit x 116, target := bits x 117 2
    statAddr := bits x 128 14 * 64, holdAddr := bits x 144 14 * 64, holdLen := bits x 160 14, widthM1 := bits x 176 16
    eps := bits x 192 32, sendKind := bits x 224 2, sigEn := bit x 226, sendSem := bits x 232 6
    sendRaddr := bits x 240 14 * 64, sendCol := bits x 256 5, sendRow := bits x 264 5, sendFlow := bits x 272 16
    sendGroup := bits x 288 8, port := bits x 296 6, through := bit x 302
    odd := [(30, 2), (46, 2), (62, 2), (76, 4), (94, 2), (110, 2), (119, 1), (120, 8), (142, 2), (158, 2), (174, 2),
      (227, 5), (238, 2), (254, 2), (261, 3), (269, 3), (303, 721)].any fun e => bits x e.1 e.2 != 0 }

/-- ONLINE, HOLD and DEFER (R208). -/
def Epi.online (e : Epi) : Bool := e.stat && e.strat == 0
def Epi.rescales (e : Epi) : Bool := e.online && !e.final

/-- Blocks in a row (R215). -/
def Epi.nb (e : Epi) : Nat := ceilDiv (e.widthM1 + 1) 64

/-- The checks of R208 that fail with RESERVED_FIELD. -/
def Epi.ok (e : Epi) (strict : Bool) (slot : Nat) : Bool :=
  let eps := fp32.decode e.eps
  !e.odd && decide (e.biasFmt < 8) && decide (e.resFmt < 8) && decide (e.ifmt < 8) && (strict || e.ifmt == 0) &&
    (e.bias || (e.biasFmt == 0 && e.biasAddr == 0)) && (e.res || (e.resFmt == 0 && e.resAddr == 0 && e.resStride == 0)) &&
    (e.act || e.actTable == 0) && (e.rred || (e.rredOp == 0 && e.rredAddr == 0)) &&
    (e.cred || (e.credOp == 0 && e.credAddr == 0)) &&
    (e.stat || (e.expTable == 0 && e.kind == 0 && e.strat == 0 && !e.final && e.target == 0 && e.statAddr == 0 &&
      e.holdAddr == 0 && e.holdLen == 0 && e.widthM1 == 0 && e.eps == 0)) &&
    (e.send || (e.sendKind == 0 && !e.sigEn && e.sendSem == 0 && e.sendRaddr == 0 && e.sendCol == 0 && e.sendRow == 0 &&
      e.sendFlow == 0 && e.sendGroup == 0)) &&
    (e.hook || (e.port == 0 && !e.through)) && decide (e.kind < 2) && e.strat != 3 && e.sendKind != 3 &&
    (!e.final || (e.stat && e.kind == 0 && e.strat == 0 && e.target == 0)) && !(e.online && e.kind == 1) &&
    (!e.rescales || e.target != slot) && !eps.special && !eps.lt (.zero false)

/-- Units of 64 bytes that a HOLD statistic needs (R220): element bytes doubled, so that 4-bit formats stay whole. -/
def holdUnits (nb rows elemBits : Nat) : Nat := ceilDiv (64 + 4 * nb) 64 + ceilDiv (rows * nb * elemBits) 8

/-- Bits of a held value: FP32e in 8 bytes, or IFMT under STRICT (R220). -/
def Epi.heldBits (e : Epi) (strict : Bool) : Nat := if strict then fmtBits e.ifmt else 64

/-- Address in the hold area of the values of block b of row m. -/
def Epi.heldAddr (e : Epi) (strict : Bool) (m b : Nat) : Nat :=
  e.holdAddr + 64 * ceilDiv (64 + 4 * e.nb) 64 + (m * e.nb + b) * (8 * e.heldBits strict)

/-! ## Rounding and the generator -/

/-- What a drain has drawn and raised so far. -/
structure Acc where
  gen : DWord
  ev : NumEv := {}
  deriving DecidableEq, Repr

def Acc.add (a : Acc) (e : NumEv) : Acc := { a with ev := a.ev.andThen e }

/-- Settings of a drain. -/
structure DrainCtl where
  strict : Bool
  ctl : NumCtl
  fmt : Fmt
  ifmt : Fmt
  rnd : Nat
  ovf : Nat
  deriving DecidableEq, Repr

/-- Position of an event of the drain (R146). -/
def drainPos (side m n : Nat) : NanPos := ⟨2, side, m, n, 0⟩

/-- Round row m into a format: its codes. -/
def Acc.round (a : Acc) (f : Fmt) (m : RndMode) (ieee : Bool) (row : Nat) (l : List Num) : List Nat × Acc :=
  let r := (List.zip (List.range l.length) l).foldl
    (fun (r : Rounded) x => r.push f m ieee x.2 {} (drainPos 4 row x.1)) { gen := a.gen, ev := a.ev }
  (r.codes.reverse, ⟨r.gen, r.ev⟩)

/-- The rounding of a step under STRICT, into IFMT; SR is RNE but in step 1 (R211). -/
def DrainCtl.step (d : DrainCtl) (first : Bool) (row : Nat) (l : List Num) (a : Acc) : List Num × Acc :=
  if d.strict then
    let (c, a) := a.round d.ifmt (d.ctl.rnd d.rnd (first && d.ifmt != .fp32)) (d.ctl.ieee d.ovf d.ifmt) row l
    (c.map d.ifmt.decode, a)
  else (l, a)

/-- One value under STRICT, or unchanged. -/
def DrainCtl.step1 (d : DrainCtl) (pos : NanPos) (x : Num) : Num × NumEv :=
  if d.strict then
    let rd : Round := match d.ctl.rnd d.rnd false with
      | .rtz => .rtz
      | _ => .rne
    let c := d.ifmt.convert rd (d.ctl.ieee d.ovf d.ifmt) x
    (d.ifmt.decode c.code, d.ifmt.convertEv x c pos)
  else (x, {})

/-- The input of ACT and STAT: FP32e with STRICT clear (R210). -/
def DrainCtl.input (d : DrainCtl) (x : Num) : Num := if d.strict then x else fp32e.decode (toE x)

/-- An operation rounded to FP32e (R210). -/
def eStep (x : Num) : Num × NumEv := (fp32e.decode (toE x), {})

/-- Step 6: convert row m into FMT (R209). -/
def DrainCtl.convert (d : DrainCtl) (row : Nat) (l : List Num) (a : Acc) : List Byte × Acc :=
  let (c, a) := a.round d.fmt (d.ctl.rnd d.rnd (d.fmt != .fp32)) (d.ctl.ieee d.ovf d.fmt) row l
  (packElems d.fmt.bits c, a)

/-- Map a row with its column numbers, gathering events. -/
def mapRow (l : List Num) (a : Acc) (f : Nat → Num → Num × NumEv) : List Num × Acc :=
  let r := (List.zip (List.range l.length) l).map fun e => f e.1 e.2
  (r.map Prod.fst, a.add (evsOf (r.map Prod.snd)))

/-! ## Steps 1 to 4 (R136, R209) -/

/-- Step 1: the entries of a slot row under the row and channel scales, and FINAL's r. -/
def scaleRow (m : Nat) (entries : List QWord) (sr : Num) (sc : Nat → Num) (r : Num) (a : Acc) : List Num × Acc :=
  mapRow (entries.map entryNum) a fun n v =>
    let y := ((v.mul sr).mul (sc n)).mul r
    (y, evsOf [nanIf v.isNan (drainPos 8 m n), nanIf sr.isNan (drainPos 2 m n), nanIf (sc n).isNan (drainPos 3 m n),
      invalidAt (madeNan [v, sr, sc n, r] y) (drainPos 4 m n)])

/-- Add a row to a row (BIAS and RESIDUAL). -/
def addRow (m : Nat) (other : Nat → Num) (l : List Num) (a : Acc) : List Num × Acc :=
  mapRow l a fun n v => (v.add (other n), invalidAt (madeNan [v, other n] (v.add (other n))) (drainPos 4 m n))

/-- A table evaluation: in FP32e, or exactly as VTAB and then rounded into IFMT (R210, R211). -/
def DrainCtl.table (d : DrainCtl) (nl : Memory) (table m n : Nat) (x : Num) : Num × NumEv :=
  if d.strict then
    let (y, e1) := vtabEval nl table x (drainPos 4 m n)
    let (z, e2) := d.step1 (drainPos 4 m n) y
    (z, e1.andThen e2)
  else vtabBy eStep nl table x (drainPos 4 m n)

/-- Steps 1 to 4 of one row. -/
def TileSt.frontSteps (t : TileSt) (d : DrainCtl) (f : MxDrain) (e : Option Epi) (r : Num) (m : Nat) (a : Acc) : List Num × Acc :=
  let sl := t.arr.slot f.slot.toNat
  let wr := scaleBytes f.rscFmt.toNat
  let wc := scaleBytes f.cscFmt.toNat
  let sr := scaleValue f.rscFmt.toNat (t.readN .store (f.rsc.toNat * 64 + m * wr) wr)
  let sc (n : Nat) : Num := scaleValue f.cscFmt.toNat (t.readN .store (f.csc.toNat * 64 + n * wc) wc)
  let (l, a) := scaleRow m ((List.range 64).map fun n => Table.get 0 sl.entries (m * 64 + n)) sr sc r a
  match e with
  | none => (l, a)
  | some e =>
    let (l, a) := d.step true m l a
    let src (fmt base n : Nat) : Num := t.source ((fmtOf fmt).getD .fp32) base n
    let (l, a) := if e.bias then
        let (l, a) := addRow m (src e.biasFmt e.biasAddr) l a
        d.step false m l a
      else (l, a)
    let (l, a) := if e.res then
        let (l, a) := addRow m (src e.resFmt (e.resAddr + m * e.resStride)) l a
        d.step false m l a
      else (l, a)
    if e.act then mapRow l a fun n x => d.table t.mem.nl e.actTable m n (d.input x) else (l, a)

/-! ## Row statistics (R216, R217, R219) -/

/-- A reduction of the FP32 roundings (RNE, IEEE mode) of a list; the roundings set OVERFLOW (R142, R216). -/
def statTree (tree : List Num → Num × NumEv) (l : List Num) : Num × NumEv :=
  let r := l.map fp32Step
  let (y, ev) := tree (r.map Prod.fst)
  (y, (evsOf (r.map Prod.snd)).andThen ev)

/-- Exponentials of a row against a maximum: the difference is rounded, then EXP_TABLE is evaluated (R216). -/
def DrainCtl.exps (d : DrainCtl) (e : Epi) (nl : Memory) (m : Nat) (mx : Num) (l : List Num) (a : Acc) : List Num × Acc :=
  if mx = .inf true then (l.map fun _ => .zero false, a)
  else mapRow l a fun n x =>
    let y := x.sub mx
    let (z, e1) := if d.strict then d.step1 (drainPos 4 m n) y else eStep y
    let (w, e2) := d.table nl e.expTable m n z
    (w, evsOf [invalidAt (madeNan [x, mx] y) (drainPos 4 m n), e1, e2])

/-- A row's statistic: what goes on to the later steps, and the words of its entry (R216). -/
def DrainCtl.blockStat (d : DrainCtl) (e : Epi) (nl : Memory) (m : Nat) (l : List Num) (a : Acc) : (List Num × Nat × Nat) × Acc :=
  let x := l.map d.input
  let pos := drainPos 4 m 0
  if e.kind = 0 then
    let mx := foldNum Num.max x
    let (v, a) := d.exps e nl m mx x a
    let (mx', e0) := fp32Step mx
    let (s, ev) := statTree (sumTree pos) v
    ((v, fp32Code mx', fp32Code s), a.add (e0.andThen ev))
  else
    let (s, ev) := statTree (sumSquares pos) x
    ((x, fp32Code s, 0), a.add ev)

/-- 1 ÷ √x, exact but for a sticky last place. -/
def Num.rsqrt (x : Num) : Num :=
  match x with
  | .nan => .nan
  | .zero s => .inf s
  | .inf s => if s then .nan else .zero false
  | .fin s m e =>
    if s then .nan
    else
      let odd := e % 2 != 0
      let m' := if odd then 2 * m else m
      let e' := if odd then e - 1 else e
      let k := Nat.log2 m' + 64
      let q := 2 ^ (2 * k) / m'
      let r := isqrt q
      .fin false (2 * r + (if r * r * m' = 2 ^ (2 * k) then 0 else 1)) (-(e' / 2) - k - 1)

/-- An operation rounded to FP32, with its flags and a NaN that it makes. -/
def stat32 (pos : NanPos) (args : List Num) (y : Num) : Num × NumEv :=
  let (z, ev) := fp32Step y
  (z, ev.andThen (invalidAt (madeNan args y) pos))

/-- The g of each block of a SOFTMAX row from its A and G words (R217). -/
def softmaxG (nl : Memory) (table m : Nat) (w : List (Num × Num)) : List Num × NumEv :=
  let pos := drainPos 4 m 0
  let live := w.filter fun x => x.1 != .inf true
  let mx := foldNum Num.max (live.map Prod.fst)
  let c := w.map fun x =>
    if x.1 = .inf true then none
    else
      let (d, e1) := stat32 pos [x.1, mx] (x.1.sub mx)
      let (y, e2) := vtabEval nl table d pos
      let (h, e3) := stat32 pos [x.2, y] (x.2.mul y)
      some (y, h, evsOf [e1, e2, e3])
  let (l, ev) := (treeE (addNode pos) (treeLevels c.length) (c.map fun x => x.map fun y => (y.2.1, y.2.2))).getD (.zero false, {})
  let (r, e4) := stat32 pos [l] ((Num.fin false 1 0).div l)
  if l.isNan then (w.map fun _ => .nan, ev)
  else if l.isZero then (w.map fun _ => .zero false, ev)
  else
    let g := c.map fun x => match x with
      | none => (Num.zero false, ({} : NumEv))
      | some y => stat32 pos [y.1, r] (y.1.mul r)
    (g.map Prod.fst, evsOf (ev :: e4 :: g.map Prod.snd))

/-- The g of a row of an RMS statistic (R217). -/
def rmsG (width eps m : Nat) (r : List Num) : Num × NumEv :=
  let pos := drainPos 4 m 0
  let (q, e1) := sumTree pos r
  let (a, e2) := stat32 pos [q] (q.div (Num.ofInt width 0))
  let (b, e3) := stat32 pos [a] (a.add (fp32.decode eps))
  let (s, e4) := stat32 pos [b] b.rsqrt
  (s, evsOf [e1, e2, e3, e4])

/-- The A and G words of a row. -/
def TileSt.statRow (t : TileSt) (e : Epi) (m : Nat) : List (Num × Num) :=
  (List.range e.nb).map fun b =>
    let x := statEntry e.statAddr e.nb m b
    (fp32.decode (t.readN .store x 4), fp32.decode (t.readN .store (x + 4) 4))

/-- Close a statistic: the g of each row and block, written into the G words (R217). -/
def TileSt.closeStat (t : TileSt) (e : Epi) (rows : Nat) (a : Acc) : List (List Num) × TileSt × Acc :=
  (List.range rows).foldl (fun (acc : List (List Num) × TileSt × Acc) m =>
    let w := t.statRow e m
    let (g, ev) := if e.kind = 0 then softmaxG t.mem.nl e.expTable m w
      else
        let (s, ev) := rmsG (e.widthM1 + 1) e.eps m (w.map Prod.fst)
        (w.map fun _ => s, ev)
    let t' := (List.zip (List.range g.length) g).foldl (fun (t : TileSt) x =>
      t.writeN .store (statEntry e.statAddr e.nb m x.1 + 4) 4 (fp32Code x.2)) acc.2.1
    (acc.1 ++ [g], t', acc.2.2.add ev)) ([], t, a)

/-- An exact value on the accumulator's grid, RNE, saturating (R219). -/
def gridEntry (x : Num) (neg : Bool) : Exact × Bool :=
  match x with
  | .fin s m e =>
    let k := roundMag .rne s m e (-32)
    let v : Int := if s then -(k : Int) else k
    let v' := max exactBottom (min exactTop v)
    ({ value := v', seen := true, negz := s && v' == 0 }, decide (v ≠ v'))
  | .zero s => ({ seen := true, negz := s || neg }, false)
  | .inf s => ({ pinf := !s, ninf := s, seen := true }, false)
  | .nan => ({ nan := true }, false)

/-- Multiply an accumulator entry by c (R219). -/
def rescaleEntry (c : Num) (w : QWord) : QWord × Bool :=
  let v := entryNum w
  if v.special || w = 0 then (w, false)
  else if entryIsE w then (eEntry (toE (v.mul c)), false)
  else
    let x := Exact.ofEntry w
    let (y, ovf) := gridEntry (v.mul c) false
    (({ y with seen := x.seen || y.seen } : Exact).entry, ovf)

/-- Multiply row m of a slot by c: a NaN entry is carried, and one that the product makes is invalid (R142, R144). -/
def SlotSt.rescale (sl : SlotSt) (m : Nat) (c : Num) : SlotSt × NumEv :=
  (List.range 64).foldl (fun acc n =>
    let w := Table.get 0 acc.1.entries (m * 64 + n)
    let (y, ovf) := rescaleEntry c w
    ({ acc.1 with entries := Table.set 0 acc.1.entries (m * 64 + n) y },
      evsOf [acc.2, { ovf := ovf }, nanIf (entryNan w) (drainPos 8 m n),
        invalidAt (madeNan [entryNum w, c] (entryNum y)) (drainPos 4 m n)])) (sl, {})

/-- ONLINE for one row (R219, steps 1 to 3 and 5): what goes on to the later steps; the entry keeps μ′, and λ without
this block's sum, which follows when the row is written. -/
def TileSt.onlineRow (t : TileSt) (d : DrainCtl) (e : Epi) (m : Nat) (l : List Num) (a : Acc) : List Num × TileSt × Acc :=
  let x := l.map d.input
  let at_ := statEntry e.statAddr e.nb m 0
  let mu := fp32.decode (t.readN .store at_ 4)
  let (mb, e0) := fp32Step (foldNum Num.max x)
  let a := a.add e0
  let mu' := mu.max mb
  let t := t.writeN .store at_ 4 (fp32Code mu')
  if mu' = .inf true then (l.map fun _ => .zero false, t, a)
  else
    let (v, a) := d.exps e t.mem.nl m mu' x a
    if mu.special || !mu.lt mu' then (v, t, a)
    else
      let pos := drainPos 4 m 0
      let lam := fp32.decode (t.readN .store (at_ + 4) 4)
      let (df, e1) := stat32 pos [mu, mu'] (mu.sub mu')
      let (c, e2) := vtabEval t.mem.nl e.expTable df pos
      let (sl, e3) := (t.arr.slot e.target).rescale m c
      let (lam', e4) := stat32 pos [lam, c] (lam.mul c)
      let t := (t.writeN .store (at_ + 4) 4 (fp32Code lam')).modArr fun r => r.setSlot e.target sl
      (v, t, a.add (evsOf [e1, e2, e3, e4]))

end Sys2Proof.Machine
end

