-- ==== Sys2Proof/Machine/Drain.lean ====
section
/-! DEFINITION. MXDRAIN: its rows through the epilogue, the statistics it opens, continues and closes, and what follows
once the rows are known: writing, reducing and sending them (R185, R208 to R221). -/
namespace Sys2Proof.Machine
open Sys2Proof

/-! ## Steps 8 to 10 (R212, R213, R219) -/

/-- The values of a written row. -/
def rowNumsOf (fmt : Fmt) (b : List Byte) : List Num := (unpackElems fmt.bits 64 b).map fmt.decode

/-- Step 8: write the rows of a block. -/
def TileSt.writeRows (t : TileSt) (b : DrainBlock) : TileSt :=
  (List.zip (List.range b.rows.length) b.rows).foldl (fun t r => t.write .store (b.dst + r.1 * b.stride) r.2) t

/-- Step 9: the reductions of a written block (R212). -/
def TileSt.reduceRows (t : TileSt) (e : Epi) (fmt : Fmt) (b : DrainBlock) (a : NumEv) : TileSt × NumEv :=
  let v := b.rows.map (rowNumsOf fmt)
  let put (addr : Nat) (acc : TileSt × NumEv) (x : Nat × Num × NumEv) : TileSt × NumEv :=
    (acc.1.writeN .store (addr + 4 * x.1) 4 (fp32Code x.2.1), acc.2.andThen x.2.2)
  let acc := if e.rred then
      ((List.zip (List.range v.length) v).map fun r => (r.1, reduce e.rredOp (drainPos 4 r.1 0) r.2)).foldl (put e.rredAddr) (t, a)
    else (t, a)
  if e.cred then
    ((List.range 64).map fun n =>
      (n, reduce e.credOp (drainPos 4 0 n) (v.map fun r => r.getD n (.zero false)))).foldl (put e.credAddr) acc
  else acc

/-- λ of each row becomes λ + s, the sum of the row as written (R219, step 4). -/
def TileSt.addLambda (t : TileSt) (e : Epi) (fmt : Fmt) (b : DrainBlock) (a : NumEv) : TileSt × NumEv :=
  (List.zip (List.range b.rows.length) b.rows).foldl (fun acc r =>
    let at_ := statEntry e.statAddr e.nb r.1 0
    if acc.1.readN .store at_ 4 = 0xFF800000 then acc
    else
      let pos := drainPos 4 r.1 0
      let (s, e1) := sumTree pos (rowNumsOf fmt r.2)
      let lam := fp32.decode (acc.1.readN .store (at_ + 4) 4)
      let (l, e2) := stat32 pos [lam, s] (lam.add s)
      (acc.1.writeN .store (at_ + 4) 4 (fp32Code l), acc.2.andThen (e1.andThen e2))) (t, a)

/-- A row padded to 64-byte units; what the padding holds is open (log entry 4). -/
def padRow (junk : Nat) (b : List Byte) : List Byte := b ++ leBytes (64 * ceilDiv b.length 64 - b.length) junk

/-- Step 10: send the rows of a block and signal the receivers after its last row (R213, R218). A drain of no rows
signals alone (R5; log entry 125). -/
def State.sendRows (s : State) (c : Issuing) (e : Epi) (dstride : Nat) (rows : List (List Byte)) : State :=
  let l := List.zip (List.range rows.length) rows
  let at_ (m : Nat) : Nat := e.sendRaddr + m * dstride
  if e.sendKind = 0 then
    let target := (s.shape c.p).at e.sendCol e.sendRow
    let s := s.modTile target.ix fun t => l.foldl (fun t r => t.write .store (at_ r.1) r.2) t
    if e.sigEn then { s with tiles := { s.tiles with signals := s.tiles.signals ++ [⟨target, e.sendSem, 1, some c.p⟩] } } else s
  else if e.sendKind = 1 then
    let token := s.token c.p c.ix
    let q : LinkReq :=
      { id := 0, type := .tsend, flow := e.sendFlow, issued := 0, desc := some c.d.id, tile := c.ix, engine := 0
        pc := c.pc, word := c.word, target := 0, token := token }
    let s := l.foldl (fun s r =>
      s.request { q with target := tsendTarget e.sendCol e.sendRow (at_ r.1 / 64), data := r.2 }) s
    if e.sigEn then
      let sig := e.sendCol + 32 * e.sendRow + 1024 * e.sendSem + 65536
      s.request { q with type := .rsignal, target := sig }
    else s
  else
    let parts := l.map fun r => (at_ r.1, r.2)
    let n := (rows.map List.length).foldl (· + ·) 0
    s.modGroup e.sendGroup fun r =>
      { r with parts := r.parts ++ parts, total := r.total + n
               sigs := if e.sigEn then r.sigs ++ [(r.total + n, e.sendSem)] else r.sigs }

/-- The last rows of a drain have been given to their group. -/
def State.sendDone (s : State) (e : Epi) : State :=
  if e.send && e.sendKind == 2 && (s.groupRun e.sendGroup).more then
    (s.modGroup e.sendGroup fun r => { r with more := false }).groupPump e.sendGroup
  else s

/-- Steps 8 to 10 for the blocks of a drain. -/
def State.finishDrain (s : State) (c : Issuing) (f : MxDrain) (e : Option Epi) (statOn : Bool) (blocks : List DrainBlock) : State :=
  let fmt := (fmtOf f.fmt.toNat).getD .fp32
  match e with
  | none => s.modTile c.ix fun t => blocks.foldl TileSt.writeRows t
  | some e =>
    let (junk, s) := if e.send && fmt.span 64 % 64 != 0 then s.draw else (0, s)
    let s := blocks.foldl (fun (s : State) b =>
      let t := (s.tile c.ix).writeRows b
      let (t, ev) := t.reduceRows e fmt b {}
      let (t, ev) := if statOn && e.rescales then t.addLambda e fmt b ev else (t, ev)
      let s := (s.setTile c.ix t).numEvents c.ix c.p c.pc c.d ev
      if e.send then s.sendRows c e (f.dstride.toNat * 64) (b.rows.map (padRow junk)) else s) s
    s.sendDone e

/-! ## Statistics (R215, R218 to R220) -/

/-- How a drain with STAT_EN takes part: as it opens, continues, or fails to match. -/
inductive Part where
  | none | opens | continues | mismatch
  deriving DecidableEq, Repr

/-- The record continues the open statistic (R215). -/
def StatHead.matches (h : StatHead) (e : Epi) (m : Nat) : Bool :=
  h.kind == e.kind && (h.strat == e.strat || (h.fellBack && e.strat == 1)) && h.width == e.widthM1 && h.rows == m

def TileSt.partOf (t : TileSt) (e : Epi) (m : Nat) : Part :=
  let h := t.statHead e.statAddr
  if !e.stat || e.final then .none
  else if !h.opened || h.epoch != t.epoch.toNat then .opens
  else if h.matches e m then .continues
  else .mismatch

/-- A HOLD statistic that opens does not fit its hold area (R220). -/
def Epi.tooBig (e : Epi) (strict : Bool) (m : Nat) : Bool :=
  e.strat == 1 && decide (e.holdLen < holdUnits e.nb m (e.heldBits strict))

/-- Open a statistic: its header, and for ONLINE the running values (R215, R219). -/
def TileSt.openStat (t : TileSt) (e : Epi) (strat m : Nat) : TileSt :=
  let t := t.write .store e.statAddr
    (StatHead.bytes ⟨t.epoch.toNat, m, 0, e.nb, e.kind, strat, true, strat != e.strat, e.widthM1⟩)
  if strat = 0 then
    (List.range m).foldl (fun t i =>
      let a := statEntry e.statAddr e.nb i 0
      (t.writeN .store a 4 0xFF800000).writeN .store (a + 4) 4 0) t
  else t

/-- Values held for block b of row m (R218). -/
def TileSt.hold (t : TileSt) (d : DrainCtl) (e : Epi) (m b : Nat) (l : List Num) : TileSt :=
  let bytes := if d.strict then packElems d.ifmt.bits (l.map fun x => (d.ifmt.convert .rne true x).code)
    else l.flatMap fun x => leBytes 8 (toE x)
  t.write .store (e.heldAddr d.strict m b) bytes

def TileSt.held (t : TileSt) (d : DrainCtl) (e : Epi) (m b : Nat) : List Num :=
  let a := e.heldAddr d.strict m b
  if d.strict then (unpackElems d.ifmt.bits 64 (t.read .store a (8 * d.ifmt.bits))).map d.ifmt.decode
  else (List.range 64).map fun n => fp32e.decode (t.readN .store (a + 8 * n) 8 % 2 ^ 34)

/-- Where a drain of a HOLD statistic is to write its block: kept in the hold area. -/
def TileSt.holdDst (t : TileSt) (e : Epi) (b : Nat) (f : MxDrain) : TileSt :=
  t.writeN .store (e.holdAddr + 64 + 4 * b) 4 (f.dst.toNat + 2 ^ 14 * f.dstride.toNat)

def TileSt.heldDst (t : TileSt) (e : Epi) (b : Nat) : Nat × Nat :=
  let x := t.readN .store (e.holdAddr + 64 + 4 * b) 4
  (bits x 0 14 * 64, bits x 14 14 * 64)

/-- The second pass of a HOLD statistic: each held block by its g, in ascending order (R218). -/
def TileSt.secondPass (t : TileSt) (d : DrainCtl) (e : Epi) (rows : Nat) (g : List (List Num)) (a : Acc) : List DrainBlock × Acc :=
  (List.range e.nb).foldl (fun (acc : List DrainBlock × Acc) b =>
    let (rs, a) := (List.range rows).foldl (fun (r : List (List Byte) × Acc) m =>
      let gb := (g.getD m []).getD b (.zero false)
      let (l, a) := mapRow (t.held d e m b) r.2 fun n v =>
        let y := v.mul gb
        (y, invalidAt (madeNan [v, gb] y) (drainPos 4 m n))
      let (l, a) := d.step false m l a
      let (bytes, a) := d.convert m l a
      (r.1 ++ [bytes], a)) ([], acc.2)
    let (dst, stride) := t.heldDst e b
    (acc.1 ++ [⟨dst, stride, rs⟩], a)) ([], a)

/-- Rows 0 to M − 1 converted, with no statistic. -/
def TileSt.plainRows (t : TileSt) (d : DrainCtl) (f : MxDrain) (e : Option Epi) (r : Nat → Num) (a : Acc) : List (List Byte) × Acc :=
  (List.range f.m.toNat).foldl (fun (acc : List (List Byte) × Acc) m =>
    let (l, a) := t.frontSteps d f e (r m) m acc.2
    let (b, a) := d.convert m l a
    (acc.1 ++ [b], a)) ([], a)

/-- One row of a drain that takes part in a statistic run with a strategy (R218). -/
def TileSt.statStep (t : TileSt) (d : DrainCtl) (f : MxDrain) (e : Epi) (strat b m : Nat) (a : Acc) :
    Option (List Byte) × TileSt × Acc :=
  let (l, a) := t.frontSteps d f (some e) (.fin false 1 0) m a
  if strat = 0 then
    let (v, t, a) := t.onlineRow d e m l a
    let (bytes, a) := d.convert m v a
    (some bytes, t, a)
  else
    let ((v, x, y), a) := d.blockStat e t.mem.nl m l a
    let at_ := statEntry e.statAddr e.nb m b
    let t := (t.writeN .store at_ 4 x).writeN .store (at_ + 4) 4 y
    if strat = 1 then (none, t.hold d e m b v, a)
    else
      let (bytes, a) := d.convert m v a
      (some bytes, t, a)

/-- A drain of an open statistic: its blocks, the tile and what it raised (R215, R218, R219). -/
def TileSt.statDrain (t : TileSt) (d : DrainCtl) (f : MxDrain) (e : Epi) (a : Acc) : List DrainBlock × TileSt × Acc :=
  let h := t.statHead e.statAddr
  let own (rows : List (List Byte)) : List DrainBlock := [⟨f.dst.toNat * 64, f.dstride.toNat * 64, rows⟩]
  let r := (List.range f.m.toNat).foldl (fun (acc : List (List Byte) × TileSt × Acc) m =>
    let (b, t, a) := acc.2.1.statStep d f e h.strat h.done m acc.2.2
    (acc.1 ++ b.toList, t, a)) ([], t, a)
  let t := if h.strat = 1 then r.2.1.holdDst e h.done f else r.2.1
  let close := decide (h.nb ≤ h.done + 1)
  let t := t.write .store e.statAddr (StatHead.bytes { h with done := h.done + 1, opened := !close })
  if h.strat = 0 then (own r.1, t, r.2.2)
  else if !close then (if h.strat = 1 then [] else own r.1, t, r.2.2)
  else
    let (g, t, a) := t.closeStat e h.rows r.2.2
    if h.strat = 1 then
      let (blocks, a) := t.secondPass d e h.rows g a
      (blocks, t, a)
    else (own r.1, t, a)

/-! ## MXDRAIN (R185) -/

/-- Field values that R182, R185 and R137 allow. -/
def drainFieldsOk (f : MxDrain) : Bool :=
  decide (f.fmt.toNat ≤ 8) && decide (f.m.toNat ≤ 64) && f.ovf != 3 && f.rscFmt != 3 && f.cscFmt != 3 &&
    (f.rscFmt != 0 || f.rsc == 0) && (f.cscFmt != 0 || f.csc == 0) && !(f.rnd == 3 && f.fmt == 0) &&
    (f.fmt != 8 || (f.rscFmt == 0 && f.cscFmt == 0 && f.rnd == 0 && f.ovf == 0 && !f.epiEn))

/-- Bytes of an output row. -/
def MxDrain.rowBytes (f : MxDrain) : Nat := ((fmtOf f.fmt.toNat).getD .fp32).span 64

/-- The operands of a drain: what it reads and what it writes (R185, R202). Those of its record are checked with M = 0
too. -/
def MxDrain.opnds (f : MxDrain) (e : Option Epi) : List Opnd × List Opnd :=
  let m := f.m.toNat
  let scales := [Opnd.flat .store (f.rsc.toNat * 64) (m * scaleBytes f.rscFmt.toNat) 8,
    Opnd.flat .store (f.csc.toNat * 64) (64 * scaleBytes f.cscFmt.toNat) 8]
  let dst : Opnd :=
    { base := f.dst.toNat * 64, stride := f.dstride.toNat * 64, len := f.rowBytes, rows := m, bits := fmtBits f.fmt.toNat
      fmt := some f.fmt.toNat }
  match e with
    | none => (scales, [dst])
    | some e =>
      let res : Opnd :=
        { base := e.resAddr, stride := e.resStride, len := ((fmtOf e.resFmt).getD .fp32).span 64, rows := m, bits := fmtBits e.resFmt
          fmt := some e.resFmt }
      let stat := Opnd.flat .store e.statAddr (statBytes e.nb m) 8
      (scales ++ (if e.bias then [Opnd.flat .store e.biasAddr (((fmtOf e.biasFmt).getD .fp32).span 64) (fmtBits e.biasFmt)] else []) ++
        (if e.res then [res] else []) ++ (if e.stat && e.final then [stat] else []),
       [dst] ++ (if e.rred then [Opnd.flat .store e.rredAddr (4 * m) 32] else []) ++
        (if e.cred then [Opnd.flat .store e.credAddr 256 32] else []) ++ (if e.stat && !e.final then [stat] else []) ++
        (if e.stat && e.strat == 1 then [Opnd.flat .store e.holdAddr (64 * e.holdLen) 8] else []))

/-- The rows at the receivers lie within their stores. -/
def Epi.sendInside (e : Epi) (f : MxDrain) : Bool :=
  !e.send || f.m == 0 ||
    decide (e.sendRaddr + (f.m.toNat - 1) * (f.dstride.toNat * 64) + 64 * ceilDiv f.rowBytes 64 ≤ 1048576)

/-- The tile or flow of a send may be used by the descriptor (check 8 of R176, R208, R314). -/
def State.sendAllowed (s : State) (c : Issuing) (e : Epi) : Bool :=
  let sh := s.shape c.p
  !e.send || (if e.sendKind = 0 then decide (e.sendCol < sh.width) && decide (e.sendRow < sh.height)
    else if e.sendKind = 1 then s.mayUse c.d e.sendFlow else true)

/-- Regions of the blocks that a closing HOLD drain writes for its statistic. -/
def TileSt.heldRes (t : TileSt) (f : MxDrain) (e : Epi) : List Nat :=
  let h := t.statHead e.statAddr
  if e.stat && t.partOf e f.m.toNat == .continues && h.strat == 1 && decide (h.nb ≤ h.done + 1) then
    (List.range h.done).flatMap fun b =>
      let d := t.heldDst e b
      rowRegions d.1 d.2 f.rowBytes h.rows
  else []

/-- The rows of ACC128: raw entries (R185). -/
def TileSt.rawRows (t : TileSt) (f : MxDrain) : List (List Byte) :=
  (List.range f.m.toNat).map fun m => (List.range 64).flatMap fun n =>
    leBytes 16 (Table.get 0 (t.arr.slot f.slot.toNat).entries (m * 64 + n)).toNat

/-- NaN entries that a raw drain reads (R144). -/
def TileSt.rawNans (t : TileSt) (f : MxDrain) : NumEv :=
  evsOf ((List.range f.m.toNat).flatMap fun m => (List.range 64).map fun n =>
    nanIf (entryNan (Table.get 0 (t.arr.slot f.slot.toNat).entries (m * 64 + n))) (drainPos 8 m n))

/-- Reserve a group for the rows to come; a group that this module does not root, or that is disabled, gets none
(R213, R325). -/
def State.claimGroup (s : State) (c : Issuing) (e : Epi) : State :=
  if !(e.send && e.sendKind == 2) then s
  else
    let g := s.group e.sendGroup
    if !(g.root && g.enabled) then s.taint c.tile c.e.num c.pc rsAddress c.word
    else if g.branches.isEmpty then s
    else s.modGroup e.sendGroup fun _ =>
      { branches := g.branches, more := true, owner := some (c.ix, none), desc := some c.d.id, token := s.token c.p c.ix }

/-- A send to a group that takes nothing is no send. -/
def State.sendsTo (s : State) (e : Epi) : Epi :=
  if e.send && e.sendKind == 2 && !(s.groupRun e.sendGroup).more then { e with send := false } else e

/-- Steps 7 to 10: through a hook, or at once, with a tap's copy (R209, R214). -/
def State.drainOut (s : State) (c : Issuing) (f : MxDrain) (e : Option Epi) (statOn : Bool) (blocks : List DrainBlock) : State :=
  match e with
  | none => s.finishDrain c f none false blocks
  | some x =>
    let rows := (blocks.map fun b => b.rows.length).foldl (· + ·) 0
    let h : HookSt :=
      { number := 0, tile := c.ix, engine := c.e, desc := c.d.id, pc := c.pc, word := c.word, kind := if x.through then 2 else 1
        fmt := f.fmt.toNat, blocks := blocks, perBlock := f.m.toNat, rows := rows, rowBytes := f.rowBytes }
    if !x.hook || rows == 0 then s.finishDrain c f (some (s.sendsTo x)) statOn blocks
    else if x.through then s.startHook x.port h
    else (s.startHook x.port h).finishDrain c f (some (s.sendsTo x)) statOn blocks

/-- The effect of a drain after its issue. -/
def State.drainEffect (s : State) (c : Issuing) (f : MxDrain) (e : Option Epi) : State :=
  let t := s.tile c.ix
  let m := f.m.toNat
  if m = 0 then match e with
    | some x =>
      if x.send && x.sigEn then
        let s := s.claimGroup c x
        let x := s.sendsTo x
        (if x.send then s.sendRows c x 0 [] else s).sendDone x
      else s
    | none => s
  else if f.fmt = 8 then
    ((s.modTile c.ix fun t => t.writeRows ⟨f.dst.toNat * 64, f.dstride.toNat * 64, t.rawRows f⟩).numEvents c.ix c.p c.pc c.d (t.rawNans f))
  else
    let strict := c.d.strict && e.isSome
    let d : DrainCtl :=
      { strict := strict, ctl := s.numCtl c.ix, fmt := (fmtOf f.fmt.toNat).getD .fp32
        ifmt := (fmtOf ((e.map Epi.ifmt).getD 0)).getD .fp32, rnd := f.rnd.toNat, ovf := f.ovf.toNat }
    let own (rows : List (List Byte)) : List DrainBlock := [⟨f.dst.toNat * 64, f.dstride.toNat * 64, rows⟩]
    let plain (s : State) (r : Nat → Num) : State :=
      let (rows, a) := (s.tile c.ix).plainRows d f e r { gen := (s.tile c.ix).genMx }
      let s := (s.modTile c.ix fun t => { t with genMx := a.gen }).numEvents c.ix c.p c.pc c.d a.ev
      s.drainOut c f e false (own rows)
    let one : Nat → Num := fun _ => .fin false 1 0
    match e with
    | none => plain s one
    | some x =>
      let part := t.partOf x m
      let big := part == .opens && x.tooBig strict m
      if big && !c.d.allowDefer then s.latchFault c.d.id stHold
      else
      let s := s.claimGroup c x
      if x.stat && x.final then
        let h := t.statHead x.statAddr
        if t.statClosed x.statAddr && h.strat == 0 then
          let r (m : Nat) : Num × NumEv :=
            let lam := fp32.decode (t.readN .store (statEntry x.statAddr x.nb m 0 + 4) 4)
            stat32 (drainPos 4 m 0) [lam] ((Num.fin false 1 0).div lam)
          plain (s.numEvents c.ix c.p c.pc c.d (evsOf ((List.range m).map fun m => (r m).2))) fun m => (r m).1
        else plain (s.taint c.tile c.e.num c.pc rsReserved c.word) one
      else
        let stat (t : TileSt) (s : State) : State :=
          let (blocks, t, a) := t.statDrain d f x { gen := t.genMx }
          let s := (s.setTile c.ix { t with genMx := a.gen }).numEvents c.ix c.p c.pc c.d a.ev
          s.drainOut c f e true blocks
        match part with
        | .none => plain s one
        | .mismatch => plain (s.taint c.tile c.e.num c.pc rsReserved c.word) one
        | .continues => stat t s
        | .opens =>
          if big then
            stat (t.openStat x 2 m) (s.modDesc c.d.id fun d => { d with run := { d.run with deferred := true } })
          else stat (t.openStat x x.strat m) s

/-- MXDRAIN with its epilogue record, if it names one. -/
def State.drainWith (s : State) (c : Issuing) (u : Upset) (f : MxDrain) (e : Option Epi) : State :=
  let t := s.tile c.ix
  let slot := f.slot.toNat
  let (srcs, dsts) := f.opnds e
  let on (p : Epi → Bool) : Bool := (e.map p).getD false
  let recOk := (e.map fun x => x.ok c.d.strict slot && (!x.hook || s.portEnabled x.port) &&
    !(c.d.strict && f.rnd == 3 && x.ifmt == 0)).getD true
  let record := if f.epiEn then regionsOf (f.epiRec.toNat * 64) 128 else []
  let bad := firstFail
    [(recOk, rsReserved), (operandsOk srcs dsts && !on (fun x => !x.sendInside f), rsAddress), (!on (fun x => !s.sendAllowed c x), rsOutside)]
  let extra := match e with
    | some x => (if x.rescales then [resAcc x.target] else []) ++ t.heldRes f x
    | none => []
  let busy := on fun x => x.send && x.sendKind == 2 && (f.m != 0 || x.sigEn) && (s.groupRun x.sendGroup).owner.isSome
  if bad.isNone && busy then s.holdAt c (.issue resAnyCtx)
  else
    let used (l : List Opnd) : List Nat := if f.m = 0 then [] else resOf l
    s.dispatchOp c bad (dedup (resAcc slot :: used srcs ++ record)) (dedup (used dsts ++ extra))
      (firstFail [(!(c.d.strict && on Epi.online), rsStrictOnline)]) fun s => s.underUpset c u fun s => s.drainEffect c f e

/-- MXDRAIN: its own fields, then its record, which must lie in the store and have no pending writer (R176). -/
def State.drain (s : State) (c : Issuing) (u : Upset) (f : MxDrain) : State :=
  if !drainFieldsOk f then s.skip c rsReserved
  else if !f.epiEn then s.drainWith c u f none
  else
    let a := f.epiRec.toNat * 64
    if 1048576 < a + 128 then s.skip c rsAddress
    else match s.recordReady c a 128 with
      | some r => s.holdAt c (.issue r)
      | none => s.drainWith c u f (some (epiOf ((s.tile c.ix).readN .store a 128)))

/-- MXDRAIN (R185). -/
def execMxdrain (tile : TileId) (e : Engine) (u : Upset) (s : State) : Result :=
  .next (s.issueOp tile e 0x23 fun c i s => match i with
    | .mxdrain f => s.drain c u f
    | _ => s)

/-- The last row of a through hook has come back (R214). -/
def State.drainedHook (s : State) (h : HookSt) : State :=
  match TileWord.fields h.word, s.packOf (tileOfIx h.tile), s.desc? h.desc with
  | some (.mxdrain f), some p, some d =>
    let x := epiOf ((s.tile h.tile).readN .store (f.epiRec.toNat * 64) 128)
    let place (acc : List DrainBlock × List (List Byte)) (b : DrainBlock) : List DrainBlock × List (List Byte) :=
      (acc.1 ++ [{ b with rows := acc.2.take b.rows.length }], acc.2.drop b.rows.length)
    let blocks := (h.blocks.foldl place ([], h.back)).1
    s.finishDrain ⟨tileOfIx h.tile, h.tile, h.engine, p, d, h.pc, h.word⟩ f (some (s.sendsTo x))
      (x.rescales && (s.tile h.tile).partOf x f.m.toNat != .mismatch) blocks
  | _, _, _ => s

end Sys2Proof.Machine
end

