-- ==== Sys2Proof/Machine/Copying.lean ====
section
/-! DEFINITION. COPY (R247, R435): the hub moves a chunk of 4 KiB after another; PEER pages are reached with link
requests. -/
namespace Sys2Proof.Machine
open Sys2Proof

/-- Bytes of a chunk. -/
def copyChunk : Nat := 4096

/-- The tile that stands for the Pack in what names a tile: its first (log entry 25). -/
def State.copyAs (s : State) (p : Nat) : TileId := (s.shape p).at 0 0

/-- A COPY's request was refused: its descriptor is tainted with ADDRESS_RANGE (R320). -/
def State.copyTaint (s : State) (p : Nat) : State := s.taint (s.copyAs p) 5 0xFFFFFF rsAddress 0

/-- The present chunk: its offset in the COPY and its length. -/
def State.copySpan (s : State) (p : Nat) (d : Desc) : Nat × Nat :=
  let o := (s.pack p).copyAt
  (o, min copyChunk (d.copyLen - o))

/-- The transaction faults: the chunk's data is discarded, and the COPY stops there (R247). -/
def State.copyStops (s : State) (p : Nat) (e : PgFault) : State :=
  s.modPack p fun k => { k with copyFault := some (e.va, e.kind, e.write, none), copySrc := [], copyParts := [] }

/-- A request of the COPY. -/
def State.copyReq (s : State) (p : Nat) (d : Desc) (t : TxType) (f seg a n : Nat) (data : List Byte) : State :=
  s.request { id := 0, type := t, flow := f, issued := 0, desc := some d.id, tile := copyTile + p, engine := 5
              pc := 0xFFFFFF, word := 0, seg := seg, target := a, len := n, data := data
              token := s.token p (s.copyAs p).ix }

/-- Read the places of the source: bytes of HBM and HOST now, requests to the peers. False: it cannot go on. -/
def State.copyRead (s : State) (p : Nat) (d : Desc) (src : List Seg) : Bool × State :=
  let step (acc : Bool × List (Option (List Byte)) × State) (g : Seg) : Bool × List (Option (List Byte)) × State :=
    let (ok, l, s) := acc
    if !ok then acc
    else match g with
      | .hbm a n => match s.hbmRead [d.id] a n with
        | (some b, s) => (true, l ++ [some b], s)
        | (none, s) => (false, l, s)
      | .host a n => match s.hostRead a n with
        | some b => (true, l ++ [some b], s)
        | none => (false, l, s.latchFault d.id stMemory)
      | .peer dev a n => match s.flowTo d.fn.val dev with
        | some f => (true, l ++ [none], s.copyReq p d .rread f l.length a n [])
        | none =>
          let (x, s) := s.draw
          (true, l ++ [some (leBytes n x)], s.copyTaint p)
  let (ok, l, s) := src.foldl step (true, [], s)
  (ok, (s.netReads hubInitiator (src.map Seg.len)).modPack p fun k => { k with copySrc := src, copyParts := l })

/-- Write the chunk to its places, as far as they go before a fault. -/
def State.copyWrite (s : State) (p : Nat) (d : Desc) (dst : List Seg) : State :=
  let data := (s.pack p).copyParts.flatMap fun o => o.getD []
  let step (acc : State × List Byte) (g : Seg) : State × List Byte :=
    let (s, b) := acc
    let rest := b.drop g.len
    match g with
    | .hbm a n => (s.hbmWrite [d.id] a (b.take n), rest)
    | .host a n => (s.hostWriteAs d.fn.val a (b.take n), rest)
    | .peer dev a n => match s.flowTo d.fn.val dev with
      | some f => (s.copyReq p d .rwrite f 0 a n (b.take n), rest)
      | none => (s.copyTaint p, rest)
  ((dst.foldl step (s, data)).1).netWrites hubInitiator (dst.map Seg.len)

/-- The reads of a chunk: each is translated as it issues (R243); those before a fault issue and complete (R247). A
frequency change holds what reaches HBM (R293). True: the chunk's bytes are there or on their way. -/
def State.copyStart (s : State) (p : Nat) (d : Desc) : Bool × State :=
  let (o, n) := s.copySpan p d
  let (src, f) := s.xlatePrefix d.fn.val false (piecesOf (d.f.program.toNat + o) n)
  if s.hbm.held && src.any Seg.inHbm then (false, s)
  else
    let (ok, s) := s.copyRead p d src
    match f with
    | some e => (false, if ok then s.copyStops p e else s)
    | none => (ok, s)

/-- The writes of a chunk whose bytes are there; the next chunk follows. True: it has gone on. -/
def State.copyEnd (s : State) (p : Nat) (d : Desc) : Bool × State :=
  let (o, n) := s.copySpan p d
  let (dst, f) := s.xlatePrefix d.fn.val true (piecesOf (d.f.output.toNat + o) n)
  if s.hbm.held && dst.any Seg.inHbm then (false, s)
  else
    let s := s.copyWrite p d dst
    match f with
    | some e => (false, s.copyStops p e)
    | none => (true, s.modPack p fun k => { k with copyAt := k.copyAt + n, copySrc := [], copyParts := [] })

/-- Move chunks until the COPY is done, waits for a peer or for HBM, or stops. -/
def State.copyGo (s : State) (p : Nat) (d : Desc) : Nat → State
  | 0 => s
  | fuel + 1 =>
    if d.copyLen ≤ (s.pack p).copyAt then s
    else
      let (ok, s) := if (s.pack p).copySrc.isEmpty then s.copyStart p d else (true, s)
      if !ok || (s.pack p).copyParts.any Option.isNone then s
      else match s.copyEnd p d with
        | (true, s) => s.copyGo p d fuel
        | (false, s) => s

/-- Go on with the COPY that a Pack runs, if it is not stopped. -/
def State.copyPump (s : State) (p : Nat) : State :=
  match s.running p with
  | some d =>
    if d.f.cls == 2 && d.phase == .running && (s.pack p).copyFault.isNone then s.copyGo p d (d.copyLen / copyChunk + 1) else s
  | none => s

/-- A part of the present chunk has come from a peer. -/
def State.copyPart (s : State) (p seg : Nat) (b : List Byte) : State :=
  (s.modPack p fun k => { k with copyParts := k.copyParts.set seg (some b) }).copyPump p

/-- Class 5: sample the COPY's fault, and end it when its time is up (R247, R248, R250). The record names no tile: those
bytes are free (log entry 4). -/
def State.sampleCopy (s : State) (p : Nat) (d : Desc) : State :=
  match (s.pack p).copyFault with
  | none => s
  | some (va, kind, write, since) =>
    let s : State :=
      if since.isSome then s
      else
        let (x, s) := s.draw
        (s.faultRecord d (tileOfIx x) 15 ⟨va, kind, write⟩ ((s.pack p).copyAt / copyChunk)).modPack p fun k =>
          { k with copyFault := some (va, kind, write, some s.tick.count) }
    if s.regN 0x60004 ≤ s.tick.count - since.getD s.tick.count then s.endDesc d.id stPageTimeout else s

/-- Every COPY that a release of HBM, or a tracker, lets go on (R153, R293). -/
def State.copyPumps (s : State) : State :=
  ((s.tiles.packs.filter fun e => e.2.desc.isSome).map Prod.fst).foldl State.copyPump s

/-- PAGE_READY of a Pack: its streams and its COPY go on (R249). -/
def State.pageReady (s : State) (p fn va : Nat) : Bool × State :=
  let (hit, s) := s.resumePage p fn va
  (hit, s.copyPump p)

end Sys2Proof.Machine
end

