-- ==== Sys2Proof/Machine/LinkLanes.lean ====
section
/-! DEFINITION. Link lanes: the states of a link's directions, training, codewords, error windows, lane swaps, failure,
and sleep (R298 to R309). -/
namespace Sys2Proof.Machine
open Sys2Proof

/-! ## Register words (R309) -/

def LnkState.code : LnkState → Nat
  | .off => 0
  | .train => 1
  | .up => 2
  | .swap => 3
  | .sleep => 4
  | .wake => 5
  | .down => 6
  | .fused => 7

def LinkSt.statusWord (l : LinkSt) : Nat :=
  l.tx.code + 8 * l.rx.code + 64 * b2n l.monitorBad + 128 * b2n l.clockMismatch + 65536 * l.retrains
def LinkSt.mapWord (l : LinkSt) : Nat := l.rxMap.toNat + 65536 * l.txMap.toNat
def LinkSt.countWord (l : LinkSt) : Nat := l.swaps + 65536 * l.downs

/-- Physical lane of logical lane i, or of the monitor for i = 4. -/
def laneOf (m : BitVec 15) (i : Nat) : Nat := bits m.toNat (3 * i) 3

/-- Logical lane that a physical lane carries. -/
def dataLane (m : BitVec 15) (phys : Nat) : Option Nat := (List.range 4).find? fun i => laneOf m i == phys

/-- The map after the named physical lane and the monitor exchange roles (R305). -/
def swapLane (m : BitVec 15) (phys : Nat) : BitVec 15 :=
  match dataLane m phys with
  | none => m
  | some i => BitVec.ofNat 15 (setBits (setBits m.toNat (3 * i) 3 (laneOf m 4)) 12 3 phys)

def State.fusedLink (s : State) (n : Nat) : Bool := (s.link n).tx == .fused

/-! ## Training (R303, R304) -/

/-- The map of R309 at reset. -/
def mapReset : BitVec 15 := 0x4688

/-- What was on its way by a link is lost with it: its requests are to be resent (R316, R318), and its link layer and its
lanes begin afresh. -/
def State.dropLink (s : State) (n : Nat) : State :=
  let s := s.modMeas n fun m => { m.relink with
    swapRx := none, swapTx := none, forceDue := none, windowUncorr := 0, heldFar := false, markerDue := false }
  s.modLf fun l => { l with reqs := l.reqs.map fun q => if q.link == some n then { q with link := none } else q }

/-- Both directions start to train. -/
def State.trainLink (s : State) (n : Nat) : State :=
  ((s.dropLink n).modLink n fun l => { l with tx := .train, rx := .train, retrains := sat 16 (l.retrains + 1) }).rerouteNow

/-- A training fails: the link waits in DOWN; after eight in succession it stays there (R304). -/
def State.trainFails (s : State) (n : Nat) : State :=
  s.modLink n fun l => { l with tx := .down, rx := .down, failures := l.failures + 1, parked := decide (8 ≤ l.failures + 1) }

/-- The lanes of a direction that failed step 2 or 4, each once. -/
def failedLanes (l : List (Fin 5)) : List Nat := (List.range 5).filter fun k => l.any fun b => b.val == k

/-- LINK_TRAINING (R304): the outcome of a training in progress. `badRx` and `badTx` are the lanes of each direction that
fail step 2 or 4, `farMode` the far end's CLK_MODE, `t` the time. Under CLK_MODE 1 a training without LREF fails at step 2
(R426). The trained link measures its latency (R41). -/
def execLinkTraining (n : LinkIx) (badRx badTx : List (Fin 5)) (farMode : Bool) (t : Nat) (s : State) : Result :=
  .next <|
    let rx := failedLanes badRx
    let tx := failedLanes badTx
    if (s.link n.val).tx != .train then s
    else if (s.link n.val).cfg.getLsbD 1 && !s.mod.pins.lref then s.trainFails n.val
    else if farMode != (s.link n.val).cfg.getLsbD 1 then
      (s.modLink n.val fun l => { l with clockMismatch := true }).trainFails n.val
    else if 1 < rx.length || 1 < tx.length then s.trainFails n.val
    else
      let s := (s.dropLink n.val).modMeas n.val fun m => { m with
        fill := 0, rxPre := [0, 0, 0, 0, 0], txPs := 0, txMarkers := 0, txFillers := 0 }
      let s := s.modLink n.val fun l => { l with
        tx := .up, rx := .up, failures := 0, rxMap := rx.foldl swapLane mapReset, txMap := tx.foldl swapLane mapReset }
      ((((s.reopen n.val).rerouteNow).sendProbe t)).pump

/-- TRAINING_STEP_TIMEOUT (R304). -/
def execTrainingStepTimeout (n : LinkIx) (s : State) : Result :=
  .next (if (s.link n.val).tx == .train then s.trainFails n.val else s)

/-- RETRAIN_TIMER (R304, R306): 100 ms in DOWN have passed. -/
def execRetrainTimer (n : LinkIx) (s : State) : Result :=
  .next (if (s.link n.val).tx == .down && !(s.link n.val).parked then s.trainLink n.val else s)

/-- LNK_CFG_WRITE (R309): the write takes effect at the next tick. -/
def execLnkCfgWrite (n : LinkIx) (v : Word) (s : State) : Result :=
  .next (if s.fusedLink n.val then s else s.modLink n.val fun l => { l with cfgDue := some (v &&& 3) })

/-- Apply a write of LNK_CFG at the tick. -/
def State.applyLnkCfg (s : State) (n : Nat) : State :=
  let l := s.link n
  match l.cfgDue with
  | none => s
  | some v =>
    let s := s.modLink n fun l => { l with cfg := v, cfgDue := none }
    if !v.getLsbD 0 then
      ((s.dropLink n).modLink n fun l => { l with tx := .off, rx := .off, failures := 0, parked := false }).rerouteNow
    else if l.tx == .off then s.trainLink n
    else if l.cfg.getLsbD 1 != v.getLsbD 1 && l.tx.alive then s.trainLink n
    else s

/-! ## Failure (R306) -/

/-- A link goes DOWN in both directions, with an ALARM; the fabric treats it as lost. -/
def State.downLink (s : State) (n : Nat) : State :=
  let s := (s.dropLink n).modMeas n fun m => { m with swapTimeouts := [] }
  let s := s.modLink n fun l => { l with tx := .down, rx := .down, downs := sat 16 (l.downs + 1) }
  let l := s.link n
  (s.raise .alarm 0x000B n (leBytes 4 l.statusWord ++ leBytes 4 l.mapWord ++ leBytes 4 l.countWord)).rerouteNow

/-- LREF is present or not at an edge: without it, every link that is UP under CLK_MODE 1 goes DOWN (R426, R432). -/
def State.latchLref (s : State) (present : Bool) : State :=
  let s := { s with mod := { s.mod with pins := { s.mod.pins with lref := present } } }
  if present then s
  else (List.range 48).foldl (fun s n => if (s.link n).cfg.getLsbD 1 && (s.link n).tx.alive then s.downLink n else s) s

/-- SYMBOL_LOCK_LOSS (R306): a data lane of the receive direction has lost lock for 1 µs. -/
def execSymbolLockLoss (n : LinkIx) (lane : Fin 5) (s : State) : Result :=
  .next <|
    let l := s.link n.val
    if (l.rx == .up || l.rx == .swap) && (dataLane l.rxMap lane.val).isSome then s.downLink n.val else s

/-! ## The lane signal (R298) -/

/-- Precode a pair: y = (x − y of the pair before) mod 4. -/
def precode (before x : BitVec 2) : BitVec 2 := x - before

/-- The level of a precoded pair, Gray-mapped. -/
def grayLevel (y : BitVec 2) : Fin 4 := if y = 0 then 0 else if y = 1 then 1 else if y = 3 then 2 else 3

/-- The precoded pair of a level. -/
def ofLevel (l : Fin 4) : BitVec 2 := if l = 0 then 0 else if l = 1 then 1 else if l = 2 then 3 else 2

/-- The levels that a lane sends for its pairs, and the last precoded pair. -/
def sendLane (before : BitVec 2) : List (BitVec 2) → List (Fin 4) × BitVec 2
  | [] => ([], before)
  | x :: l =>
    let y := precode before x
    let r := sendLane y l
    (grayLevel y :: r.1, r.2)

/-- The pairs that a lane's levels give, x = (y + y of the pair before) mod 4, and the last precoded pair. -/
def recoverLane (before : BitVec 2) : List (Fin 4) → List (BitVec 2) × BitVec 2
  | [] => ([], before)
  | l :: ls =>
    let y := ofLevel l
    let r := recoverLane y ls
    ((y + before) :: r.1, r.2)

/-! ## Codewords (R299, R300, R302) -/

/-- The 10-bit symbols of a lane's pairs: the first bit of a pair, and the first pair of a symbol, are the more significant
(R298; log entry 126). -/
def pairSymbols : List (BitVec 2) → List (BitVec 10)
  | a :: b :: c :: d :: e :: l => (a ++ b ++ c ++ d ++ e) :: pairSymbols l
  | _ => []

/-- Bits that differ. -/
def diffBits (x y : BitVec 10) : Nat := ((List.range 10).filter fun i => (x ^^^ y).getLsbD i).length

/-- The symbols of each logical lane: symbol j of a codeword is on logical lane j mod 4 (R299). -/
def laneSymbols (map : BitVec 15) (pairs : List (List (BitVec 2))) : List (List (BitVec 10)) :=
  (List.range 4).map fun i => pairSymbols (pairs.getD (laneOf map i) [])

/-- The symbols of a codeword that arrived wrong: the place of each, and its wrong bits. -/
def wrongSymbols (sent : List (BitVec 10)) (lanes : List (List (BitVec 10))) : List (Nat × Nat) :=
  ((List.zip (List.range sent.length) sent).map fun e =>
    (e.1, diffBits e.2 ((lanes.getD (e.1 % 4) []).getD (e.1 / 4) 0))).filter fun e => e.2 != 0

/-- Bits corrected on each physical lane (R305). -/
def laneErrors (map : BitVec 15) (wrong : List (Nat × Nat)) : List Nat :=
  (List.range 5).map fun p => match dataLane map p with
    | some i => ((wrong.filter fun e => e.1 % 4 == i).map Prod.snd).foldl (· + ·) 0
    | none => 0

/-- The twenty 257-bit blocks of a codeword's 514 message symbols (R299). -/
def codeBlocks (sent : List (BitVec 10)) : List Nat :=
  let x := ((List.zip (List.range 514) sent).map fun e => e.2.toNat * 2 ^ (10 * e.1)).foldl (· + ·) 0
  (List.range 20).map fun i => bits x (257 * i) 257

/-- A filler block: a control block of code 0 (log entry 126). -/
def isFiller (b : Nat) : Bool := bits b 0 9 == 1

/-- A block enters the elastic buffer of 64 blocks; a filler is deleted while it is above half full (R302). -/
def LinkMeas.takeBlock (m : LinkMeas) (b : Nat) : LinkMeas :=
  if isFiller b && decide (32 < m.fill) then { m with deleted := m.deleted + 1 } else { m with fill := min 64 (m.fill + 1) }

/-- An uncorrectable codeword: counted, and more than 16 in a window outside a swap take the link DOWN (R306). At the
receiver the swap lasts from the swap marker to the first codeword that decodes after it (log entry 126). -/
def State.uncorrectable (s : State) (n : Nat) : State :=
  let swap := (s.link n).rx == .swap
  let s := s.modLink n fun l => { l with uncorr := sat 32 (l.uncorr + 1) }
  let s := s.modMeas n fun m => { m with nakDue := true, windowUncorr := if swap then m.windowUncorr else m.windowUncorr + 1 }
  if 16 < (s.meas n).windowUncorr then s.downLink n else s

/-- The lanes align on a marker: every lane brings its own number and the same count, at most 80 ns apart (R300). -/
def markerAligns (l : List LaneMarker) : Bool :=
  let times := l.map LaneMarker.at_
  decide (l.length = 5) && ((List.zip (List.range 5) l).all fun e => e.2.lane.val == e.1 && e.2.count == (l.map LaneMarker.count).headD 0) &&
    decide (times.foldl max 0 ≤ times.foldl min (times.headD 0) + 80)

/-- A codeword of data: recovered lane by lane and decoded when at most 15 symbols are wrong (R298, R299). -/
def State.dataCodeword (s : State) (n : Nat) (sent : List (BitVec 10)) (levels : List (List (Fin 4))) : State :=
  let l := s.link n
  let lanes := (List.zip (s.meas n).rxPre levels).map fun e => recoverLane e.1 e.2
  let s := s.modMeas n fun m => { m with rxPre := lanes.map Prod.snd ++ m.rxPre.drop lanes.length }
  let wrong := wrongSymbols sent (laneSymbols l.rxMap (lanes.map Prod.fst))
  if 15 < wrong.length then s.uncorrectable n
  else
    let s := if l.rx == .swap then s.modLink n fun l => { l with rx := .up } else s
    s.modMeas n fun m =>
      { ((codeBlocks sent).foldl LinkMeas.takeBlock m) with
        errs := (List.zip m.errs (laneErrors l.rxMap wrong)).map fun e => e.1 + e.2 }

/-- CODEWORD_RECEIVE (R298 to R300, R302). A marker that does not align decodes as uncorrectable; one that ends a wake
returns the direction to UP (R307). -/
def execCodewordReceive (n : LinkIx) (c : Codeword) (s : State) : Result :=
  .next <|
    let rx := (s.link n.val).rx
    match c with
    | .data sent levels => if rx == .up || rx == .swap then s.dataCodeword n.val sent levels else s
    | .marker lanes =>
      if !(rx == .up || rx == .swap || rx == .wake) then s
      else if !markerAligns lanes then s.uncorrectable n.val
      else if rx == .wake then s.modLink n.val fun l => { l with rx := .up } else s
    | .sleep =>
      if rx == .up then (s.modLink n.val fun l => { l with rx := .sleep }).modMeas n.val fun m => { m with slept := true } else s

/-! ## What this end sends (R300, R302, R308) -/

/-- A control block or marker codeword leaves. -/
def State.laneMsg (s : State) (n : Nat) (m : LaneMsg) : State := s.modLf fun l => { l with lanesOut := l.lanesOut ++ [(n, m)] }

/-- Picoseconds of a codeword (R299), and codewords from one alignment marker to the next (R300). -/
def codewordPs : Nat := 10625
def markerEvery : Nat := 4096

/-- Blocks of which one is a filler (R302). -/
def fillerEvery (common : Bool) : Nat := if common then 16384 else 2048

/-- A stretch of time in which a direction sends codewords: a marker falls due every 4,096, and fillers are sent by
CLK_MODE. A marker that falls due in SWAP waits for the return to UP. -/
def State.sendCodewords (s : State) (n ns : Nat) : State :=
  let l := s.link n
  if !(l.tx == .up || l.tx == .swap) then s
  else
    let m := s.meas n
    let ps := m.txPs + 1000 * ns
    let markers := ps / (markerEvery * codewordPs)
    let blocks := (ps / codewordPs - markers) * 20
    let s := s.modMeas n fun m => { m with
      txPs := ps, txMarkers := markers, txFillers := blocks / fillerEvery (l.cfg.getLsbD 1)
      markerDue := m.markerDue || (decide (m.txMarkers < markers) && l.tx == .swap) }
    if m.txMarkers < markers && l.tx == .up then s.laneMsg n (.alignment (markerEvery * markers)) else s

/-- What the links have sent in a tick. -/
def State.lanesTick (s : State) (ns : Nat) : State :=
  (s.links.links.map Prod.fst).foldl (fun s n => s.sendCodewords n ns) s

/-! ## Lane swap (R305) -/

def LinkSt.usable (l : LinkSt) (m : LinkMeas) : Bool := decide (m.closed.getD (laneOf l.rxMap 4) 0 ≤ l.thresh.toNat)

/-- The receiving end asks for a swap of a physical data lane. -/
def State.startSwap (s : State) (n phys : Nat) : State :=
  let l := s.link n
  if l.rx == .up && (s.meas n).swapRx.isNone && (dataLane l.rxMap phys).isSome then
    ((s.modMeas n fun m => { m with swapRx := some phys }).laneMsg n (.swapRequest phys)).wakeTx n
  else s

/-- The data lane over threshold with the highest count; the lower number breaks a tie. -/
def worstLane (l : LinkSt) (counts : List Nat) : Option Nat :=
  (List.zip (List.range 5) counts).foldl (fun best e =>
    if (dataLane l.rxMap e.1).isNone || decide (e.2 ≤ l.thresh.toNat) then best
    else match best with
      | none => some e.1
      | some b => if counts.getD b 0 < e.2 then some e.1 else best) none

/-- LANE_WINDOW_CLOSE (R305): the window's counts latch. A window that overlaps a sleep is discarded (R307). -/
def execLaneWindowClose (n : LinkIx) (monitorErrs : Nat) (s : State) : Result :=
  .next <|
    let l := s.link n.val
    let m := s.meas n.val
    let clear (s : State) : State := s.modMeas n.val fun m => { m with errs := [0, 0, 0, 0, 0], windowUncorr := 0, slept := l.rx == .sleep || l.rx == .wake }
    if !l.rx.alive then s
    else if m.slept || l.rx == .sleep || l.rx == .wake then clear s
    else
      let counts := (m.errs.set (laneOf l.rxMap 4) monitorErrs).map (sat 32)
      let s := clear (s.modMeas n.val fun m => { m with closed := counts })
      let s := s.modLink n.val fun l => { l with prbsErr := sat 32 (l.prbsErr + monitorErrs) }
      if l.thresh.toNat < monitorErrs then
        (s.modLink n.val fun l => { l with monitorBad := true }).raise .log 0x0105 n.val (counts.flatMap (leBytes 4))
      else match worstLane l counts with
        | some phys => if l.thresh = 0 then s else s.startSwap n.val phys
        | none => s

/-- SWAP_REQUEST (R305, steps 1 to 3): the transmitting end stops data and puts the named lane's traffic on the
monitor. -/
def execSwapRequest (n : LinkIx) (lane : Fin 5) (s : State) : Result :=
  .next <|
    let l := s.link n.val
    if (l.tx == .up || l.tx == .sleep || l.tx == .wake) && (dataLane l.txMap lane.val).isSome then
      let s := (s.laneMsg n.val .swapMarker).modLink n.val fun l => { l with tx := .swap, txMap := swapLane l.txMap lane.val }
      s.modMeas n.val fun m => { m with swapTx := some lane.val }
    else s

/-- SWAP_MARKER (R305, step 4): the receiver decodes under the new map and sends swap-done; its direction is in SWAP until
data comes again. -/
def execSwapMarker (n : LinkIx) (s : State) : Result :=
  .next <|
    match (s.meas n.val).swapRx with
    | none => s
    | some phys =>
      let s := s.modLink n.val fun l => { l with rx := .swap, rxMap := swapLane l.rxMap phys, swaps := sat 16 (l.swaps + 1) }
      ((s.modMeas n.val fun m => { m with swapRx := none }).laneMsg n.val .swapDone).wakeTx n.val

/-- SWAP_DONE (R305, step 5): an alignment marker that fell due meanwhile is sent first (R308). -/
def execSwapDone (n : LinkIx) (s : State) : Result :=
  .next <|
    if (s.link n.val).tx == .swap then
      let s := s.modLink n.val fun l => { l with tx := .up, swaps := sat 16 (l.swaps + 1) }
      let m := s.meas n.val
      let s := if m.markerDue then s.laneMsg n.val (.alignment (markerEvery * m.txMarkers)) else s
      (s.modMeas n.val fun m => { m with swapTx := none, markerDue := false }).pump
    else s

/-- SWAP_TIMEOUT (R305, R306): the link retrains; a second within a second takes it DOWN. -/
def execSwapTimeout (n : LinkIx) (t : Nat) (s : State) : Result :=
  .next <|
    if (s.link n.val).tx == .swap then
      if (s.meas n.val).swapTimeouts.any fun x => decide (t ≤ x + 1000000000) then s.downLink n.val
      else
        let s := s.modMeas n.val fun m => { m with swapTimeouts := [t] }
        s.trainLink n.val
    else s

/-- FORCE (R305, R308): a write of LNK_SWAP_CTRL.FORCE; the swap is made at the next tick. -/
def execForce (n : LinkIx) (lane : BitVec 3) (s : State) : Result :=
  .next <|
    let l := s.link n.val
    if decide (lane.toNat < 5) && l.rx == .up && l.tx != .swap && (s.meas n.val).swapRx.isNone then
      s.modMeas n.val fun m => { m with forceDue := some lane.toNat }
    else s

/-- Perform a forced swap at the tick, if the monitor is usable. -/
def State.applyForce (s : State) (n : Nat) : State :=
  match (s.meas n).forceDue with
  | none => s
  | some lane =>
    let s := s.modMeas n fun m => { m with forceDue := none }
    if (s.link n).usable (s.meas n) then s.startSwap n lane else s

/-! ## Sleep (R307) -/

/-- Something waits to leave by a link: bytes, an answer, flits not acknowledged, or a request, message or passing
transaction whose path it is. -/
def State.linkBusy (s : State) (n : Nat) : Bool :=
  let l := s.links.fabric
  let path (q : LinkReq) : Bool := match s.devid with
    | some me => (s.reqPath me q).map Prod.fst == some n
    | none => false
  let goes (m : OutMsg) : Bool := match s.devid.bind fun me => s.msgLinks me m with
    | some k => k.contains n
    | none => false
  (s.meas n).busy || !(s.meas n).retry.isEmpty || (l.reqs.any fun q => q.link == some n || (q.link.isNone && path q)) ||
    l.wait.any goes || (l.transit.any fun t => t.via == some n) || (s.meas n).swapRx.isSome

/-- LINK_SLEEP (R307): IDLE µs with nothing to send have passed, or the far end's sleep marker has come. -/
def execLinkSleep (n : LinkIx) (dir : LinkDir) (s : State) : Result :=
  .next <|
    let l := s.link n.val
    match dir with
    | .tx =>
      if l.tx == .up && l.idle != 0 && !s.linkBusy n.val then
        (s.laneMsg n.val .sleepMarker).modLink n.val fun l => { l with tx := .sleep }
      else s
    | .rx =>
      if l.rx == .up then (s.modLink n.val fun l => { l with rx := .sleep }).modMeas n.val fun m => { m with slept := true } else s

/-- LINK_WAKE (R307): a sleeping direction that sends has relocked, and what waits is sent; one that receives leaves
SLEEP as the far end sends its pattern, and has relocked when that is done. -/
def execLinkWake (n : LinkIx) (dir : LinkDir) (s : State) : Result :=
  .next <|
    let l := s.link n.val
    match dir with
    | .tx =>
      if l.tx == .sleep || l.tx == .wake then
        ((s.laneMsg n.val (.alignment (markerEvery * (s.meas n.val).txMarkers))).modLink n.val fun l => { l with tx := .up }).pump
      else s
    | .rx =>
      if l.rx == .sleep then s.modLink n.val fun l => { l with rx := .wake }
      else if l.rx == .wake then s.modLink n.val fun l => { l with rx := .up }
      else s

end Sys2Proof.Machine
end

