-- ==== Sys2Proof/Machine/LinkFabric.lean ====
section
/-! DEFINITION. The link fabric as it receives: flits, transactions of inbound flows, multicast relaying, collective
combination, answers, outcomes, timeouts and the table batch (R310 to R330). -/
namespace Sys2Proof.Machine
open Sys2Proof

/-! ## Flits (R310 to R312) -/

/-- The far end's acknowledgement: flits up to ACK leave the retry buffer, link credits come back, and a NAK resends the
rest (R311, R315). -/
def State.flitAck (s : State) (n : Nat) (f : Flit) : State :=
  let m := s.meas n
  let left := (m.txSeq - f.ack - 1).toNat
  let m := if left < m.retry.length then
      { m with retry := m.retry.drop (m.retry.length - left), txAcked := f.ack, ackAt := s.tick.now } else m
  let m := { m with credits := m.credits.set f.crVc.val (m.credits.getD f.crVc.val 0 + f.crN.toNat) }
  let s := s.modMeas n fun _ => m
  if f.nak && !m.retry.isEmpty then
    let (down, s) := s.resendFlits n
    if down then s.downLink n else s
  else s

/-- The link is held while the far end sends hold idles (R312). -/
def State.markHeld (s : State) (n : Nat) (held : Bool) : State :=
  if (s.meas n).heldFar == held then s
  else
    let s := (s.modMeas n fun m => { m with heldFar := held }).rerouteNow
    if held then s else s.reopen n

/-- The transactions that are whole in a list of bytes: the first header and its data, and so on; what follows them is
the beginning of the next, or a flit's padding. -/
def wholeTransactions : Nat → List Byte → List (List Byte) × List Byte
  | 0, b => ([], b)
  | fuel + 1, b =>
    let ty := leNat (b.take 1)
    let n := 32 + (if typeHasData ty then leNat ((b.drop 12).take 4) else 0)
    if b.length < 32 ∨ b.length < n then ([], b)
    else
      let r := wholeTransactions fuel (b.drop n)
      (b.take n :: r.1, r.2)

/-- TYPE 0x00 and 0x0C to 0xFF are reserved (R319). -/
def typeReserved (ty : Nat) : Bool := ty == 0 || decide (11 < ty)

/-- A transaction of reserved TYPE is refused: the far end of the flow that it names is told (R314, R319; log entry 127).
One of another TYPE is a command of its own. -/
def State.refuseReserved (s : State) (n : LinkIx) (vc : Fin 8) (b : List Byte) : State :=
  let (ty, _, h) := headerOf 0 vc n b
  let zero := b.all (· == 0)
  if typeReserved ty && !zero && s.devid.isSome then
    s.sendMsg ⟨.ack, (s.flow h.rflow.toNat).peer, h.rflow.toNat, h.seq.toNat, 1⟩
  else s

/-- An accepted data flit: its payload follows what came before; its buffer's credit and its acknowledgement are due
(R310, R311, R315). A Muzzled module discards the transactions (R312). -/
def State.takePayload (s : State) (n : LinkIx) (vc : Fin 8) (b : List Byte) : State :=
  let s := (s.countEv (linkUnit n.val) 0x041 1).modMeas n.val fun m => { m with
    rxSeq := m.rxSeq + 1, nakDue := false, ackDue := true, flitsRx := (m.flitsRx + 1) % 2 ^ 48
    creditDue := m.creditDue.set vc.val (m.creditDue.getD vc.val 0 + 1) }
  let x := (s.meas n.val).rxTail ++ (b.drop 4).take flitPayload
  let (l, rest) := wholeTransactions 8 x
  let s := s.modMeas n.val fun m => { m with rxTail := if rest.headD 0 = 0 then [] else rest }
  if s.muzzle.module.active then s else l.foldl (fun s t => s.refuseReserved n vc t) s

/-- The link layer takes the blocks of a flit from the elastic buffer: where they are not there it finds a gap (R302). -/
def LinkMeas.drain (m : LinkMeas) : LinkMeas :=
  if m.fill < 8 then { m with fill := 0, gaps := m.gaps + 1 } else { m with fill := m.fill - 8 }

/-- FLIT_RECEIVE (R310, R311): 256 bytes that arrived on a virtual channel. A flit whose CRC fails, or a data flit out of
sequence, is discarded and answered with NAK. One of reserved KIND is discarded. Data shows that a swap is over. -/
def execFlitReceive (n : LinkIx) (vc : Fin 8) (bytes : List Byte) (s : State) : Result :=
  .next <|
    let f := flitOf vc bytes
    let rx := (s.link n.val).rx
    if !(rx == .up || rx == .swap) then s
    else
      let s := s.modMeas n.val LinkMeas.drain
      if !f.crcOk then
        ((s.countEv (linkUnit n.val) 0x043 1).modMeas n.val fun m => { m with crcFails := sat 16 (m.crcFails + 1), nakDue := true }).pump
      else
        let s := if rx == .swap then s.modLink n.val fun l => { l with rx := .up } else s
        match f.kind with
        | .reserved => s
        | .hold => ((s.flitAck n.val f).markHeld n.val true).pump
        | .control => ((s.flitAck n.val f).markHeld n.val false).pump
        | .data =>
          if f.fseq != (s.meas n.val).rxSeq then (s.modMeas n.val fun m => { m with nakDue := true }).pump
          else (((s.takePayload n vc bytes).flitAck n.val f).markHeld n.val false).pump

/-- While the module is Muzzled its links are told with a hold idle, and after it with another flit (R312). -/
def State.holdLink (s : State) (n : Nat) : State :=
  let hold := s.muzzle.module.active
  if (s.link n).tx != .up || (s.meas n).holdSent == hold then s
  else s.putFlit n (if hold then .hold else .control) (s.meas n).txSeq 7 []

def State.holdTick (s : State) : State := (s.links.links.map Prod.fst).foldl State.holdLink s

/-- LINK_ACK_TIMEOUT (R311): 100 µs have passed with flits outstanding and no acknowledgement. -/
def execLinkAckTimeout (n : LinkIx) (s : State) : Result :=
  .next (if (s.link n.val).tx.alive && !(s.meas n.val).retry.isEmpty && decide ((s.meas n.val).ackAt + 100000 ≤ s.tick.next) then
    s.downLink n.val else s)

/-! ## Acceptance (R313, R314, R316) -/

/-- Statuses of an acknowledgement (R319). -/
def ackOk : Nat := 0
def ackRefused : Nat := 1
def ackPruned : Nat := 2

def State.inFlow (s : State) (k : Nat) : InFlow := Table.get {} s.links.fabric.inFlows k

/-- Transactions are taken: the module has an identifier and is not Muzzled (R312, R313). -/
def State.takes (s : State) : Bool := s.devid.isSome && !s.muzzle.module.active

/-- The one that SEQ order expects next; or one received before, which is acknowledged again; or one to come. -/
inductive SeqPlace where
  | next
  | again (status : Nat)
  | ahead
  deriving DecidableEq, Repr

def InFlow.place (i : InFlow) (seq : Nat) : SeqPlace :=
  if seq = i.expected then .next
  else if (i.expected + 2 ^ 32 - 1 - seq) % 2 ^ 32 < 2 ^ 31 then
    .again (((i.answered.find? fun e => e.1 == seq).map Prod.snd).getD ackOk)
  else .ahead

/-- Count an accepted request; a status other than OK is kept for its duplicates. -/
def InFlow.count (i : InFlow) (seq status : Nat) : InFlow :=
  let kept := i.answered.filter fun e => e.1 != seq
  ⟨(seq + 1) % 2 ^ 32, if status = ackOk then kept else (seq, status) :: kept⟩

def ackMsg (h : Header) (status : Nat) : OutMsg := ⟨.ack, h.src.toNat, h.rflow.toNat, h.seq.toNat, status⟩

/-- A transaction for another module (R313). -/
def State.passes (s : State) (h : Header) : Bool := h.dest.isSome && h.dest.map BitVec.toNat != s.devid

/-- A transaction on its way to another module goes on, on the virtual channel of its arrival but for a dateline; a
Muzzled module, or one without an identifier, forwards none (R312, R313). -/
def State.passOn (s : State) (h : Header) (ty : TxType) (len : Nat) (data : List Byte) : State :=
  if !s.takes then s
  else
    let b := (headerOut h ty len 0).bytes ++ data
    (s.modLf fun l => { l with
      transit := l.transit ++ [⟨h.src.toNat, (h.dest.getD 0).toNat, h.sflow.toNat, h.vc.val, none, b⟩] }).pump

/-- Accept a request of an inbound flow in SEQ order and answer it: `body` gives its effect and status. -/
def State.serve (s : State) (h : Header) (body : Flow → State → State × Nat) : State :=
  if !s.takes then s
  else
    let f := s.flow h.rflow.toNat
    if !(f.enabled && f.inbound && f.peer == h.src.toNat && f.vc == h.vc.val) then s.sendMsg (ackMsg h ackRefused)
    else
      let i := s.inFlow h.rflow.toNat
      match i.place h.seq.toNat with
      | .ahead => s
      | .again st => s.sendMsg (ackMsg h st)
      | .next =>
        let (s, st) := body f s
        let put (l : LinkFabric) : LinkFabric := { l with inFlows := Table.put l.inFlows h.rflow.toNat (i.count h.seq.toNat st) }
        (s.modLf put).sendMsg (ackMsg h st)

/-- Data of a withdrawn token that is not yet written is discarded (R323). -/
def State.spent (s : State) (h : Header) : Bool := s.links.fabric.withdrawn.contains (h.src.toNat, h.token.toNat)

/-- The target of a TSEND or RSIGNAL: a tile of the flow's Pack (R321). -/
def State.flowTarget (s : State) (f : Flow) (t : Nat) : Option TileId :=
  let sh := s.shape f.pack
  let c := bits t 0 5
  let r := bits t 5 5
  if sh.enabled && decide (c < sh.width) && decide (r < sh.height) then some (sh.at c r) else none

/-! ## Remote reads and writes (R320) -/

/-- Start of the tile window of R320. -/
def peerTiles : Nat := 0x8000000000

/-- The tile and store address at an address of the tile window, inside the flow's Pack. -/
def State.windowTile (s : State) (f : Flow) (a : Nat) : Option (Nat × Nat) :=
  let i := (a - peerTiles) / 1048576
  if decide (peerTiles ≤ a) && decide (i < 1024) && (s.shape f.pack).covers (tileOfIx i) then some (i, (a - peerTiles) % 1048576)
  else none

/-! ### Waiting for a tile or for HBM (R257, R266, R293) -/

/-- The tiles that a transaction reaches, and whether it reaches HBM. -/
def State.txTiles (s : State) (ty : TxType) (h : Header) (len : Nat) : List TileId × Bool :=
  let f := s.flow h.rflow.toNat
  let a := bits h.target.toNat 0 48
  let g := s.group (h.rflow.toNat % 256)
  let all := g.locals.map fun r => (s.shape r.1).at r.2.1 r.2.2
  match ty with
  | .rread => if a + len ≤ hbmUserEnd then ([], true) else (((s.windowTile f a).toList ++ (s.windowTile f (a + (len - 1))).toList).map fun e => tileOfIx e.1, false)
  | .rwrite => ([], true)
  | .rsignal => if h.group then (all, false) else ((s.flowTarget f h.target.toNat).toList, false)
  | .tsend => ((s.flowTarget f h.target.toNat).toList, false)
  | .mcast => (all, false)
  | _ => ([], false)

/-- A transaction behind which this one waits: of its flow or group. -/
def Inbound.ahead (x : Inbound) (h : Header) : Bool :=
  match x with
  | .tx _ k _ _ => k.src == h.src && k.rflow == h.rflow
  | .signal .. => false

/-- A transaction has to wait: for a tile that takes no packet, for HBM, or for one before it. -/
def State.mustWait (s : State) (ty : TxType) (h : Header) (len : Nat) : Bool :=
  let r := s.txTiles ty h len
  s.takes && (r.1.any s.away || (r.2 && s.hbm.held) || s.links.fabric.inbound.any fun x => x.ahead h)

/-- A transaction waits. -/
def State.parkTx (s : State) (ty : TxType) (h : Header) (len : Nat) (data : List Byte) : State :=
  s.park ((s.txTiles ty h len).1.find? s.away) (.tx ty h len data)

/-- Take a transaction that is for this module, or pass it on; a request may have to wait. -/
def State.arriveTx (s : State) (h : Header) (ty : TxType) (len : Nat) (data : List Byte) (body : State → State) : State :=
  if s.passes h then s.passOn h ty len data
  else if s.mustWait ty h len then s.parkTx ty h len data
  else (body s).pump

/-- The bytes of an RREAD, or none where it is refused. Bytes that memory cannot give are open (log entry 4). -/
def State.peerRead (s : State) (f : Flow) (a n : Nat) : Option (List Byte) × State :=
  if !f.rw then (none, s)
  else if a + n ≤ hbmUserEnd then
    match s.hbmRead [] a n with
    | (some b, s) => (some b, s)
    | (none, s) =>
      let (x, s) := s.draw
      (some (leBytes n x), s)
  else match s.windowTile f a, s.windowTile f (a + (n - 1)) with
    | some _, some _ =>
      (some ((List.range n).map fun i =>
        match s.windowTile f (a + i) with
        | some (t, o) => (s.tile t).mem.store.readByte o
        | none => 0), s)
    | _, _ => (none, s)

/-- What an RREAD does at its target: the data goes back with the request's SEQ (R320). -/
def State.rreadTx (h : Header) (len : Nat) (s : State) : State :=
  s.serve h fun f s =>
    match s.peerRead f (bits h.target.toNat 0 48) len with
    | (none, s) => (s, ackRefused)
    | (some b, s) =>
      let s := s.modLf fun l => { l with answers := l.answers ++ [(h.src.toNat, h.seq.toNat, b)] }
      (s.sendMsg ⟨.readData, h.src.toNat, h.rflow.toNat, h.seq.toNat, 0⟩, ackOk)

/-- RREAD (R320). -/
def execRread (h : Header) (len : Fin 4097) (s : State) : Result := .next (s.arriveTx h .rread len.val [] (State.rreadTx h len.val))

/-- What an RWRITE does at its target (R320, R322). -/
def State.rwriteTx (h : Header) (data : List Byte) (s : State) : State :=
  s.serve h fun f s =>
    let a := bits h.target.toNat 0 48
    if !f.rw || hbmUserEnd < a + data.length || 4096 < data.length then (s, ackRefused)
    else if s.spent h then (s, ackOk)
    else ((s.hbmWrite [] a data).expose h.src.toNat h.token.toNat f.pack none (none, a, data.length), ackOk)

/-- RWRITE (R320, R322). -/
def execRwrite (h : Header) (data : List Byte) (s : State) : Result :=
  .next (s.arriveTx h .rwrite data.length data (State.rwriteTx h data))

/-! ## Signals, tile data and reduction (R321, R327) -/

/-- What an RSIGNAL does at its target (R321). A drain's send to a group signals every receiver of it (R213). -/
def State.rsignalTx (h : Header) (s : State) : State :=
  let t := h.target.toNat
  if h.group then
    (if s.takes && (s.group (h.rflow.toNat % 256)).enabled then s.groupSignal (h.rflow.toNat % 256) (bits t 10 6) else s)
  else s.serve h fun f s =>
    match s.flowTarget f t with
    | none => (s, ackRefused)
    | some tile => if s.spent h then (s, ackOk) else (s.signal tile (bits t 10 6) (bits t 16 16), ackOk)

/-- RSIGNAL (R321). -/
def execRsignal (h : Header) (s : State) : Result := .next (s.arriveTx h .rsignal 0 [] (State.rsignalTx h))

/-- Combine incoming entries with those at the target, as x then y (R127, R129, R327). -/
def combineBytes (fe : Bool) : Nat → List Byte → List Byte → List Byte
  | 0, _, _ => []
  | fuel + 1, x, y =>
    if y.isEmpty then []
    else
      let r := combineEntries fe .mac (BitVec.ofNat 128 (leNat (x.take 16))) (BitVec.ofNat 128 (leNat (y.take 16)))
      leBytes 16 r.1.toNat ++ combineBytes fe fuel (x.drop 16) (y.drop 16)

/-- What a TSEND leaves at its target. -/
def State.landed (s : State) (h : Header) (tile a : Nat) (data : List Byte) : List Byte :=
  if h.comb = 0 then data
  else (combineBytes (h.comb == 2) (data.length + 1) ((s.tile tile).read .store a data.length) data).take data.length

/-- FWD_EN: the result goes on as a TSEND on FWD_FLOW with the same COMB and target (R327). -/
def State.forward (s : State) (f : Flow) (h : Header) (tile : Nat) (data : List Byte) : State :=
  if !h.fwdEn || !(s.flow h.fwdFlow.toNat).outbound then s
  else
    let d := s.running f.pack
    let token := s.token f.pack tile
    s.request { id := 0, type := .tsend, flow := h.fwdFlow.toNat, issued := 0, desc := d.map Desc.id, tile := tile, engine := 4
                pc := 0, word := 0, target := h.target.toNat, data := data, token := token, comb := h.comb.toNat }

/-- What a TSEND does at its target (R321, R327): the data lands in the flow's Pack whether or not a descriptor runs
there. A COMB at a grade B module is refused. -/
def State.tsendTx (h : Header) (data : List Byte) (s : State) : State :=
  s.serve h fun f s =>
    let a := bits h.target.toNat 10 14 * 64
    match s.flowTarget f h.target.toNat with
    | none => (s, ackRefused)
    | some tile =>
      let absent := match s.mod.grade with
        | .a => false
        | .b => h.comb != 0
      if absent || h.comb == 3 || decide (4096 < data.length) || decide (1048576 < a + data.length) then (s, ackRefused)
      else if s.spent h then (s, ackOk)
      else
        let r := s.landed h tile.ix a data
        let s := if h.comb = 0 then s else s.countEv (linkUnit h.link.val) 0x046 (data.length / 16)
        let s := s.landInTile h.src.toNat h.token.toNat f.pack none tile.ix a r
        (s.forward f h tile.ix r, ackOk)

/-- TSEND (R321, R327). -/
def execTsend (h : Header) (data : List Byte) (s : State) : Result :=
  .next (s.arriveTx h .tsend data.length data (State.tsendTx h data))

/-! ## Multicast (R325, R326) -/

/-- The run of a group at a relay: a new token, root or offset begins a new transfer. -/
def GroupRun.joins (r : GroupRun) (h : Header) (off : Nat) (e : Group) : GroupRun :=
  if r.branches.isEmpty || r.token != h.token.toNat || r.root != h.src.toNat || decide (off < r.delivered) then
    { branches := e.branches, token := h.token.toNat, root := h.src.toNat }
  else r

/-- Replicate a piece onto a branch (R326). -/
def State.relay (s : State) (h : Header) (data : List Byte) (g off n : Nat) : State :=
  let b := (headerOut h .mcast data.length 0).bytes ++ data
  (s.modLf fun l => { l with transit := l.transit ++ [⟨h.src.toNat, 0, 65536 + g, h.vc.val, some n, b⟩] }).sendMsg
    ⟨.mcast, n, 65536 + g, off, 0⟩

/-- What an MCAST does at a relay or receiver: deliver, replicate, acknowledge (R326). A module that has no enabled entry
for the group, or is its root, refuses it. -/
def State.mcastTx (h : Header) (data : List Byte) (s : State) : State :=
  let g := h.rflow.toNat % 256
  let e := s.group g
  let off := bits h.target.toNat 32 24
  let n := data.length
  if !s.takes then s
  else if !e.enabled || e.root || 4096 < n then s.sendMsg ⟨.ack, h.link.val, 65536 + g, off, ackRefused⟩
  else
    let i := s.inFlow (65536 + g)
    match i.place h.seq.toNat with
    | .ahead => s
    | .again _ => s.sendMsg ⟨.ack, 0, 65536 + g, (s.groupRun g).least, ackOk⟩
    | .next =>
      let s := s.modLf fun l => { l with inFlows := Table.put l.inFlows (65536 + g) (i.count h.seq.toNat ackOk) }
      let s := s.modGroup g fun r => { r.joins h off e with sent := off + n, delivered := off + n, total := off + n }
      let s := if s.spent h then s else s.deliverLocal g h.src.toNat h.token.toNat ((bits h.target.toNat 0 14 * 64 + off) % 2 ^ 20) data
      let live := (s.groupRun g).branches.filter fun b => !b.pruned && decide (b.ix < 48)
      let s := live.foldl (fun s b => s.relay h data g off b.ix) s
      s.groupAck g (48 ≤ ·) (off + n)

/-- MCAST (R326). -/
def execMcast (h : Header) (data : List Byte) (s : State) : Result :=
  .next (s.arriveTx h .mcast data.length data (State.mcastTx h data))

/-- PRUNE (R326): every receiver beneath the pruned branch records it, and its exposed descriptor ends. -/
def execPrune (h : Header) (s : State) : Result :=
  .next <|
    let g := h.rflow.toNat % 256
    let e := s.group g
    if !s.takes || !e.enabled then s
    else
      let s := (List.range e.locals.length).foldl (fun s j => s.pruneLocal g (48 + j)) s
      let s := e.links.foldl (fun s n => s.sendMsg ⟨.prune, n, 65536 + g, (s.groupRun g).delivered, 0⟩) s
      (s.modLf fun l => { l with groups := Table.erase l.groups g }).pump

/-! ## Answers (R316, R319, R320) -/

/-- A request of a port has an answer from one place, or fails there (R342): with its last it is answered. -/
def State.portPart (s : State) (p ask seg : Nat) (b : Option (List Byte)) : State :=
  s.modPort p fun x =>
    match x.asks.find? fun a => a.id == ask with
    | none => x
    | some a =>
      let rest := x.asks.filter fun y => y.id != ask
      match b with
      | none => { x with asks := rest, answer := none }
      | some b =>
        let l := a.parts.set seg (some b)
        if l.any Option.isNone then { x with asks := x.asks.map fun y => if y.id == ask then { y with parts := l } else y }
        else { x with asks := rest, answer := some (l.flatMap fun o => o.getD []) }

/-- The number of the port's request that a link request belongs to. -/
def LinkReq.ask (q : LinkReq) : Nat := (q.ctx.map Prod.fst).getD 0

/-- Data for the requester of an RREAD. -/
def State.dataArrives (s : State) (q : LinkReq) (b : List Byte) : State :=
  let s := s.dropReq q
  if hubTile ≤ q.tile then s.setPeer q.seg (.bytes b)
  else if copyTile ≤ q.tile then s.copyPart (q.tile - copyTile) q.seg b
  else if portTile ≤ q.tile then (s.netOne (1152 + (q.tile - portTile)) b.length 0).portPart (q.tile - portTile) q.ask q.seg (some b)
  else match q.ctx with
    | none => s
    | some (ci, chunk) => s.modCtx q.tile ci fun k => { k with inflight := k.inflight.map fun c =>
        if c.ix = chunk then { c with got := Table.put c.got q.seg b } else c }

/-- The unacknowledged request of a flow with a SEQ. -/
def State.reqOf (s : State) (flow seq : Nat) : Option LinkReq :=
  s.links.fabric.reqs.find? fun q => q.flow == flow && q.seq == some seq

/-- READ_DATA (R319). -/
def execReadData (h : Header) (data : List Byte) (s : State) : Result :=
  .next <| s.arriveTx h .readData data.length data fun s =>
    if !s.takes then s
    else match s.reqOf h.rflow.toNat h.seq.toNat with
      | some q => if q.type == .rread && decide (data.length = q.len) then s.dataArrives q data else s
      | none => s

/-- What REFUSED does to the sender (R320, R321, R327): it is tainted, and a read brings bytes that the spec does not
state (log entry 4). A refused COMB may be either of two reasons. -/
def State.refused (s : State) (q : LinkReq) : State :=
  if hubTile ≤ q.tile then s.setPeer q.seg .failed
  else if copyTile ≤ q.tile then
    let s := s.copyTaint (q.tile - copyTile)
    if q.type == .rread then
      let (x, s) := s.draw
      s.copyPart (q.tile - copyTile) q.seg (leBytes q.len x)
    else s
  else if portTile ≤ q.tile then s.portPart (q.tile - portTile) q.ask q.seg none
  else
    let pick (s : State) : Nat × State :=
      if q.type != .rsignal && q.type != .tsend then (rsAddress, s)
      else if q.comb = 0 then (rsOutside, s)
      else
        let (x, s) := s.draw
        (if x % 2 = 0 then rsOutside else rsAbsent, s)
    let (reason, s) := pick s
    let s := s.taint (tileOfIx q.tile) q.engine q.pc reason q.word
    if q.type == .rread then
      let (x, s) := s.draw
      s.dataArrives q (leBytes q.len x)
    else s

/-- A sending instruction retires with its last request; a signal is no longer in flight (R196, R321). -/
def State.sendEnds (s : State) (q : LinkReq) : State :=
  if portTile ≤ q.tile then s
  else match q.ctx with
  | some (ci, 0) =>
    if q.type == .tsend && !(s.links.fabric.reqs.any fun x => x.tile == q.tile && x.ctx == q.ctx) then
      (s.modTile q.tile fun t => t.dropCtx ci).settle (tileOfIx q.tile)
    else s
  | _ => s

/-- A TSEND of an RSEND is complete: its bytes count at its tile's Retriever (R258). -/
def State.sentCount (s : State) (q : LinkReq) : State :=
  if q.type == .tsend && q.engine == 4 then s.netWrites (s.siteOf (tileOfIx q.tile)).ix (spanSizes q.data.length) else s

/-- ACK (R316): the request retires with its status and returns its flow credits; an OK read waits for its data. -/
def execAck (h : Header) (s : State) : Result :=
  .next <| s.arriveTx h .ack 0 [] fun s =>
    if !s.takes then s
    else if h.group then s.groupAck (h.rflow.toNat % 256) (fun ix => ix == h.link.val) (bits h.target.toNat 32 24)
    else match s.reqOf h.rflow.toNat h.seq.toNat with
      | none => s
      | some q =>
        let back (l : LinkFabric) : LinkFabric :=
          { l with outFlows := Table.put l.outFlows q.flow { s.outFlow q.flow with credits := some (s.flowCredits q.flow + q.units) } }
        let s := s.modLf back
        if h.status = 0 then
          (if q.type == .rread then s
           else if copyTile ≤ q.tile then s.dropReq q
           else if portTile ≤ q.tile then
             ((s.dropReq q).netOne (1152 + (q.tile - portTile)) 0 q.data.length).portPart (q.tile - portTile) q.ask q.seg (some [])
           else ((s.dropReq q).sentCount q).sendEnds q)
        else ((s.dropReq q).refused q).sendEnds q

/-! ## Outcomes and the position (R323, R324) -/

/-- CLEAR (R323). -/
def execClear (h : Header) (s : State) : Result :=
  .next <| s.arriveTx h .clear 0 [] fun s => if s.takes then s.clearToken h.src.toNat h.token.toNat else s

/-- WITHDRAW (R323). -/
def execWithdraw (h : Header) (s : State) : Result :=
  .next <| s.arriveTx h .withdraw 0 [] fun s => if s.takes then s.withdrawToken h.src.toNat h.token.toNat else s

/-- POSITION (R41, R324): the master's position, replicated on its group. -/
def execPosition (h : Header) (t : Nat) (rate : Word) (hold : Bool) (s : State) : Result :=
  .next <|
    let g := h.rflow.toNat % 256
    let e := s.group g
    if !s.takes then s
    else
      let s := if e.enabled && !e.root then
          e.links.foldl (fun s n => s.sendMsg ⟨.position, n, 65536 + g, h.target.toNat + 2 ^ 64 * rate.toNat, b2n hold⟩) s
        else s
      (if s.regN 0x20114 = h.src.toNat then s.cadLink t h.target.toNat rate.toNat hold else s).pump

/-! ## Timeouts (R316, R323, R326) -/

/-- The request has waited LF_FLOW_TIMEOUT ticks; the time before it was sent counts (R315, R316; log entry 127). -/
def State.reqLate (s : State) (q : LinkReq) : Bool := decide (q.issued + s.regN 0xF0004 ≤ s.tick.count)

/-- The descriptor has not ended. -/
def Desc.live (d : Desc) : Bool := d.phase == .running || d.phase == .finished

/-- End a descriptor with LINK_LOST, and count it (R316, R330). -/
def State.loseLink (s : State) (id : Nat) : State :=
  match s.desc? id with
  | some d =>
    if d.live then (s.endDesc id stLinkLost).modLf fun l => { l with linkLost := sat 16 (l.linkLost + 1) } else s
  | none => s

/-- A request retires in error (R316). -/
def State.reqLost (s : State) (q : LinkReq) : State :=
  let s := s.dropReq q
  let s := match q.desc with
    | some id => s.loseLink id
    | none => s
  if hubTile ≤ q.tile then s.setPeer q.seg .failed
  else if copyTile ≤ q.tile then s
  else if portTile ≤ q.tile then s.portPart (q.tile - portTile) q.ask q.seg none
  else if q.type == .mcast then
    let ci := q.ctx.map Prod.fst
    let s := s.modLf fun l => { l with groups := Table.erase l.groups (q.flow - 65536), reqs := l.reqs.filter fun x => x.flow != q.flow }
    match ci with
    | some c => s.modTile q.tile fun t => t.dropCtx c
    | none => s
  else s.sendEnds q

/-- Class 5: requests that have waited too long. -/
def State.flowTimeouts (s : State) (which : LinkReq → Bool) : State :=
  (s.links.fabric.reqs.filter fun q => which q && s.reqLate q).foldl State.reqLost s

/-- FLOW_TIMEOUT (R316). -/
def execFlowTimeout (flow : BitVec 16) (s : State) : Result := .next (s.flowTimeouts fun q => q.flow == flow.toNat)

/-- A program has completed, and an exposure is unresolved LF_FLOW_TIMEOUT ticks later (R323). -/
def State.exposureTick (s : State) (p : Nat) : State :=
  match s.running p with
  | some d => match d.outcome with
    | some t =>
      if d.phase == .finished && s.exposed d.id && decide (t + s.regN 0xF0004 ≤ s.tick.count) then s.loseLink d.id else s
    | none => s
  | none => s

/-- EXPOSURE_TIMEOUT (R323). -/
def execExposureTimeout (p : PackIx) (s : State) : Result := .next (s.exposureTick p.val)

/-- PRUNE_TIMEOUT (R326): a branch that has lagged PRUNE_TICKS ticks. -/
def execPruneTimeout (group : BitVec 8) (branch : Nat) (s : State) : Result :=
  .next <|
    let g := group.toNat
    let e := s.group g
    match (s.groupRun g).branches.find? fun b => b.ix == branch with
    | some b => if !b.pruned && b.lag != 0 && decide (e.pruneTicks ≤ b.lag) then s.pruneBranch g branch else s
    | none => s

/-! ## The table batch (R330) -/

/-- A link that the grade has. -/
def linkOk (gr : Grade) (n : Nat) : Bool := gr.hasLink n

/-- A route entry (R317). -/
def routeOk (gr : Grade) (w : Nat) : Bool :=
  bits w 44 20 == 0 && (egressesOf (BitVec.ofNat 64 w)).all fun e => e.weight == 0 || linkOk gr e.link

/-- A flow entry (R314). -/
def flowOk (me : Option Nat) (w : Nat) : Bool :=
  let f := flowOf (BitVec.ofNat 64 w)
  bits w 48 16 == 0 && some f.peer != me && f.vc != 7 && (f.inbound || (f.pack == 0 && !f.rw))

/-- A group entry (R325); the ranges of its figures are checked where it is enabled. -/
def groupOk (gr : Grade) (x : Nat) : Bool :=
  let g := groupOf (BitVec.ofNat 192 x)
  g.links.all (linkOk gr) && bits x 59 5 == 0 && decide (bits x 56 3 ≤ 4) &&
    (!g.enabled || ((g.root || linkOk gr g.uplink) && g.pruneTicks != 0 && decide (65536 ≤ g.window) &&
      decide (g.window ≤ 16384 * 1024)))

/-- A batch entry as a number: KIND, INDEX and the entry. -/
def lfEntryOk (gr : Grade) (me : Option Nat) (x : Nat) : Bool :=
  let ix := bits x 16 16
  bits x 8 8 == 0 && bits x 32 32 == 0 &&
    (match bits x 0 8 with
     | 1 => decide (ix < 16384) && bits x 128 128 == 0 && routeOk gr (bits x 64 64)
     | 2 => bits x 128 128 == 0 && flowOk me (bits x 64 64)
     | 3 => decide (ix < 256) && groupOk gr (bits x 64 192)
     | _ => false)

/-- Stage an entry. -/
def LinkTables.stage (t : LinkTables) (x : Nat) : LinkTables :=
  let ix := bits x 16 16
  match bits x 0 8 with
  | 1 => { t with routes := Table.put t.routes ix (BitVec.ofNat 64 (bits x 64 64)) }
  | 2 => { t with flows := Table.put t.flows ix (BitVec.ofNat 64 (bits x 64 64)) }
  | _ => { t with groups := Table.put t.groups ix (BitVec.ofNat 192 (bits x 64 192)) }

/-- The 32-byte entries of a batch, or the index of the first whose read fails (R61). -/
def State.readBatch (s : State) (a : Nat) : Nat → Nat → Except Nat (List Nat)
  | _, 0 => .ok []
  | i, n + 1 =>
    match s.hostLE (a + 32 * i) 32 with
    | none => .error i
    | some x => match s.readBatch a (i + 1) n with
      | .ok l => .ok (x :: l)
      | .error j => .error j

/-- LF_BATCH_GO (R330): the batch is staged whole, or refused whole with the index of its first failing entry. -/
def State.lfBatch (s : State) : State :=
  let n := s.regN 0xF0018
  match s.readBatch (s.reg64 0xF0010) 0 n with
  | .error i => s.modLf fun l => { l with batch := 3, readError := true, index := i }
  | .ok l =>
    match (List.zip (List.range n) l).find? fun e => !lfEntryOk s.mod.grade s.devid e.2 with
    | some e => s.modLf fun f => { f with batch := 3, index := e.1 }
    | none => s.modLf fun f => { f with batch := 2, index := 0, staged := l.foldl LinkTables.stage f.staged }

/-- LF_BATCH_GO. -/
def execLfBatchGo (s : State) : Result := .next s.lfBatch

end Sys2Proof.Machine
end

