-- ==== Sys2Proof/Machine/Fabric.lean ====
section
/-! DEFINITION. The programmable fabric as user logic touches it: hooks on ports, initiator requests, PLLs, GPIO banks
and pins, region isolation, interrupt lines (R332 to R347). -/
namespace Sys2Proof.Machine
open Sys2Proof

def State.modFab (s : State) (f : FabricSt → FabricSt) : State := { s with fabric := f s.fabric }

/-! ## Hooks (R339, R340) -/

/-- The first beat of row `i` has been accepted. -/
def HookSt.begun (h : HookSt) (i : Nat) : Bool := decide (i * h.beats < h.accepted)

/-- Replace a hook on its port. -/
def State.setHook (s : State) (p : Nat) (h : HookSt) : State :=
  s.modPort p fun x => { x with hooks := x.hooks.map fun y => if y.number = h.number then h else y }

/-- A hook is over. -/
def State.endHook (s : State) (p : Nat) (h : HookSt) : State :=
  s.modPort p fun x => { x with hooks := x.hooks.filter fun y => y.number != h.number }

/-- The hook whose beats the port presents: rows are sent in order. -/
def PortSt.presenting (x : PortSt) : Option HookSt := x.hooks.find? fun h => decide (h.accepted < h.rows * h.beats)

/-- The hook whose row is to return next (R339). -/
def PortSt.returning (x : PortSt) : Option HookSt := x.hooks.find? fun h => h.kind != 1 && decide (h.back.length < h.rows)

/-- An instruction with a hook may retire or start another (R207). -/
def State.hookRetry (s : State) (h : HookSt) : State := s.modTile h.tile TileSt.retry

/-- A Q beat (R339). -/
structure QBeat where
  data : List Byte
  tag : Nat
  last : Bool
  kind : Nat
  fmt : Nat
  deriving DecidableEq, Repr

/-- The row of a hook that is sent as its `i`th. -/
def HookSt.row (h : HookSt) (i : Nat) : List Byte :=
  let n := max 1 h.perBlock
  match h.blocks[i / n]? with
  | some b => b.rows.getD (i % n) []
  | none => []

/-- The next row of a hook waits for a tracker (R340). -/
def PortSt.rowWaits (x : PortSt) (h : HookSt) : Bool := h.accepted % h.beats == 0 && decide (portTrackers ≤ x.use)

/-- The beat that the port presents: a row is padded to whole beats (R339). None while its row waits for a tracker. -/
def PortSt.qBeat (x : PortSt) : Option QBeat :=
  match x.presenting with
  | none => none
  | some h =>
    if x.rowWaits h then none
    else
      let i := h.accepted / h.beats
      let j := h.accepted % h.beats
      let b := ((h.row i).drop (64 * j)).take 64
      some ⟨b ++ List.replicate (64 - b.length) 0, h.tag i, j + 1 == h.beats, h.kind, h.fmt⟩

/-- HOOK_ROW_ACCEPTED (R339): a beat moves to user logic; a row begins only with a free tracker (R340). A tap is over with
its last beat. -/
def execHookRowAccepted (port : PortIx) (s : State) : Result :=
  .next <|
    let p := port.val
    match (s.port p).presenting with
    | none => s
    | some h =>
      if (s.port p).rowWaits h then s
      else
      let h := { h with accepted := h.accepted + 1 }
      if h.kind = 1 && h.accepted == h.rows * h.beats then (s.endHook p h).hookRetry h else s.setHook p h

/-- A row of a prologue hook is staged (R205). -/
def HookSt.stageRow (h : HookSt) (t : TileSt) (row : List Byte) : TileSt :=
  match h.blocks with
  | b :: _ => t.write .store (b.dst + h.back.length * b.stride) row
  | [] => t

/-- A row has come back whole. -/
def State.rowBack (s : State) (p : Nat) (h : HookSt) (row : List Byte) : State :=
  let s := if h.kind = 0 then s.modTile h.tile fun t => h.stageRow t row else s
  let h := { h with back := h.back ++ [row], partialRow := [] }
  if h.back.length < h.rows then s.setHook p h
  else
    let s := (s.endHook p h).hookRetry h
    if h.kind = 0 then s.stagedHook h else s.drainedHook h

/-- HOOK_RETURN_BEAT (R339, R340): a beat with another tag, of a row not begun, or with LAST in the wrong place is a
protocol error; one of an abandoned hook is discarded. -/
def execHookReturnBeat (port : PortIx) (b : Beat) (s : State) : Result :=
  .next <|
    let p := port.val
    let x := s.port p
    if s.portIsolated p then s
    else match x.returning with
      | none => s
      | some h =>
        let i := h.back.length
        let row := h.partialRow ++ (b.data ++ List.replicate (64 - b.data.length) (0 : Byte)).take 64
        let last := decide (64 * ceilDiv h.rowBytes 64 ≤ row.length)
        if b.tag.toNat != h.tag i || !h.begun i then
          (if x.flushed.contains (b.tag.toNat / 4096) then s else s.hookFail p h i 2)
        else if b.last != last then s.hookFail p h i 2
        else if last then s.rowBack p h (row.take h.rowBytes)
        else s.setHook p { h with partialRow := row }

/-- HOOK_ERROR (R340): a row's budget has passed, user logic broke the protocol, or the port was isolated or its clock
stopped with rows outstanding. -/
def execHookError (port : PortIx) (why : HookFail) (s : State) : Result :=
  .next <|
    let p := port.val
    let x := s.port p
    match why with
    | .accept => match x.presenting with
      | some h => if x.rowWaits h then s else s.hookFail p h (h.accepted / h.beats) 0
      | none => s
    | .ret => match x.returning with
      | some h => if h.begun h.back.length then s.hookFail p h h.back.length 1 else s
      | none => s
    | .protocol => match x.returning with
      | some h => s.hookFail p h h.back.length 2
      | none => s
    | .stopped => x.hooks.foldl (fun s h => s.hookFail p h h.back.length 3) s

/-! ## Initiator requests (R342) -/

/-- The last request is answered, or fails: no answer stands (R342). -/
def State.portAnswer (s : State) (p : Nat) (b : Option (List Byte)) : State := s.modPort p fun x => { x with answer := b }

/-- The initiator number of a port (R259). -/
def portInitiator (p : Nat) : Nat := 1152 + p

/-- One place of a port's access: its bytes now, or a request to the peer; `ok` falls when it fails. -/
structure PortPass where
  s : State
  parts : List (Option (List Byte))
  rest : List Byte
  ok : Bool

/-- A place of the port's request `ask` that completes at once counts at the port's initiator (R258). -/
def PortPass.place (a : PortPass) (p ask fn : Nat) (write : Bool) (g : Seg) : PortPass :=
  if !a.ok then a
  else
    let data := a.rest.take g.len
    let a := { a with rest := a.rest.drop g.len }
    let done (b : List Byte) (s : State) : PortPass :=
      { a with s := if write then s.netOne (portInitiator p) 0 g.len else s.netOne (portInitiator p) g.len 0
               parts := a.parts ++ [some b] }
    match g with
    | .hbm x n =>
      if write then done [] (a.s.hbmWrite [] x data)
      else match a.s.hbmRead [] x n with
        | (some b, s) => done b s
        | (none, s) => { a with s := s, ok := false }
    | .host x n =>
      if write then done [] (a.s.hostWriteAs fn x data)
      else match a.s.hostRead x n with
        | some b => done b a.s
        | none => { a with ok := false }
    | .peer dev x n =>
      match a.s.flowTo fn dev with
      | none => { a with ok := false }
      | some f =>
        let q : LinkReq :=
          { id := 0, type := if write then .rwrite else .rread, flow := f, issued := 0, desc := none, tile := portTile + p
            engine := 0, pc := 0, word := 0, seg := a.parts.length, target := x, len := n
            data := if write then data else [], token := 0, ctx := some (ask, 0) }
        { a with s := a.s.request q, parts := a.parts ++ [none] }

/-- A read or write of a function's addresses by a port: the whole span must translate (R342). None while it waits for
trackers or for HBM (R153, R293). -/
def State.portAccess (s : State) (p : Nat) (write : Bool) (va n : Nat) (data : List Byte) : Option State :=
  let fn := bits (s.regN (portCfgAddr p)) 15 6
  match s.xlates fn write (piecesOf va n) with
  | .error _ => some (s.portAnswer p none)
  | .ok gs =>
    if portTrackers < (s.port p).use + gs.length || (s.hbm.held && gs.any Seg.inHbm) then none
    else
      let ask := (s.port p).nextAsk
      let s := s.modPort p fun x => { x with nextAsk := ask + 1, answer := none }
      let a : PortPass := gs.foldl (fun a g => PortPass.place a p ask fn write g) ⟨s, [], data, true⟩
      some (if !a.ok then a.s.portAnswer p none
        else if a.parts.any Option.isNone then a.s.modPort p fun x => { x with asks := x.asks ++ [⟨ask, a.parts⟩] }
        else a.s.portAnswer p (some (a.parts.flatMap fun o => o.getD [])))

/-- A port signals a semaphore of a Pack of its function (R342); a tile that takes no packet now gets it later (R257,
R266). None while it waits for a tracker. -/
def State.portSignal (s : State) (p : Nat) (k : PackIx) (c rw : Fin 32) (sem : Fin 64) (inc : BitVec 16) : Option State :=
  let sh := s.shape k.val
  if portTrackers ≤ (s.port p).use then none
  else if sh.enabled && sh.fn == bits (s.regN (portCfgAddr p)) 15 6 && decide (c.val < sh.width) && decide (rw.val < sh.height) then
    let g : SignalSt := ⟨sh.at c.val rw.val, sem.val, inc.toNat, none⟩
    some (({ s with tiles := { s.tiles with signals := s.tiles.signals ++ [g] } } : State).portAnswer p (some []))
  else some (s.portAnswer p none)

/-- One request of a port's user logic, or none while it waits. -/
def State.portTry (s : State) (p : Nat) (r : PortRequest) : Option State :=
  match r with
  | .read va n => s.portAccess p false va.toNat n.val []
  | .write va data => s.portAccess p true va.toNat data.length data
  | .signal k c rw sem inc => s.portSignal p k c rw sem inc

/-- User logic may initiate through a port: INIT_EN, not isolated, and no module Muzzle (R21, R342). -/
def State.portInitiates (s : State) (p : Nat) : Bool :=
  bit (s.regN (portCfgAddr p)) 14 && !s.portIsolated p && !s.muzzle.module.active

/-- Serve the requests that wait, in order, as far as they go. -/
def State.portServe (s : State) (p : Nat) : List PortRequest → State
  | [] => s.modPort p fun x => { x with waiting := [] }
  | r :: rs =>
    match s.portTry p r with
    | some s => s.portServe p rs
    | none => s.modPort p fun x => { x with waiting := r :: rs }

/-- Requests that wait go on where they can. -/
def State.portRetry (s : State) (p : Nat) : State :=
  let l := (s.port p).waiting
  if l.isEmpty || !s.portInitiates p then s else s.portServe p l

/-- Every port with requests that wait. -/
def State.portsRetry (s : State) : State := (s.fabric.ports.map Prod.fst).foldl State.portRetry s

/-- PORT_INITIATOR_REQUEST (R342). Without INIT_EN, on an isolated port or under the module Muzzle, none is taken. -/
def execPortInitiatorRequest (port : PortIx) (r : PortRequest) (s : State) : Result :=
  .next <|
    let p := port.val
    if s.portInitiates p then s.portServe p ((s.port p).waiting ++ [r]) else s

/-! ## Clocks (R335, R336) -/

/-- FAB_CLK_STATUS (R347). -/
def State.clkWord (s : State) : Nat := ((List.range 32).map fun t => 2 ^ t * b2n (s.treeRuns t)).foldl (· + ·) 0

/-- The hooks of a port whose clock tree has stopped fail (R336, R340). -/
def State.stopHooks (s : State) (p : Nat) : State :=
  if s.portStopped p then (s.port p).hooks.foldl (fun s h => s.hookFail p h h.back.length 3) s else s

/-- PLL_LOCK_LOSS (R336): its trees stop, its bit is set and an ALARM is raised. -/
def execPllLockLoss (pll : Fin 32) (s : State) : Result :=
  .next <|
    if s.fabric.pllDown.getLsbD pll.val then s
    else
      let m : Word := 1#32 <<< pll.val
      let s := s.modFab fun f => { f with pllDown := f.pllDown ||| m, pllLost := f.pllLost ||| m }
      let s := (s.fabric.ports.map Prod.fst).foldl State.stopHooks s
      s.raise .alarm 0x000E noInst (leBytes 4 s.clkWord ++ wordBytes s.fabric.pllLost)

/-- PLL_RELOCK (R336): its trees restart. -/
def execPllRelock (pll : Fin 32) (s : State) : Result :=
  .next (s.modFab fun f => { f with pllDown := f.pllDown &&& ~~~(1#32 <<< pll.val) })

/-! ## Banks and pins (R337, R338) -/

/-- GPIO_BANK_STATUS (R347). -/
def FabricSt.bankWord (f : FabricSt) (b : Nat) : Nat :=
  b2n (f.bankPresent.getLsbD b) + 2 * b2n (f.bankMismatch.getLsbD b) + 4 * b2n (f.bankLost.getLsbD b)

/-- BANK_SUPPLY_LOST (R337): the bank's pins go to high impedance and its inputs read 0. -/
def execBankSupplyLost (bank : Fin 4) (s : State) : Result :=
  .next <|
    if !s.fabric.bankPresent.getLsbD bank.val then s
    else
      let m : BitVec 4 := 1#4 <<< bank.val
      let s := s.modFab fun f => { f with
        bankPresent := f.bankPresent &&& ~~~m, bankLost := f.bankLost ||| m
        gpioIn := f.gpioIn &&& ~~~(0xFFFFFF#96 <<< (24 * bank.val)) }
      s.raise .alarm 0x000D bank.val (leBytes 4 (s.fabric.bankWord bank.val))

/-- BANK_SUPPLY_RETURN (R337): the supply is there again, at a level as VSEL numbers it; the pins resume their drive. -/
def execBankSupplyReturn (bank level : Fin 4) (s : State) : Result :=
  .next <|
    let s := { s with mod := { s.mod with pins := { s.mod.pins with vio := s.mod.pins.vio.set bank.val level.val } } }
    s.modFab fun f => { f with bankPresent := f.bankPresent ||| (1#4 <<< bank.val) }

/-- GPIO_PIN_CFG[n] (R347). -/
def State.pinCfg (s : State) (n : Nat) : Nat := s.regN (0x100500 + 4 * n)

/-- What drives a pin (R338). -/
inductive PinDrive where
  | highZ
  | cue (level : Bool)
  /-- SAFE: drive low or high, or high impedance with a weak pull down or up -/
  | safe (code : Nat)
  | user
  deriving DecidableEq, Repr

/-- The enabled cue assigned to a pin (R54). -/
def State.pinCue (s : State) (n : Nat) : Option Nat :=
  (List.range 16).find? fun c => s.cueEnabled c && bits (s.cueCfg c) 0 7 == n

/-- The pin's owner is a region that is Muzzled or not ACTIVE, or static logic that is held (R338, R358). -/
def State.ownerHeld (s : State) (owner : Nat) : Bool :=
  if owner < 32 then (s.mzRegion owner).active || (s.region owner).st != .active else s.staticHeld

/-- The source of a pin's drive: the first that applies (R338). -/
def State.pinDrive (s : State) (n : Nat) : PinDrive :=
  let f := s.fabric
  let cfg := s.pinCfg n
  if !f.bankPresent.getLsbD (n / 24) || f.bankMismatch.getLsbD (n / 24) then .highZ
  else match s.pinCue n with
    | some c => .cue (s.cue.level.getLsbD c)
    | none =>
      if !f.outReleased || s.muzzle.module.active || s.ownerHeld (bits cfg 8 6) then .safe (bits cfg 2 2) else .user

/-- Inputs latched at the tick: those of an absent bank read 0 (R337, R347). -/
def State.latchGpio (s : State) (g : BitVec 96) : State :=
  let m := (List.range 4).foldl (fun (m : BitVec 96) b =>
    if s.fabric.bankPresent.getLsbD b then m ||| (0xFFFFFF#96 <<< (24 * b)) else m) 0
  s.modFab fun f => { f with gpioIn := g &&& m }

/-! ## Regions (R343) -/

/-- A hook is outstanding on one of the region's ports. -/
def State.hookBusy (s : State) (r : Nat) : Bool :=
  s.fabric.ports.any fun e => (s.regionRect r).owns e.1 && !e.2.hooks.isEmpty

def RegionState.code : RegionState → Nat
  | .active => 0
  | .isolated => 1
  | .blank => 2
  | .loading => 3

/-- FAB_REGION_STATUS (R347). -/
def State.regionWord (s : State) (r : Nat) : Nat := (s.region r).st.code + 4 * b2n (s.hookBusy r)

/-- ISOLATE (R343): a write of ISOLATE 1. -/
def execIsolate (region : RegionIx) (s : State) : Result :=
  .next ((s.setReg (0x100100 + 4 * region.val) 1).modRegion region.val fun x => { x with isolateDue := some true })

/-- ISOLATE_RELEASE (R343): a write of ISOLATE 0. -/
def execIsolateRelease (region : RegionIx) (s : State) : Result :=
  .next ((s.setReg (0x100100 + 4 * region.val) 0).modRegion region.val fun x => { x with isolateDue := some false })

/-- A write of ISOLATE takes effect at the tick: isolation at the first tick with no row outstanding, its end at once and
only in state ISOLATED of a region that is not Muzzled, by a trigger of the same tick too (R343, R346, R362). -/
def State.applyIsolate (s : State) (r : Nat) : State :=
  match (s.region r).isolateDue with
  | none => s
  | some true =>
    if s.hookBusy r then s
    else s.modRegion r fun x => { x with isolateDue := none, st := if x.st == .active then .isolated else x.st }
  | some false =>
    let free := !(s.mzRegion r).active && !(s.muzzle.triggers.any fun t => t.scope == .region (Fin.ofNat 32 r))
    s.modRegion r fun x => { x with isolateDue := none, st := if x.st == .isolated && free then .active else x.st }

/-! ## Interrupt lines (R345) -/

/-- Class 7: the fabric interrupt lines sampled at the tick. -/
def State.irqTick (s : State) (levels : BitVec 64) : State :=
  (List.range 64).foldl (fun s i =>
    let cfg := s.regN (0x100900 + 4 * i)
    if levels.getLsbD i && bit cfg 0 then
      (s.modFab fun f => { f with irqPend := f.irqPend ||| (1#64 <<< i) }).msixSend (bits cfg 1 6) (bits cfg 7 11)
    else s) s

end Sys2Proof.Machine
end

