-- ==== Sys2Proof/Machine/Signed.lean ====
section
/-! DEFINITION. Signed objects and configuration images: signature blocks and their verification, headers, frame
streams, settings, and frames (R334, R350 to R353, R355, R399, R400). -/
namespace Sys2Proof.Machine
open Sys2Proof

/-- Bytes `a` to `a + n` of an object, and a little-endian number there. -/
def slice (b : List Byte) (a n : Nat) : List Byte := (b.drop a).take n
def sliceN (b : List Byte) (a n : Nat) : Nat := leNat (slice b a n)

/-- H() of chapter 20. -/
def hash (b : List Byte) : List Byte := (Config.shake256 b).take 64

/-! ## Signature blocks (R399, R400) -/

def sigBytes : Nat := 10586

/-- The signed region of an object whose last bytes are its signature block. -/
def signedRegion (obj : List Byte) : List Byte := obj.take (obj.length - sigBytes)
def sigBlock (obj : List Byte) : List Byte := obj.drop (obj.length - sigBytes)

/-- KEY_INDEX and SVN of an object's block. -/
def keyIndex (obj : List Byte) : Nat := sliceN (sigBlock obj) 5 1
def svnOf (obj : List Byte) : Nat := sliceN (sigBlock obj) 6 1

/-- Verify an object of a KIND (R400): 0, or the RESULT code of the first check that fails (R410). -/
def Fuses.verify (f : Fuses) (kind : Nat) (obj : List Byte) : Nat :=
  let b := sigBlock obj
  let key := slice b 5 1
  let rootKey := slice b 64 1952
  let signKey := slice b 2016 1952
  if obj.length < sigBytes || sliceN b 0 4 != 0x53494742 || sliceN b 4 1 != kind || 31 < keyIndex obj || 63 < svnOf obj ||
      sliceN b 7 57 != 0 then 3
  else if leNat (hash rootKey) ≠ f.rootDigest.toNat then 4
  else if f.revoked.getLsbD (keyIndex obj) then 5
  else if !Config.verify rootKey (key ++ signKey) (slice b 3968 3309) then 6
  else if !Config.verify signKey (hash (signedRegion obj) ++ slice b 0 64) (slice b 7277 3309) then 6
  else if svnOf obj < f.minSvn.toNat then 7
  else 0

/-! ## Frames (R334) -/

/-- Minor frames of a column. -/
def minorsOf (col : Nat) : Nat :=
  if col < 2 || col == 110 || col == 111 then 32
  else if [20, 33, 46, 59, 72, 85, 98, 105].contains col then 24
  else 15

structure FrameAt where
  minor : Nat
  band : Nat
  col : Nat
  die : Nat
  deriving DecidableEq, Repr

def frameAt (a : Nat) : FrameAt := ⟨bits a 0 5, bits a 5 5, bits a 10 7, bits a 17 2⟩
def FrameAt.addr (f : FrameAt) : Nat := f.minor + 32 * f.band + 1024 * f.col + 131072 * f.die

/-- The address names a frame. -/
def FrameAt.ok (f : FrameAt) : Bool := decide (f.minor < minorsOf f.col) && decide (f.band < 24) && decide (f.col < 112)

/-- The next frame in frame order (R351); none after the last. -/
def FrameAt.next (f : FrameAt) : Option FrameAt :=
  if f.minor + 1 < minorsOf f.col then some { f with minor := f.minor + 1 }
  else if f.band + 1 < 24 then some { f with minor := 0, band := f.band + 1 }
  else if f.col + 1 < 112 then some { f with minor := 0, band := 0, col := f.col + 1 }
  else if f.die < 3 then some ⟨0, 0, 0, f.die + 1⟩
  else none

/-- Frames of the module (R334). -/
def frameCount : Nat := 174720

/-- A frame and the `n` that follow it. -/
def frameRun : Nat → FrameAt → List FrameAt
  | 0, f => [f]
  | n + 1, f => f :: (match f.next with
    | some g => frameRun n g
    | none => [])

/-- Every frame in frame order. -/
def allFrames : List FrameAt := frameRun (frameCount - 1) ⟨0, 0, 0, 0⟩

/-- The rectangle holds the frame. -/
def RegionRect.holds (r : RegionRect) (f : FrameAt) : Bool :=
  r.enabled && r.die == f.die && decide (r.col0 ≤ f.col) && decide (f.col ≤ r.col1) && decide (r.band0 ≤ f.band) &&
    decide (f.band ≤ r.band1)

/-- The rectangle lies inside another. -/
def RegionRect.inside (r q : RegionRect) : Bool :=
  r.die == q.die && decide (q.col0 ≤ r.col0) && decide (r.col1 ≤ q.col1) && decide (q.band0 ≤ r.band0) && decide (r.band1 ≤ q.band1)

def RegionRect.meets (r q : RegionRect) : Bool :=
  r.die == q.die && decide (r.col0 ≤ q.col1) && decide (q.col0 ≤ r.col1) && decide (r.band0 ≤ q.band1) && decide (q.band0 ≤ r.band1)

/-- A region with its columns and bands in order, and no clock or GPIO column (R343). -/
def RegionRect.shapely (r : RegionRect) : Bool :=
  decide (r.col0 ≤ r.col1) && decide (r.band0 ≤ r.band1) && decide (2 ≤ r.col0) && decide (r.col1 ≤ 109) && decide (r.band1 ≤ 23)

/-- A frame in no enabled image region is static (R352). -/
def ConfigSt.isStatic (c : ConfigSt) (f : FrameAt) : Bool := !(c.imageRegions.any fun w => (regionRectOf w 0).holds f)

/-! ## The frame stream (R351) -/

/-- A DATA record: whether its CRC passes, its content and the frames it names; `bad` when an address is none. -/
structure ImgRec where
  crcOk : Bool
  content : BitVec 4096
  frames : List FrameAt
  bad : Bool
  deriving DecidableEq, Repr

/-- The stream's records, and FRAME_WRITES of its END record; none when it is not well formed. -/
structure ImgStream where
  recs : List ImgRec
  writes : Option Nat
  deriving DecidableEq, Repr

/-- The frames of `n` address entries. -/
def addrFrames : Nat → List Byte → List FrameAt × Bool
  | 0, _ => ([], true)
  | n + 1, b =>
    let e := sliceN b 0 4
    let f := frameAt (bits e 0 19)
    let run := frameRun (bits e 19 13) f
    let r := addrFrames n (b.drop 4)
    (run ++ r.1, f.ok && decide (run.length = bits e 19 13 + 1) && r.2)

def parseStream : Nat → List Byte → ImgStream
  | 0, _ => ⟨[], none⟩
  | fuel + 1, b =>
    let n := sliceN b 2 2
    if sliceN b 0 1 = 2 then ⟨[], if b.length = 8 ∧ n = 0 ∧ sliceN b 1 1 = 0 then some (sliceN b 4 4) else none⟩
    else
      let size := 520 + 8 * ceilDiv (4 * n) 8
      if sliceN b 0 1 ≠ 1 || sliceN b 1 1 ≠ 0 || n == 0 || 4096 < n || b.length < size then ⟨[], none⟩
      else
        let body := slice b 8 512
        let a := addrFrames n (slice b 520 (4 * n))
        let p := Poly.crc32c
        let r : ImgRec := ⟨p.finish (crcBytes p p.init body) == sliceN b 4 4, BitVec.ofNat 4096 (leNat body), a.1, !a.2⟩
        let t := parseStream fuel (b.drop size)
        { t with recs := r :: t.recs }

/-! ## The header (R350) -/

/-- The header of an image, `full` or partial, holds to R350. -/
def headOk (full : Bool) (o : List Byte) : Bool :=
  let streamOff := sliceN o 12 4
  let streamLen := sliceN o 16 4
  let ranges := sliceN o 32 2
  let rangeOff := sliceN o 28 4
  let setOff := sliceN o 36 4
  let setLen := sliceN o 40 4
  decide (256 ≤ o.length) && sliceN o 0 4 == 0x54393600 && sliceN o 4 2 == 2 && sliceN o 6 1 == (if full then 0 else 1) &&
    decide (sliceN o 7 1 < if full then 1 else 4) && sliceN o 8 4 == o.length && streamOff % 8 == 0 &&
    decide (streamOff + streamLen ≤ o.length) && rangeOff % 4 == 0 && decide (1 ≤ ranges) && decide (ranges ≤ 256) &&
    decide (rangeOff + 4 * ranges ≤ o.length) && sliceN o 34 2 == 0 &&
    (if full then setLen == 576 && decide (setOff + 576 ≤ o.length) else setOff == 0 && setLen == 0) &&
    sliceN o 48 4 == sigBytes && decide (sliceN o 44 4 + sigBytes = o.length) && sliceN o 52 12 == 0 &&
    (full || sliceN o 64 64 == 0) && sliceN o 128 128 == 0 &&
    (List.range ranges).all fun i => sliceN o (rangeOff + 4 * i) 4 / 2 ^ 26 == 0

/-- The frame-range entries. -/
def imgRanges (o : List Byte) : List RegionRect :=
  (List.range (sliceN o 32 2)).map fun i => regionRectOf (sliceN o (sliceN o 28 4 + 4 * i) 4) 0

/-- The stream of an image. -/
def imgStream (o : List Byte) : ImgStream :=
  let b := slice o (sliceN o 12 4) (sliceN o 16 4)
  parseStream (b.length + 1) b

def ImgStream.frames (t : ImgStream) : List FrameAt := t.recs.flatMap ImgRec.frames

/-- What a full image must be beside its signature (R350, R353, R355). -/
def fullOk (o : List Byte) : Bool :=
  let t := imgStream o
  let f := t.frames.map FrameAt.addr
  headOk true o && (t.recs.all fun r => r.crcOk && !r.bad) && t.writes == some (sliceN o 20 4) &&
    decide (t.recs.length = sliceN o 24 4) && decide (f.length = frameCount) && sliceN o 20 4 == frameCount &&
    (allFrames.all fun x => f.contains x.addr)

/-- The frames that a stream writes. -/
def ImgStream.write (t : ImgStream) (m : Table (BitVec 4096)) : Table (BitVec 4096) :=
  t.recs.foldl (fun m r => r.frames.foldl (fun m f => Table.set 0 m f.addr r.content) m) m

/-! ## Settings (R352) -/

/-- A pin's settings hold to the layout of GPIO_PIN_CFG (R347). -/
def pinCfgOk (w : Nat) : Bool :=
  bits w 4 2 != 3 && bits w 6 2 != 3 && (decide (bits w 8 6 < 32) || bits w 8 6 == 63) && bits w 14 18 == 0

/-- A mask of bank bit `j` (R281). -/
def bankMaskOk (j w : Nat) : Bool := bits w 7 4 == 2 ^ j && bits w 28 4 == 0

/-- What a settings block gives, with the fallbacks of R352, and whether any was taken. -/
structure Settings where
  order : Nat
  gap : Nat
  vsel : List Nat
  pins : List Nat
  hashes : List Nat
  regions : List Nat
  revoke : Nat
  defaulted : Bool
  deriving DecidableEq, Repr

/-- The image regions hold to their rule. -/
def imageRegionsOk (l : List Nat) : Bool :=
  let rs := l.map fun w => regionRectOf w 0
  let on := rs.filter RegionRect.enabled
  (on.all RegionRect.shapely) && l.all (fun w => w / 2 ^ 27 == 0) &&
    (List.range on.length).all fun i => (on.drop (i + 1)).all fun q => match on[i]? with
      | some r => !r.meets q
      | none => true

/-- Read the settings of an image signed with key `key`. -/
def settingsOf (o : List Byte) (key : Nat) : Settings :=
  let b := slice o (sliceN o 36 4) 576
  let word (a i : Nat) := sliceN b (a + 4 * i) 4
  let ord := sliceN b 0 1
  let gap := sliceN b 1 1
  let pins := (List.range 96).map (word 8)
  let hashes := (List.range 4).map (word 392)
  let hashOk := (List.zip (List.range 4) hashes).all fun e => bankMaskOk e.1 e.2
  let regions := (List.range 32).map (word 408)
  let rev := word 536 0
  { order := if ord < 6 then ord else 0
    gap := if gap = 0 then 16 else gap
    vsel := (List.range 4).map fun i => sliceN b (4 + i) 1 % 4
    pins := pins.map fun w => if pinCfgOk w then w else 0x3F08
    hashes := if hashOk then hashes else (List.range 4).map fun j => 2 ^ (7 + j)
    regions := if imageRegionsOk regions then regions else []
    revoke := if bit rev key then rev - 2 ^ key else rev
    defaulted := !(decide (ord < 6) && gap != 0 && pins.all pinCfgOk && hashOk && imageRegionsOk regions && !bit rev key) }

end Sys2Proof.Machine
end

