-- ==== Sys2Proof/Machine/Logic.lean ====
section
/-! DEFINITION. What user logic is made of: logic cells, RAM blocks and seam channels (R332, R333, R344), and what a host
reads and writes in PCI Express configuration space (R60, R63). -/
namespace Sys2Proof.Machine
open Sys2Proof

/-! ## Where it lies (R332, R334) -/

/-- The columns of RAM, and those of logic. -/
def ramColumns : List Nat := [20, 33, 46, 59, 72, 85, 98, 105]
def logicColumns : List Nat := (List.range 112).filter fun c => minorsOf c == 15

/-- The first frame of the column and band of a cell: 256 cells in 16 clusters to each. -/
def cellPlace (cell : Nat) : FrameAt := ⟨0, cell / 256 % 24, logicColumns.getD (cell / 6144 % 100) 0, cell / 614400⟩

/-- The first frame of the column and band of a RAM block: 12 to each. -/
def ramPlace (block : Nat) : FrameAt := ⟨0, block / 12 % 24, ramColumns.getD (block / 288 % 8) 0, block / 2304⟩

/-- The frames of a column and band. -/
def State.framesOf (s : State) (f : FrameAt) : List (BitVec 4096) :=
  (List.range (minorsOf f.col)).map fun m => Table.get 0 s.config.frames { f with minor := m }.addr

/-- No region that is blank or being loaded holds the place. -/
def State.placeLive (s : State) (f : FrameAt) : Bool := !((List.range 32).any fun r =>
  (s.regionRect r).holds f && ((s.region r).st == .blank || (s.region r).st == .loading))

/-! ## Logic cells -/

/-- A 6-input LUT, and the two 5-input functions into which it divides. -/
def lut6 (table : DWord) (x : BitVec 6) : Bool := table.getLsbD x.toNat
def lut5 (table : DWord) (upper : Bool) (x : BitVec 5) : Bool := table.getLsbD (32 * b2n upper + x.toNat)

/-- The LUT of a 4:1 multiplexer: inputs 0 to 3 are data, 4 and 5 select. -/
def muxTable : DWord := (List.range 64).foldl (fun t i => if bit i (i / 16) then t ||| (1#64 <<< i) else t) 0

/-- `k` cells and their cluster form a 4k:1 multiplexer without general routing: 16:1 of four, 32:1 of eight. -/
def clusterMux (data : List Bool) (sel : Nat) : Bool :=
  let four := (data.drop (4 * (sel / 4))).take 4
  let x := (List.zip (List.range 4) four).foldl (fun n e => n + 2 ^ e.1 * b2n e.2) (16 * (sel % 4))
  lut6 muxTable (BitVec.ofNat 6 x)

/-- A cell's table under the loaded configuration. -/
def State.cellTable (s : State) (cell : Nat) : DWord := Config.cellTable (s.framesOf (cellPlace cell)) (cell % 256)

/-- A cell's registers and carry as its image leaves them (R344). -/
def State.cellImage (s : State) (cell : Nat) : CellSt :=
  let x := Config.cellImage (s.framesOf (cellPlace cell)) (cell % 256)
  ⟨x.getLsbD 0, x.getLsbD 1, x.getLsbD 2⟩

def State.cell (s : State) (cell : Nat) : CellSt := Table.get (s.cellImage cell) s.fabric.logic.cells cell

/-- The cell before it in its carry chain, which runs within a frame column. -/
def carryFrom (cell : Nat) : Option Nat := if cell % 6144 = 0 then none else some (cell - 1)

/-- A clock edge at one of a cell's registers: held at the image's value until it is released (R344) and while it is reset
(DESIGN CHOICE, log entry 129). -/
def State.cellClock (s : State) (cell : Nat) (second ce reset d : Bool) : State :=
  if !(s.fabric.writeEn && s.fabric.resetReleased && s.placeLive (cellPlace cell)) then s
  else
    let k := s.cell cell
    let i := s.cellImage cell
    let next (q q0 : Bool) : Bool := if reset then q0 else if ce then d else q
    let k := if second then { k with q1 := next k.q1 i.q1 } else { k with q0 := next k.q0 i.q0 }
    s.modFab fun f => { f with logic := { f.logic with cells := Table.put f.logic.cells cell k } }

/-- A cell's carry bit settles. -/
def State.cellCarry (s : State) (cell : Nat) (c : Bool) : State :=
  if !s.placeLive (cellPlace cell) then s
  else s.modFab fun f => { f with logic := { f.logic with cells := Table.put f.logic.cells cell { s.cell cell with carry := c } } }

/-! ## RAM blocks (R332, R333) -/

/-- The organisations of a RAM block; 512 × 72 has one write port and one read port, the first and the second of the block
(DESIGN CHOICE, log entry 129). -/
inductive RamMode where
  | x1 | x2 | x4 | x9 | x18 | x36 | x72
  deriving DecidableEq, Repr

/-- Data bits of a word, without its ninth bits. -/
def RamMode.dataBits : RamMode → Nat
  | .x1 => 1
  | .x2 => 2
  | .x4 => 4
  | .x9 => 8
  | .x18 => 16
  | .x36 => 32
  | .x72 => 64

/-- Its ninth bits, one to a byte. -/
def RamMode.ninths (m : RamMode) : Nat := m.dataBits / 8

/-- Words of a block. -/
def RamMode.depth (m : RamMode) : Nat := 32768 / m.dataBits

def ramModeOf : Nat → RamMode
  | 0 => .x1
  | 1 => .x2
  | 2 => .x4
  | 3 => .x9
  | 4 => .x18
  | 5 => .x36
  | _ => .x72

/-- A block's organisation, and whether SEC-DED is enabled, under the loaded configuration. -/
def State.ramMode (s : State) (block : Nat) : RamMode := ramModeOf (Config.ramMode (s.framesOf (ramPlace block)) (block % 12) % 7)
def State.ramEcc (s : State) (block : Nat) : Bool :=
  s.ramMode block == .x72 && Config.ramEcc (s.framesOf (ramPlace block)) (block % 12)

/-- The 64 data bits and 8 ninth bits of a word of a block, as they were written or as the image leaves them, and the bits
that the world has flipped in it since. -/
def State.ramWord (s : State) (block w : Nat) : BitVec 72 :=
  Table.get (Config.ramImage (s.framesOf (ramPlace block)) (block % 12) w) s.fabric.logic.words (512 * block + w)
def State.ramFlips (s : State) (block w : Nat) : BitVec 72 := Table.get 0 s.fabric.logic.flips (512 * block + w)

/-- The word of a mode at an address: its data bits, and its ninth bits above them. -/
def RamMode.pick (m : RamMode) (x : BitVec 72) (a : Nat) : Nat :=
  let o := a * m.dataBits % 64
  bits x.toNat o m.dataBits + 2 ^ m.dataBits * bits x.toNat (64 + o / 8) m.ninths

/-- The stored word with the word of a mode at an address written. -/
def RamMode.put (m : RamMode) (x : BitVec 72) (a d : Nat) : BitVec 72 :=
  let o := a * m.dataBits % 64
  BitVec.ofNat 72 (setBits (setBits x.toNat o m.dataBits d) (64 + o / 8) m.ninths (d / 2 ^ m.dataBits))

/-- A word has been written: what was flipped in the bits written is gone. -/
def State.ramStore (s : State) (block w : Nat) (x flips : BitVec 72) : State :=
  s.modFab fun f => { f with logic := { f.logic with
    words := Table.put f.logic.words (512 * block + w) x, flips := Table.set 0 f.logic.flips (512 * block + w) flips } }

/-- A write at a port of a block: ignored until WRITE_EN (R344). -/
def State.ramWrite (s : State) (block : Nat) (second : Bool) (a d : Nat) : State :=
  let m := s.ramMode block
  let w := a * m.dataBits / 64
  if !(s.fabric.writeEn && s.placeLive (ramPlace block)) || decide (m.depth ≤ a) || (m == .x72 && second) then s
  else s.ramStore block w (m.put (s.ramWord block w) a d) (if s.ramEcc block then 0 else m.put (s.ramFlips block w) a 0)

def popcount72 (x : BitVec 72) : Nat := ((List.range 72).filter x.getLsbD).length

/-- What a read at a port of a block gives: with SEC-DED a single flipped bit is corrected and two are flagged (R333); what
the code makes of more is open (log entry 4). -/
def State.ramRead (s : State) (block : Nat) (second : Bool) (a : Nat) : State :=
  let m := s.ramMode block
  let w := a * m.dataBits / 64
  let good := s.ramWord block w
  let raw := good ^^^ s.ramFlips block w
  let put (s : State) (o : RamOut) : State :=
    s.modFab fun f => { f with logic := { f.logic with outs := Table.put f.logic.outs (2 * block + b2n second) o } }
  if !s.placeLive (ramPlace block) || decide (m.depth ≤ a) || (m == .x72 && !second) then s
  else if !s.ramEcc block then put s ⟨m.pick raw a, false⟩
  else
    let data (x : BitVec 72) : Nat := bits x.toNat 0 64
    match popcount72 (s.ramFlips block w) with
    | 0 => put s ⟨data good, false⟩
    | 1 => put s ⟨data good, false⟩
    | 2 => put s ⟨data raw, true⟩
    | _ =>
      let (x, s) := s.draw
      put s ⟨x / 2 % 2 ^ 64, x % 2 == 1⟩

/-- The world flips bits of a stored word; nothing scrubs them (R333). -/
def State.ramUpset (s : State) (block w : Nat) (x : BitVec 72) : State :=
  s.modFab fun f => { f with logic := { f.logic with flips := Table.set 0 f.logic.flips (512 * block + w) (s.ramFlips block w ^^^ x) } }

/-! ## Seam channels (R332) -/

/-- Dies that share a seam: C0 and C1, C2 and C3, C0 and C2, C1 and C3 (R253). -/
def diesAdjacent (a b : Nat) : Bool := a / 2 == b / 2 && a != b || a % 2 == b % 2 && a != b

/-- A cycle of the launching clock: a crossing costs two. -/
def State.seamClock (s : State) (src dst : Nat) (wires : BitVec 1024) : State :=
  if !diesAdjacent src dst then s
  else
    let k := 4 * src + dst
    let x := Table.get {} s.fabric.logic.seams k
    s.modFab fun f => { f with logic := { f.logic with seams := Table.put f.logic.seams k ⟨wires, x.launch⟩ } }

/-- What user logic has done since the last edge. -/
def State.userEvent (s : State) (e : UserEvent) : State :=
  match e with
  | .cellClock c second ce reset d => s.cellClock c.val second ce reset d
  | .cellCarry c v => s.cellCarry c.val v
  | .ramWrite b second a d => s.ramWrite b.val second a.val d.toNat
  | .ramRead b second a => s.ramRead b.val second a.val
  | .ramUpset b w x => s.ramUpset b.val w.val x
  | .seamClock src dst w => s.seamClock src.val dst.val w

/-! ## PCI Express configuration space (R60, R63) -/

/-- The table size of a function's MSI-X capability, less one; none where no capability is enabled: a VF that is not
enabled, or has no vectors (R63). -/
def State.msixTableSize (s : State) (f : Nat) : Option Nat :=
  if f = 0 then some 2047
  else if f ≤ s.host.pcie.vfs.val && s.vecCount f != 0 then some (s.vecCount f - 1)
  else none

/-- The device identifier that a function reports (R415). -/
def deviceIdOf (f : Nat) : Nat := if f = 0 then 0x0096 else 0x0097

/-- Flit mode: always at 64 GT/s, else when the partner supports it (R60). -/
def PcieSt.flitMode (p : PcieSt) : Bool := p.rate.val == 5 || p.partnerFlits

/-- Bits of a tag (R60). -/
def PcieSt.tagBits (p : PcieSt) : Nat := if p.flitMode then 14 else 10

/-- What the host has written in configuration space, or the link has trained to, since the last edge. -/
def State.cfgWrite (s : State) (c : CfgWrite) : State :=
  let put (p : PcieSt) : State := { s with host := { s.host with pcie := p } }
  let p := s.host.pcie
  match c with
  | .vfs n => put { p with vfs := n }
  | .bar2 n => if 28 ≤ n.val && n.val ≤ 39 then put { p with bar2 := n.val } else s
  | .link rate width flits => put { p with rate := rate, lanes := 2 ^ width.val, partnerFlits := flits }

end Sys2Proof.Machine
end

