-- ==== Sys2Proof/Machine/Dawn.lean ====
section
/-! DEFINITION. Dawn, Nightwatch, partial images and Dusk, and the resets (R263, R295, R348 to R363, R401, R402, R405,
R421, R425, R432). -/
namespace Sys2Proof.Machine
open Sys2Proof

def State.modConfig (s : State) (f : ConfigSt → ConfigSt) : State := { s with config := f s.config }
def State.modSec (s : State) (f : SecSt → SecSt) : State := { s with sec := f s.sec }

/-! ## Measurements (R402, R403) -/

def zeros64 : List Byte := List.replicate 64 0

/-- Extend a chain by a component. -/
def extend (m c : List Byte) : List Byte := hash (m ++ hash c)

/-- The state record (R402): one byte for each SVN, four for REVOKED, one each for MIN_SVN and the level (DESIGN
CHOICE, log entry 21). -/
def SecSt.record (x : SecSt) : List Byte :=
  (leBytes 1 x.fwSvn.toNat ++ leBytes 1 x.imageSvn.toNat ++ leBytes 4 x.fuses.revoked.toNat ++ leBytes 1 x.fuses.minSvn.toNat ++
    leBytes 1 x.level.toNat ++ zeros64).take 64

/-- The measurements that a Dawn takes (R402, R403). -/
def State.bootMeas (s : State) (i : Nat) : List Byte :=
  let fw := signedRegion s.nv.firmware
  let img := signedRegion s.nv.image
  match i with
  | 1 => hash Config.bootRom
  | 2 => hash fw
  | 3 => hash img
  | 4 => s.sec.record
  | 5 => [Config.bootRom, fw, img, s.sec.record].foldl extend zeros64
  | _ => zeros64

/-- A measurement as it stands. -/
def State.measOf (s : State) (i : Nat) : List Byte := Table.get (s.bootMeas i) s.sec.meas i

/-- The last Dawn's measurements stand whatever becomes of the NV copies. -/
def State.fixMeas (s : State) : State :=
  let l := (List.range 6).map fun i => (i + 1, s.measOf (i + 1))
  s.modSec fun x => { x with meas := l }

/-- Extend the runtime chain (R402). -/
def State.runtimeExtend (s : State) (c : List Byte) : State :=
  let m := extend (s.measOf 6) c
  s.modSec fun x => { x with meas := Table.put x.meas 6 m }

/-! ## Dawn (R354 to R356) -/

/-- An NV copy is whole and verifies; the copies of `State.reset` are not given (log entry 1). -/
def State.firmwareGood (s : State) : Bool := s.nv.firmwareOk && (s.nv.firmware.isEmpty || s.sec.fuses.verify 1 s.nv.firmware == 0)
def State.imageGood (s : State) : Bool :=
  s.nv.imageOk && (s.nv.image.isEmpty || (s.sec.fuses.verify 2 s.nv.image == 0 && fullOk s.nv.image))

/-- Tethered recovery (R355, R405): blank frames, user logic held, and the boot ROM waits for an object. -/
def State.enterRecovery (s : State) (step : Nat) : State :=
  let s := s.railsDown .recovery
  let s := s.modConfig fun c => { c with
    dawnStep := BitVec.ofNat 4 step, imageBad := true, frames := [], imageRegions := [], staticDigest := none }
  s.modSec fun x => { x with rcv := { x.rcv with waiting := true } }

/-- Rows of a column half that are neither fused nor retired, ascending (R263). -/
def usableRows (g : Grade) (retired : Table Nat) (col half : Nat) : List Nat :=
  ((List.range 18).map (18 * half + ·)).filter fun r => !siteFused g r && !(retired.any fun e => e.1 == r * 32 + col)

/-- Logical rows of a half and the physical rows that serve them at Dawn (R263): its own usable rows in order. Rows for
which its own half has no site left take the spares of the other half (DEDUCED, log entry 121). -/
def dawnServed (g : Grade) (retired : Table Nat) (col half : Nat) : List (Nat × Nat) :=
  let own := usableRows g retired col half
  let rows := (List.range g.halfRows).map (half * g.halfRows + ·)
  List.zip rows own ++ List.zip (rows.drop own.length) ((usableRows g retired col (1 - half)).drop g.halfRows)

/-- The sites of one column at Dawn (R263, R264, R276). -/
def dawnColumn (g : Grade) (nv : NvSt) (col : Nat) : List (Nat × SiteSt) :=
  let served := dawnServed g nv.retiredSites col 0 ++ dawnServed g nv.retiredSites col 1
  (List.range 36).map fun r =>
    let ix := r * 32 + col
    let st : SiteSt :=
      if siteFused g r then { st := .fused }
      else if nv.retiredSites.any fun e => e.1 == ix then { st := .retired }
      else match served.find? fun e => e.2 == r with
        | some e => { st := .inService, lrow := e.1 }
        | none => { st := .spare }
    (ix, { st with faults := Table.get 0 nv.siteFaults ix })

/-- The Kennel at Dawn: the columns of which the NV store says something differ from those of a module without fault. -/
def dawnKennel (g : Grade) (nv : NvSt) : Kennel :=
  let named (c : Nat) : Bool := nv.retiredSites.any (fun e => e.1 % 32 == c) || nv.siteFaults.any (fun e => e.1 % 32 == c)
  let sites := ((List.range 32).filter named).flatMap (dawnColumn g nv)
  let moved := sites.filter fun e => e.2.st == .inService && dawnRow g e.2.lrow != e.1 / 32
  { sites := sites.foldl (fun t e => Table.put t e.1 e.2) []
    remap := moved.foldl (fun t e => Table.put t (e.2.lrow * 32 + e.1 % 32) (e.1 / 32)) [] }

/-- HBM at Dawn (R288, R289, R295): zero, but for what the NV store says has failed or been retired; a stack that fails
its training is declared failed. -/
def State.dawnHbm (s : State) : State :=
  let bad := (List.range 12).filter s.hbm.untrained.contains
  let s := { s with hbm := {
    retired := s.nv.retiredFrames, low := decide (spareFrames * 9 ≤ s.nv.retiredFrames.length * 10)
    exhausted := decide (spareFrames ≤ s.nv.retiredFrames.length) } }
  let s := s.nv.failedPcs.foldl (fun s e => s.modStack e.1 fun k => { k with failedPc := e.2 }) s
  let old := s.nv.failedStacks.filter Prod.snd
  let s := ((List.range 12).filter fun k => bad.contains k || old.any fun e => e.1 == k).foldl State.failStack s
  let s := (bad.filter fun k => !(old.any fun e => e.1 == k)).foldl (fun s k => s.declareFail (k, none)) s
  (s.checkLoss 0).checkLoss 1

/-- CFG_DAWN_STATUS (R363). -/
def ConfigSt.dawnWord (c : ConfigSt) : Nat := c.dawnStep.toNat + 16 * b2n c.settingsDefaulted + 32 * b2n c.imageBad

/-- Load the image: its frames and settings (R352, R353). -/
def State.loadImage (s : State) : State :=
  let o := s.nv.image
  if o.isEmpty then s
  else
    let t := settingsOf o (keyIndex o)
    let both (s : State) (a v : Nat) : State := (s.setReg a (BitVec.ofNat 32 v)).setStaged a (BitVec.ofNat 32 v)
    let put (base : Nat) (l : List Nat) (s : State) : State :=
      (List.zip (List.range l.length) l).foldl (fun s e => both s (base + 4 * e.1) e.2) s
    let s := put 0x83040 t.hashes (put 0x100500 t.pins (put 0x100400 t.vsel s))
    let s := s.modConfig fun c => { c with
      frames := (imgStream o).write [], imageRegions := t.regions, staticDigest := some (slice o 64 64)
      dawnOrder := BitVec.ofNat 3 t.order, releaseGap := BitVec.ofNat 8 t.gap, settingsDefaulted := t.defaulted }
    let s := s.modSec fun x => { x with imageSvn := BitVec.ofNat 6 (svnOf o), revokeMask := BitVec.ofNat 32 t.revoke }
    if t.defaulted then s.raise .log 0x010B noInst (leBytes 4 s.config.dawnWord) else s

/-- A Dawn re-reads the static image and every region's (R29): the conditions of causes 0x02 and 0x03 are met, and a
region that is still Muzzled opens isolated. -/
def State.dawnMuzzle (s : State) : State :=
  let s := s.meetModule 0x02
  (List.finRange 32).foldl (fun s r =>
    if (s.mzRegion r.val).active then
      ((s.meetRegion r 0x02).meetRegion r 0x03).modRegion r.val fun x => { x with st := .isolated, byMuzzle := true }
    else s) s

/-- Each bank compares its supply with VSEL; one that is absent matches none (R338; DEDUCED, log entry 131). -/
def State.dawnBanks (s : State) : State :=
  let ok (b : Nat) : Bool := s.fabric.bankPresent.getLsbD b && s.mod.pins.vio.getD b 0 == s.regN (0x100400 + 4 * b)
  let m := (List.range 4).foldl (fun (m : BitVec 4) b => if ok b then m else m ||| (1#4 <<< b)) 0
  s.modFab fun f => { f with bankMismatch := m }

/-- Steps 3 to 8: the module opens, at its reset values and the image's (R354, R421). A Muzzle ends only on a release
request (R27), so it outlives a module reset (DEDUCED, log entry 120). -/
def State.dawnOpen (s : State) : State :=
  let n : State :=
    { pending := s.pending
      mod := { s.mod with power := .running, dusk := {}, pins := { s.mod.pins with muzzle := s.muzzle.module.active } }
      muzzle := s.muzzle.kept
      host := { s.host with msix := [] }
      kennel := dawnKennel s.mod.grade s.nv
      fabric := { bankPresent := s.fabric.bankPresent, pllDown := s.fabric.pllDown, pllLost := s.fabric.pllDown }
      hbm := { untrained := s.hbm.untrained }
      config := { s.config with
        dawnStep := 8, settingsDefaulted := false, imageBad := false, load := none, plState := 0, plResult := 0
        plBusyWrite := false, plFault := 0, plFaultRec := 0, lastImage := [], nwRunning := true, nwCtrl := 0x28, nwNext := some 0
        nwStalled := [], nwUnprotected := false, nwDigestFail := false, nwPasses := 0, nwFrames := 0, nwCorr := 0
        nwUncorr := 0, nwVote := 0, nwLast := 0 }
      nv := s.nv
      sec := { s.sec with level := 0, upd := s.sec.upd.cut, rcv := { s.sec.rcv with waiting := false } }
      fresh := s.fresh }
  let n := n.dawnHbm.loadImage.dawnMuzzle.dawnBanks
  (n.modSec fun x => { x with meas := [] }).fixMeas

/-- The MC starts (Dawn step 1). -/
def State.mcStarts (s : State) : State :=
  s.modSec fun x => { x with
    mcRunning := true, fwSvn := if s.nv.firmware.isEmpty then x.fwSvn else BitVec.ofNat 6 (svnOf s.nv.firmware) }

/-- Dawn from step 2 (R354 to R356, R432): it waits for VIN48 and for PERST_N; firmware or an image that does not verify
leads to recovery. -/
def State.dawn (s : State) : State :=
  if !s.mod.vauxOk then s.railsDown .off
  else if !s.mod.vin48Ok then s.railsDown .standby
  else if !s.sec.mcRunning && !s.firmwareGood then s.enterRecovery 2
  else
    let s := if s.sec.mcRunning then s else s.mcStarts
    if s.mod.pins.perst then s.railsDown .dawnHeld
    else if s.imageGood then s.dawnOpen
    else s.enterRecovery 3

/-- VAUX_IN_RANGE (R354): step 1, and the rest when VIN48 is in range. -/
def execVauxInRange (s : State) : Result :=
  .next <|
    if s.mod.vauxOk then s
    else
      let s := { s with mod := { s.mod with vauxOk := true } }
      let s := { s.railsDown .standby with muzzle := {} }
      let s := s.modSec fun x => { x with
        mcRunning := false, mcRestarts := 0, level := 0, nonceFresh := false, upd := {}, rcv := {}, spdmVersion := none, spdmOut := none }
      let s := if s.firmwareGood then s.mcStarts else s
      if s.mod.vin48Ok then s.dawn else s

/-- VIN48_IN_RANGE (R354, R425). -/
def execVin48InRange (s : State) : Result :=
  .next <|
    if s.mod.vin48Ok then s
    else
      let s := { s with mod := { s.mod with vin48Ok := true, pins := { s.mod.pins with thermTrip := false } } }
      if s.mod.vauxOk then s.dawn else s

/-- FUNDAMENTAL_RESET (R361, R425, R432): PERST_N is asserted. The module powers down without records, and Dawn waits at
step 2 for its release. -/
def execFundamentalReset (s : State) : Result :=
  .next <|
    let s := { s with mod := { s.mod with pins := { s.mod.pins with perst := true } } }
    match s.mod.power with
    | .off => s
    | .thermalOff => s
    | _ => s.dawn

/-- PERST_N_RELEASE (R432). -/
def execPerstNRelease (s : State) : Result :=
  .next <|
    let s := { s with mod := { s.mod with pins := { s.mod.pins with perst := false } } }
    if s.mod.power == .dawnHeld then s.dawn else s

/-- MODULE_RESET (R356). -/
def execModuleReset (s : State) : Result :=
  .next (match s.mod.power with
    | .running => s.dawn
    | .recovery => s.dawn
    | _ => s)

/-! ## Nightwatch (R357, R358) -/

/-- NW_STATUS (R363). -/
def ConfigSt.nwWord (c : ConfigSt) : Nat := b2n c.nwRunning + 2 * b2n c.nwUnprotected + 4 * b2n c.nwDigestFail

/-- A frame belongs to a region that is being loaded. -/
def State.frameLoading (s : State) (f : FrameAt) : Bool :=
  (List.range 32).any fun r => (s.region r).st == .loading && (s.regionRect r).holds f

/-- The first frame at or after `f` that the pass reads. -/
def State.readable (s : State) : Nat → Option FrameAt → Option FrameAt
  | 0, f => f
  | fuel + 1, f =>
    match f with
    | none => none
    | some x => if s.frameLoading x then s.readable fuel x.next else some x

/-- A frame is beyond correction: its region, or the module, is Muzzled with cause 0x02 (R22, R357). -/
def State.frameLost (s : State) (f : FrameAt) : State :=
  match (List.finRange 32).find? fun r => (s.regionRect r.val).holds f with
  | some r => s.trigger (.region r) 0x02
  | none => if s.config.isStatic f then s.trigger .module 0x02 else s

/-- NIGHTWATCH_FRAME (R357): the next frame of the pass is read, corrected or reported. -/
def execNightwatchFrame (e : FrameError) (s : State) : Result :=
  .next <|
    if !s.config.nwRunning then s
    else match s.readable frameCount (s.config.nwNext.map frameAt) with
      | none => s.modConfig fun c => { c with nwNext := none }
      | some f =>
        let s := s.modConfig fun c => { c with nwNext := f.next.map FrameAt.addr, nwFrames := (c.nwFrames + 1) % 2 ^ 32 }
        match e with
        | .clean => s
        | .single _ => s.modConfig fun c => { c with nwCorr := sat 32 (c.nwCorr + 1), nwLast := BitVec.ofNat 32 f.addr }
        | .uncorrectable =>
          (s.modConfig fun c => { c with
            nwUncorr := sat 32 (c.nwUncorr + 1), nwLast := BitVec.ofNat 32 (f.addr + 2 ^ 31) }).frameLost f

/-- The digest of the static frames differs from the golden one (R357). -/
def ConfigSt.digestBad (c : ConfigSt) : Bool :=
  match c.staticDigest with
  | none => false
  | some d =>
    let all := (allFrames.filter c.isStatic).flatMap fun f => leBytes 512 (Table.get 0 c.frames f.addr).toNat
    hash all != d

/-- A pass begins, under NW_CTRL as it stands (R363). -/
def State.nwPass (s : State) : State :=
  let w := s.reg 0x108100
  s.modConfig fun c => { c with nwNext := some 0, nwCtrl := w }

/-- NIGHTWATCH_PASS_END (R357, R358): every frame of the pass has been read. A pass that completes after a stall restores
protection. -/
def execNightwatchPassEnd (s : State) : Result :=
  .next <|
    if s.config.nwNext.isSome || !s.config.nwRunning then s
    else
      let bad := s.config.digestBad
      let s := s.modConfig fun c => { c with
        nwPasses := (c.nwPasses + 1) % 2 ^ 32, nwUnprotected := false, nwDigestFail := c.nwDigestFail || bad
        nwUncorr := if bad then sat 32 (c.nwUncorr + 1) else c.nwUncorr }
      let s := (List.finRange 32).foldl (fun s r => s.meetRegion r 0x04) s
      (if bad then s.trigger .module 0x02 else s).nwPass

/-- Descriptors with a hook on a port of the static logic (R22, R358). -/
def State.staticUsers (s : State) : List Nat :=
  s.fabric.ports.flatMap fun e => if (s.portRegion e.1).isNone then e.2.hooks.map HookSt.desc else []

/-- NIGHTWATCH_STALL (R358, R362): under policy 0 every enabled region is Muzzled, one being loaded once its load is
done. -/
def execNightwatchStall (s : State) : Result :=
  .next <|
    if !s.sec.mcRunning then s
    else
      let s := s.modConfig fun c => { c with nwUnprotected := true }
      let s := s.raise .alarm 0x000F noInst (leBytes 4 s.config.nwWord ++ leBytes 4 s.config.nwFrames)
      let s :=
        if bit s.config.nwCtrl.toNat 10 then s
        else (List.finRange 32).foldl (fun (s : State) r =>
          if !(s.regionRect r.val).enabled then s
          else if (s.region r.val).st == .loading then s.modConfig fun c => { c with nwStalled := c.nwStalled ++ [r.val] }
          else s.trigger (.region r) 0x04) (s.staticUsers.foldl (fun s id => s.latchFault id stMuzzled) s)
      s.nwPass

/-! ## Partial images (R359, R360) -/

/-- CFG_PL_STATUS (R363). -/
def ConfigSt.plWord (c : ConfigSt) : Nat := c.plState.toNat + 4 * c.plResult.toNat + 64 * b2n c.plBusyWrite

/-- A load is refused; nothing changes. -/
def State.plFails (s : State) (result : BitVec 4) : State :=
  s.modConfig fun c => { c with load := none, plState := 3, plResult := result }

/-- PARTIAL_LOAD_GO (R359, R362). -/
def execPartialLoadGo (region : RegionIx) (source : Bool) (s : State) : Result :=
  .next <|
    if s.config.load.isSome then s.modConfig fun c => { c with plBusyWrite := true }
    else if s.mod.dusk.step ≠ 0 then s.plFails 0xA
    else s.modConfig fun c => { c with load := some ⟨region, source, [], 0⟩, plState := 1, plResult := 0 }

/-- The bytes of the image to stage; none when they cannot be read. -/
def State.plBytes (s : State) (l : PartialLoad) (n : Nat) : Option (List Byte) :=
  if l.source then
    let b := Table.get [] s.config.lastImage l.region.val
    if b.isEmpty then none else some (b.take n)
  else s.hostRead (s.reg64 0x108010) n

/-- At the tick, a write of GO takes effect: staging (R359 step 1). -/
def State.plTick (s : State) : State :=
  match s.config.load with
  | some l =>
    let n := s.regN 0x108018
    let st := (s.region l.region.val).st
    if l.step ≠ 0 then s
    else if st == .active || st == .loading then s.plFails 1
    else if n = 0 ∨ 67108864 < n then s.plFails 2
    else match s.plBytes l n with
      | none => s.plFails 3
      | some b => s.modConfig fun c => { c with load := some { l with image := b, step := 1 } }
  | none => s

/-- The checks of steps 2 and 3: the RESULT of the first that fails. -/
def State.plCheck (s : State) (l : PartialLoad) : Option (BitVec 4) :=
  let r := s.regionRect l.region.val
  let o := l.image
  if s.sec.fuses.verify 3 o ≠ 0 then some 4
  else if !headOk false o || sliceN o 7 1 != r.die || (imgStream o).writes.isNone then some 5
  else if !(r.enabled && (imgRanges o).all fun q => q.inside r) then some 6
  else if allFrames.any fun f => r.holds f && s.config.isStatic f then some 7
  else none

/-- A region's frames written blank. -/
def blankRegion (r : RegionRect) (m : Table (BitVec 4096)) : Table (BitVec 4096) := m.filter fun e => !r.holds (frameAt e.1)

/-- What user logic has left in a region's cells and RAM blocks is gone with its frames. -/
def LogicSt.reload (x : LogicSt) (r : RegionRect) : LogicSt :=
  { x with
    cells := x.cells.filter fun e => !r.holds (cellPlace e.1)
    words := x.words.filter fun e => !r.holds (ramPlace (e.1 / 512))
    flips := x.flips.filter fun e => !r.holds (ramPlace (e.1 / 512)) }

/-- The staging area, in device-reserved HBM, cannot be read: module Muzzle 0x01, and the region is blanked (R283, R362);
RESULT is that of a failed read (DESIGN CHOICE, log entry 131). -/
def State.stagingLost (s : State) (l : PartialLoad) : State :=
  let r := s.regionRect l.region.val
  let s := s.modFab fun f => { f with logic := f.logic.reload r }
  let s := (s.modConfig fun c => { c with frames := blankRegion r c.frames }).plFails 3
  (s.modRegion l.region.val fun x => { x with st := .blank, byMuzzle := false }).trigger .module 0x01

/-- PARTIAL_LOAD_STAGED (R359): the image is verified, and writing begins. -/
def execPartialLoadStaged (readOk : Bool) (s : State) : Result :=
  .next <|
    match s.config.load with
    | some l =>
      if l.step ≠ 1 then s
      else if !readOk then s.stagingLost l
      else match s.plCheck l with
        | some e => s.plFails e
        | none =>
          (s.modConfig fun c => { c with load := some { l with step := 2 } }).modRegion l.region.val fun x =>
            { x with st := .loading, byMuzzle := false }
    | none => s

/-- A DATA record that stops the load: its index, the frame, and whether the frame lies outside the region. -/
def strays (r : RegionRect) (l : List ImgRec) : Option (Nat × Nat × Bool) :=
  let hits := (List.zip (List.range l.length) l).map fun e =>
    if !e.2.crcOk || e.2.bad then some (e.1, ((e.2.frames.head?).map FrameAt.addr).getD 0, false)
    else ((e.2.frames.find? fun f => !r.holds f).map fun f => (e.1, f.addr, true))
  hits.findSome? id

/-- The region Muzzled for a stall that fell within its load; a whole pass since the stall meets its condition (R29). -/
def State.stalledRegion (s : State) (r : RegionIx) : State :=
  if s.config.nwStalled.contains r.val then
    let s := (s.modConfig fun c => { c with nwStalled := c.nwStalled.filter (· != r.val) }).trigger (.region r) 0x04
    if s.config.nwUnprotected then s else s.meetRegion r 0x04
  else s

/-- PARTIAL_LOAD_WRITTEN (R359, R360): the region holds the image and is ISOLATED; or, at a frame outside it or a CRC
failure, it is blank and Muzzled. -/
def execPartialLoadWritten (readOk : Bool) (s : State) : Result :=
  .next <|
    match s.config.load with
    | some l =>
      if l.step ≠ 2 then s
      else if !readOk then (s.stagingLost l).stalledRegion l.region
      else
        let n := l.region.val
        let r := s.regionRect n
        let t := imgStream l.image
        let s := s.modFab fun f => { f with logic := f.logic.reload r }
        match strays r t.recs with
        | some (i, f, outside) =>
          let s := s.modConfig fun c => { c with
            frames := blankRegion r c.frames, load := none, plState := 3, plResult := if outside then 8 else 9, plFault := f, plFaultRec := i }
          let s := s.modRegion n fun x => { x with st := .blank }
          let c := s.config
          let s := s.raise .log 0x0109 n (leBytes 4 c.plWord ++ leBytes 4 c.plFault ++ leBytes 4 c.plFaultRec)
          (s.trigger (.region l.region) (if outside then 0x03 else 0x02)).stalledRegion l.region
        | none =>
          let s := s.modConfig fun c => { c with
            frames := t.write (blankRegion r c.frames), load := none, plState := 2, plResult := 0
            lastImage := Table.put c.lastImage n l.image }
          let s := s.modRegion n fun x => { x with st := .isolated }
          let s := s.runtimeExtend ([0, BitVec.ofNat 8 n] ++ hash (signedRegion l.image))
          ((s.meetRegion l.region 0x02).meetRegion l.region 0x03).stalledRegion l.region
    | none => s

/-! ## Dusk (R361) -/

/-- A write of CFG_DUSK_CTRL.ACTION. -/
def State.dusk (s : State) (grace : Nat) (thenReset : Bool) : State :=
  if s.mod.power == .running && s.mod.dusk.step == 0 then
    { s with mod := { s.mod with dusk := { step := 1, grace := grace, thenReset := thenReset } } }
  else s

/-- DUSK_STANDBY. -/
def execDuskStandby (grace : BitVec 16) (s : State) : Result := .next (s.dusk grace.toNat false)

/-- DUSK_RESET. -/
def execDuskReset (grace : BitVec 16) (s : State) : Result := .next (s.dusk grace.toNat true)

/-- Step 1: nothing further is fetched, and what is not dispatched is cancelled. -/
def State.duskStop (s : State) : State :=
  let s := if s.mod.dusk.step = 1 then { s with mod := { s.mod with dusk := { s.mod.dusk with step := 2, since := s.tick.count } } } else s
  if s.mod.dusk.step = 0 then s
  else (s.shep.descs.filter fun d => d.undispatched && d.phase != .rejected).foldl (fun s d => s.endDesc d.id stCancelled) s

/-- No descriptor runs or drains. -/
def State.allStopped (s : State) : Bool :=
  s.shep.descs.all fun d => d.phase != .running && d.phase != .finished && d.phase != .ending

/-- A load, or an update that is writing, holds Dusk before its step 3 (R362, R409). -/
def State.duskWaits (s : State) : Bool := s.config.load.isSome || s.sec.upd.state == 1

/-- Steps 3 to 5: cues and pins safe, regions isolated, records saved, power down; then standby, or Dawn. -/
def State.duskEnd (s : State) : State :=
  let again := s.mod.dusk.thenReset
  let s := s.cuesSafe fun _ => true
  let s := s.railsDown .standby
  if again then s.dawn else s

/-- Step 2: descriptors run for GRACE ticks, and are then cancelled; when none is left the module holds and powers
down. -/
def State.duskDrain (s : State) : State :=
  if s.mod.dusk.step ≠ 2 then s
  else if s.allStopped then (if s.duskWaits then s else s.duskEnd)
  else if s.mod.dusk.since + s.mod.dusk.grace ≤ s.tick.count then
    let s := (s.shep.descs.filter fun d => d.phase == .running || d.phase == .finished).foldl (fun s d => s.endDesc d.id stCancelled) s
    s
  else s

/-- DUSK_GRACE_EXPIRY. -/
def execDuskGraceExpiry (s : State) : Result := .next s.duskDrain

/-! ## Loss of supply (R364) -/

/-- The rails fall within 1 ms of a trip of VIN48 or VAUX: at the first tick a millisecond after it. -/
def State.supplyFalls (s : State) : State :=
  if (!s.mod.vin48Ok || !s.mod.vauxOk) && decide (1000000 ≤ s.tick.now - s.ltime.supplyOkSince) then
    s.railsDown (if s.mod.vauxOk then .standby else .off)
  else s

end Sys2Proof.Machine
end

