-- ==== Sys2Proof/Machine/Security.lean ====
section
/-! DEFINITION. Security and management: updates, recovery, security versions, debug, SPDM and MCTP, the MC, and the
boundary-scan port (R398 to R410). -/
namespace Sys2Proof.Machine
open Sys2Proof

/-! ## Updates (R404, R409) -/

/-- Bytes of the NV area that an object goes to (R348). -/
def nvArea (kind : Nat) : Nat := if kind = 1 then 16777216 else 230162432

/-- KIND of a signature block for an update of KIND 1 or 2: the same number (R399, R410). -/
def objectCheck (f : Fuses) (kind : Nat) (obj : List Byte) : Nat :=
  let r := f.verify kind obj
  if r = 0 && kind == 2 && !fullOk obj then 3 else r

/-- Time to rewrite and read back an object, ns: 16 MiB/s and 1.6 GB/s (R404). -/
def nvTime (n : Nat) : Nat := ceilDiv (n * 1000000000) 16777216 + ceilDiv (n * 10) 16

def State.modUpd (s : State) (f : UpdSt → UpdSt) : State := s.modSec fun x => { x with upd := f x.upd }
def State.modRcv (s : State) (f : UpdSt → UpdSt) : State := s.modSec fun x => { x with rcv := f x.rcv }

def UpdSt.fail (u : UpdSt) (result : Nat) : UpdSt := { u with state := 3, result := BitVec.ofNat 4 result, job := none }

/-- SEC_UPD_STATUS and SEC_REC_STATUS (R410). -/
def UpdSt.word (u : UpdSt) : Nat := u.state.toNat + 4 * b2n u.busyWrite + 8 * u.result.toNat + 128 * b2n u.waiting

/-- The NV copy of an object is no longer whole. -/
def State.nvBroken (s : State) (kind : Nat) : State :=
  { s with nv := if kind = 1 then { s.nv with firmwareOk := false } else { s.nv with imageOk := false } }

/-- SEC_UPD_GO (R404, R409): staged and verified at once; from then the NV copy is being rewritten, and is invalid until it
has been read back. -/
def execSecUpdGo (kind : BitVec 2) (s : State) : Result :=
  .next <|
    let k := kind.toNat
    let n := s.regN 0x140208
    if s.sec.upd.state == 1 || s.sec.rcv.state == 1 then s.modUpd fun u => { u with busyWrite := true }
    else if s.mod.dusk.step ≠ 0 then s.modUpd fun u => u.fail 9
    else if k ≠ 1 ∧ k ≠ 2 then s.modUpd fun u => u.fail 3
    else if n = 0 ∨ nvArea k < n then s.modUpd fun u => u.fail 1
    else match s.hostRead (s.reg64 0x140200) n with
      | none => s.modUpd fun u => u.fail 2
      | some b =>
        let r := objectCheck s.sec.fuses k b
        if r ≠ 0 then s.modUpd fun u => u.fail r
        else
          (s.nvBroken k).modUpd fun u => { u with state := 1, result := 0, job := some (k, b, s.tick.now + nvTime n) }

/-- Put a verified object into its NV area. -/
def State.nvStore (s : State) (kind : Nat) (b : List Byte) : State :=
  let s := s.fixMeas
  { s with nv := if kind = 1 then { s.nv with firmware := b, firmwareOk := true } else { s.nv with image := b, imageOk := true } }

/-- At the tick: an update whose read-back is done is complete (R404); it fails where a block of its area is worn and no
spare is left (R349, R409). -/
def State.updTick (s : State) : State :=
  match s.sec.upd.job with
  | some (k, b, t) =>
    if s.tick.now < t then s
    else if s.nv.areaWorn k then s.modUpd fun u => u.fail 8
    else (s.nvStore k b).modUpd fun u => { u with state := 2, job := none }
  | none => s

/-! ## Recovery (R405) -/

/-- RECOVERY_GO: the boot ROM restores an object in its three passes; when every object is whole it runs a module reset. A
buffer that the host has `changed` between the first and the second fails, as do worn blocks (R349, R405). -/
def execRecoveryGo (kind : BitVec 2) (changed : Bool) (s : State) : Result :=
  .next <|
    let k := kind.toNat
    let n := s.regN 0x140408
    if s.mod.power != .recovery then s
    else if k ≠ 1 ∧ k ≠ 2 then s.modRcv fun u => u.fail 3
    else if n = 0 ∨ nvArea k < n then s.modRcv fun u => u.fail 1
    else match s.hostRead (s.reg64 0x140400) n with
      | none => s.modRcv fun u => u.fail 2
      | some b =>
        let r := objectCheck s.sec.fuses k b
        if r ≠ 0 then s.modRcv fun u => u.fail r
        else if changed then (s.nvBroken k).modRcv fun u => u.fail 10
        else if s.nv.areaWorn k then (s.nvBroken k).modRcv fun u => u.fail 8
        else
          let s := (s.nvStore k b).modRcv fun u => { u with state := 2, result := 0 }
          if s.firmwareGood && s.imageGood then s.dawn else s

/-! ## Security versions and debug (R402, R406) -/

/-- SEC_SVN_COMMIT (R402): MIN_SVN rises to the lower SVN of the running firmware and image, and the running image's
REVOKE mask is burnt. -/
def execSecSvnCommit (s : State) : Result :=
  .next <| s.modSec fun x =>
    let v := min x.fwSvn.toNat x.imageSvn.toNat
    { x with fuses := { x.fuses with
        minSvn := BitVec.ofNat 6 (max x.fuses.minSvn.toNat v), revoked := x.fuses.revoked ||| x.revokeMask } }

/-- DEBUG_NEW: a fresh nonce. -/
def State.debugNew (s : State) : State :=
  let n := Config.nonce s.fresh
  { s with fresh := s.fresh + 1 }.modSec fun x => { x with nonce := n, nonceFresh := true }

def execDebugNew (s : State) : Result := .next s.debugNew

/-- The response's body: nonce, serial number, LEVEL and zeros (R406). -/
def State.debugOk (s : State) (b : List Byte) : Bool :=
  decide (b.length = 64 + sigBytes) && s.sec.fuses.verify 4 b == 0 && s.sec.nonceFresh && sliceN b 0 32 == s.sec.nonce.toNat &&
    sliceN b 32 16 == s.mod.serial.toNat && decide (sliceN b 48 1 ≤ 2) && sliceN b 49 15 == 0 && !s.sec.fuses.debugDisabled

/-- DEBUG_SUBMIT: a response that verifies sets the level; each nonce serves one. -/
def State.debugSubmit (s : State) : State :=
  let resp := s.hostRead (s.reg64 0x140320) (64 + sigBytes)
  let ok := match resp with
    | some b => s.debugOk b
    | none => false
  let b := resp.getD []
  let s := s.modSec fun x => { x with nonceFresh := false }
  if ok then
    (s.runtimeExtend (0xFF :: b.take 64)).modSec fun x => { x with level := BitVec.ofNat 2 (sliceN b 48 1) }
  else s.modSec fun x => { x with refused := true }

def execDebugSubmit (s : State) : Result := .next s.debugSubmit

/-! ## SPDM and MCTP (R403) -/

/-- Answer a request; while the MC is down none is. -/
def State.spdm (s : State) (a : SpdmAnswer) : State :=
  s.modSec fun x => { x with spdmOut := if x.mcRunning then some a else none }

def execGetVersion (s : State) : Result := .next (s.spdm (.versions [.v12, .v13, .v14]))

def execGetCapabilities (v : SpdmVersion) (s : State) : Result :=
  .next ((if s.sec.mcRunning then s.modSec fun x => { x with spdmVersion := some v } else s).spdm (.capabilities v))

/-- ML-DSA-65 is negotiable under version 1.4 alone. -/
def execNegotiateAlgorithms (v : SpdmVersion) (s : State) : Result :=
  .next ((if s.sec.mcRunning then s.modSec fun x => { x with spdmVersion := some v } else s).spdm (.algorithms v (v == .v14)))

def execGetDigests (s : State) : Result := .next (s.spdm (.digests (Config.sha3 s.nv.certificate)))

/-- Slot 0 holds the one certificate chain (R401). -/
def execGetCertificate (slot off len : Nat) (s : State) : Result :=
  .next <|
    let c := s.nv.certificate
    if slot ≠ 0 then s.spdm .unsupported
    else
      let part := slice c off len
      s.spdm (.certificate part (c.length - off - part.length))

/-- What a signature covers, beside the transcript that SPDM defines: the nonce and the digest of the chain. -/
def State.signed (s : State) (nonce : BitVec 256) (body : List Byte) : List Byte :=
  Config.sign s.sec.fuses.seed (leBytes 32 nonce.toNat ++ Config.sha3 s.nv.certificate ++ body)

/-- CHALLENGE is signed under 1.4 and refused under 1.2 and 1.3. -/
def execChallenge (v : SpdmVersion) (nonce : BitVec 256) (s : State) : Result :=
  .next (s.spdm (if v == .v14 then .challengeAuth (s.signed nonce []) else .unsupported))

/-- Measurements of an index: 1 to 6, or 0xFF for all (the numbering of SPDM requests is PRESUMED, log entry 22). -/
def State.measBlocks (s : State) (ix : Nat) : List (Nat × List Byte) :=
  ((List.range 6).map (· + 1)).filterMap fun i => if ix = i ∨ ix = 255 then some (i, s.measOf i) else none

/-- GET_MEASUREMENTS: a signature is given under 1.4 and refused under 1.2 and 1.3. -/
def execGetMeasurements (v : SpdmVersion) (index : Nat) (signed : Bool) (nonce : BitVec 256) (s : State) : Result :=
  .next <|
    let l := s.measBlocks index
    if signed && v != .v14 then s.spdm .unsupported
    else s.spdm (.measurements l (if signed then some (s.signed nonce (l.flatMap Prod.snd)) else none))

/-- MCTP_WAKE: vendor command 0x01 leaves standby through Dawn step 2. -/
def execMctpWake (s : State) : Result :=
  .next (if s.mod.power == .standby && s.sec.mcRunning then s.dawn else s)

/-- MCTP_STANDBY: vendor command 0x02 starts Dusk with GRACE 1,000. -/
def execMctpStandby (s : State) : Result := .next (if s.sec.mcRunning then s.dusk 1000 false else s)

/-! ## The MC (R408) -/

/-- MC_WATCHDOG_EXPIRY: module Muzzle with cause 0x06; the MC restarts through Dawn step 1. -/
def execMcWatchdogExpiry (s : State) : Result :=
  .next <|
    let s := if s.mod.power == .running then s.trigger .module 0x06 else s
    s.modSec fun x => { x with mcRunning := false, mcRestarts := sat 8 (x.mcRestarts + 1), spdmOut := none }

/-- The MC carries the MCTP records that have waited (R385). -/
def State.drainMctp (s : State) : State :=
  { s with tel := { s.tel with mctpOut := s.tel.mctpOut ++ s.tel.mctpQueue, mctpQueue := [] } }

/-- MC_RESTART: new firmware takes effect; firmware that does not verify keeps the MC down. -/
def execMcRestart (s : State) : Result :=
  .next <|
    if s.sec.mcRunning || !s.mod.vauxOk || !s.firmwareGood then s
    else (s.mcStarts.meetModule 0x06).drainMctp

/-! ## Boundary scan (R407) -/

/-- EXTEST and its kin act only in standby or recovery. -/
def State.scanOk (s : State) : Bool :=
  match s.mod.power with
  | .standby => true
  | .recovery => true
  | _ => false

def State.jtag (s : State) (i : JtagInstr) (out : BitVec 96) : State :=
  { s with mod := { s.mod with pins := { s.mod.pins with jtag := i, jtagData := out } } }

def execBypass (s : State) : Result := .next (s.jtag .bypass 0)

/-- The identification code (PRESUMED, log entry 9). -/
def execIdcode (s : State) : Result := .next (s.jtag .idcode (BitVec.ofNat 96 (Config.idcode s.mod.stepping)))

/-- SAMPLE/PRELOAD: the pins are sampled, and the next drive is loaded. -/
def execSamplePreload (preload : BitVec 96) (s : State) : Result :=
  .next <|
    let s := s.jtag .samplePreload s.fabric.gpioIn
    { s with mod := { s.mod with pins := { s.mod.pins with preload := preload } } }

def State.extest (s : State) (i : JtagInstr) : State :=
  if s.scanOk then s.jtag i s.fabric.gpioIn else s.jtag .bypass 0

def execExtest (s : State) : Result := .next (s.extest .extest)
def execExtestPulse (s : State) : Result := .next (s.extest .extestPulse)
def execExtestTrain (s : State) : Result := .next (s.extest .extestTrain)

/-- The level that the scan drives on a pin, where it does (R407). -/
def State.scanDrive (s : State) (n : Nat) : Option Bool :=
  if s.mod.pins.jtag == .extest && s.scanOk then some (s.mod.pins.preload.getLsbD n) else none

end Sys2Proof.Machine
end

