-- ==== Sys2Proof/Machine/Telemetry.lean ====
section
/-! DEFINITION. The telemetry router: events become records in class 7 of a tick, and each path takes what it can
(R383 to R389, R393, R395). -/
namespace Sys2Proof.Machine
open Sys2Proof

def State.modTel (s : State) (f : Telemetry → Telemetry) : State := { s with tel := f s.tel }

/-! ## Records (R383) -/

/-- The value of CLASS. -/
def TelClass.num : TelClass → Nat
  | .alarm => 0
  | .log => 1
  | .trace => 2
  | .metric => 3

/-- The 64 bytes of a record, PHASE zero. -/
def TelEvent.record (e : TelEvent) : List Byte :=
  leBytes 1 e.cls.num ++ leBytes 1 0 ++ leBytes 2 e.code ++ leBytes 4 e.seq ++ leBytes 8 e.tick ++ leBytes 2 (sat 16 e.count) ++
    leBytes 2 e.inst ++ leBytes 4 (sat 32 e.last) ++ ((e.payload ++ List.replicate 40 0).take 40)

/-- The three paths of R385. -/
inductive Path where
  | host | mctp | nv
  deriving DecidableEq, Repr

def allPaths : List Path := [.host, .mctp, .nv]

def Telemetry.path (t : Telemetry) : Path → PathSt
  | .host => t.host
  | .mctp => t.mctp
  | .nv => t.nv

def Telemetry.setPath (t : Telemetry) (p : Path) (x : PathSt) : Telemetry :=
  match p with
  | .host => { t with host := x }
  | .mctp => { t with mctp := x }
  | .nv => { t with nv := x }

def State.modPath (s : State) (p : Path) (f : PathSt → PathSt) : State := s.modTel fun t => t.setPath p (f (t.path p))

/-! ## Configuration (R396) -/

def State.telRing (s : State) : Nat := s.reg64 0x120008
def State.telRingSize (s : State) : Nat := 2 ^ bits (s.regN 0x120010) 0 5
def State.traceBuf (s : State) : Nat := s.reg64 0x120020
def State.traceSize (s : State) : Nat := 2 ^ bits (s.regN 0x120028) 0 5

/-- A path that is set up (R385). -/
def State.pathUp (s : State) : Path → Bool
  | .host => s.telRing != 0
  | .mctp => bit (s.regN 0x120000) 2
  | .nv => true

/-- METRIC records go to a path (R385). -/
def State.metricsTo (s : State) : Path → Bool
  | .host => bit (s.regN 0x120000) 0
  | .mctp => bit (s.regN 0x120000) 1
  | .nv => false

/-! ## Token buckets (R385, R387) -/

/-- Records per second and the burst of a path's bucket. -/
def State.bucket (s : State) : Path → Nat × Nat
  | .nv => (64, 256)
  | _ => (1000 * bits (s.regN 0x120030) 0 16, bits (s.regN 0x120030) 16 16)

def oneToken : Nat := 1000000000

/-- A bucket fills up to now. -/
def State.fill (s : State) (p : Path) : State :=
  s.modPath p fun x => { x with
    tokens := min ((s.bucket p).2 * oneToken) (x.tokens + s.since x.tokensAt * (s.bucket p).1), tokensAt := s.tick.now }

def PathSt.hasToken (x : PathSt) : Bool := decide (oneToken ≤ x.tokens)

def State.useToken (s : State) (p : Path) : State := s.modPath p fun x => { x with tokens := x.tokens - oneToken }

/-! ## Writing (R385) -/

/-- The host ring is full (R385). -/
def State.ringFull (s : State) : Bool := decide (s.telRingSize ≤ (s.tel.ringTail + 2 ^ 32 - s.tel.ringHead) % 2 ^ 32)

/-- A path has room for a record now. While the MC is down, the ALARMs of its path wait in the alarm table and its other
records in the queue of 64 (R385). -/
def State.room (s : State) (p : Path) (c : TelClass) : Bool :=
  s.pathUp p && match p with
    | .host => !s.ringFull
    | .mctp => s.sec.mcRunning || (c != .alarm && decide (s.tel.mctpQueue.length < 64))
    | .nv => true

/-- Write a record on a path. -/
def State.writeTel (s : State) (p : Path) (e : TelEvent) : State :=
  let b := e.record
  match p with
  | .host =>
    let t := s.tel.ringTail
    let n := s.telRingSize
    let phase : Byte := if t / n % 2 = 0 then 128 else 0
    (s.hostWriteAs 0 (s.telRing + 64 * (t % n)) ((b.headD 0 ||| phase) :: b.drop 1)).modTel fun x => { x with
      ringTail := (t + 1) % 2 ^ 32, ringPend := x.ringPend + 1
      ringPendAt := if x.ringPend = 0 then s.tick.count else x.ringPendAt, ringAlarm := x.ringAlarm || e.cls == .alarm }
  | .mctp =>
    if s.sec.mcRunning then s.modTel fun x => { x with mctpOut := x.mctpOut ++ [b] }
    else s.modTel fun x => { x with mctpQueue := x.mctpQueue ++ [b] }
  | .nv => ({ s with nv := { s.nv with log := (b :: s.nv.log).take s.nv.logRoom } }).useToken .nv

/-! ## Alarms (R386) -/

def sameKey (a b : TelEvent) : Bool := a.code == b.code && a.inst == b.inst

/-- Coalesce an occurrence into the entry of its key. -/
def coalesce (l : List TelEvent) (e : TelEvent) : List TelEvent :=
  l.map fun x => if sameKey x e then { x with count := sat 16 (x.count + 1), last := sat 32 (e.tick - x.tick) } else x

/-- The entry that stands for an alarm whose table is full. -/
def overflowOf (e : TelEvent) : TelEvent := { e with code := 0x0011, inst := noInst, payload := leBytes 2 e.code }

def isOverflow (x : TelEvent) : Bool := x.code == 0x0011

/-- An alarm enters a table. -/
def alarmTable (l : List TelEvent) (e : TelEvent) : List TelEvent :=
  if l.any fun x => sameKey x e then coalesce l e
  else if (l.filter fun x => !isOverflow x).length < 256 then l ++ [e]
  else
    let o := overflowOf e
    if l.any fun x => isOverflow x && x.payload == o.payload then
      l.map fun x => if isOverflow x && x.payload == o.payload then
        { x with count := sat 16 (x.count + 1), last := sat 32 (e.tick - x.tick) } else x
    else l ++ [o]

/-- A path can take an alarm now. -/
def State.alarmRoom (s : State) (p : Path) : Bool := s.room p .alarm && (p != .nv || s.tel.nv.hasToken)

/-- Write the entries of a table, oldest first, while there is room. -/
def State.flushAlarms (s : State) (p : Path) : State :=
  (s.tel.path p).alarms.foldl (fun s e =>
    if s.alarmRoom p then
      (s.writeTel p e).modPath p fun x => { x with alarms := x.alarms.drop 1 }
    else s) s

/-- A new alarm on a path: coalesced with its key, written at once, or entered in the table. -/
def State.pathAlarm (s : State) (e : TelEvent) (p : Path) : State :=
  if (s.tel.path p).alarms.isEmpty && s.alarmRoom p then s.writeTel p e
  else s.modPath p fun x => { x with alarms := alarmTable x.alarms e }

/-- Codes waiting in a table. -/
def PathSt.waiting (x : PathSt) (c : Nat) : Bool :=
  x.alarms.any fun e => e.code == c || (isOverflow e && leNat (e.payload.take 2) == c)

/-- TEL_ALARM_PEND (R386, R396). -/
def Telemetry.alarmPend (t : Telemetry) : Nat :=
  (List.range 17).foldl (fun a c => a + 2 ^ c * b2n (allPaths.any fun p => (t.path p).waiting (c + 1))) 0

/-! ## Logs (R387) -/

/-- A LOG on a path: written with the drops before it, or dropped. -/
def State.pathLog (s : State) (e : TelEvent) (p : Path) : State :=
  if !s.pathUp p then s
  else
    let x := s.tel.path p
    if x.hasToken && s.room p .log then
      let s := s.writeTel p { e with count := x.sinceLog }
      let s := if p = .nv then s else s.useToken p
      s.modPath p fun x => { x with sinceLog := 0 }
    else s.modPath p fun x => { x with
      dropped := sat (if p = .nv then 32 else 8) (x.dropped + 1), sinceLog := sat 16 (x.sinceLog + 1) }

/-! ## Traces (R388, R393) -/

/-- The trace buffer's next slot holds a record that the PF has not consumed. -/
def State.traceFull (s : State) : Bool := decide (s.traceSize ≤ (s.tel.traceNext + 2 ^ 32 - s.tel.traceAck) % 2 ^ 32)

/-- Write one record to the trace buffer. -/
def State.putTrace (s : State) (e : TelEvent) : State :=
  let s := s.modTel fun t => { t with seqTrace := (t.seqTrace + 1) % 2 ^ 32 }
  let e := { e with seq := s.tel.seqTrace }
  (s.hostWriteAs 0 (s.traceBuf + 64 * (s.tel.traceNext % s.traceSize)) e.record).modTel fun t => { t with
    traceNext := (t.traceNext + 1) % 2 ^ 32 }

/-- A TRACE record: after an overwrite, a loss marker takes its place and it follows. One that is discarded has been
generated, and counts in SEQ (R383, R388). -/
def State.trace (s : State) (e : TelEvent) : State :=
  if s.traceBuf = 0 then s.modTel fun t => { t with
    seqTrace := (t.seqTrace + 1) % 2 ^ 32, traceDrop := sat 8 (t.traceDrop + 1) }
  else
    let lost := s.tel.traceOver + b2n s.traceFull
    let s := if lost = 0 then s
      else s.putTrace { e with code := 0x0201, inst := noInst, count := lost, payload := [] }
    let above := b2n s.traceFull
    (s.putTrace e).modTel fun t => { t with traceOver := above }

/-- The payload of an instruction sample: its stages' times, and what it waited for, are a matter of timing (log entry 4);
a discarded instruction has no retirement (R393, R395). -/
def State.sampleRecord (s : State) (x : Sample) : List Byte × State :=
  let (t, s) := s.draw
  let (a, s) := s.draw
  let (b, s) := s.draw
  let (c, s) := s.draw
  let (k, s) := s.draw
  let (i, s) := s.draw
  let dropped : Bool := match s.desc? x.desc with
    | some d => d.phase == .ending
    | none => false
  (leBytes 2 x.site ++ leBytes 1 x.engine ++ leBytes 1 x.opcode ++ leBytes 4 x.pc ++ leBytes 4 x.job ++ leBytes 4 t ++
    leBytes 4 a ++ leBytes 4 b ++ leBytes 4 (if dropped then 0xFFFFFFFF else c) ++ leBytes 1 (k % 8) ++ leBytes 2 i, s)

/-- The sample buffers drain (R393). -/
def State.drainSamples (s : State) : State :=
  let l := s.cnt.samples
  let s := s.modCnt fun c => { c with samples := [] }
  l.foldl (fun s x =>
    let (b, s) := s.sampleRecord x
    s.trace ⟨.trace, 0x0200, x.site, 0, s.tick.count, 0, 0, b⟩) s

/-! ## Metrics (R389) -/

/-- A METRIC of the same EVENT that waits in the MC's queue. -/
def sameMetric (code : Nat) (b : List Byte) : Bool := (b.headD 0).toNat == 3 && leNat ((b.drop 2).take 2) == code

/-- A METRIC on a path; where there is no room, it replaces the unsent one of its EVENT. -/
def State.pathMetric (s : State) (e : TelEvent) (p : Path) : State :=
  if !(s.pathUp p && s.metricsTo p) then s
  else if (s.tel.path p).metrics.isEmpty && s.room p .metric then s.writeTel p e
  else
    let queued := p == .mctp && s.tel.mctpQueue.any (sameMetric e.code)
    let old := queued || (s.tel.path p).metrics.any fun x => x.code == e.code
    let s := if old then s.modTel fun t => { t with metricDrop := sat 8 (t.metricDrop + 1) } else s
    if queued then
      s.modTel fun t => { t with mctpQueue := (t.mctpQueue.filter fun b => !sameMetric e.code b) ++ [e.record] }
    else s.modPath p fun x => { x with metrics := (x.metrics.filter fun x => x.code != e.code) ++ [e] }

/-- METRICs that wait are written as space appears. -/
def State.flushMetrics (s : State) (p : Path) : State :=
  (s.tel.path p).metrics.foldl (fun s e =>
    if s.room p .metric then (s.writeTel p e).modPath p fun x => { x with metrics := x.metrics.drop 1 } else s) s

/-- Total of HBM_CE_COUNT over the stacks. -/
def State.ceTotal (s : State) : Nat := ((List.range 12).map fun k => (s.stack k).ce).foldl (· + ·) 0

/-- The payloads of the METRIC sets: register words in ascending offset order (R384). -/
def State.metricPayload (s : State) (set : Nat) : List Byte :=
  match set with
  | 0 => s.leashWords ++ leBytes 4 s.leash.temp ++ leBytes 8 s.energy.total
  | 1 => leBytes 4 s.parityWord ++ leBytes 4 s.hbm.retireStatus ++ leBytes 4 s.ceTotal ++ leBytes 4 s.config.nwCorr
  | _ => (List.range 5).flatMap fun i => leBytes 8 ((s.cntUnit hubUnit).ctr (bits (s.regN 0x120038) (6 * i) 6)).val

/-- An event becomes a record on every path that it goes to. -/
def State.emit (s : State) (e : TelEvent) : State :=
  match e.cls with
  | .alarm =>
    let s := s.modTel fun t => { t with seqAlarm := (t.seqAlarm + 1) % 2 ^ 32 }
    allPaths.foldl (fun s p => s.pathAlarm { e with seq := s.tel.seqAlarm } p) s
  | .log =>
    let s := s.modTel fun t => { t with seqLog := (t.seqLog + 1) % 2 ^ 32 }
    allPaths.foldl (fun s p => s.pathLog { e with seq := s.tel.seqLog } p) s
  | .trace => s.trace e
  | .metric =>
    let s := s.modTel fun t => { t with seqMetric := (t.seqMetric + 1) % 2 ^ 32 }
    allPaths.foldl (fun s p => s.pathMetric { e with seq := s.tel.seqMetric } p) s

/-- METRIC records of a tick whose TICK_COUNT is a multiple of PERIOD, once (R389). -/
def State.metricPeriod (s : State) : State :=
  let w := s.regN 0x120034
  let period := bits w 0 16
  if period = 0 ∨ s.tick.count % period ≠ 0 ∨ s.tel.metricAt = some s.tick.count then s
  else
    let s := s.modTel fun t => { t with metricAt := some s.tick.count }
    (List.range 3).foldl (fun s i =>
      if bit w (16 + i) then s.emit ⟨.metric, 0x0300 + i, noInst, 0, s.tick.count, 0, 0, s.metricPayload i⟩ else s) s

/-- METRIC_PERIOD (R389). -/
def execMetricPeriod (s : State) : Result := .next s.metricPeriod

/-! ## The tick (R385, R386) -/

/-- An alarm that occurred before class 7 and has an entry waiting on a path coalesces into it before the entry may be
written (R395); what is left of the event is its occurrence on the other paths. -/
def State.coalesceNow (s : State) (p : Path) (l : List TelEvent) : State :=
  l.foldl (fun s e =>
    if e.cls == .alarm && (s.tel.path p).alarms.any fun x => sameKey x e then
      s.modPath p fun x => { x with alarms := coalesce x.alarms e }
    else s) s

/-- Whether an event has been coalesced by the pass above. -/
def taken (tables : List (Path × List TelEvent)) (p : Path) (e : TelEvent) : Bool :=
  tables.any fun t => t.1 == p && t.2.any fun x => sameKey x e

/-- Alarms of this tick, path by path: those coalesced above are done. -/
def State.emitAlarm (s : State) (tables : List (Path × List TelEvent)) (e : TelEvent) : State :=
  let s := s.modTel fun t => { t with seqAlarm := (t.seqAlarm + 1) % 2 ^ 32 }
  let e := { e with seq := s.tel.seqAlarm }
  allPaths.foldl (fun s p => if taken tables p e then s else s.pathAlarm e p) s

/-- Interrupt moderation of the host ring (R86, R385). -/
def State.telModerate (s : State) : State :=
  let m := s.regN 0x120014
  let count := bits m 0 16
  let time := bits m 16 16
  let due := (count != 0 || time != 0) &&
    ((count != 0 && decide (count ≤ s.tel.ringPend)) ||
     (time != 0 && s.tel.ringPend != 0 && decide (time ≤ s.tick.count - s.tel.ringPendAt)) || s.tel.ringAlarm)
  let s := if due then (s.msixSend 0 (bits (s.regN 0x120010) 5 11)).modTel fun t => { t with ringPend := 0 } else s
  s.modTel fun t => { t with ringAlarm := false }

/-- Telemetry in class 7 of a tick. -/
def State.telTick (s : State) : State :=
  let s := allPaths.foldl State.fill s
  let l := s.tel.pend.map fun e => { e with tick := s.tick.count }
  let s := s.modTel fun t => { t with pend := [] }
  let tables := allPaths.map fun p => (p, (s.tel.path p).alarms)
  let s := allPaths.foldl (fun s p => (s.coalesceNow p l).flushAlarms p) s
  let s := allPaths.foldl State.flushMetrics s
  let s := l.foldl (fun s e => if e.cls == .alarm then s.emitAlarm tables e else s.emit e) s
  s.metricPeriod.drainSamples.telModerate

/-- Events of cycles that have not occurred since the last edge: the slot classes of a tile on which no descriptor ran
(R392), gating at full duty, and stalls outside one (R391). -/
def State.quietEvent (s : State) (u ev : Nat) : Bool :=
  (decide (0x010 ≤ ev) && decide (ev < 0x024) && !((List.range 64).any fun p =>
    (s.pack p).desc.isSome && (s.shape p).tiles.any fun i => (s.siteOf (tileOfIx i)).ix == u)) ||
  (ev == 0x0C8 && s.leash.duty == 16) || (ev == 0x0C9 && !s.leash.stall)

/-- At an edge, the counters of events of cycles count what the spec leaves to timing since the last one. -/
def State.cntTick (s : State) : State :=
  s.cnt.units.foldl (fun s e =>
    if s.cnt.frozen || e.2.frozen then s
    else (e.2.counting fun ev => eventOk e.1 ev && !exactEvents.contains ev && !s.quietEvent e.1 ev).foldl (fun s i =>
      let n := Config.freeValue s.fresh % 2 ^ 48
      { s with fresh := s.fresh + 1 }.setUnit e.1 ((s.cntUnit e.1).add i n)) s) s

/-- Counters' part of class 7: the tick, and the vector of wrapped counters (R391). -/
def State.counterTick (s : State) : State :=
  let s := s.countEv hubUnit 0x0C7 1
  if s.cnt.irqDue then (s.msixSend 0 s.cnt.irqVector).modCnt fun c => { c with irqDue := false } else s

/-- CNT_FREEZE (R394). -/
def execCntFreeze (mode : BitVec 2) (s : State) : Result := .next (s.cntFreeze mode.toNat)

/-- CNT_TAG_SEED (R393). -/
def execCntTagSeed (seed : BitVec 24) (s : State) : Result := .next (s.reseed seed)

end Sys2Proof.Machine
end

