-- ==== Sys2Proof/Machine/Commit.lean ====
section
/-! DEFINITION. Staged groups: requests, discards, the consistency checks and what a commit does at a tick (R48, R54,
R63, R64, R69, R82, R83, R293, R318, R330, R343, R414, R416 to R421). -/
namespace Sys2Proof.Machine
open Sys2Proof

def State.modCommits (s : State) (f : Commits → Commits) : State := { s with commits := f s.commits }

/-! ## Requests (R414, R417) -/

/-- A write that requests a commit: it merges with a request that is pending (R417). -/
def CommitSt.ask (c : CommitSt) (mask : Word) : CommitSt :=
  { c with merged := c.merged || c.request != 0, state := 1, request := c.request ||| mask }

def Commits.vfSt (c : Commits) (f : Nat) : CommitSt := Table.get {} c.vf f
def Commits.setVf (c : Commits) (f : Nat) (x : CommitSt) : Commits := { c with vf := Table.put c.vf f x }

/-- A write of COMMIT_GROUPS; zero names nothing (R5, R417). -/
def State.commitAsk (s : State) (mask : Word) : State :=
  if mask = 0 then s else s.modCommits fun c => { c with pf := c.pf.ask mask }

/-- A write of COMMIT_DISCARD (R418). -/
def State.discardAsk (s : State) (mask : Word) : State :=
  s.modCommits fun c => { c with pf := { c.pf with discard := c.pf.discard ||| mask } }

/-- Writes of VF_COMMIT (R414). -/
def State.vfCommitAsk (s : State) (f : Nat) : State := s.modCommits fun c => c.setVf f ((c.vfSt f).ask 2)
def State.vfDiscardAsk (s : State) (f : Nat) : State := s.modCommits fun c => c.setVf f { c.vfSt f with discard := 2 }

def execCommitGroups (mask : Word) (s : State) : Result := .next (s.commitAsk mask)
def execCommitDiscard (mask : Word) (s : State) : Result := .next (s.discardAsk mask)

/-- VF_COMMIT; the PF's instance has no such register (R414). -/
def execVfCommit (fn : Fn) (s : State) : Result := .next (if fn.val = 0 then s else s.vfCommitAsk fn.val)
def execVfDiscard (fn : Fn) (s : State) : Result := .next (if fn.val = 0 then s else s.vfDiscardAsk fn.val)

/-- COMMIT_STATUS and VF_COMMIT_STATUS (R414, R419). -/
def CommitSt.word (c : CommitSt) : Nat :=
  c.state.toNat + 4 * c.group.toNat + 128 * b2n c.merged + 256 * c.check.toNat + 65536 * c.fn.toNat

/-! ## What the checks see (R418) -/

/-- The state as it would be with the named groups active: `gs` of the PF, and G1 of function `f` when `f` is not 0. -/
def State.viewed (s : State) (gs : List Nat) (f : Nat) : State :=
  let a := gs.foldl (fun t g => copyGroup s.mod.grade g (if g = 1 then f else 0) s.regs.staged t) s.regs.active
  let s := { s with regs := { s.regs with active := a } }
  if gs.contains 6 then s.modLf fun l => { l with active := l.staged } else s

/-- A staged register with a reserved bit or a field at a reserved encoding (check 0x01). -/
def stagedBad (gr : Grade) (e : Nat × Word) : Bool :=
  let x := e.2.toNat
  let a := e.1
  (match regInfo gr a with
   | some i => e.2 &&& ~~~i.mask != 0
   | none => false) ||
    (a == 0x20100 && (decide (5 ≤ bits x 0 3) || bits x 12 2 == 3)) ||
    (decide (0x100500 ≤ a) && decide (a < 0x100680) &&
      (bits x 4 2 == 3 || bits x 6 2 == 3 || (decide (32 ≤ bits x 8 6) && bits x 8 6 != 63)))

def State.groupBad (s : State) (g f : Nat) : Bool :=
  s.regs.staged.any fun e => inGroup s.mod.grade g f e.1 && stagedBad s.mod.grade e

/-- Registers of group instance whose staged value differs from the active one. -/
def State.changes (old new : State) (a : Nat) : Bool := old.reg a != new.reg a

/-! ## The checks (R420) -/

/-- The first check of a list that fails. -/
def firstCheck : List (Nat × Bool) → Option Nat
  | [] => none
  | (c, b) :: l => if b then some c else firstCheck l

/-- A timed descriptor runs or waits (R48). One fetched for this tick is not yet waiting (R421). -/
def Desc.timedHeld (d : Desc) : Bool :=
  d.timed && (d.phase == .waiting || d.phase == .running || d.phase == .finished || d.phase == .parked)

/-- Two cues on a pin, or a pin that does not exist (R54). -/
def State.cuePinsBad (v : State) : Bool :=
  (List.range 16).any fun c => v.cueEnabled c &&
    (let p := bits (v.cueCfg c) 0 7
     decide (96 ≤ p) || (List.range c).any fun k => v.cueEnabled k && bits (v.cueCfg k) 0 7 == p)

/-- Check 0x15: the master of the LINK source is the module itself. -/
def State.masterSelf (v : State) : Bool := v.cadSource == 3 && v.regN 0x20114 == bits (v.regN 0xF0000) 0 14

def checksG0 (s v : State) : List (Nat × Bool) :=
  [(0x10, v.regN 0x20000 < 25 || 1600 < v.regN 0x20000), (0x12, s.changes v 0x20100 && s.shep.descs.any Desc.timedHeld),
   (0x13, v.regN 0x20104 == 0), (0x14, bits (v.regN 0x20110) 0 20 < 10 || 1000000 < bits (v.regN 0x20110) 0 20),
   (0x15, v.masterSelf), (0x16, v.cuePinsBad)]

/-- Rings of a function that have an entry other than at reset, before or after a commit. -/
def State.ringsSeen (s v : State) (f : Nat) : List Nat :=
  let of (t : Table Word) : List Nat := t.filterMap fun e =>
    let o := if f = 0 then e.1 - 0x30000 else e.1 % 0x1000000
    if inGroup s.mod.grade 1 f e.1 && decide (o < 0xE000) then some (o / 64) else none
  (of s.regs.active ++ of v.regs.active).foldl (fun l r => if l.contains r then l else l ++ [r]) []

/-- An enabled completion ring of a function names a vector outside its allotment. -/
def State.cqVectorBad (s v : State) (f : Nat) : Bool :=
  (s.ringsSeen v f).any fun r => v.cqEnabled f r && decide (v.vecCount f ≤ bits (v.ringRegN f r 0x30) 7 11)

/-- The fault ring's, the telemetry ring's and the fabric's vectors (check 0x05). -/
def State.faultVectorBad (v : State) : Bool := v.reg64 0x60200 != 0 && decide (v.vecCount 0 ≤ bits (v.regN 0x60208) 4 11)
def State.telVectorBad (v : State) : Bool := v.telRing != 0 && decide (v.vecCount 0 ≤ bits (v.regN 0x120010) 5 11)
def State.irqVectorBad (v : State) : Bool :=
  (List.range 64).any fun i =>
    let w := v.regN (0x100900 + 4 * i)
    bit w 0 && decide (v.vecCount (bits w 1 6) ≤ bits w 7 11)

/-- Ranges overlap. -/
def overlap (a n b m : Nat) : Bool := decide (n ≠ 0) && decide (m ≠ 0) && decide (a < b + m) && decide (b < a + n)

def State.ringBase (s : State) (f : Nat) : Nat := bits (s.allocLo f) 0 12
def State.vecBase (s : State) (f : Nat) : Nat := bits (s.allocHi f) 0 11

/-- The allotments break R63. -/
def State.allocBad (v : State) : Bool :=
  (List.range 64).any fun f =>
    decide (896 < v.ringCount f) || decide (4096 < v.ringBase f + v.ringCount f) || decide (2048 < v.vecBase f + v.vecCount f) ||
      (decide (f ≠ 0) && decide (256 < v.vecCount f)) ||
      (List.range f).any fun k => overlap (v.ringBase f) (v.ringCount f) (v.ringBase k) (v.ringCount k) ||
        overlap (v.vecBase f) (v.vecCount f) (v.vecBase k) (v.vecCount k)

/-- The ranges of an allotment differ. -/
def State.allotted (s : State) (f : Nat) : List Nat := [s.ringBase f, s.ringCount f, s.vecBase f, s.vecCount f]

/-- A function has an enabled ring. -/
def State.hasRing (s v : State) (f : Nat) : Bool := (s.ringsSeen v f).any fun r => s.sqEnabled f r || s.cqEnabled f r

def logOk (n : Nat) : Bool := decide (4 ≤ n) && decide (n ≤ 16)
def State.sqLog (s : State) (f r : Nat) : Nat := bits (s.ringRegN f r 0x18) 1 5
def State.cqLog (s : State) (f r : Nat) : Nat := bits (s.ringRegN f r 0x30) 1 5
def State.boundCq (s : State) (f r : Nat) : Nat := bits (s.ringRegN f r 0x18) 6 10

def State.ringMisaligned (v : State) (f r : Nat) : Bool :=
  v.ringAddr f r 0 % (64 * v.sqSize f r) != 0 || v.ringAddr f r 0x20 % (32 * v.cqSize f r) != 0 ||
    v.ringAddr f r 0x08 % 8 != 0 || v.ringAddr f r 0x10 % 8 != 0 || v.ringAddr f r 0x28 % 8 != 0

/-- Base, size and binding of a submission ring; base and size of a completion ring. -/
def State.sqShape (s : State) (f r : Nat) : List Nat := [s.ringAddr f r 0, s.sqLog f r, s.boundCq f r]
def State.cqShape (s : State) (f r : Nat) : List Nat := [s.ringAddr f r 0x20, s.cqLog f r]

/-- Records are reserved in a completion ring. -/
def State.cqReserved (s : State) (f r : Nat) : Bool := (s.ring f r).reserved != 0

def checksG1 (s v : State) (f : Nat) : List (Nat × Bool) :=
  let rs := s.ringsSeen v f
  let pf := f == 0
  let vec :=
    if pf then (List.range 64).any (s.cqVectorBad v) || v.faultVectorBad || v.telVectorBad || v.irqVectorBad
    else s.cqVectorBad v f
  [(0x05, vec), (0x20, pf && v.allocBad),
   (0x21, pf && (List.range 64).any fun g => s.allotted g != v.allotted g && s.hasRing v g),
   (0x22, rs.any fun r => !(logOk (v.sqLog f r) && logOk (v.cqLog f r))),
   (0x23, rs.any (v.ringMisaligned f)),
   (0x24, rs.any fun r =>
      (v.sqEnabled f r && (decide (v.ringCount f ≤ v.boundCq f r) || !v.cqEnabled f (v.boundCq f r))) ||
        (v.cqEnabled f r && decide (v.vecCount f ≤ bits (v.ringRegN f r 0x30) 7 11))),
   (0x25, rs.any fun r => s.cqEnabled f r && !v.cqEnabled f r &&
      (s.cqReserved f r || rs.any fun q => v.sqEnabled f q && v.boundCq f q == r)),
   (0x26, rs.any fun r =>
      (s.sqEnabled f r && v.sqEnabled f r && s.sqShape f r != v.sqShape f r) ||
        (s.cqEnabled f r && v.cqEnabled f r && s.cqShape f r != v.cqShape f r)),
   (0x27, v.summaryAddr f == 0 && rs.any fun r => v.sqEnabled f r || v.cqEnabled f r)]

/-- Two Packs share a tile. -/
def PackShape.meets (a b : PackShape) : Bool :=
  a.enabled && b.enabled && overlap a.col0 a.width b.col0 b.width && overlap a.row0 a.height b.row0 b.height

/-- A Pack has a descriptor fetched and without a record, or is migrating (R260). -/
def State.packHeld (s : State) (p : Nat) : Bool := s.packMigrating p || s.shep.descs.any fun d => d.f.namesPack && d.pack == p

def checksG2 (s v : State) : List (Nat × Bool) :=
  let ps := List.range 64
  [(0x30, ps.any fun p =>
      let h := v.shape p
      h.enabled && (h.width == 0 || h.height == 0 || decide (32 < h.col0 + h.width) || decide (32 < h.row0 + h.height))),
   (0x31, ps.any fun p => (List.range p).any fun q => (v.shape p).meets (v.shape q)),
   (0x32, ps.any fun p => (s.changes v (0x40000 + 8 * p) || s.changes v (0x40004 + 8 * p)) && s.packHeld p),
   (0x33, v.regN 0x4C000 == 0), (0x34, ps.any fun p => v.regN (0x4C100 + 8 * p) % 16 != 0),
   (0x35, bits (v.regN 0x40800) 0 16 == 0)]

def checksG3 (v : State) : List (Nat × Bool) :=
  [(0x40, bits (v.regN 0x50000) 0 2 == 0), (0x41, bits (v.regN 0x50800) 0 5 < 12 || 23 < bits (v.regN 0x50800) 0 5)]

def checksG4 (v : State) : List (Nat × Bool) :=
  let w := v.regN 0x60000
  let ws := [bits w 0 5, bits w 5 5, bits w 10 5]
  let n := bits (v.regN 0x60208) 0 4
  [(0x05, v.faultVectorBad), (0x50, ws.foldl (· + ·) 0 != 16 || ws.contains 0), (0x51, v.regN 0x60404 == 0),
   (0x52, v.reg64 0x60200 != 0 && (n < 4 || 12 < n))]

/-- The three timing sets (R297). -/
def State.timing (v : State) (i : Nat) : List Nat :=
  let a := v.regN (0x83010 + 16 * i)
  let b := v.regN (0x83014 + 16 * i)
  [bits a 0 8, bits a 8 8, bits a 16 8, bits a 24 8, bits b 0 8, bits b 8 8, bits b 16 12, bits (v.regN (0x83018 + 16 * i)) 0 16]

/-- tRC < tRAS + tRP, and tREFI ≤ tRFC. -/
def rcBad (l : List Nat) : Bool := decide (l.getD 3 0 < l.getD 2 0 + l.getD 1 0)
def refBad (l : List Nat) : Bool := decide (l.getD 7 0 ≤ l.getD 6 0)

def checksG5 (s v : State) : List (Nat × Bool) :=
  let sets := (List.range 3).map v.timing
  [(0x60, bits (v.regN 0x83004) 0 2 == 3), (0x61, sets.any fun l => l.contains 0), (0x62, sets.any rcBad), (0x63, sets.any refBad),
   (0x64, s.hbm.held || s.ltime.hbmOrder.isSome)]

def checksG6 (s v : State) : List (Nat × Bool) :=
  [(0x70, s.links.fabric.batch == 1),
   (0x71, !bit (v.regN 0xF0000) 14 && v.links.fabric.active.flows.any fun e => (flowOf e.2).enabled),
   (0x72, v.regN 0xF0004 == 0 || v.regN 0xF0008 == 0)]

def checksG7 (s v : State) : List (Nat × Bool) :=
  let top := (regReset s.mod.grade 0x110000).toNat
  [(0x80, v.sustLimit < 600 || top < v.sustLimit), (0x81, v.peakLimit < 600 || 2400 < v.peakLimit || v.peakLimit < v.sustLimit),
   (0x82, v.fixedEn && decide (5 < v.fixedOp)),
   (0x83, v.thThrottle < 60 || v.thAlarm ≤ v.thThrottle || 105 < v.thAlarm || v.hbmThrottle < 70 || 100 < v.hbmThrottle)]

def checksG8 (v : State) : List (Nat × Bool) :=
  let rate := bits (v.regN 0x120030) 0 16
  [(0x05, v.telVectorBad),
   (0x90, (v.telRing != 0 && !logOk (bits (v.regN 0x120010) 0 5)) || (v.traceBuf != 0 && !logOk (bits (v.regN 0x120028) 0 5))),
   (0x91, rate == 0 || bits (v.regN 0x120034) 0 16 == 0), (0x92, bits (v.regN 0x120030) 16 16 < rate)]

/-- Columns of a rectangle include one that no region may hold (R343). -/
def RegionRect.edge (r : RegionRect) : Bool := decide (r.col0 ≤ 1) || decide (110 ≤ r.col1)

def State.regionChanges (s v : State) (r : Nat) : Bool := s.changes v (0x100000 + 8 * r) || s.changes v (0x100004 + 8 * r)

/-- The region that owns a port. -/
def State.ownerOf (s : State) (p : Nat) : Option Nat := (List.range 32).find? fun r => (s.regionRect r).owns p

/-- A trigger has isolated the region at this very tick (R346). -/
def State.muzzledNow (s : State) (r : Nat) : Bool := (s.region r).byMuzzle && (s.region r).mzTick == s.tick.count

/-- PORTS names ports of the region's own DIE alone (R347), so check 0xA3 has nothing to find. -/
def checksG9 (s v : State) : List (Nat × Bool) :=
  let rs := List.range 32
  let on (r : Nat) : Bool := (v.regionRect r).enabled
  [(0x05, v.irqVectorBad),
   (0xA0, rs.any fun r => on r && (List.range r).any fun q => on q && (v.regionRect r).meets (v.regionRect q)),
   (0xA1, rs.any fun r => on r && (decide ((v.regionRect r).col1 < (v.regionRect r).col0) ||
      decide ((v.regionRect r).band1 < (v.regionRect r).band0))),
   (0xA2, rs.any fun r => on r && (v.regionRect r).edge),
   (0xA4, (List.range 96).any fun n => decide (bits (v.pinCfg n) 8 6 < 32) && !on (bits (v.pinCfg n) 8 6)),
   (0xA5, (List.range 96).any fun n => bits (v.pinCfg n) 0 2 == 0 && decide (bits (v.pinCfg n) 2 2 < 2)),
   (0xA6, rs.any fun r => s.regionChanges v r && (s.regionRect r).enabled &&
      (!((s.region r).st == .isolated || (s.region r).st == .blank) || s.muzzledNow r)),
   (0xA7, (List.range 64).any fun p => !(s.port p).hooks.isEmpty &&
      (s.changes v (0x100200 + 4 * p) || s.ownerOf p != v.ownerOf p))]

/-- The first failing check of one named group (R420). `alone` holds when the request names no other group. -/
def State.groupCheck (s v : State) (g f : Nat) (alone : Bool) : Option Nat :=
  firstCheck <|
    [(0x01, s.groupBad g f), (0x02, decide (10 ≤ g)), (0x03, g == 5 && !alone), (0x04, s.mod.dusk.step != 0)] ++
      (match g with
       | 0 => checksG0 s v
       | 1 => checksG1 s v f
       | 2 => checksG2 s v
       | 3 => checksG3 v
       | 4 => checksG4 v
       | 5 => checksG5 s v
       | 6 => checksG6 s v
       | 7 => checksG7 s v
       | 8 => checksG8 v
       | 9 => checksG9 s v
       | _ => [])

/-- The first failing group and check of a request. Check 0x15 is also made for G6, and reported with G0. -/
def State.requestCheck (s : State) (gs : List Nat) (f : Nat) : Option (Nat × Nat) :=
  let v := s.viewed (gs.filter (· < 10)) f
  let own := gs.findSome? fun g => (s.groupCheck v g f (gs.length == 1)).map fun c => (g, c)
  if gs.contains 6 && !gs.contains 0 && v.masterSelf then some (0, 0x15) else own

/-! ## What a commit does -/

/-- A submission ring that becomes enabled starts afresh, and a HEAD that changes is written back (R64, R68). -/
def State.sqStart (s : State) (f r : Nat) : State :=
  s.modRing f r fun k => { k with
    epoch := k.epoch + 1, head := 0, tailSeen := 0, overrun := false, fetchError := false, stopped := false
    headMoved := k.headMoved || k.head != 0 }

/-- A completion ring that becomes enabled starts afresh (R82, R83, R94). -/
def State.cqStart (s : State) (f r : Nat) : State :=
  s.modRing f r fun k => { k with tail := 0, consumed := 0, headRead := none, pend := 0, errNow := false, headError := false }

/-- G1 of a function has become active. -/
def State.afterG1 (old s : State) (f : Nat) : State :=
  let rs := old.ringsSeen s f
  let s := s.modFn f fun k => { k with sweeping := false }
  let now := s
  rs.foldl (fun s r =>
    let s := if !old.sqEnabled f r && now.sqEnabled f r then s.sqStart f r else s
    if !old.cqEnabled f r && now.cqEnabled f r then s.cqStart f r else s) s

/-- A cue whose setting has changed: its actions are cancelled, and it drives its new safe level or nothing (R54). -/
def State.cueChanged (s : State) (c : CueIx) : State :=
  let s := { s with cue := { s.cue with
    actions := s.cue.actions.filter fun a => a.act.cue != c, level := s.cue.level &&& ~~~(1#16 <<< c.val) } }
  s.cueSafe c

/-- G0 has become active: the tick's period, the cadence source, the cues (R34, R48, R54). -/
def State.afterG0 (old s : State) : State :=
  let s := { s with tick := { s.tick with next := s.tick.now + s.regN 0x20000 * 10 } }
  let s := if old.changes s 0x20100 then s.cadSourceChanged else s
  (List.finRange 16).foldl (fun t c => if old.changes s (0x20200 + 4 * c.val) then t.cueChanged c else t) s

/-- A fault ring that is set up anew holds no records (R259). -/
def State.afterG4 (old s : State) : State :=
  if old.changes s 0x60200 || old.changes s 0x60204 then
    s.modPaging fun p => { p with fringTail := 0, fringHead := 0 }
  else s

/-- Flows that a commit puts in use begin at sequence number zero with fresh credits, and the MC's routes are rebuilt
(R315, R316, R318). -/
def State.afterG6 (old s : State) : State :=
  let news := (s.links.fabric.active.flows.filter fun e => (flowOf e.2).enabled && !(old.flow e.1).enabled).map Prod.fst
  let s := s.modLf fun l => { l with
    rerouted := [], inFlows := l.inFlows.filter fun e => !news.contains e.1, outFlows := l.outFlows.filter fun e => !news.contains e.1 }
  s.rerouteNow.pump

/-- The named groups become active at once (R418). -/
def State.applyGroups (s : State) (gs : List Nat) (f : Nat) : State :=
  let n := s.viewed gs f
  let n := if gs.contains 0 then s.afterG0 n else n
  let n := if gs.contains 1 then s.afterG1 n f else n
  let n := if gs.contains 2 then s.afterG2 n else n
  let n := if gs.contains 4 then s.afterG4 n else n
  if gs.contains 6 then s.afterG6 n else n

/-- Counters of the COMMIT block after an applied commit (R419). -/
def State.noteApplied (s : State) : State :=
  s.modCommits fun c => { c with tick := s.tick.count, applied := sat 16 (c.applied + 1) }

def State.noteRefused (s : State) : State := s.modCommits fun c => { c with refused := sat 16 (c.refused + 1) }

def CommitSt.done (c : CommitSt) : CommitSt := { c with state := 2, group := 0, check := 0, fn := 0, request := 0 }
def CommitSt.refuse (c : CommitSt) (g k f : Nat) : CommitSt :=
  { c with state := 3, group := BitVec.ofNat 5 g, check := BitVec.ofNat 8 k, fn := BitVec.ofNat 6 (if g = 1 then f else 0), request := 0 }

/-- Groups that a mask names. -/
def maskGroups (m : Word) : List Nat := (List.range 32).filter fun g => m.getLsbD g

/-- A request of G5 starts the frequency change with the staged values (R293, R418). -/
def State.takeG5 (s : State) : State :=
  let op := BitVec.ofNat 2 ((s.staged 0x83004).toNat % 4)
  s.freqChange op (some s.regs.staged)

/-- The PF's request is taken (R418). -/
def State.takePf (s : State) : State :=
  let gs := maskGroups s.commits.pf.request
  if gs.isEmpty then s
  else match s.requestCheck gs 0 with
    | some (g, k) => (s.modCommits fun c => { c with pf := c.pf.refuse g k 0 }).noteRefused
    | none =>
      let m := s.commits.pf.request
      let s := if gs.contains 5 then s.takeG5 else s.applyGroups gs 0
      (s.modCommits fun c => { c with pf := c.pf.done, staged := c.staged &&& ~~~m }).noteApplied

/-- A VF's request is taken (R418). -/
def State.takeVf (s : State) (f : Nat) : State :=
  if (s.commits.vfSt f).request = 0 then s
  else match s.requestCheck [1] f with
    | some (g, k) => (s.modCommits fun c => c.setVf f ((c.vfSt f).refuse g k f)).noteRefused
    | none => ((s.applyGroups [1] f).modCommits fun c => c.setVf f (c.vfSt f).done).noteApplied

/-- Reload the staging of a group (R418). -/
def State.discardGroup (s : State) (g f : Nat) : State :=
  let s := { s with regs := { s.regs with staged := copyGroup s.mod.grade g f s.regs.active s.regs.staged } }
  let s := if g = 6 then s.modLf fun l => { l with staged := l.active } else s
  if f = 0 then s.modCommits fun c => { c with staged := c.staged &&& ~~~(1#32 <<< g) } else s

/-- Discards follow the commits of their tick (R418). -/
def State.discards (s : State) : State :=
  let gs := (maskGroups s.commits.pf.discard).filter (· < 10)
  let s := (gs.foldl (fun s g => s.discardGroup g 0) s).modCommits fun c => { c with pf := { c.pf with discard := 0 } }
  (List.range 64).foldl (fun s f =>
    if (s.commits.vfSt f).discard = 0 then s
    else (s.discardGroup 1 f).modCommits fun c => c.setVf f { c.vfSt f with discard := 0 }) s

/-- Requests that name G5 wait for the end of class 2 (R418). -/
def State.asksG5 (s : State) : Bool := s.commits.pf.request.getLsbD 5

/-- VFs with a request, ascending. -/
def State.vfAsks (s : State) : List Nat := (List.range 64).filter fun f => (s.commits.vfSt f).request != 0

/-- Commits after class 1 (R418). A request that names G5 alone is taken after class 2; with another group it is refused
now. -/
def State.commits1 (s : State) : State :=
  let s := if s.asksG5 && s.commits.pf.request == 32 then s else s.takePf
  s.vfAsks.foldl State.takeVf s

/-- After class 2: the request of G5, and the discards. -/
def State.commits2 (s : State) : State := (if s.asksG5 then s.takePf else s).discards

/-- COMMIT (R418). -/
def execCommit (s : State) : Result := .next s.commits1.commits2

/-- Requests of a function that is reset are dropped; with the PF, all of them, and every other group's staging is
reloaded (R421). -/
def State.dropCommits (s : State) (f : Nat) : State :=
  let cut (c : CommitSt) : CommitSt := { c with state := if c.state == 1 then 0 else c.state, request := 0, discard := 0 }
  if f = 0 then
    let s := s.modCommits fun c => { c with pf := cut c.pf, vf := c.vf.map fun e => (e.1, cut e.2) }
    [0, 2, 3, 4, 5, 6, 7, 8, 9, 1].foldl (fun s g => s.discardGroup g 0) s
  else s.modCommits fun c => c.setVf f (cut (c.vfSt f))

/-- FUNCTION_LEVEL_RESET (R62, R421): a VF, or with the PF all functions. -/
def execFunctionLevelReset (fn : Fn) (s : State) : Result :=
  .next <|
    if fn.val = 0 then (((List.range 64).foldl State.resetFn s).dropCommits 0).dropSilent.meetModule 0x0C
    else ((s.resetFn fn.val).dropCommits fn.val).dropSilent

end Sys2Proof.Machine
end

