-- ==== Sys2Proof/Machine/Dispatching.lean ====
section
/-! DEFINITION. Dispatch: which descriptor starts on a Pack, its program image, iterations of a LOOP, whole replays, COPY,
and the loading and swapping of nonlinear-function tables (R9, R13, R17, R33, R51, R57, R78, R79, R115, R147 to R150, R188,
R268, R435). -/
namespace Sys2Proof.Machine
open Sys2Proof

/-! ## Program images (R147 to R149) -/

/-- TILE_TABLE and IMAGE_BYTES of a header. -/
def imgTable (x : Nat) : Nat := bits x 32 32
def imgBytes (x : Nat) : Nat := bits x 64 32

/-- The header passes its checks for a Pack's shape. -/
def headerOk (sh : PackShape) (x : Nat) : Bool :=
  bits x 0 16 == 1 && bits x 16 8 == sh.width && bits x 24 8 == sh.height && imgTable x % 64 == 0 &&
    decide (imgTable x + 64 * sh.width * sh.height ≤ imgBytes x) && x / 2 ^ 96 == 0

/-- Offset and length of the stream of the engine numbered `k` in a tile's entry, and its SEM_INIT. -/
def entryOff (x k : Nat) : Nat := bits x (64 * k) 32
def entryLen (x k : Nat) : Nat := bits x (64 * k + 32) 32
def entrySem (x : Nat) : Nat := bits x 320 32

/-- A tile's entry passes its checks. -/
def entryOk (n x : Nat) : Bool :=
  ((List.range 5).all fun k => entryOff x k % 16 == 0 && decide (entryLen x k ≤ 2 ^ 24) &&
    decide (entryOff x k + 16 * entryLen x k ≤ n)) &&
    (entrySem x == 0 || decide (entrySem x + 128 ≤ n)) && x / 2 ^ 352 == 0

/-- Numbers of 64 bytes each. -/
def entriesOf : Nat → List Byte → List Nat
  | 0, _ => []
  | n + 1, b => leNat (b.take 64) :: entriesOf n (b.drop 64)

/-- Place a tile's streams. -/
def TileSt.place (t : TileSt) (va x : Nat) : TileSt :=
  let t := { t with semInit := if entrySem x = 0 then 0 else va + entrySem x }
  engines.foldl (fun t e => t.setEngine e { t.engine e with base := va + entryOff x e.num, len := entryLen x e.num }) t

/-! ## Starting a program (R140, R142, R149, R150, R191, R215) -/

/-- What every dispatch, LOOP iteration and whole replay sets in a tile at Pack-relative row and column. -/
def TileSt.reseed (t : TileSt) (salt job iter lrow lcol : Nat) : TileSt :=
  { t with
    epoch := t.epoch + 1, be := 0, head := 31
    genMx := genSeed salt job iter lrow lcol 0, genVe := genSeed salt job iter lrow lcol 1, genSp := genSeed salt job iter lrow lcol 2 }

/-- Every stream starts at index 0; one of length zero counts as halted. -/
def TileSt.startEngines (t : TileSt) : TileSt :=
  engines.foldl (fun t e =>
    let g := t.engine e
    t.setEngine e { g with pc := 0, halted := g.len == 0, loops := [], hold := .none, qbase := 0, queue := [] }) t

/-- The semaphores that a SEM_INIT table spells. -/
def semsOf (b : List Byte) : Table (BitVec 16) :=
  (List.range 64).foldl (fun t i => Table.set 0 t i (BitVec.ofNat 16 (leNat ((b.drop (2 * i)).take 2)))) []

/-- NUM_SR_SALT. -/
def State.salt (s : State) : Nat := s.reg64 0x50008

/-- Seed the tiles of a Pack for a dispatch, and note whom their sites serve (R140, R274). -/
def State.seedTiles (s : State) (p : Nat) (d : Desc) : State :=
  let sh := s.shape p
  let salt := (s.pack p).lat.salt
  sh.tiles.foldl (fun s i =>
    let t := tileOfIx i
    let s := s.modTile i fun x => x.reseed salt d.f.job.toNat d.run.iter (t.row.val - sh.row0) (t.col.val - sh.col0)
    s.modSite (s.siteOf t).ix fun x => if x.served.contains p then x else { x with served := x.served ++ [p] }) s

/-- Sleeping domains of the Pack are woken, and no engine issues before they are awake (R257). -/
def State.wakePack (s : State) (p : Nat) : State :=
  let l := (s.packDomains p).filter s.paging.asleep.contains
  let s := l.foldl State.startWake s
  s.modPack p fun k => { k with waking := !l.isEmpty, barriers := [], deadSince := none }

def State.setLoading (s : State) (p : Nat) (l : Option Loading) : State := s.modPack p fun k => { k with loading := l }

/-- The descriptor fails R149: its record is due at the next tick. -/
def State.imageFails (s : State) (p : Nat) (d : Desc) : State :=
  (s.setLoading p none).modDesc d.id fun x =>
    { x with phase := .rejected, status := stInvalid, undispatched := true, due := s.tick.count + 1 }

/-- Every read is done: the engines start. -/
def State.semsDone (s : State) (p : Nat) (d : Desc) (l : Loading) : State :=
  let s := (s.setLoading p none).modTiles (s.shape p).tiles TileSt.startEngines
  if l.cues then s.scheduleCues d else s

/-- Set the semaphores of a Pack's tiles, one after another, from their SEM_INIT tables (R149, R150); a table that a peer
has yet to bring is waited for. -/
def State.semsLoad (s : State) (p : Nat) (d : Desc) (l : Loading) : List Nat → State
  | [] => s.semsDone p d l
  | i :: rest =>
    let next (s : State) (sems : Table (BitVec 16)) : State :=
      (s.modTile i fun t => { t with sems := sems }).semsLoad p d { l with sems := l.sems + 1 } rest
    let a := (s.tile i).semInit
    if a = 0 then next s []
    else match s.readVa d a 128 with
      | (.bytes b, s) => next s (semsOf b)
      | (.failed, s) => (s.setLoading p none).fetchFailed p d
      | (.memory, s) => s.setLoading p (some l)
      | (.waits, s) => s.setLoading p (some l)

/-- Start the placed program of a Pack from its first instruction. -/
def State.startProgram (s : State) (p : Nat) (d : Desc) (cues : Bool) : State :=
  let s := s.modDesc d.id fun x => { x with run := { x.run with overflow := false, invalid := false } }
  let s := ((s.seedTiles p d).wakePack p).modPack p fun k => { k with nanSeen := false }
  s.semsLoad p d { placed := true, cues := cues } (s.shape p).tiles

/-- The tile table has been read: if its entries pass, the streams are placed and the program starts. -/
def State.tableRead (s : State) (p : Nat) (d : Desc) (x : Nat) (b : List Byte) : State :=
  let sh := s.shape p
  let l := entriesOf (sh.width * sh.height) b
  if !l.all (entryOk (imgBytes x)) then s.imageFails p d
  else
    let s := (List.zip sh.tiles l).foldl (fun s e => s.modTile e.1 fun t => t.place d.f.program.toNat e.2) s
    s.startProgram p d true

/-- Read the tile table that a header names, once the header passes its checks (R149). -/
def State.headRead (s : State) (p : Nat) (d : Desc) (x : Nat) : State :=
  let sh := s.shape p
  let va := d.f.program.toNat
  if !headerOk sh x || !s.spanMapped d.fn.val va (imgBytes x) then s.imageFails p d
  else
    let s := s.setLoading p (some { head := some x, placed := false, cues := true })
    match s.readVa d (va + imgTable x) (64 * (sh.width * sh.height)) with
    | (.bytes b, s) => s.tableRead p d x b
    | (.failed, s) => s.imageFails p d
    | (.memory, s) => s
    | (.waits, s) => s

/-- A dispatched RUN or LOOP reads its image and starts (R149). -/
def State.loadProgram (s : State) (p : Nat) (d : Desc) : State :=
  let s := s.setLoading p (some { placed := false, cues := true })
  match s.readVa d d.f.program.toNat 64 with
  | (.bytes b, s) => s.headRead p d (leNat b)
  | (.failed, s) => s.imageFails p d
  | (.memory, s) => s
  | (.waits, s) => s

/-- The reads of a Pack's program go on (R149). -/
def State.loadStep (s : State) (p : Nat) : State :=
  match s.running p, (s.pack p).loading with
  | some d, some l =>
    if d.phase != .running then s
    else if l.placed then s.semsLoad p d l ((s.shape p).tiles.drop l.sems)
    else match l.head with
      | some x => s.headRead p d x
      | none => s.loadProgram p d
  | _, _ => s

/-- A dispatched COPY starts to move its bytes (R435). -/
def State.startCopy (s : State) (p : Nat) (d : Desc) : State :=
  (((s.seedTiles p d).wakePack p).scheduleCues d).copyPump p

/-! ## DISPATCH (R9, R51, R78, R79) -/

/-- Nothing holds a Pack back from a dispatch: it is idle, at a quiescent point and not Muzzled (R25, R78, R266). -/
def State.packFree (s : State) (p : Nat) : Bool :=
  (s.shape p).enabled && (s.pack p).desc.isNone && s.quiescent p && !s.packMuzzled p && s.mod.dusk.step == 0

/-- An earlier descriptor of the ring holds this one back: one for the same Pack that has not been dispatched, or a
FENCE (R78, R79). -/
def State.heldBack (s : State) (d : Desc) : Bool :=
  s.shep.descs.any fun x => x.fn == d.fn && x.ring == d.ring && decide (x.id < d.id) && x.phase != .rejected &&
    (x.f.cls == 3 || (x.f.namesPack && x.pack == d.pack &&
      (x.phase == .reading || x.phase == .arrived || x.phase == .waiting)))

/-- The start position is reached; timed descriptors start only while the unit is LOCKED or COASTING (R9, R51). -/
def State.startReached (s : State) (d : Desc) : Bool := !d.timed || (s.cad.runs && decide (d.f.start ≤ s.cad.pos))

/-- A descriptor may be dispatched to its Pack at the present tick. -/
def State.eligible (s : State) (p : Nat) (d : Desc) : Bool :=
  d.occupies && d.pack == p && d.phase == .waiting && decide (d.tick < s.tick.count) && s.startReached d && !s.heldBack d

/-- The eligible descriptor of the lowest ring (R78). -/
def State.pick (s : State) (p : Nat) : Option Desc := (sortBy Desc.otherKey (s.shep.descs.filter (s.eligible p))).head?

/-- The first descriptor after a migration that lost contents completes at its dispatch tick (R268). -/
def State.contentsLost (s : State) (p : Nat) (d : Desc) : State :=
  let s := s.modPack p fun k => { k with lost := false, lostFlag := false }
  (s.modDesc d.id fun x => { x with phase := .ended, status := stMemory }).record d.id

/-- A dispatch of the descriptor that the Pack is running, a further iteration or a whole replay, after a migration that
lost contents: it ends at once, as one that is not dispatched (R268; DEDUCED, log entry 122). -/
def State.lostAgain (s : State) (p : Nat) (d : Desc) : State :=
  let s := s.modPack p fun k => { k with lost := false, lostFlag := false, replaying := none, spared := false }
  ((s.endDesc d.id stMemory).modDesc d.id fun x => { x with undispatched := true }).record d.id

/-- Dispatch a descriptor: it latches its settings (R8) and the output base that its program receives (R73). -/
def State.dispatchDesc (s : State) (p : Nat) (d : Desc) : State :=
  if (s.pack p).lost then s.contentsLost p d
  else
    let s := s.modPack p fun k => { k with desc := some d.id, lat := ⟨s.reg 0x50000, s.reg 0x50800, s.salt, d.f.output⟩ }
    let s := s.modDesc d.id fun x => { x with phase := .running, undispatched := false, run := { startPos := s.cad.pos } }
    let s := s.exposeAtDispatch p d.id
    let d := { d with phase := .running, undispatched := false, run := { startPos := s.cad.pos } }
    if d.f.cls == 2 then s.startCopy p d else s.loadProgram p d

/-- The next iteration of a LOOP may start (R13, R17). -/
def State.mayIterate (s : State) (p : Nat) (d : Desc) : Bool := d.phase == .parked && s.quiescent p && !s.packMuzzled p

/-- The descriptor that a Pack which has lost its contents is to be given, or the LOOP that is to go on there, completes
at once (R268), before the records of the descriptors that occupy no Pack (R80). -/
def State.lostDispatch (s : State) (p : Nat) : State :=
  if !(s.pack p).lost then s
  else match s.running p with
    | some d => if s.mayIterate p d then s.lostAgain p d else s
    | none => if s.packFree p then (match s.pick p with
        | some d => s.contentsLost p d
        | none => s) else s

/-- Dispatch to a Pack, if it is free and a descriptor is eligible. -/
def State.dispatchPack (s : State) (p : Nat) : State :=
  if s.packFree p then
    match s.pick p with
    | some d => s.dispatchDesc p d
    | none => s
  else s

/-- DISPATCH (R78): the cue actions whose position has passed act at once (R56). -/
def execDispatch (p : PackIx) (s : State) : Result := .next (s.dispatchPack p.val).evalCues

/-! ## LOOP iterations (R13, R17) -/

/-- The next iteration of a LOOP that waits between two starts, once a slot for its record is reserved (R17, R83). -/
def State.nextIteration (s : State) (p : Nat) : State :=
  match s.running p with
  | none => s
  | some d =>
    if !s.mayIterate p d then s
    else if (s.pack p).lost then s.lostAgain p d
    else match s.claimSlot d.fn.val d.cq with
      | (false, s) => s
      | (true, s) =>
        let run := { d.run with startPos := s.cad.pos }
        let s := s.modDesc d.id fun x => { x with phase := .running, slotHeld := true, run := run }
        let s := s.exposeAtDispatch p d.id
        s.startProgram p { d with phase := .running, slotHeld := true, run := run } true

/-- LOOP_RESUME (R17). -/
def execLoopResume (p : PackIx) (s : State) : Result := .next (s.nextIteration p.val).evalCues

/-! ## Whole replay (R115, R116, R150) -/

/-- The suspect tile's migration is still to come or under way; from Dusk on none starts (R361). -/
def State.sparing (s : State) (t : TileId) : Bool :=
  s.kennel.moves.any fun m => m.tile == t && (m.started || s.mod.dusk.step == 0)

/-- One step of a whole replay: at the quiescent point the suspect tile goes to quarantine; once it is replaced, the
descriptor is dispatched again from its first instruction. -/
def State.replayStep (s : State) (p : Nat) : State :=
  match s.running p, (s.pack p).replaying with
  | some d, some t =>
    if d.phase != .running then s
    else if !(s.pack p).spared then
      if s.replayQuiet p then
        let s := s.modPack p fun k => { k with spared := true }
        let s := s.quarantineTile t 0 d.f.job.toNat
        if s.mod.dusk.step = 0 then (s.kennel.moves.filter fun m => m.tile == t).foldl State.startMove s else s
      else s
    else if s.sparing t || s.packMigrating p then s
    else if (s.pack p).lost then s.lostAgain p d
    else (s.modPack p fun k => { k with replaying := none, spared := false }).startProgram p d false
  | _, _ => s

/-- WHOLE_REPLAY (R115). -/
def execWholeReplay (p : PackIx) (s : State) : Result := .next (s.replayStep p.val)

/-! ## Nonlinear-function tables (R57, R188, R435) -/

def tableBytes : Nat := 4096

/-- A table image passes its checks: X0 finite, SCALE positive, normal and finite, SEGS 1 to 254, reserved bytes zero. -/
def tableOk (b : List Byte) : Bool :=
  let x := leNat (b.take 32)
  bits x 23 8 != 255 && !bit x 63 && bits x 55 8 != 0 && bits x 55 8 != 255 && decide (1 ≤ bits x 128 16) &&
    decide (bits x 128 16 ≤ 254) && bits x 144 112 == 0

/-- Class 6: a TABLE_LOAD reads its image; one that fails completes at the tick after. While a peer has not answered it
stays as it arrived, and tries again at the next tick. -/
def State.tableLoad (s : State) (d : Desc) : State :=
  let begun (s : State) : State := s.modDesc d.id fun x => { x with phase := .waiting, undispatched := false }
  let fails (s : State) : State :=
    s.modDesc d.id fun x => { x with phase := .rejected, undispatched := false, status := stInvalid, due := s.tick.count + 1 }
  match s.readVa d d.f.program.toNat tableBytes with
  | (.waits, s) => s
  | (.failed, s) => fails s
  | (.memory, s) => begun s
  | (.bytes b, s) =>
    if tableOk b then
      let s := begun s
      { s with tiles := { s.tiles with swaps := s.tiles.swaps ++ [⟨d.id, s.tick.count, d.pack, d.classWord.toNat % 4, b⟩] } }
    else fails s

/-- Exchange a tile's copies of a table, of which the shadow holds the image. -/
def TileSt.swapTable (t : TileSt) (n : Nat) (b : List Byte) : TileSt :=
  let old := t.mem.nl.readBytes (tableBytes * n) tableBytes
  { t with mem := { t.mem with
      nl := t.mem.nl.writeBytes (tableBytes * n) b, nlShadow := t.mem.nlShadow.writeBytes (tableBytes * n) old } }

/-- A loaded table swaps in its Pack's tiles, and its TABLE_LOAD completes. -/
def State.swapDue (s : State) (w : TableDue) : State :=
  let s := s.modTiles (s.shape w.pack).tiles fun t => t.swapTable w.table w.bytes
  let s := { s with tiles := { s.tiles with swaps := s.tiles.swaps.filter fun x => x.desc != w.desc } }
  s.modDesc w.desc fun x => { x with phase := .ended }

/-- The loaded tables of a Pack at a quiescent point, from the tick after they were read on. -/
def State.tablesDue (s : State) (p : Nat) : List TableDue :=
  if s.quiescent p then s.tiles.swaps.filter fun w => w.pack == p && decide (w.since < s.tick.count) else []

/-- Swap them; their records follow in the tick. -/
def State.swapTables (s : State) (p : Nat) : State := (s.tablesDue p).foldl State.swapDue s

/-- Swap the tables of a Pack and write their records. -/
def State.swapTablesLate (s : State) (p : Nat) : State :=
  let l := s.tablesDue p
  (l.map TableDue.desc).foldl State.record (l.foldl State.swapDue s)

/-- All records of a tick in their order (R11, R79, R80, R85): those of Pack descriptors; the tables swap of the Packs
that have reached their quiescent points with them, and descriptors that a migration has cost their contents complete;
then the records of the others. -/
def State.writeRecords (s : State) : State :=
  let s := s.writePackRecords
  let s := (List.range 64).foldl State.swapTables s
  ((List.range 64).foldl State.lostDispatch s).writeOtherRecords

/-- A TABLE_LOAD waits for the FENCEs before it on its ring (R79). -/
def State.fenced (s : State) (d : Desc) : Bool :=
  s.shep.descs.any fun x => x.fn == d.fn && x.ring == d.ring && decide (x.id < d.id) && x.phase != .rejected && x.f.cls == 3

/-- TABLE_SWAP (R57): the shadow of one kind of table becomes active, where its conditions hold. The rebuilt remap of a
column is that of its migration under way, whose contents have been copied (R265, R266). -/
def execTableSwap (w : SwapTable) (s : State) : Result :=
  .next <|
    match w with
    | .remap c => (s.kennel.moves.filter fun m => m.started && m.tile.col == c).foldl (fun s m => s.endMove m (m.done.getD false)) s
    | .routing => s.swapRouting
    | .page f => if s.paging.shadow.any fun e => e.1 == f.val then s.swapPages else s
    | .nonlinear p => s.swapTablesLate p.val
    | .retirement => s.swapRetirements

end Sys2Proof.Machine
end

