-- ==== Sys2Proof/Machine/Sync.lean ====
section
/-! DEFINITION. Control and synchronisation instructions, retirement of instructions, WAIT timeouts, the deadlock check
and its snapshot (R152, R154, R157 to R171, R179 to R181). -/
namespace Sys2Proof.Machine
open Sys2Proof

/-! ## Control (R179) -/

/-- Length of the issuing engine's stream. -/
def State.streamLen (s : State) (c : Issuing) : Nat := ((s.tile c.ix).engine c.e).len

/-- NOP. -/
def execNop (tile : TileId) (e : Engine) (u : Upset) (s : State) : Result :=
  .next (s.issueOp tile e 0x01 fun c _ s => s.controlUnder c u none fun s => s.advance c)

/-- HALT (R152). -/
def execHalt (tile : TileId) (e : Engine) (u : Upset) (s : State) : Result :=
  .next (s.issueOp tile e 0x02 fun c _ s => s.controlUnder c u none fun s =>
    s.modEngine c.ix e fun g => { g with halted := true, hold := .none })

/-- STREAM_END (R152): the PC has reached the end of the stream without a HALT. -/
def execStreamEnd (tile : TileId) (e : Engine) (s : State) : Result :=
  .next <|
    let g := (s.tile tile.ix).engine e
    match s.issuer tile e with
    | none => s
    | some _ =>
      if g.len ≤ g.pc then
        (s.taint tile e.num g.len rsStreamEnd 0).modEngine tile.ix e fun g => { g with halted := true, hold := .none }
      else s

/-- JMP. -/
def execJmp (tile : TileId) (e : Engine) (u : Upset) (s : State) : Result :=
  .next (s.issueOp tile e 0x03 fun c i s => match i with
    | .jmp target => s.controlUnder c u (firstFail [(decide (target.toNat < s.streamLen c), rsBranch)]) fun s =>
        s.modEngine c.ix e fun g => g.jump target.toNat
    | _ => s)

/-- COND (R177), unsigned. -/
def condHolds (cond : BitVec 2) (v imm : Nat) : Bool :=
  if cond = 0 then v == imm else if cond = 1 then v != imm else if cond = 2 then decide (v < imm) else decide (imm ≤ v)

/-- BRC. -/
def execBrc (tile : TileId) (e : Engine) (u : Upset) (s : State) : Result :=
  .next (s.issueOp tile e 0x04 fun c i s => match i with
    | .brc sem cond imm target => s.controlUnder c u (firstFail [(decide (target.toNat < s.streamLen c), rsBranch)]) fun s =>
        if condHolds cond ((s.tile c.ix).sem sem.toNat) imm.toNat then s.modEngine c.ix e fun g => g.jump target.toNat
        else s.advance c
    | _ => s)

/-- Start a LOOP: its body, or what follows it when COUNT is 0 (R5, R179). -/
def EngineSt.loop (g : EngineSt) (count last : Nat) : EngineSt :=
  if count = 0 then { g with pc := last }.advance
  else { g with loops := ⟨g.pc + 1, last, count⟩ :: g.loops, pc := g.pc + 1, hold := .none }

/-- LOOP. -/
def execLoopInstruction (tile : TileId) (e : Engine) (u : Upset) (s : State) : Result :=
  .next (s.issueOp tile e 0x05 fun c i s => match i with
    | .loop count last =>
      let g := (s.tile c.ix).engine e
      let n := last.toNat
      let nested := match g.loops with
        | [] => true
        | l :: _ => decide (n ≤ l.last)
      s.controlUnder c u (firstFail
        [(decide (c.pc < n) && decide (n < g.len) && nested, rsBranch), (decide (g.loops.length < 4), rsLoopDepth)])
        fun s => s.modEngine c.ix e fun g => g.loop count.toNat n
    | _ => s)

/-- UNDEFINED_OPCODE (R163, R175). -/
def execUndefinedOpcode (tile : TileId) (e : Engine) (s : State) : Result :=
  .next (s.issue tile e (fun op => (TileWord.fields (BitVec.ofNat 128 op)).isNone) fun _ _ s => s)

/-! ## Signals and waits (R157 to R160, R180) -/

/-- SIG. -/
def execSig (tile : TileId) (e : Engine) (u : Upset) (s : State) : Result :=
  .next (s.issueOp tile e 0x08 fun c i s => match i with
    | .sig sem inc => s.controlUnder c u none fun s => (s.advance c).signal tile sem.toNat inc.toNat
    | _ => s)

/-- TARGET of an RSIGNAL (R319). -/
def rsignalTarget (col row sem inc : Nat) : Nat := col % 32 + 32 * (row % 32) + 1024 * (sem % 64) + 65536 * (inc % 65536)

/-- A signal leaves for a tile of the Pack, or through a flow. -/
def State.sigx (s : State) (c : Issuing) (sem : Nat) (via : Bool) (inc col row flow : Nat) : State :=
  if via then
    let token := s.token c.p c.ix
    (s.request
      { id := 0, type := .rsignal, flow := flow, issued := 0, desc := some c.d.id, tile := c.ix, engine := c.e.num
        pc := c.pc, word := c.word, target := rsignalTarget col row sem inc, token := token }).advance c
  else if inc = 0 then s.advance c
  else
    let t := (s.shape c.p).at col row
    ({ s with tiles := { s.tiles with signals := s.tiles.signals ++ [⟨t, sem, inc, some c.p⟩] } } : State).advance c

/-- SIGX. -/
def execSigx (tile : TileId) (e : Engine) (u : Upset) (s : State) : Result :=
  .next (s.issueOp tile e 0x09 fun c i s => match i with
    | .sigx sem via inc col row flow =>
      let sh := s.shape c.p
      s.controlUnder c u (firstFail
        [(via || flow == 0, rsReserved),
         (if via then s.mayUse c.d flow.toNat else decide (col.toNat < sh.width) && decide (row.toNat < sh.height), rsOutside)])
        fun s => s.sigx c sem.toNat via inc.toNat col.toNat row.toNat flow.toNat
    | _ => s)

/-- The first of a list that a test picks, and the rest. -/
def takeFirst {α : Type} (p : α → Bool) : List α → Option α × List α
  | [] => (none, [])
  | x :: l => if p x then (some x, l) else
    let r := takeFirst p l
    (r.1, x :: r.2)

/-- SIGNAL_ARRIVAL (R159): the oldest signal under way to a tile is applied, unless its semaphore has a parity error
(R96). One for a tile that sleeps or moves waits for it (R257, R266). -/
def execSignalArrival (tile : TileId) (u : Upset) (s : State) : Result :=
  .next <|
    match takeFirst (fun g => g.target == tile) s.tiles.signals with
    | (none, _) => s
    | (some g, rest) =>
      let s : State := { s with tiles := { s.tiles with signals := rest } }
      if s.away tile then s.park (some tile) (.signal tile g.sem g.inc g.pack)
      else s.tileUnder tile u fun s => s.signal tile g.sem g.inc

/-- WAIT. -/
def execWait (tile : TileId) (e : Engine) (u : Upset) (s : State) : Result :=
  .next (s.issueOp tile e 0x0A fun c i s => match i with
    | .wait sem consume timed count timeout =>
      s.controlUnder c u (firstFail [(timed || timeout == 0, rsReserved)]) fun s =>
        (s.holdAt c (.wait sem.toNat count.toNat consume
          (if timed then some (s.tick.count, timeout.toNat) else none))).modTile c.ix fun t => t.releaseWait e
    | _ => s)

/-! ## Barriers (R162, R181) -/

/-- Engines that a MASK names (R177). -/
def maskEngines (mask : Nat) : List Engine := engines.filter fun e => bit mask e.num

/-- Every engine that the mask names has arrived, in every tile of the Pack. -/
def barrierFull (tiles : List Nat) (b : BarrierSt) : Bool :=
  tiles.all fun i => (maskEngines b.mask).all fun e => b.arrived.contains (tileOfIx i, e)

/-- Arrive at a barrier that is open or opens now. -/
def State.barrier (s : State) (c : Issuing) (num mask : Nat) : State :=
  let l := (s.pack c.p).barriers
  let b := (l.find? fun b => b.num == num).getD ⟨num, mask, []⟩
  if b.mask ≠ mask then s.skip c rsBarrier
  else
    let b := { b with arrived := b.arrived ++ [(c.tile, c.e)] }
    let rest := l.filter fun b => b.num != num
    if barrierFull (s.shape c.p).tiles b then
      b.arrived.foldl (fun s a => s.modEngine a.1.ix a.2 EngineSt.advance)
        (s.modPack c.p fun k => { k with barriers := rest })
    else (s.modPack c.p fun k => { k with barriers := rest ++ [b] }).holdAt c (.barrier num mask)

/-- BARRIER. -/
def execBarrier (tile : TileId) (e : Engine) (u : Upset) (s : State) : Result :=
  .next (s.issueOp tile e 0x0B fun c i s => match i with
    | .barrier num mask => s.controlUnder c u none fun s =>
        if mask = 0 then s.advance c else s.barrier c num.toNat mask.toNat
    | _ => s)

/-! ## Retirement (R154) -/

/-- A NaN event of an engine awaits its trap: under the fault action its instruction does not retire before (R144). -/
def State.nanHolds (s : State) (tile : TileId) (e : Engine) : Bool :=
  match s.packOf tile with
  | some p =>
    ((s.running p).map fun d => d.nanAction == 2).getD false &&
      (s.pack p).nanPend.any fun x => x.1 == tile.ix && bits (x.2.1.headD 0) 10 3 == e.num
  | none => false

/-- An MXRUN whose row awaits its replay does not retire (R112), nor one whose rows a hook stages, nor a drain whose
rows a hook returns (R205, R214), nor an instruction that has met a NaN under the fault action (R144). -/
def State.mayRetire (s : State) (tile : TileId) (e : Engine) : Bool :=
  !s.nanHolds tile e && (e != .mx || !((match s.packOf tile with
    | some p => (s.pack p).misses.any fun m => m.tile == tile
    | none => false) || s.fabric.ports.any fun x => x.2.hooks.any fun h => h.tile == tile.ix && h.kind != 1))

/-- INSTRUCTION_RETIRE (R154): the engine's oldest instruction in flight that holds no stream context retires. -/
def execInstructionRetire (tile : TileId) (e : Engine) (s : State) : Result :=
  .next <|
    if !s.mayRetire tile e then s
    else match takeFirst (fun f => f.engine == e && f.ctx.isNone) (s.tile tile.ix).flights with
      | (none, _) => s
      | (some _, rest) => (s.modTile tile.ix fun t => TileSt.retry { t with flights := rest }).settle tile

/-! ## Snapshot (R171) -/

/-- A stream of the engine that waits at a bound semaphore (R161). -/
def TileSt.boundWait (t : TileSt) (e : Engine) : Option (CtxSt × Nat) :=
  t.ctxs.findSome? fun c =>
    let own := match e with
      | .ri => c.2.kind.inbound
      | .ro => !c.2.kind.inbound
      | _ => false
    match c.2.waits with
    | some n => if own && c.2.room && t.sem n == 0 then some (c.2, n) else none
    | none => none

/-- A 16-byte entry. -/
def snapEntry (pc state sem count value resource : Nat) : List Byte :=
  leBytes 4 (pc % 2 ^ 24 + 2 ^ 24 * state) ++ leBytes 1 sem ++ leBytes 1 0 ++ leBytes 2 count ++ leBytes 2 value ++
    leBytes 2 resource ++ leBytes 4 0

/-- The entry of an engine. -/
def TileSt.snap (t : TileSt) (e : Engine) : List Byte :=
  let g := t.engine e
  let own := match t.boundWait e with
    | some (k, n) => snapEntry k.pc 5 n 1 (t.sem n) 0
    | none => snapEntry g.pc (if g.halted then 0 else 6) 0 0 0 0
  if g.halted then own
  else match g.hold with
    | .wait sem count _ timed => snapEntry g.pc (if timed.isSome then 4 else 1) sem count (t.sem sem) 0
    | .barrier num mask => snapEntry g.pc 2 0 (num + 4 * mask) 0 0
    | .issue r => snapEntry g.pc 3 0 0 0 r
    | .none => own

/-- Write the snapshot of a Pack, if it has a buffer, with the requester identifier of the function that owns the Pack. -/
def State.snapshot (s : State) (p : Nat) (d : Desc) (cause : Nat) : State :=
  let a := s.reg64 (0x4C100 + 8 * p)
  if a = 0 then s
  else
    let tiles := (s.shape p).tiles
    s.hostWriteAs (s.shape p).fn a (leBytes 4 d.f.job.toNat ++ leBytes 1 p ++ leBytes 1 cause ++ leBytes 2 tiles.length ++
      leBytes 8 s.tick.count ++ leBytes 8 s.cad.pos ++ leBytes 8 0 ++
      tiles.flatMap fun i => engines.flatMap fun e => (s.tile i).snap e)

/-! ## WAIT timeouts (R166 to R168) -/

/-- A timed WAIT is unsatisfied at the (TIMEOUT + 1)th tick edge after it issued. -/
def State.timedOut (s : State) (ix : Nat) (e : Engine) : Bool :=
  match ((s.tile ix).engine e).hold with
  | .wait _ _ _ (some (t, n)) => decide (t + n + 1 ≤ s.tick.count)
  | _ => false

/-- The LOG of one timeout (R167). R384 gives it no EVENT code and no payload: both are free values (log entry 56). -/
def State.logTimeout (s : State) (ix : Nat) : State :=
  let (v, s) := s.draw
  s.raise .log Config.waitTimeoutEvent (s.siteOf (tileOfIx ix)).ix (leBytes 40 v)

/-- Class 5: timeouts of a Pack's WAITs, logged by row, column and engine (R167). -/
def State.waitTimeouts (s : State) (p : Nat) : State :=
  match s.running p with
  | none => s
  | some d =>
    let l := (s.shape p).tiles.flatMap fun i => (engines.filter (s.timedOut i)).map fun _ => i
    if d.phase != .running || l.isEmpty then s
    else
      let s := l.foldl State.logTimeout (s.snapshot p d 0x13)
      let s := { s with tiles := { s.tiles with waitTimeouts := sat 16 (s.tiles.waitTimeouts + l.length) } }
      s.endDesc d.id stWaitTimeout

/-- WAIT_TIMEOUT (R166). -/
def execWaitTimeout (tile : TileId) (e : Engine) (s : State) : Result :=
  .next (match s.packOf tile with
    | some p => if s.timedOut tile.ix e then s.waitTimeouts p else s
    | none => s)

/-! ## Deadlock (R169, R170) -/

/-- An engine is waiting, or has no pending work. -/
def EngineSt.stuck (g : EngineSt) : Bool :=
  g.halted || (match g.hold with
    | .wait _ _ _ timed => timed.isNone
    | .barrier .. => true
    | .issue _ => true
    | .none => false)

/-- Nothing in a tile can change by itself: its engines wait, and what is in flight are streams that wait at a bound
semaphore or at the issue test, with no transaction outstanding (R161, R169, R247). -/
def TileSt.stuck (t : TileSt) : Bool :=
  (engines.all fun e => (t.engine e).stuck) && (t.flights.all fun f => f.ctx.isSome) &&
    t.ctxs.all fun c => c.2.inflight.isEmpty && c.2.fault.isNone && decide (c.2.next < c.2.total)

/-- The test of R170. -/
def State.deadTest (s : State) (p : Nat) (d : Desc) : Bool :=
  d.phase == .running && (d.f.cls == 1 || d.f.cls == 4) && !(s.pack p).waking && (s.pack p).loading.isNone && (s.pack p).replaying.isNone &&
    (s.pack p).misses.isEmpty && ((s.shape p).tiles.all fun i => (s.tile i).stuck) &&
    (s.links.fabric.reqs.all fun q => q.desc != some d.id) && !s.signalsOut p &&
    !s.programDone d

/-- The Pack is faulted with SYNC_DEADLOCK (R170). -/
def State.deadlock (s : State) (p : Nat) (d : Desc) : State :=
  let s := s.snapshot p d 0x12
  let s := { s with tiles := { s.tiles with deadlocks := sat 16 (s.tiles.deadlocks + 1) } }
  s.muzzlePack p 0x0A (some (d.id, stDeadlock))

/-- DEADLOCK_TICKS. -/
def State.dlTicks (s : State) : Nat := s.regN 0x4C000

/-- The test has held through DEADLOCK_TICKS ticks. -/
def State.deadNow (s : State) (p : Nat) (d : Desc) : Bool :=
  s.deadTest p d && (match (s.pack p).deadSince with
    | some t => decide (t + s.dlTicks ≤ s.tick.count)
    | none => false)

/-- Class 5: the deadlock check of a Pack. -/
def State.deadTick (s : State) (p : Nat) : State :=
  match s.running p with
  | none => s
  | some d =>
    if s.deadNow p d then s.deadlock p d
    else if s.deadTest p d then s.modPack p fun k => { k with deadSince := some (k.deadSince.getD s.tick.count) }
    else s.modPack p fun k => { k with deadSince := none }

/-- SYNC_DEADLOCK (R170). -/
def execSyncDeadlock (p : PackIx) (s : State) : Result :=
  .next (match s.running p.val with
    | some d => if s.deadNow p.val d then s.deadlock p.val d else s
    | none => s)

end Sys2Proof.Machine
end

