-- ==== Sys2Proof/Machine/Network.lean ====
section
/-! DEFINITION. The tile network at work: packets that fail, what waits for a sleeping or moving tile, for HBM or for a
tracker, and the waking of domains (R153, R254 to R257, R266, R293). -/
namespace Sys2Proof.Machine
open Sys2Proof

/-! ## What waits -/

/-- What a transaction that has waited does at its target. -/
def bodyTx (ty : TxType) (h : Header) (len : Nat) (data : List Byte) (s : State) : State :=
  match ty with
  | .rread => s.rreadTx h len
  | .rwrite => s.rwriteTx h data
  | .rsignal => s.rsignalTx h
  | .tsend => s.tsendTx h data
  | .mcast => s.mcastTx h data
  | _ => s

/-- It waits on. -/
def State.waitOn (s : State) (x : Inbound) : State := s.modLf fun l => { l with inbound := l.inbound ++ [x] }

/-- One that has waited goes on, or waits behind what is still waiting. -/
def State.runInbound (s : State) (x : Inbound) : State :=
  match x with
  | .tx ty h len data => if s.mustWait ty h len then s.waitOn x else bodyTx ty h len data s
  | .signal tile sem inc _ => if s.away tile then s.waitOn x else s.signal tile sem inc

/-- What has waited goes on in the order of arrival (R257, R266, R293). -/
def State.releaseInbound (s : State) : State :=
  let l := s.links.fabric.inbound
  if l.isEmpty then s else (l.foldl State.runInbound (s.modLf fun f => { f with inbound := [] })).pump

/-- What a tracker or HBM held back is tried again at the tick: streams, multicasts, COPYs, ports' requests and the reads of
programs (R149, R153, R293). -/
def State.retryTick (s : State) : State :=
  let s := (List.range 64).foldl State.loadStep s.sweepPeers
  let live := s.tiles.tiles.filter fun e => !e.2.ctxs.isEmpty
  let s := live.foldl (fun s e => s.settle (tileOfIx e.1)) s
  let runs := s.links.fabric.groups.filter fun e => !e.2.parts.isEmpty
  let s := (runs.map Prod.fst).foldl State.groupPump s
  s.copyPumps.portsRetry

/-! ## Packets (R256) -/

/-- A packet of a chunk was dropped: an outbound chunk goes without its bytes, an inbound one does not land. -/
def State.losePiece (s : State) (tile : TileId) (ci n : Nat) : State :=
  s.modCtx tile.ix ci fun k => { k with inflight := match k.inflight with
    | ch :: rest => { ch with lost := if ch.lost.contains n then ch.lost else n :: ch.lost } :: rest
    | [] => [] }

/-- The descriptor whose packet was dropped ends as at an uncorrectable memory error in a user page (R22, R256). -/
def State.packetEnds (s : State) (owner : Option Nat) : State :=
  match owner with
  | some id => s.latchFault id stMemory
  | none => s

/-- A transaction of the chunk is under way. -/
def State.pieceOut (s : State) (tile : TileId) (ci n : Nat) : Bool :=
  match (s.tile tile.ix).ctx? ci with
  | some k => match k.inflight with
    | ch :: _ => decide (n < ch.segs.length)
    | [] => false
  | none => false

/-- The transaction of a packet completes in error. -/
def State.dropPacket (s : State) (load : NetLoad) : State :=
  match load with
  | .piece tile ci n =>
    if s.pieceOut tile ci.val n then (s.losePiece tile ci.val n).packetEnds ((s.owner tile).map Desc.id) else s
  | .signal tile =>
    match takeFirst (fun g => g.target == tile) s.tiles.signals with
    | (some g, rest) =>
      ({ s with tiles := { s.tiles with signals := rest } } : State).packetEnds ((g.pack.bind s.running).map Desc.id)
    | (none, _) => s
  | .other owner => s.packetEnds owner

/-- Retries of a stop are counted; a tile's site whose count reaches the MC's limit, which the spec does not give, goes to
quarantine (R256, R270). -/
def State.countRetries (s : State) (stop : NetStop) (n : Nat) : State :=
  let before := Table.get 0 s.paging.retries (stopIx stop)
  let s := s.modPaging fun p => { p with retries := Table.put p.retries (stopIx stop) (before + n) }
  match stop with
  | .tile x => if before < Config.stopRetryLimit && Config.stopRetryLimit ≤ before + n then s.quarantine x.ix 3 0 else s
  | _ => s

/-- NETWORK_PACKET (R255, R256): a packet on its path fails its check at a stop `fails` times; it is retried up to three
times. One that a stop off its path is said to have checked is none. -/
def execNetworkPacket (src dest stop : NetStop) (fails : Nat) (load : NetLoad) (s : State) : Result :=
  .next <|
    if fails = 0 || !stopPassed stop src dest then s
    else
      let s := s.countRetries stop (min fails 3)
      if 3 < fails then s.dropPacket load else s

/-! ## Domains (R257) -/

/-- A Pack whose domains are all awake may issue. -/
def State.packWakes (s : State) (p : Nat) : State :=
  if (s.pack p).waking && !((s.packDomains p).any s.paging.asleep.contains) then s.modPack p fun k => { k with waking := false } else s

/-- A wake completes: the domain is awake, and what was parked for it is delivered in the order of arrival. -/
def State.wakeDone (s : State) (d : Nat) : State := ((List.range 64).foldl State.packWakes (s.wakeDomain d)).releaseInbound

/-- DOMAIN_WAKE_COMPLETE (R257). -/
def execDomainWakeComplete (row : Fin 36) (right : Bool) (s : State) : Result :=
  .next (if s.paging.wakes (domainIx row.val right) then s.wakeDone (domainIx row.val right) else s)

/-- At a tick: a wake ends 2 µs after it began, if it has not ended before, and Leash gates the domains that have been
idle for long enough (R257, R376). -/
def State.domainTick (s : State) : State :=
  let due := s.paging.waking.filter fun e => decide (e.2 + 2000 ≤ s.tick.now)
  let s := due.foldl (fun s e => s.wakeDone e.1) s
  let busy := s.busyDomains
  let s := s.modPaging fun p => { p with busyAt := busy.foldl (fun t d => Table.put t d s.tick.now) p.busyAt }
  (List.range 72).foldl (State.gateDomain busy) s

end Sys2Proof.Machine
end

