-- ==== Sys2Proof/Machine/Registers.lean ====
section
/-! DEFINITION. Register reads and writes through BAR0 and the VF windows (R59, R93, R94, R118, R146, R173, R259, R276,
R297, R309, R330, R331, R347, R363, R382, R394, R396, R397, R410 to R415, R419). A register whose content is other state is
formed here; set-up registers are stored (Machine/Regs.lean). -/
namespace Sys2Proof.Machine
open Sys2Proof

/-- The state that a command leaves, for a register write that does what the command does. -/
def Result.after (r : Result) (s : State) : State :=
  match r with
  | .next t => t
  | _ => s

/-- A word of a 64-bit value: 0 low, 1 high. -/
def wordOf (x i : Nat) : Nat := bits x (32 * i) 32

/-! ## Reads, block by block -/

/-- Links present as a bit mask (R415). -/
def Grade.linkMask (g : Grade) : Nat := ((List.range 48).map fun n => 2 ^ n * b2n (g.hasLink n)).foldl (· + ·) 0

/-- ID_CAPS (R415). -/
def Grade.caps (g : Grade) : Nat :=
  g.tiles + 2 ^ 11 * ((List.range 48).filter g.hasLink).length + 2 ^ 17 * b2n (g == .a) + 2 ^ 18 * (g.rows - 1)

def Grade.code : Grade → Nat
  | .a => 1
  | .b => 2

/-- IDENT (R415). -/
def State.readIdent (s : State) (o : Nat) : Nat :=
  let g := s.mod.grade
  if o = 0 then 0x96 + 2 ^ 16 * g.code
  else if o = 4 then s.mod.stepping.toNat
  else if o = 8 then 0x020102
  else if o = 0xC then g.caps
  else if o = 0x10 then wordOf g.linkMask 0
  else if o = 0x14 then wordOf g.linkMask 1
  else if 0x20 ≤ o ∧ o < 0x30 then wordOf s.mod.serial.toNat ((o - 0x20) / 4)
  else if o = 0x30 then s.sec.fwSvn.toNat + 256 * s.sec.imageSvn.toNat
  else 0

/-- COMMIT (R419). -/
def State.readCommit (s : State) (o : Nat) : Nat :=
  let c := s.commits
  if o = 4 then c.pf.word
  else if o = 8 then c.staged.toNat
  else if o = 0x10 then wordOf c.tick 0
  else if o = 0x14 then wordOf c.tick 1
  else if o = 0x18 then c.applied + 65536 * c.refused
  else 0

/-- TICK and CADENCE (R59). -/
def State.readTick (s : State) (o : Nat) : Nat :=
  let c := s.cad
  if o = 0x008 then wordOf s.tick.count 0
  else if o = 0x00C then wordOf s.tick.count 1
  else if o = 0x120 then wordOf c.pos 0
  else if o = 0x124 then wordOf c.pos 1
  else if o = 0x128 then c.rateWord
  else if o = 0x130 then c.statusWord
  else if o = 0x138 then wordOf c.faultPos 0
  else if o = 0x13C then wordOf c.faultPos 1
  else if o = 0x140 then c.tcCrc + 65536 * c.glitch
  else if o = 0x148 then wordOf c.base 0
  else if o = 0x14C then wordOf c.base 1
  else if o = 0x240 then s.cue.level.toNat + 65536 * s.cue.conflicts
  else 0

/-- Pending bits of 32 vectors of a function (R87). -/
def State.pendingBits (s : State) (f w : Nat) : Nat :=
  ((List.range 32).map fun i => 2 ^ i * b2n ((s.fn f).msixPending.contains (32 * w + i))).foldl (· + ·) 0

/-- A ring window (R93, R94, R414). -/
def State.readWindow (s : State) (f o : Nat) : Nat :=
  if o < 0xE000 then
    let k := s.ring f (o / 64)
    if o % 64 = 0x1C then s.sqStatus f (o / 64)
    else if o % 64 = 0x38 then k.head
    else if o % 64 = 0x3C then k.tail
    else 0
  else if o = 0xE024 then s.fnStatus f
  else if f = 0 then 0
  else if o = 0xE000 then f + 65536 * s.mod.grade.code
  else if o = 0xE014 then (s.fn f).mzResult.toNat
  else if o = 0xE034 then { s.commits.vfSt f with group := 1, fn := BitVec.ofNat 6 f }.word
  else if 0xE800 ≤ o ∧ o < 0xE820 then s.pendingBits f ((o - 0xE800) / 4)
  else 0

/-- PACK and SHEPHERD (R30, R173, R276). -/
def State.readPack (s : State) (o : Nat) : Nat :=
  let k := s.kennel
  if 0x400 ≤ o ∧ o < 0x500 then s.packStatus ((o - 0x400) / 4)
  else if o = 0x808 then k.cmdStatus.toNat
  else if o = 0x810 then k.migrations + 65536 * k.bistFail
  else if o = 0x814 then k.deferred
  else if o = 0x818 then s.lowCols
  else if 0x1000 ≤ o ∧ o < 0x2200 then (s.site ((o - 0x1000) / 4)).word
  else if o = 0xC004 then sat 16 s.tiles.deadlocks + 65536 * sat 16 s.tiles.waitTimeouts
  else if 0xD000 ≤ o ∧ o < 0xD800 then (Table.get 0 s.tiles.regs.ill ((o - 0xD000) / 4)).toNat
  else if o = 0xE000 then s.muzzle.module.word.toNat
  else if o = 0xE014 then (s.fn 0).mzResult.toNat
  else if 0xE100 ≤ o ∧ o < 0xE200 then (s.mzPack ((o - 0xE100) / 4)).word.toNat
  else if 0xE200 ≤ o ∧ o < 0xE280 then (s.mzRegion ((o - 0xE200) / 4)).word.toNat
  else 0

/-- NUMERIC (R118, R146). -/
def State.readNum (s : State) (o : Nat) : Nat :=
  if 0x804 ≤ o ∧ o < 0x820 then (Table.get 0 s.tiles.regs.chk ((o - 0x800) / 4)).toNat
  else if 0x1000 ≤ o ∧ o < 0x1800 ∧ o % 32 < 0x18 then (Table.get 0 s.tiles.regs.nan ((o - 0x1000) / 32 * 8 + o % 32 / 4)).toNat
  else 0

/-- RETRIEVER and PAGING (R259). -/
def State.readRtv (s : State) (o : Nat) : Nat :=
  let p := s.paging
  if o = 0x20 then p.bar2Refused
  else if o = 0x110 then p.batch.toNat + 4 * b2n p.busyWrite + 8 * b2n p.readError + 4096 * p.index
  else if o = 0x20C then p.fringHead
  else if o = 0x210 then p.fringTail
  else if o = 0x214 then p.faults + 65536 * p.dropped
  else if o = 0x400 then p.sel
  else if o = 0x410 then wordOf p.latched.rd 0
  else if o = 0x414 then wordOf p.latched.rd 1
  else if o = 0x418 then wordOf p.latched.wr 0
  else if o = 0x41C then wordOf p.latched.wr 1
  else if 0x420 ≤ o ∧ o < 0x440 then p.latched.bins.getD ((o - 0x420) / 4) 0
  else 0

/-- HBM: a stack's window, and the module-wide registers in stack 0's (R297). -/
def State.readHbm (s : State) (o : Nat) : Nat :=
  let k := s.stack (o / 0x4000)
  let h := s.hbm
  let w := o % 0x4000
  if w = 0 then k.word
  else if w = 4 then k.ce
  else if w = 8 then k.repaired + 65536 * k.unrepaired
  else if w = 0xC then k.passes + 65536 * k.parityRepaired
  else if w = 0x10 then wordOf k.lastErr 0
  else if w = 0x14 then wordOf k.lastErr 1
  else if w = 0x18 then k.failedPc.toNat
  else if o = 0x3000 then s.parityWord
  else if o = 0x3008 then h.op.toNat + 4 * b2n h.held + 65536 * h.changes
  else if o = 0x3060 then h.retireStatus
  else if o = 0x3068 then h.cmdStatus.toNat
  else 0

/-- This end of a link sends hold idles (R312). -/
def State.holding (s : State) : Bool := s.muzzle.module.active || s.mod.dusk.step == 3

/-- A link's window (R309, R331); an absent link reads FUSED and zero. -/
def State.readLink (s : State) (n o : Nat) : Nat :=
  let l := s.link n
  let m := s.meas n
  if o = 0x004 then l.statusWord
  else if s.fusedLink n then 0
  else if o = 0x000 then l.cfg.toNat
  else if o = 0x008 then l.mapWord
  else if o = 0x00C then l.thresh.toNat
  else if o = 0x010 then l.idle.toNat
  else if o = 0x014 then b2n l.pattern
  else if o = 0x018 then l.prbsErr
  else if o = 0x01C then l.uncorr
  else if o = 0x020 then l.countWord
  else if 0x030 ≤ o ∧ o < 0x044 then m.closed.getD ((o - 0x030) / 4) 0
  else if o = 0x100 then m.resent + 65536 * m.crcFails
  else if o = 0x104 then b2n m.heldFar + 2 * b2n s.holding
  else if o = 0x108 then wordOf m.flitsTx 0
  else if o = 0x10C then wordOf m.flitsTx 1
  else if o = 0x110 then wordOf m.flitsRx 0
  else if o = 0x114 then wordOf m.flitsRx 1
  else if o = 0x118 then s.replayUse n
  else 0

/-- The LINKS common window (R330). -/
def State.readLf (s : State) (o : Nat) : Nat :=
  let f := s.links.fabric
  if o = 0x20 then f.batch.toNat + 4 * b2n f.busyWrite + 8 * b2n f.readError + 4096 * f.index
  else if o = 0x30 then f.linkLost + 65536 * f.prunes
  else if 0x100 ≤ o ∧ o < 0x300 then
    (Table.get 0 (if o % 8 = 0 then f.pruneLo else f.pruneHi) ((o - 0x100) / 8)).toNat
  else 0

/-- FABRIC (R347). -/
def State.readFab (s : State) (o : Nat) : Nat :=
  let f := s.fabric
  if 0x180 ≤ o ∧ o < 0x200 then s.regionWord ((o - 0x180) / 4)
  else if 0x300 ≤ o ∧ o < 0x400 then s.portWord ((o - 0x300) / 4)
  else if 0x410 ≤ o ∧ o < 0x420 then f.bankWord ((o - 0x410) / 4)
  else if 0x700 ≤ o ∧ o < 0x70C then wordOf f.gpioIn.toNat ((o - 0x700) / 4)
  else if o = 0x800 then s.clkWord
  else if o = 0x804 then f.pllLost.toNat
  else if o = 0xA00 then wordOf f.irqPend.toNat 0
  else if o = 0xA04 then wordOf f.irqPend.toNat 1
  else if o = 0xB00 then b2n f.outReleased + 2 * b2n f.writeEn + 4 * b2n f.resetReleased + 8 * b2n f.globalClk
  else 0

/-- CONFIG (R349, R363). -/
def NvSt.word (v : NvSt) : Nat := sat 8 v.spares + 256 * b2n (decide (v.spares < 16))

def State.readCfg (s : State) (o : Nat) : Nat :=
  let c := s.config
  if o = 0x000 then c.dawnWord
  else if o = 0x004 then c.dawnOrder.toNat + 256 * c.releaseGap.toNat
  else if o = 0x020 then c.plWord
  else if o = 0x024 then c.plFault
  else if o = 0x028 then c.plFaultRec
  else if o = 0x104 then c.nwWord
  else if o = 0x108 then c.nwPasses
  else if o = 0x10C then c.nwFrames
  else if o = 0x110 then c.nwCorr
  else if o = 0x114 then c.nwUncorr
  else if o = 0x118 then c.nwVote
  else if o = 0x11C then c.nwLast.toNat
  else if o = 0x120 then s.nv.word
  else if o = 0x124 then s.nv.replaced + 65536 * s.nv.refreshes
  else 0

/-- LEASH (R382). -/
def State.readLeash (s : State) (o : Nat) : Nat :=
  let l := s.leash
  let e := s.energy
  if o = 0x20 then l.status
  else if o = 0x24 then l.power
  else if o = 0x28 then l.temp
  else if o = 0x2C then l.stalls + 65536 * l.droops
  else if o = 0x30 then wordOf e.total 0
  else if o = 0x34 then wordOf e.total 1
  else if o = 0x38 then wordOf e.charged 0
  else if o = 0x3C then wordOf e.charged 1
  else if o = 0x40 then wordOf (unsigned 64 e.unattr) 0
  else if o = 0x44 then wordOf (unsigned 64 e.unattr) 1
  else if o = 0x48 then e.suspect
  else 0

/-- TELEMETRY (R396). -/
def State.readTel (s : State) (o : Nat) : Nat :=
  let t := s.tel
  if o = 0x18 then t.ringHead
  else if o = 0x1C then t.ringTail
  else if o = 0x2C then t.traceAck
  else if o = 0x40 then t.host.dropped + 2 ^ 8 * t.mctp.dropped + 2 ^ 16 * t.traceDrop + 2 ^ 24 * t.metricDrop
  else if o = 0x44 then t.alarmPend
  else if o = 0x48 then t.nv.dropped
  else 0

/-- The unit is a fused site or an absent link, whose counters read zero (R390). -/
def State.unitFused (s : State) (u : Nat) : Bool :=
  if u < 1152 then siteFused s.mod.grade (u / 32) else if u < 1200 then s.fusedLink (u - 1152) else false

/-- COUNTERS (R397). -/
def State.readCnt (s : State) (o : Nat) : Nat :=
  let c := s.cnt
  let u := s.cntUnit c.unit
  let n := if s.unitFused c.unit then 0 else unitCounters c.unit
  if o = 0x00 then c.unit
  else if o = 0x08 then (if n = 0 then 0 else u.ovf.toNat)
  else if o = 0x0C then c.irqVector
  else if o = 0x10 then c.tagCtrl.toNat
  else if o = 0x14 then c.tagSeed.toNat
  else if o = 0x18 then c.tagMissed
  else if 0x100 ≤ o ∧ o < 0x100 + 4 * n then s.cntCfgWord ((o - 0x100) / 4)
  else if 0x200 ≤ o ∧ o < 0x200 + 8 * n then wordOf (u.ctr ((o - 0x200) / 8)).val (o % 8 / 4)
  else 0

/-- SECURITY and RECOVERY (R410). The spec lays SEC_MEAS[4] over the SEC_UPD registers at 0x200 to 0x217: those offsets
are the SEC_UPD registers' (log entry 24). -/
def State.readSec (s : State) (o : Nat) : Nat :=
  let x := s.sec
  if o = 0x000 then x.fuses.revoked.toNat
  else if o = 0x004 then x.fuses.minSvn.toNat + 64 * b2n x.fuses.debugDisabled
  else if 0x010 ≤ o ∧ o < 0x050 then wordOf x.fuses.rootDigest.toNat ((o - 0x010) / 4)
  else if 0x300 ≤ o ∧ o < 0x320 then wordOf x.nonce.toNat ((o - 0x300) / 4)
  else if o = 0x32C then x.level.toNat + 4 * b2n x.refused
  else if o = 0x410 then x.rcv.word
  else if o = 0x500 then b2n x.mcRunning + 256 * x.mcRestarts
  else 0

/-- CRC, the hub check units (R259). -/
def State.readCrc (s : State) (o : Nat) : Nat :=
  let u := s.crcUnit (o / 32)
  if 0x100 ≤ o then 0
  else if o % 32 = 0x10 then wordOf u.value.toNat 0
  else if o % 32 = 0x14 then wordOf u.value.toNat 1
  else if o % 32 = 0x18 then b2n u.owner.isSome + 2 * b2n u.mismatch + 4 * b2n u.writeBusy
  else 0

/-! ## Reads (R411, R412) -/

/-- The word of a register that is not stored, at an absolute address (R413). -/
def State.readFormed (s : State) (a : Nat) : Nat :=
  if 0x1000000 ≤ a then (if a % 0x1000000 < 0x10000 then s.readWindow (a / 0x1000000) (a % 0x1000000) else 0)
  else
    let o := a % 0x10000
    match a / 0x10000 with
    | 0x00 => s.readIdent o
    | 0x01 => s.readCommit o
    | 0x02 => s.readTick o
    | 0x03 => s.readWindow 0 o
    | 0x04 => s.readPack o
    | 0x05 => s.readNum o
    | 0x06 => s.readRtv o
    | 0x08 => s.readHbm (a - 0x80000)
    | 0x09 => s.readHbm (a - 0x80000)
    | 0x0A => s.readHbm (a - 0x80000)
    | 0x0C => s.readLink (o / 0x1000) (o % 0x1000)
    | 0x0D => s.readLink (16 + o / 0x1000) (o % 0x1000)
    | 0x0E => s.readLink (32 + o / 0x1000) (o % 0x1000)
    | 0x0F => s.readLf o
    | 0x10 => if o < 0x8000 then s.readFab o else s.readCfg (o - 0x8000)
    | 0x11 => s.readLeash o
    | 0x12 => s.readTel o
    | 0x13 => s.readCnt o
    | 0x14 => s.readSec o
    | 0x15 => s.readCrc o
    | 0xF1 => if o < 0x100 then s.pendingBits 0 (o / 4) else 0
    | _ => 0

/-- A register as it reads now: an ST register its staged value, reserved bits zero (R411, R412). -/
def State.readNow (s : State) (a : Nat) : Nat :=
  match regInfo s.mod.grade a with
  | some i =>
    match i.group with
    | some _ => (s.staged a &&& i.mask).toNat
    | none => (s.reg a &&& i.mask).toNat
  | none => s.readFormed a

/-- The low words whose read latches the next (R59, R118, R297, R331, R382, R394, R419). -/
def latchesHigh (a : Nat) : Bool :=
  [0x10010, 0x20008, 0x20120, 0x20138, 0x20148, 0x50818, 0x110030, 0x110038, 0x110040].contains a ||
    (decide (0x80000 ≤ a) && decide (a < 0xB0000) && a % 0x4000 == 0x10) ||
    (decide (0xC0000 ≤ a) && decide (a < 0xF0000) && (a % 0x1000 == 0x108 || a % 0x1000 == 0x110)) ||
    (decide (0x130200 ≤ a) && decide (a < 0x130300) && a % 8 == 0)

/-- A 32-bit read: the value, and the latch of a high word. -/
def State.read32 (s : State) (a : Nat) : Nat × State :=
  if latchesHigh a then
    (s.readNow a, { s with regs := { s.regs with latch := Table.put s.regs.latch (a + 4) (BitVec.ofNat 32 (s.readNow (a + 4))) } })
  else if 4 ≤ a ∧ latchesHigh (a - 4) then ((Table.get 0 s.regs.latch a).toNat, s)
  else (s.readNow a, s)

/-- The absolute address of an offset of a function's window, if the offset lies in it (R412 to R414). -/
def barAddr (fn : Fn) (off : Nat) : Option Nat :=
  if fn.val = 0 then some off
  else if off < 0x10000 then some (0x1000000 * fn.val + off)
  else none

/-- Registers that answer: all while the module runs, three blocks in recovery, none before Dawn ends (R354, R405,
R412). -/
def State.answers (s : State) (a : Nat) : Bool :=
  match s.mod.power with
  | .running => true
  | .recovery => decide (a < 0x10000) || a / 0x10000 == 0x14 || a == 0x108000
  | _ => false

/-- The word that one read access returns. -/
def State.readAt (s : State) (fn : Fn) (off : Nat) : Nat × State :=
  match barAddr fn off with
  | some a => if s.answers a then s.read32 a else (0, s)
  | none => (0, s)

/-- A read of `width` bytes: 32-bit aligned accesses, an aligned 64-bit one as two of them, low address first; any other
returns zero (R412). -/
def State.readBar (s : State) (fn : Fn) (off width : Nat) : State :=
  let keep (d : Nat) (s : State) : State := { s with regs := { s.regs with data := BitVec.ofNat 64 d } }
  if width = 4 ∧ off % 4 = 0 then
    let (x, s) := s.readAt fn off
    keep x s
  else if width = 8 ∧ off % 8 = 0 then
    let (x, s) := s.readAt fn off
    let (y, s) := s.readAt fn (off + 4)
    keep (x + 2 ^ 32 * y) s
  else keep 0 s

/-- LOW_WORD_READ (R59, R411, R412): a register read. -/
def execLowWordRead (fn : Fn) (off : BitVec 24) (width : Nat) (s : State) : Result := .next (s.readBar fn off.toNat width)

/-! ## Writes, block by block -/

/-- A write access to one word: the old content, the byte enables, and the data. -/
structure Wr where
  old : Word
  en : BitVec 4
  data : Word
  deriving DecidableEq, Repr

/-- What an RW register holds afterwards: the enabled bytes are written (R412). -/
def Wr.merged (w : Wr) : Nat := (byteEnable w.old w.data w.en).toNat

/-- What an RW1C or WO register sees: disabled bytes are zero (R412). -/
def Wr.ones (w : Wr) : Nat := (byteEnable 0 w.data w.en).toNat

/-- A write clears a field of a counting register when it leaves the field zero; any other value changes nothing (log
entry 13). -/
def Wr.clears (w : Wr) (lo len : Nat) : Bool := bits w.merged lo len == 0

def Wr.zeroed (w : Wr) (lo len x : Nat) : Nat := if w.clears lo len then 0 else x

/-- Bit `i` written 1. -/
def Wr.hits (w : Wr) (i : Nat) : Bool := bit w.ones i

/-- SHP_MZ_CTRL (R30). -/
def State.writeMzCtrl (s : State) (fn : Fn) (x : Nat) : State :=
  let sc := BitVec.ofNat 2 (bits x 2 2)
  let ix := BitVec.ofNat 6 (bits x 4 6)
  match bits x 0 2 with
  | 0 => s
  | 1 => s.mzEnter fn.val sc ix
  | 2 => s.mzRelease fn sc ix
  | _ => s.mzResult fn.val 3

/-- COMMIT (R419). -/
def State.writeCommit (s : State) (o : Nat) (w : Wr) : State :=
  if o = 0 then s.commitAsk (BitVec.ofNat 32 w.ones)
  else if o = 4 then s.modCommits fun c => { c with pf := { c.pf with merged := c.pf.merged && !w.hits 7 } }
  else if o = 0xC then s.discardAsk (BitVec.ofNat 32 w.ones)
  else if o = 0x18 then s.modCommits fun c => { c with applied := w.zeroed 0 16 c.applied, refused := w.zeroed 16 16 c.refused }
  else s

/-- TICK and CADENCE (R47, R59). -/
def State.writeTick (s : State) (o : Nat) (w : Wr) : State :=
  if o = 0x130 then s.cadClear w.ones
  else if o = 0x140 then s.modCad fun c => { c with tcCrc := w.zeroed 0 16 c.tcCrc, glitch := w.zeroed 16 16 c.glitch }
  else s

/-- A ring window (R30, R93, R94, R414). A write of HIF_EARLY_SAMPLE carries its moment, and is the command of that
name. -/
def State.writeWindow (s : State) (fn : Fn) (o : Nat) (w : Wr) : State :=
  let f := fn.val
  if o < 0xE000 then
    if o % 64 = 0x1C then s.modRing f (o / 64) fun k => { k with
      overrun := k.overrun && !w.hits 1, fetchError := k.fetchError && !w.hits 2, headError := k.headError && !w.hits 3 }
    else s
  else if o = 0xE024 then s.modFn f fun k => { k with
    atomicFallback := k.atomicFallback && !w.hits 0, summaryError := k.summaryError && !w.hits 1
    genIgnored := if w.hits 16 then 0 else k.genIgnored }
  else if f = 0 then s
  else if o = 0xE010 then s.writeMzCtrl fn w.ones
  else if o = 0xE030 then
    let s := if w.hits 0 then s.vfCommitAsk f else s
    if w.hits 1 then s.vfDiscardAsk f else s
  else if o = 0xE034 then s.modCommits fun c => c.setVf f { c.vfSt f with merged := (c.vfSt f).merged && !w.hits 7 }
  else s

/-- KNL_CMD (R276). -/
def State.writeKnlCmd (s : State) (x : Nat) : State :=
  let row := bits x 2 6
  let site : SiteId := ⟨Fin.ofNat 36 row, Fin.ofNat 32 (bits x 8 5)⟩
  let refused (s : State) : State := s.modKennel fun k => { k with cmdStatus := 3 }
  match bits x 0 2 with
  | 0 => s
  | 1 => if 36 ≤ row then refused s else s.modKennel fun k => { k with cmds := k.cmds ++ [(site, false)] }
  | 2 => if 36 ≤ row then refused s else s.modKennel fun k => { k with cmds := k.cmds ++ [(site, true)] }
  | _ => refused s

/-- A word of a record whose VALID bit is RW1C, or of its count. -/
def clearWord (t : Table Word) (k : Nat) (w : Wr) (count : Bool) : Table Word :=
  let x := (Table.get 0 t k).toNat
  Table.put t k (BitVec.ofNat 32 (if count then w.zeroed 0 32 x else if w.hits 31 then x % 2 ^ 31 else x))

def State.modFaultRegs (s : State) (f : FaultRegs → FaultRegs) : State := { s with tiles := { s.tiles with regs := f s.tiles.regs } }

/-- PACK and SHEPHERD (R30, R173, R276). -/
def State.writePack (s : State) (o : Nat) (w : Wr) : State :=
  if 0x400 ≤ o ∧ o < 0x500 then s.modPack ((o - 0x400) / 4) fun k => { k with lostFlag := k.lostFlag && !w.hits 3 }
  else if o = 0x804 then s.writeKnlCmd w.ones
  else if o = 0x810 then s.modKennel fun k => { k with migrations := w.zeroed 0 16 k.migrations, bistFail := w.zeroed 16 16 k.bistFail }
  else if o = 0x814 then s.modKennel fun k => { k with deferred := w.zeroed 0 32 k.deferred }
  else if o = 0xC004 then
    { s with tiles := { s.tiles with deadlocks := w.zeroed 0 16 s.tiles.deadlocks, waitTimeouts := w.zeroed 16 16 s.tiles.waitTimeouts } }
  else if 0xD000 ≤ o ∧ o < 0xD800 ∧ (o % 32 = 0 ∨ o % 32 = 0x1C) then
    s.modFaultRegs fun r => { r with ill := clearWord r.ill ((o - 0xD000) / 4) w (o % 32 == 0x1C) }
  else if o = 0xE010 then s.writeMzCtrl 0 w.ones
  else s

/-- NUMERIC (R118, R146). -/
def State.writeNum (s : State) (o : Nat) (w : Wr) : State :=
  if o = 0x804 then s.modFaultRegs fun r =>
    let x := (Table.get 0 r.chk 1).toNat
    { r with chk := Table.put r.chk 1 (BitVec.ofNat 32 (w.zeroed 0 16 (bits x 0 16) + 65536 * w.zeroed 16 16 (bits x 16 16))) }
  else if o = 0x808 then s.modFaultRegs fun r => { r with chk := clearWord r.chk 2 w true }
  else if 0x1000 ≤ o ∧ o < 0x1800 ∧ (o % 32 = 0 ∨ o % 32 = 0x14) then
    s.modFaultRegs fun r => { r with nan := clearWord r.nan ((o - 0x1000) / 32 * 8 + o % 32 / 4) w (o % 32 == 0x14) }
  else s

/-- RETRIEVER and PAGING (R259). -/
def State.writeRtv (s : State) (o : Nat) (w : Wr) : State :=
  if o = 0x20 then s.modPaging fun p => { p with bar2Refused := w.zeroed 0 32 p.bar2Refused }
  else if o = 0x10C then s.pgBatchGo
  else if o = 0x110 then s.modPaging fun p => { p with busyWrite := p.busyWrite && !w.hits 2, readError := p.readError && !w.hits 3 }
  else if o = 0x20C then s.modPaging fun p => { p with fringHead := w.merged }
  else if o = 0x214 then s.modPaging fun p => { p with faults := w.zeroed 0 16 p.faults, dropped := w.zeroed 16 16 p.dropped }
  else if o = 0x400 then s.netStatSel (bits w.merged 0 11)
  else s

/-- HBM (R285 to R287, R297): a PERIOD or TIMEOUT of zero leaves the field as it is. -/
def State.writeHbm (s : State) (o : Nat) (w : Wr) : State :=
  let st := o / 0x4000
  let x := o % 0x4000
  if x = 4 then s.modStack st fun k => { k with ce := w.zeroed 0 32 k.ce }
  else if x = 8 then s.modStack st fun k => { k with repaired := w.zeroed 0 16 k.repaired, unrepaired := w.zeroed 16 16 k.unrepaired }
  else if x = 0xC then s.modStack st fun k => { k with passes := w.zeroed 0 16 k.passes, parityRepaired := w.zeroed 16 16 k.parityRepaired }
  else if o = 0x3064 then s.retireCmd (bits w.ones 0 23)
  else s

/-- A link's window (R309, R331). -/
def State.writeLink (s : State) (n : LinkIx) (o : Nat) (w : Wr) : State :=
  let i := n.val
  if s.fusedLink i then s
  else if o = 0x000 then (execLnkCfgWrite n (byteEnable (((s.link i).cfgDue).getD (s.link i).cfg) w.data w.en) s).after s
  else if o = 0x004 then s.modLink i fun l => { l with
    monitorBad := l.monitorBad && !w.hits 6, clockMismatch := l.clockMismatch && !w.hits 7 }
  else if o = 0x00C then
    if 5 ≤ bits w.ones 16 3 then s
    else
      let s := s.modLink i fun l => { l with thresh := BitVec.ofNat 16 w.merged }
      if w.hits 19 then (execForce n (BitVec.ofNat 3 (bits w.ones 16 3)) s).after s else s
  else if o = 0x010 then s.modLink i fun l => { l with idle := BitVec.ofNat 16 w.merged }
  else if o = 0x014 then s.modLink i fun l => { l with pattern := bit w.merged 0 }
  else if o = 0x018 then s.modLink i fun l => { l with prbsErr := w.zeroed 0 32 l.prbsErr }
  else if o = 0x01C then s.modLink i fun l => { l with uncorr := w.zeroed 0 32 l.uncorr }
  else if o = 0x020 then s.modLink i fun l => { l with swaps := w.zeroed 0 16 l.swaps, downs := w.zeroed 16 16 l.downs }
  else if o = 0x100 then s.modMeas i fun m => { m with resent := w.zeroed 0 16 m.resent, crcFails := w.zeroed 16 16 m.crcFails }
  else s

/-- The LINKS common window (R330). -/
def State.writeLf (s : State) (o : Nat) (w : Wr) : State :=
  if o = 0x1C then s.lfBatch
  else if o = 0x20 then s.modLf fun f => { f with busyWrite := f.busyWrite && !w.hits 2, readError := f.readError && !w.hits 3 }
  else if o = 0x30 then s.modLf fun f => { f with linkLost := w.zeroed 0 16 f.linkLost, prunes := w.zeroed 16 16 f.prunes }
  else if 0x100 ≤ o ∧ o < 0x300 ∧ o % 8 = 0 then s.modLf fun f => { f with pruneLo := clearWord f.pruneLo ((o - 0x100) / 8) w false }
  else s

/-- FABRIC (R343, R347). -/
def State.writeFab (s : State) (o : Nat) (w : Wr) : State :=
  if 0x300 ≤ o ∧ o < 0x400 then s.modPort ((o - 0x300) / 4) fun x => { x with overrun := x.overrun && !w.hits 0 }
  else if 0x410 ≤ o ∧ o < 0x420 then
    s.modFab fun f => { f with bankLost := if w.hits 2 then f.bankLost &&& ~~~(1#4 <<< ((o - 0x410) / 4)) else f.bankLost }
  else if o = 0x804 then s.modFab fun f => { f with pllLost := f.pllLost &&& ~~~(BitVec.ofNat 32 w.ones) }
  else if o = 0xA00 then s.modFab fun f => { f with irqPend := f.irqPend &&& ~~~(BitVec.ofNat 64 w.ones) }
  else if o = 0xA04 then s.modFab fun f => { f with irqPend := f.irqPend &&& ~~~(BitVec.ofNat 64 (w.ones * 2 ^ 32)) }
  else s

/-- CFG_DUSK_CTRL (R361, R363). -/
def State.writeDusk (s : State) (x : Nat) : State :=
  match bits x 0 2 with
  | 1 => s.dusk (bits x 2 16) false
  | 2 => s.dusk (bits x 2 16) true
  | _ => s

/-- NW_CTRL (R363): PASS_MS keeps its value for one out of range; RESTART begins a pass. -/
def State.writeNwCtrl (s : State) (w : Wr) : State :=
  let x := w.merged
  let ms := bits x 0 10
  let old := bits (s.regN 0x108100) 0 10
  let s := s.setReg 0x108100 (BitVec.ofNat 32 ((if 25 ≤ ms ∧ ms ≤ 1000 then ms else old) + 1024 * bits x 10 1))
  if w.hits 11 then s.nwPass else s

/-- CONFIG (R349, R359, R363). -/
def State.writeCfg (s : State) (o : Nat) (w : Wr) : State :=
  if o = 0x1C then
    if w.hits 6 then (execPartialLoadGo (Fin.ofNat 32 w.ones) (w.hits 5) s).after s else s
  else if o = 0x20 then s.modConfig fun c => { c with plBusyWrite := c.plBusyWrite && !w.hits 6 }
  else if o = 0x104 then s.modConfig fun c => { c with nwDigestFail := c.nwDigestFail && !w.hits 2 }
  else if o = 0x110 then s.modConfig fun c => { c with nwCorr := w.zeroed 0 32 c.nwCorr }
  else if o = 0x114 then s.modConfig fun c => { c with nwUncorr := w.zeroed 0 32 c.nwUncorr }
  else if o = 0x118 then s.modConfig fun c => { c with nwVote := w.zeroed 0 32 c.nwVote }
  else if o = 0x124 then { s with nv := { s.nv with replaced := w.zeroed 0 16 s.nv.replaced, refreshes := w.zeroed 16 16 s.nv.refreshes } }
  else if o = 0x200 then s.writeDusk w.ones
  else s

/-- LEASH (R382). -/
def State.writeLeash (s : State) (o : Nat) (w : Wr) : State :=
  if o = 0x20 then s.modLeash fun l => { l with
    capSeen := l.capSeen && !w.hits 13, mismatchSeen := l.mismatchSeen && !w.hits 14, suspectSeen := l.suspectSeen && !w.hits 15 }
  else if o = 0x2C then s.modLeash fun l => { l with stalls := w.zeroed 0 16 l.stalls, droops := w.zeroed 16 16 l.droops }
  else s

/-- TELEMETRY (R396). -/
def State.writeTelReg (s : State) (o : Nat) (w : Wr) : State :=
  if o = 0x18 then s.modTel fun t => { t with ringHead := w.merged }
  else if o = 0x2C then s.modTel fun t => { t with traceAck := w.merged }
  else if o = 0x40 then s.modTel fun t => { t with
    host := { t.host with dropped := w.zeroed 0 8 t.host.dropped }, mctp := { t.mctp with dropped := w.zeroed 8 8 t.mctp.dropped }
    traceDrop := w.zeroed 16 8 t.traceDrop, metricDrop := w.zeroed 24 8 t.metricDrop }
  else if o = 0x48 then s.modTel fun t => { t with nv := { t.nv with dropped := w.zeroed 0 32 t.nv.dropped } }
  else s

/-- A counter of the selected unit. -/
def State.modCounter (s : State) (i : Nat) (f : Counter → Counter) : State :=
  s.modCnt fun c => { c with units := Table.modify {} c.units c.unit fun u => { u with ctrs := Table.put u.ctrs i (f (u.ctr i)) } }

/-- COUNTERS (R391, R393, R394, R397): CHAIN is reserved in an even counter; a PERIOD_LOG2 other than 0 or 8 to 20 is
ignored. -/
def State.writeCnt (s : State) (o : Nat) (w : Wr) : State :=
  let n := if s.unitFused s.cnt.unit then 0 else unitCounters s.cnt.unit
  if o = 0x00 then s.modCnt fun c => { c with unit := bits w.merged 0 11 }
  else if o = 0x04 then s.cntFreeze (bits w.ones 0 2)
  else if o = 0x08 then
    if n = 0 then s
    else s.modCnt fun c => { c with units := Table.modify {} c.units c.unit fun u => { u with ovf := u.ovf &&& ~~~(BitVec.ofNat 32 w.ones) } }
  else if o = 0x0C then s.modCnt fun c => { c with irqVector := bits w.merged 0 11 }
  else if o = 0x10 then
    let p := bits w.merged 0 5
    let p := if p = 0 ∨ (8 ≤ p ∧ p ≤ 20) then p else bits s.cnt.tagCtrl.toNat 0 5
    s.modCnt fun c => { c with tagCtrl := BitVec.ofNat 32 (p + 32 * bits w.merged 5 5) }
  else if o = 0x14 then s.reseed (BitVec.ofNat 24 w.merged)
  else if o = 0x18 then s.modCnt fun c => { c with tagMissed := w.zeroed 0 32 c.tagMissed }
  else if 0x100 ≤ o ∧ o < 0x100 + 4 * n then
    let i := (o - 0x100) / 4
    s.modCounter i fun c => { c with cfg := BitVec.ofNat 32 (w.merged % 2 ^ 29) &&& ~~~(if i % 2 = 0 then 1#32 <<< 27 else 0) }
  else if 0x200 ≤ o ∧ o < 0x200 + 8 * n then
    s.modCounter ((o - 0x200) / 8) fun c =>
      if o % 8 = 0 then { c with val := setBits c.val 0 32 w.merged } else { c with val := setBits c.val 32 16 w.merged }
  else s

/-- SECURITY and RECOVERY (R402, R404 to R406, R410): SEC_DBG_CTRL with both bits makes a new nonce, and its SUBMIT is
refused for it. -/
def State.writeSec (s : State) (o : Nat) (w : Wr) : State :=
  let kind := BitVec.ofNat 2 w.ones
  if o = 0x20C then (if w.hits 2 then (execSecUpdGo kind s).after s else s)
  else if o = 0x210 then s.modUpd fun u => { u with busyWrite := u.busyWrite && !w.hits 2 }
  else if o = 0x214 then (execSecSvnCommit s).after s
  else if o = 0x328 then
    if w.hits 0 && w.hits 1 then s.debugNew.modSec fun x => { x with refused := true }
    else if w.hits 0 then s.debugNew
    else if w.hits 1 then s.debugSubmit
    else s
  else if o = 0x32C then s.modSec fun x => { x with refused := x.refused && !w.hits 2 }
  else if o = 0x40C then (if w.hits 2 then (execRecoveryGo kind false s).after s else s)
  else if o = 0x410 then s.modRcv fun u => { u with busyWrite := u.busyWrite && !w.hits 2 }
  else s

/-- CRC, the hub check units (R242, R259). -/
def State.writeCrc (s : State) (o : Nat) (w : Wr) : State :=
  let u := o / 32
  let v := BitVec.ofNat 32 w.merged
  if 0x100 ≤ o then s
  else if o % 32 = 0 then s.crcWrite u .ctrl v
  else if o % 32 = 8 then s.crcWrite u .expectLo v
  else if o % 32 = 0xC then s.crcWrite u .expectHi v
  else if o % 32 = 0x10 then s.crcWrite u .valueLo v
  else if o % 32 = 0x14 then s.crcWrite u .valueHi v
  else if o % 32 = 0x18 then s.modCrcUnit u fun c => { c with mismatch := c.mismatch && !w.hits 1, writeBusy := c.writeBusy && !w.hits 2 }
  else s

/-! ## Writes (R411, R412) -/

/-- A write to a register that is not stored. -/
def State.writeFormed (s : State) (a : Nat) (w : Wr) : State :=
  if 0x1000000 ≤ a then
    (if a % 0x1000000 < 0x10000 then s.writeWindow (Fin.ofNat 64 (a / 0x1000000)) (a % 0x1000000) w else s)
  else
    let o := a % 0x10000
    match a / 0x10000 with
    | 0x01 => s.writeCommit o w
    | 0x02 => s.writeTick o w
    | 0x03 => s.writeWindow 0 o w
    | 0x04 => s.writePack o w
    | 0x05 => s.writeNum o w
    | 0x06 => s.writeRtv o w
    | 0x08 => s.writeHbm (a - 0x80000) w
    | 0x09 => s.writeHbm (a - 0x80000) w
    | 0x0A => s.writeHbm (a - 0x80000) w
    | 0x0C => s.writeLink (Fin.ofNat 48 (o / 0x1000)) (o % 0x1000) w
    | 0x0D => s.writeLink (Fin.ofNat 48 (16 + o / 0x1000)) (o % 0x1000) w
    | 0x0E => s.writeLink (Fin.ofNat 48 (32 + o / 0x1000)) (o % 0x1000) w
    | 0x0F => s.writeLf o w
    | 0x10 => if o < 0x8000 then s.writeFab o w else s.writeCfg (o - 0x8000) w
    | 0x11 => s.writeLeash o w
    | 0x12 => s.writeTelReg o w
    | 0x13 => s.writeCnt o w
    | 0x14 => s.writeSec o w
    | 0x15 => s.writeCrc o w
    | _ => s

/-- An ST register takes the enabled bytes into its staging copy, reserved bits too (R411, R412, R419). -/
def State.writeStaged (s : State) (g a : Nat) (w : Wr) : State :=
  let s := s.setStaged a (byteEnable (s.staged a) w.data w.en)
  if a < 0x1000000 then s.modCommits fun c => { c with staged := c.staged ||| (1#32 <<< g) } else s

/-- Vector and function of an MSI-X table entry's control word (R87). -/
def msixControl (a : Nat) : Option (Nat × Nat) :=
  if 0xF00000 ≤ a ∧ a < 0xF08000 ∧ a % 16 = 12 then some (0, (a - 0xF00000) / 16)
  else if 0x1000000 ≤ a ∧ 0xF000 ≤ a % 0x1000000 ∧ a % 16 = 12 then some (a / 0x1000000, (a % 0x1000000 - 0xF000) / 16)
  else none

/-- A register that is plain storage. Those with a rule of their own: PERIOD of HBM_PATROL_CTRL and TIMEOUT of HBM_WC_CTRL
ignore zero (R297); RWL registers ignore writes (R411); NW_CTRL, ISOLATE, CRC_HUB and the MSI-X masks act. -/
def State.writePlain (s : State) (i : RegInfo) (a : Nat) (w : Wr) : State :=
  let v := byteEnable (s.reg a) w.data w.en &&& i.mask
  let x := v.toNat
  if (0x83040 ≤ a ∧ a < 0x83050) ∨ (0x100400 ≤ a ∧ a < 0x100410) then s
  else if a = 0x83054 ∧ bits x 1 8 = 0 then s.setReg a (BitVec.ofNat 32 (bits x 0 1 + 2 * bits (s.regN a) 1 8))
  else if a = 0x83058 ∧ bits x 0 10 = 0 then s
  else if a = 0x108100 then s.writeNwCtrl w
  else if a / 0x10000 = 0x15 then s.writeCrc (a % 0x10000) w
  else if 0x100100 ≤ a ∧ a < 0x100180 then
    let r : RegionIx := Fin.ofNat 32 ((a - 0x100100) / 4)
    if !w.en.getLsbD 0 then s else if bit x 0 then (execIsolate r s).after s else (execIsolateRelease r s).after s
  else match msixControl a with
    | some (f, n) => if x % 2 = 0 then s.unmask f n else s.setReg a v
    | none => s.setReg a v

/-- A write of one aligned word with byte enables. -/
def State.write32 (s : State) (a : Nat) (en : BitVec 4) (data : Word) : State :=
  if en = 0 then s
  else match regInfo s.mod.grade a with
    | some i =>
      let w : Wr := ⟨s.reg a, en, data⟩
      match i.group with
      | some g => s.writeStaged g a w
      | none => s.writePlain i a w
    | none => s.writeFormed a ⟨BitVec.ofNat 32 (s.readFormed a), en, data⟩

/-- A write access of one word through a function's window. -/
def State.writeAt (s : State) (fn : Fn) (off : Nat) (en : BitVec 4) (data : Word) : State :=
  match barAddr fn off with
  | some a => if s.answers a then s.write32 a en data else s
  | none => s

/-- A write of `width` bytes; one that is neither an aligned 32-bit nor an aligned 64-bit access is dropped (R412). -/
def State.writeBar (s : State) (fn : Fn) (off width : Nat) (en : BitVec 8) (data : DWord) : State :=
  if width = 4 ∧ off % 4 = 0 then s.writeAt fn off (en.extractLsb' 0 4) (data.extractLsb' 0 32)
  else if width = 8 ∧ off % 8 = 0 then
    (s.writeAt fn off (en.extractLsb' 0 4) (data.extractLsb' 0 32)).writeAt fn (off + 4) (en.extractLsb' 4 4) (data.extractLsb' 32 32)
  else s

/-- REGISTER_WRITE (R411, R412). -/
def execRegisterWrite (fn : Fn) (off : BitVec 24) (width : Nat) (en : BitVec 8) (data : DWord) (s : State) : Result :=
  .next (s.writeBar fn off.toNat width en data)

/-- HIF_EARLY_SAMPLE (R31, R72): the next tick comes at the moment of the write, but no less than 250 ns after the last
edge; the first write decides. -/
def execHifEarlySample (fn : Fn) (t : Nat) (s : State) : Result :=
  .next <|
    let n := max t (s.tick.now + 250)
    if bit (s.allocLo fn.val) 22 && s.mod.power == .running && decide (n < s.tick.next) then
      { s with tick := { s.tick with next := n } }
    else s

end Sys2Proof.Machine
end

