-- ==== Sys2Proof/Machine/Tick.lean ====
section
/-! DEFINITION. The tick (R31 to R33): inputs are latched, due table swaps apply, the seven classes are handled in order,
cue actions are evaluated and descriptors dispatched. -/
namespace Sys2Proof.Machine
open Sys2Proof

/-! ## The edge -/

/-- What the host and the world have brought since the last edge (R31, R349). -/
def State.latchInputs (s : State) (i : TickIn) : State :=
  let mem := i.stores.foldl (fun m e => m.writeByte e.1 e.2) s.host.mem
  let nv : NvSt := i.nvFails.foldl (fun n b => n.blockFails b.val) { s.nv with refreshes := sat 16 (s.nv.refreshes + i.nvRefreshed) }
  let low := decide (16 ≤ s.nv.spares) && decide (nv.spares < 16)
  let s := { s with config := { s.config with nwVote := sat 32 (s.config.nwVote + i.nwVotes) } }
  let s := { s with host := { s.host with mem := mem, fails := i.fails, swapFails := i.swapFails, msix := [], writes := [] }, nv := nv }
  let s := i.user.foldl State.userEvent (i.cfg.foldl State.cfgWrite ((s.latchGpio i.gpio).latchLref i.lref))
  if low then s.raise .alarm 0x0010 noInst (leBytes 4 s.nv.word) else s

/-- A new edge: the count, the time, and when the next is due (R31). What has left the module since the last edge is
gone. -/
def State.newEdge (s : State) : State :=
  let t := s.tick
  let s := { s with tick := { count := (t.count + 1) % 2 ^ 64, now := t.next, next := t.next + s.regN 0x20000 * 10 } }
  let s := s.modLf fun l => { l with out := [], answers := [], flits := [], lanesOut := [] }
  let still (e : Nat × PortSt) : Nat × PortSt := (e.1, { e.2 with flush := false })
  let s := { s with fabric := { s.fabric with ports := s.fabric.ports.map still } }
  { s with tel := { s.tel with mctpOut := [] } }

/-- Writes that take effect at the next tick (R305, R309, R343, R359, R404). -/
def State.applyWrites (s : State) : State :=
  let s := (List.range 48).foldl (fun s n => (s.applyLnkCfg n).applyForce n) s
  let s := (List.range 32).foldl State.applyIsolate s
  s.plTick.updTick

/-- Table swaps due at the tick, before any class (R33, R57). -/
def State.swapsDue (s : State) : State :=
  let s := s.swapPages.swapRetirements.applyFails.swapRouting.knlTick.releaseInbound
  (List.range 64).foldl State.swapTables s

/-! ## The classes (R32) -/

/-- A CADENCE_SET takes effect (R42). -/
def State.cadenceSet (s : State) (d : Desc) : State :=
  let (ok, s) := s.cadSet d.f.start (bits d.classWord.toNat 0 32)
  s.modDesc d.id fun x => { x with phase := .ended, status := if ok then stOk else stInvalid, undispatched := !ok }

/-- Class 3: CADENCE_SETs in ring order, cadence faults, hard deadlines in the order of R32. -/
def State.class3 (s : State) : State :=
  let s := (sortBy Desc.otherKey (s.shep.descs.filter fun d => d.f.cls == 5 && d.phase == .arrived)).foldl State.cadenceSet s
  let s := s.cadFault s.cadFaultsNow
  ((sortBy Desc.packKey s.shep.descs).map Desc.id).foldl State.hardDeadline s

/-- The stream faults of a Pack (R247, R250). -/
def State.packFaults (s : State) (p : Nat) : State :=
  match s.running p with
  | none => s
  | some d =>
    if d.phase != .running then s
    else if d.f.cls == 2 then s.sampleCopy p d
    else (s.shape p).tiles.foldl (fun s i =>
      ((s.tile i).ctxs.map Prod.fst).foldl (fun s c => s.sampleFault (tileOfIx i) d c) s) s

/-- Sample a completion; a whole replay that completes OK or LATE is counted (R118). -/
def State.complete (s : State) (id : Nat) : State :=
  match s.desc? id with
  | none => s
  | some d =>
    let s := s.sampleCompletion d
    match s.desc? id with
    | some x => if d.phase == .finished && x.phase == .ended && okStatus x.status && x.run.whole then s.countReplay 0 else s
    | none => s

/-- The last transaction of a descriptor may have retired (R90). -/
def State.retire1 (s : State) (id : Nat) : State :=
  match s.desc? id with
  | some d => s.endIfRetired d
  | none => s

/-- An event latched since the last edge (R32). A NaN trap and a second mismatch stand among the faults where they
occurred, so that the earliest event ends the descriptor (R221). -/
def State.sampleEnd (p : Nat) (s : State) (f : FaultEv) : State :=
  if f.status = stNan then s.sampleNans p else if f.status = stCheck then s.sampleMisses p else s.endDesc f.desc f.status

/-- The Pack of a descriptor. -/
def State.packOfDesc (s : State) (id : Nat) : Option Nat := (s.desc? id).map Desc.pack

/-- Class 5 of one Pack: the faults latched since the last edge in the order in which they occurred, then NaN traps,
check mismatches, page faults, WAIT timeouts and deadlock, requests that have waited too long, completions and
retirements (R32, R145, R168, R221, R250). -/
def State.class5Pack (l : List FaultEv) (s : State) (p : Nat) : State :=
  let s := (l.filter fun f => s.packOfDesc f.desc == some p).foldl (State.sampleEnd p) s
  let s := ((((s.sampleNans p).sampleMisses p).packFaults p).waitTimeouts p).deadTick p
  let s := s.flowTimeouts fun q => (q.desc.bind s.packOfDesc) == some p
  let ids := (sortBy Desc.packKey (s.shep.descs.filter fun d => d.pack == p)).map Desc.id
  ids.foldl State.retire1 (ids.foldl State.complete s)

/-- Class 5: Pack by Pack (R32), then the requests and branches of no Pack that have waited too long. -/
def State.class5 (s : State) : State :=
  let l := s.tiles.faults
  let s := { s with tiles := { s.tiles with faults := [] } }
  let s := (List.range 64).foldl (State.class5Pack l) s
  let s := s.flowTimeouts fun _ => true
  (s.links.fabric.groups.map Prod.fst).foldl State.groupTick s

/-- A descriptor as a new submission: PAGE_READY and TABLE_LOAD act, a LOOP of no iterations completes, the others wait
(R5, R9, R13, R249, R435). -/
def State.submit (s : State) (d : Desc) : State :=
  if d.f.cls == 7 then
    let (hit, s) := s.pageReady d.pack d.fn.val d.f.program.toNat
    s.modDesc d.id fun x => { x with phase := .ended, undispatched := false, noTarget := !hit }
  else if d.f.cls == 6 then (if s.fenced d then s else s.tableLoad d)
  else if d.f.cls == 4 && bits d.classWord.toNat 0 32 == 0 then s.modDesc d.id fun x => { x with phase := .ended }
  else s.modDesc d.id fun x => { x with phase := .waiting }

/-- Class 6: descriptors fetched since the previous tick. -/
def State.class6 (s : State) : State :=
  (sortBy Desc.packKey (s.shep.descs.filter fun d => d.phase == .arrived)).foldl State.submit s

/-- Class 7: fabric interrupts, telemetry and counters. -/
def State.class7 (s : State) (irq : BitVec 64) : State := ((s.irqTick irq).telTick).counterTick

/-! ## Quiescent points and dispatch -/

/-- At a Pack's quiescent point: its tiles that a local replay has found suspect go to quarantine (R116), rows that are
due are replaced (R96), and PACK_STATUS shows the point. -/
def State.atQuiescent (s : State) (p : Nat) : State :=
  let q := s.quiescent p
  let s : State :=
    if q then
      let l := (s.pack p).suspects
      let s := (l.foldl (fun s t => s.quarantineTile t.1 0 t.2) s).replaceRows p
      if l.isEmpty then s else s.modPack p fun k => { k with suspects := [] }
    else s
  let seen := q || s.replayQuiet p
  if (s.pack p).quiescent == seen then s else s.modPack p fun k => { k with quiescent := seen }

/-- Quiescent points, then migrations and dispatches. Cue actions are taken once, when the dispatches have scheduled
theirs, so that those of every Pack take part in the order of R56 (R33, R56, R269). -/
def State.dispatches (s : State) : State :=
  let s := ((List.range 64).foldl State.atQuiescent s).retryTick
  let s := (List.range 64).foldl State.replayStep s
  let s := if s.mod.dusk.step = 0 then s.rotTick.startMoves else s
  ((List.range 64).foldl (fun s p => (s.nextIteration p).dispatchPack p) s).evalCues

/-- A master sends its position (R41, R324). -/
def State.sendPosition (s : State) : State :=
  let w := s.regN 0xF000C
  let g := bits w 1 8
  if !bit w 0 then s
  else (s.group g).links.foldl (fun s n =>
    s.sendMsg ⟨.position, n, 65536 + g, s.cad.pos + 2 ^ 64 * s.cad.rateWord, b2n (s.cad.state == .coasting)⟩) s

/-! ## TICK -/

/-- From the completions to the end of the tick. -/
def State.tickRest (s : State) (i : TickIn) : State :=
  let s := s.class5.class6.writeRecords
  let s := (s.class7 i.irq).evalCauseClear.newCueTick.dispatches
  ((s.sampleDoorbells.moderateAll).flushExpired.srTick).holdTick.pump

/-- From the inputs to class 4. -/
def State.tickHead (s : State) (i : TickIn) (len : Nat) : State :=
  let s := s.applyWrites.swapsDue
  let s := (List.range 64).foldl State.finish s
  let s := (s.leashLatch i.estimate len).cadLatch
  let s := s.class1.commits1.class2.domainTick.commits2.class3
  (s.sendPosition.class4).duskStop.duskDrain

/-- One tick. A supply that has fallen, and the end of Dusk, end it. -/
def State.oneTick (s : State) (i : TickIn) : State :=
  let len := s.tick.next - s.tick.now
  let s := ((s.latchInputs i).newEdge.occupy len).cntTick.supplyFalls.lanesTick len
  let n := s.tick.count
  if s.mod.power != .running then s
  else
    let s := s.tickHead i len
    if s.mod.power != .running || s.tick.count != n then s else s.tickRest i

/-- TICK (R31). Only a module that runs has ticks. -/
def execTick (inp : TickIn) (s : State) : Result :=
  .next (if s.mod.power == .running then s.oneTick inp else s)

end Sys2Proof.Machine
end

