-- ==== Sys2Proof/Machine/Dispatch.lean ====
section
/-! DEFINITION. One arm per command: a direct call of its meaning, or its rejection by name. -/
namespace Sys2Proof.Machine
open Sys2Proof

/-- What a command does to everything but the queue. -/
def exec (i : Instr) (s : State) : Host.Outcome State Fault Refusal :=
  match i with
  | .tick inp => Sys2Proof.Machine.execTick inp s
  | .hifEarlySample fn t => Sys2Proof.Machine.execHifEarlySample fn t s
  | .registerWrite fn off width enables data => Sys2Proof.Machine.execRegisterWrite fn off width enables data s
  | .lowWordRead fn off width => Sys2Proof.Machine.execLowWordRead fn off width s
  | .commitGroups mask => Sys2Proof.Machine.execCommitGroups mask s
  | .commitDiscard mask => Sys2Proof.Machine.execCommitDiscard mask s
  | .vfCommit fn => Sys2Proof.Machine.execVfCommit fn s
  | .vfDiscard fn => Sys2Proof.Machine.execVfDiscard fn s
  | .commit => Sys2Proof.Machine.execCommit s
  | .timecodeFrame t bits preambleOk => Sys2Proof.Machine.execTimecodeFrame t bits preambleOk s
  | .encoderTransition t aLeads => Sys2Proof.Machine.execEncoderTransition t aLeads s
  | .encoderIndex t => Sys2Proof.Machine.execEncoderIndex t s
  | .cycInEdge t rising width => Sys2Proof.Machine.execCycInEdge t rising width s
  | .coasting => Sys2Proof.Machine.execCoasting s
  | .loss => Sys2Proof.Machine.execLoss s
  | .jumpBack => Sys2Proof.Machine.execJumpBack s
  | .jumpFwd => Sys2Proof.Machine.execJumpFwd s
  | .cadStatusClear bits => Sys2Proof.Machine.execCadStatusClear bits s
  | .latencyProbe t => Sys2Proof.Machine.execLatencyProbe t s
  | .hardDeadline d => Sys2Proof.Machine.execHardDeadline d s
  | .cueAction c => Sys2Proof.Machine.execCueAction c s
  | .cuePulseEnd c => Sys2Proof.Machine.execCuePulseEnd c s
  | .tableSwap w => Sys2Proof.Machine.execTableSwap w s
  | .ringReadError fn ring kind => Sys2Proof.Machine.execRingReadError fn ring kind s
  | .run fn ring => Sys2Proof.Machine.execRun fn ring s
  | .copy fn ring => Sys2Proof.Machine.execCopy fn ring s
  | .fence fn ring => Sys2Proof.Machine.execFence fn ring s
  | .loopDescriptor fn ring => Sys2Proof.Machine.execLoopDescriptor fn ring s
  | .cadenceSet fn ring => Sys2Proof.Machine.execCadenceSet fn ring s
  | .tableLoad fn ring => Sys2Proof.Machine.execTableLoad fn ring s
  | .pageReady fn ring => Sys2Proof.Machine.execPageReady fn ring s
  | .cancel fn ring => Sys2Proof.Machine.execCancel fn ring s
  | .reservedClass fn ring => Sys2Proof.Machine.execReservedClass fn ring s
  | .paramBlockRead d ok => Sys2Proof.Machine.execParamBlockRead d ok s
  | .dispatch p => Sys2Proof.Machine.execDispatch p s
  | .fenceComplete fn ring => Sys2Proof.Machine.execFenceComplete fn ring s
  | .programComplete p => Sys2Proof.Machine.execProgramComplete p s
  | .descriptorRetired d => Sys2Proof.Machine.execDescriptorRetired d s
  | .completionRecord d => Sys2Proof.Machine.execCompletionRecord d s
  | .loopResume p => Sys2Proof.Machine.execLoopResume p s
  | .modTimeExpiry fn ring => Sys2Proof.Machine.execModTimeExpiry fn ring s
  | .msixUnmask fn vec => Sys2Proof.Machine.execMsixUnmask fn vec s
  | .functionLevelReset fn => Sys2Proof.Machine.execFunctionLevelReset fn s
  | .muzzleEnter fn scope index => Sys2Proof.Machine.execMuzzleEnter fn scope index s
  | .muzzleRelease fn scope index => Sys2Proof.Machine.execMuzzleRelease fn scope index s
  | .muzzleReleaseApply scope index => Sys2Proof.Machine.execMuzzleReleaseApply scope index s
  | .rowSpareReplace tile mem row => Sys2Proof.Machine.execRowSpareReplace tile mem row s
  | .nop tile e u => Sys2Proof.Machine.execNop tile e u s
  | .halt tile e u => Sys2Proof.Machine.execHalt tile e u s
  | .streamEnd tile e => Sys2Proof.Machine.execStreamEnd tile e s
  | .jmp tile e u => Sys2Proof.Machine.execJmp tile e u s
  | .brc tile e u => Sys2Proof.Machine.execBrc tile e u s
  | .loopInstruction tile e u => Sys2Proof.Machine.execLoopInstruction tile e u s
  | .sig tile e u => Sys2Proof.Machine.execSig tile e u s
  | .sigx tile e u => Sys2Proof.Machine.execSigx tile e u s
  | .signalArrival tile u => Sys2Proof.Machine.execSignalArrival tile u s
  | .wait tile e u => Sys2Proof.Machine.execWait tile e u s
  | .waitTimeout tile e => Sys2Proof.Machine.execWaitTimeout tile e s
  | .barrier tile e u => Sys2Proof.Machine.execBarrier tile e u s
  | .syncDeadlock p => Sys2Proof.Machine.execSyncDeadlock p s
  | .undefinedOpcode tile e => Sys2Proof.Machine.execUndefinedOpcode tile e s
  | .instructionRetire tile e => Sys2Proof.Machine.execInstructionRetire tile e s
  | .mxload tile e u => Sys2Proof.Machine.execMxload tile e u s
  | .mxswap tile e u => Sys2Proof.Machine.execMxswap tile e u s
  | .mxrun tile e u => Sys2Proof.Machine.execMxrun tile e u s
  | .wholeReplay p => Sys2Proof.Machine.execWholeReplay p s
  | .mxdrain tile e u => Sys2Proof.Machine.execMxdrain tile e u s
  | .vadd tile e u => Sys2Proof.Machine.execVadd tile e u s
  | .vmul tile e u => Sys2Proof.Machine.execVmul tile e u s
  | .vfma tile e u => Sys2Proof.Machine.execVfma tile e u s
  | .vmax tile e u => Sys2Proof.Machine.execVmax tile e u s
  | .vmin tile e u => Sys2Proof.Machine.execVmin tile e u s
  | .vred tile e u => Sys2Proof.Machine.execVred tile e u s
  | .vtab tile e u => Sys2Proof.Machine.execVtab tile e u s
  | .vcvt tile e u => Sys2Proof.Machine.execVcvt tile e u s
  | .vtopk tile e u => Sys2Proof.Machine.execVtopk tile e u s
  | .vsample tile e u => Sys2Proof.Machine.execVsample tile e u s
  | .spfft4 tile e u => Sys2Proof.Machine.execSpfft4 tile e u s
  | .spmac tile e u => Sys2Proof.Machine.execSpmac tile e u s
  | .spbexp tile e u => Sys2Proof.Machine.execSpbexp tile e u s
  | .spnorm tile e u => Sys2Proof.Machine.execSpnorm tile e u s
  | .spexp tile e u => Sys2Proof.Machine.execSpexp tile e u s
  | .rget tile e u => Sys2Proof.Machine.execRget tile e u s
  | .rput tile e u => Sys2Proof.Machine.execRput tile e u s
  | .rgather tile e u => Sys2Proof.Machine.execRgather tile e u s
  | .rsend tile e u => Sys2Proof.Machine.execRsend tile e u s
  | .rmcast tile e u => Sys2Proof.Machine.execRmcast tile e u s
  | .chunkResident tile ctx u => Sys2Proof.Machine.execChunkResident tile ctx u s
  | .writeAcknowledged tile ctx u => Sys2Proof.Machine.execWriteAcknowledged tile ctx u s
  | .crcHubValueWrite u reg v => Sys2Proof.Machine.execCrcHubValueWrite u reg v s
  | .pageFault tile ctx => Sys2Proof.Machine.execPageFault tile ctx s
  | .pageFaultTimeout tile ctx => Sys2Proof.Machine.execPageFaultTimeout tile ctx s
  | .pgBatchGo => Sys2Proof.Machine.execPgBatchGo s
  | .bar2Access off write data len => Sys2Proof.Machine.execBar2Access off write data len s
  | .networkPacket src dest stop fails load => Sys2Proof.Machine.execNetworkPacket src dest stop fails load s
  | .domainWakeComplete row right => Sys2Proof.Machine.execDomainWakeComplete row right s
  | .domainGate row right => Sys2Proof.Machine.execDomainGate row right s
  | .netStatSel sel => Sys2Proof.Machine.execNetStatSel sel s
  | .migrationStart tile => Sys2Proof.Machine.execMigrationStart tile s
  | .migrationComplete tile lost => Sys2Proof.Machine.execMigrationComplete tile lost s
  | .knlQuarantine site => Sys2Proof.Machine.execKnlQuarantine site s
  | .knlRetest site => Sys2Proof.Machine.execKnlRetest site s
  | .selfTestDone site pass => Sys2Proof.Machine.execSelfTestDone site pass s
  | .rotationStep => Sys2Proof.Machine.execRotationStep s
  | .hbmRead a reader errs => Sys2Proof.Machine.execHbmRead a reader errs s
  | .hbmWrite a data writer errs => Sys2Proof.Machine.execHbmWrite a data writer errs s
  | .wcBufferFlush grp errs => Sys2Proof.Machine.execWcBufferFlush grp errs s
  | .patrolRead grp stripe errs => Sys2Proof.Machine.execPatrolRead grp stripe errs s
  | .hbmRetireCmd frame => Sys2Proof.Machine.execHbmRetireCmd frame s
  | .retirementCopyDone => Sys2Proof.Machine.execRetirementCopyDone s
  | .pseudoChannelFailed stack pc => Sys2Proof.Machine.execPseudoChannelFailed stack pc s
  | .stackFailed stack => Sys2Proof.Machine.execStackFailed stack s
  | .selfRefreshEntry stack => Sys2Proof.Machine.execSelfRefreshEntry stack s
  | .freqChangeDrained => Sys2Proof.Machine.execFreqChangeDrained s
  | .freqChangeLocked => Sys2Proof.Machine.execFreqChangeLocked s
  | .freqChangeRetrained failed => Sys2Proof.Machine.execFreqChangeRetrained failed s
  | .hbmTransactionTimeout a owner => Sys2Proof.Machine.execHbmTransactionTimeout a owner s
  | .lnkCfgWrite n v => Sys2Proof.Machine.execLnkCfgWrite n v s
  | .linkTraining n badRx badTx farMode t => Sys2Proof.Machine.execLinkTraining n badRx badTx farMode t s
  | .trainingStepTimeout n => Sys2Proof.Machine.execTrainingStepTimeout n s
  | .retrainTimer n => Sys2Proof.Machine.execRetrainTimer n s
  | .codewordReceive n c => Sys2Proof.Machine.execCodewordReceive n c s
  | .laneWindowClose n monitorErrs => Sys2Proof.Machine.execLaneWindowClose n monitorErrs s
  | .swapRequest n lane => Sys2Proof.Machine.execSwapRequest n lane s
  | .swapMarker n => Sys2Proof.Machine.execSwapMarker n s
  | .swapDone n => Sys2Proof.Machine.execSwapDone n s
  | .swapTimeout n t => Sys2Proof.Machine.execSwapTimeout n t s
  | .force n lane => Sys2Proof.Machine.execForce n lane s
  | .symbolLockLoss n lane => Sys2Proof.Machine.execSymbolLockLoss n lane s
  | .linkSleep n dir => Sys2Proof.Machine.execLinkSleep n dir s
  | .linkWake n dir => Sys2Proof.Machine.execLinkWake n dir s
  | .flitReceive n vc bytes => Sys2Proof.Machine.execFlitReceive n vc bytes s
  | .linkAckTimeout n => Sys2Proof.Machine.execLinkAckTimeout n s
  | .rread h len => Sys2Proof.Machine.execRread h len s
  | .rwrite h data => Sys2Proof.Machine.execRwrite h data s
  | .rsignal h => Sys2Proof.Machine.execRsignal h s
  | .tsend h data => Sys2Proof.Machine.execTsend h data s
  | .mcast h data => Sys2Proof.Machine.execMcast h data s
  | .readData h data => Sys2Proof.Machine.execReadData h data s
  | .ack h => Sys2Proof.Machine.execAck h s
  | .clear h => Sys2Proof.Machine.execClear h s
  | .withdraw h => Sys2Proof.Machine.execWithdraw h s
  | .prune h => Sys2Proof.Machine.execPrune h s
  | .position h t rate hold => Sys2Proof.Machine.execPosition h t rate hold s
  | .flowTimeout flow => Sys2Proof.Machine.execFlowTimeout flow s
  | .exposureTimeout p => Sys2Proof.Machine.execExposureTimeout p s
  | .pruneTimeout group branch => Sys2Proof.Machine.execPruneTimeout group branch s
  | .lfBatchGo => Sys2Proof.Machine.execLfBatchGo s
  | .hookReturnBeat port b => Sys2Proof.Machine.execHookReturnBeat port b s
  | .hookError port why => Sys2Proof.Machine.execHookError port why s
  | .portInitiatorRequest port r => Sys2Proof.Machine.execPortInitiatorRequest port r s
  | .pllLockLoss pll => Sys2Proof.Machine.execPllLockLoss pll s
  | .pllRelock pll => Sys2Proof.Machine.execPllRelock pll s
  | .bankSupplyLost bank => Sys2Proof.Machine.execBankSupplyLost bank s
  | .bankSupplyReturn bank level => Sys2Proof.Machine.execBankSupplyReturn bank level s
  | .isolate region => Sys2Proof.Machine.execIsolate region s
  | .isolateRelease region => Sys2Proof.Machine.execIsolateRelease region s
  | .vauxInRange => Sys2Proof.Machine.execVauxInRange s
  | .vin48InRange => Sys2Proof.Machine.execVin48InRange s
  | .nightwatchFrame e => Sys2Proof.Machine.execNightwatchFrame e s
  | .nightwatchPassEnd => Sys2Proof.Machine.execNightwatchPassEnd s
  | .nightwatchStall => Sys2Proof.Machine.execNightwatchStall s
  | .partialLoadGo region source => Sys2Proof.Machine.execPartialLoadGo region source s
  | .partialLoadStaged readOk => Sys2Proof.Machine.execPartialLoadStaged readOk s
  | .partialLoadWritten readOk => Sys2Proof.Machine.execPartialLoadWritten readOk s
  | .duskStandby grace => Sys2Proof.Machine.execDuskStandby grace s
  | .duskReset grace => Sys2Proof.Machine.execDuskReset grace s
  | .duskGraceExpiry => Sys2Proof.Machine.execDuskGraceExpiry s
  | .fundamentalReset => Sys2Proof.Machine.execFundamentalReset s
  | .moduleReset => Sys2Proof.Machine.execModuleReset s
  | .supplyTrip w => Sys2Proof.Machine.execSupplyTrip w s
  | .opChangeDone => Sys2Proof.Machine.execOpChangeDone s
  | .capUnmet => Sys2Proof.Machine.execCapUnmet s
  | .powerHoldAbort => Sys2Proof.Machine.execPowerHoldAbort s
  | .droop die => Sys2Proof.Machine.execDroop die s
  | .powerSensorSample sample input t => Sys2Proof.Machine.execPowerSensorSample sample input t s
  | .modelMismatch => Sys2Proof.Machine.execModelMismatch s
  | .sensorDisagreement => Sys2Proof.Machine.execSensorDisagreement s
  | .thermalSample r => Sys2Proof.Machine.execThermalSample r s
  | .hbmThrottle => Sys2Proof.Machine.execHbmThrottle s
  | .energyIntervalClose r => Sys2Proof.Machine.execEnergyIntervalClose r s
  | .metricPeriod => Sys2Proof.Machine.execMetricPeriod s
  | .cntFreeze mode => Sys2Proof.Machine.execCntFreeze mode s
  | .cntTagSeed seed => Sys2Proof.Machine.execCntTagSeed seed s
  | .secUpdGo kind => Sys2Proof.Machine.execSecUpdGo kind s
  | .secSvnCommit => Sys2Proof.Machine.execSecSvnCommit s
  | .debugNew => Sys2Proof.Machine.execDebugNew s
  | .debugSubmit => Sys2Proof.Machine.execDebugSubmit s
  | .recoveryGo kind changed => Sys2Proof.Machine.execRecoveryGo kind changed s
  | .getVersion => Sys2Proof.Machine.execGetVersion s
  | .getCapabilities v => Sys2Proof.Machine.execGetCapabilities v s
  | .negotiateAlgorithms v => Sys2Proof.Machine.execNegotiateAlgorithms v s
  | .getDigests => Sys2Proof.Machine.execGetDigests s
  | .getCertificate slot off len => Sys2Proof.Machine.execGetCertificate slot off len s
  | .challenge v nonce => Sys2Proof.Machine.execChallenge v nonce s
  | .getMeasurements v index signed nonce => Sys2Proof.Machine.execGetMeasurements v index signed nonce s
  | .mctpWake => Sys2Proof.Machine.execMctpWake s
  | .mctpStandby => Sys2Proof.Machine.execMctpStandby s
  | .mcWatchdogExpiry => Sys2Proof.Machine.execMcWatchdogExpiry s
  | .mcRestart => Sys2Proof.Machine.execMcRestart s
  | .bypass => Sys2Proof.Machine.execBypass s
  | .idcode => Sys2Proof.Machine.execIdcode s
  | .samplePreload preload => Sys2Proof.Machine.execSamplePreload preload s
  | .extest => Sys2Proof.Machine.execExtest s
  | .extestPulse => Sys2Proof.Machine.execExtestPulse s
  | .extestTrain => Sys2Proof.Machine.execExtestTrain s
  | .perstNRelease => Sys2Proof.Machine.execPerstNRelease s
  | .hubParityError => Sys2Proof.Machine.execHubParityError s
  | .hookRowAccepted port => Sys2Proof.Machine.execHookRowAccepted port s
  | .probeEcho t sent src => Sys2Proof.Machine.execProbeEcho t sent src s
  | .droopRecovered die => Sys2Proof.Machine.execDroopRecovered die s
  | .sensorSelfCheck ok => Sys2Proof.Machine.execSensorSelfCheck ok s
  | .reservedStructureReinit => Sys2Proof.Machine.execReservedStructureReinit s

end Sys2Proof.Machine
end

