-- ==== Sys2Proof/Safety.lean ====
section
/-! DEFINITION. What claims say of a run: the memories keep their canonical form. -/
namespace Sys2Proof.Machine

/-- Host memory and HBM are in the canonical form of `Memory.wf`. -/
def State.memWf (s : State) : Prop := s.host.mem.wf = true ∧ s.hbm.data.wf = true

end Sys2Proof.Machine
end

