-- ==== Sys2Proof/Certificates/Slice0/Obligations.lean ====
section
/-! DEFINITION. The statements for the provers: what the numbered rules say a command or the module does. A statement
that some command answers a next state names the state that the rules give. -/
open Sys2Proof Sys2Proof.Machine

/-! ## The queue and the state after reset -/

/-- In place of fetch and decode: a step runs the command at the front of the queue on the machine with the queue's
rest, and an empty queue idles (the model's own queue, log entry 5). -/
def Obligations.StepRunsTheFrontCommand : Prop :=
  (∀ (s : State) (c : Instr) (cs : List Instr), s.pending = c :: cs → step s = exec c { s with pending := cs }) ∧
  ∀ s : State, s.pending = [] → step s = .next s

/-- R35, R59, R415 and R419: the values the spec gives for the end of Dawn. The grade is the model's choice (log entry 1).
The memories of the module after reset are in canonical form. -/
def Obligations.ResetHoldsTheStatedValues : Prop :=
  (State.reset.cad.state = .locked ∧ State.reset.cad.pos = 0 ∧ State.reset.cad.rateWord = 0 ∧ State.reset.cadSource = 4 ∧
  State.reset.tick.count = 0 ∧ State.reset.tick.next = State.reset.tick.now + 10 * State.reset.regN 0x20000 ∧
  State.reset.readNow 0x20000 = 0x64 ∧ State.reset.readNow 0x20130 = 1 ∧ State.reset.readNow 0x10004 = 0 ∧
  State.reset.readNow 0 = 0x10096 ∧ State.reset.readNow 0xC = 0x7F8400 ∧
  State.reset.readNow 0x10 = 0xFFFFFFFF ∧ State.reset.readNow 0x14 = 0xFFFF ∧ State.reset.pending = []) ∧
  (State.reset.memWf)

/-- The headline invariant: whatever command waits, a step keeps host memory and HBM in canonical form. -/
def Obligations.EveryStepKeepsTheMemoriesCanonical : Prop :=
  ∀ s t : State, s.memWf → step s = .next t → t.memWf

/-- A command acts on everything but the queue, and every command answers a next state but those that name an HBM
address the module lacks (R278). -/
def Obligations.CommandsRunAndLeaveTheQueue : Prop :=
  ∀ (c : Instr) (s : State),
    (∀ a r e, c = .hbmRead a r e → a.toNat < 360 * 2 ^ 30) → (∀ a d w e, c = .hbmWrite a d w e → a.toNat < 360 * 2 ^ 30 ∧ a.toNat + d.length ≤ 360 * 2 ^ 30) →
    (∀ a o, c = .hbmTransactionTimeout a o → a.toNat < 360 * 2 ^ 30) →
    ∃ t, exec c s = .next t ∧ t.pending = s.pending

/-! ## Tick, registers, staged commit (R31 to R34, R59, R72, R411 to R421) -/

/-- R31, R33: a tick moves the count by one and the time to the edge that was due, and the next edge is one period later.
While the module runs, the inputs are latched first, what the edge itself brings follows, then swaps, then the classes in
order, then dispatches. A module that does not run has no ticks.
R31, R72: an early sample brings the next tick forward to the write, or to 250 ns after the last edge; a write without
EARLY_EN is dropped, and one that brings no edge forward changes nothing.
A command that comes while its condition does not hold changes nothing: the model's choice, log entry 6. -/
def Obligations.TickAdvancesTheCountAndTakesTheClassesInOrder : Prop :=
  (∀ (s : State) (i : TickIn),
    (s.mod.power ≠ .running → exec (.tick i) s = .next s) ∧
    (let len := s.tick.next - s.tick.now
     let edge := s.newEdge
     let e := (((s.latchInputs i).newEdge.occupy len).cntTick.supplyFalls).lanesTick len
     let x := (List.range 64).foldl State.finish e.applyWrites.swapsDue
     let c2 := (x.leashLatch i.estimate len).cadLatch.class1.commits1.class2.domainTick.commits2
     let c4 := (c2.class3.sendPosition.class4).duskStop.duskDrain
     let c7 := c4.class5.class6.writeRecords.class7 i.irq
     edge.tick.count = (s.tick.count + 1) % 2 ^ 64 ∧ edge.tick.now = s.tick.next ∧
       edge.tick.next = edge.tick.now + 10 * s.regN 0x20000 ∧ (s.latchInputs i).tick = s.tick ∧
     (s.mod.power = .running → e.mod.power = .running → c4.mod.power = .running → c4.tick.count = e.tick.count →
       exec (.tick i) s = .next
         (c7.evalCauseClear.newCueTick.dispatches.sampleDoorbells.moderateAll.flushExpired.srTick.holdTick.pump)))) ∧
  (∀ (s : State) (f : Fn) (t : Nat),
    (bit (s.allocLo f.val) 22 = false → exec (.hifEarlySample f t) s = .next s) ∧
    (bit (s.allocLo f.val) 22 = true → s.mod.power = .running → s.tick.now + 250 ≤ t → t < s.tick.next →
      exec (.hifEarlySample f t) s = .next { s with tick := { s.tick with next := t } }) ∧
    (bit (s.allocLo f.val) 22 = true → s.mod.power = .running → t < s.tick.now + 250 → s.tick.now + 250 < s.tick.next →
      exec (.hifEarlySample f t) s = .next { s with tick := { s.tick with next := s.tick.now + 250 } }) ∧
    (s.tick.next ≤ max t (s.tick.now + 250) → exec (.hifEarlySample f t) s = .next s))

/-- R411: a write of an ST register by the PF lands in the staging copy, reserved bits too; nothing in force changes.
R59, R411, R412: what a read returns, the latch of a high word, and the accesses that return zero.
A command that comes while its condition does not hold changes nothing: the model's choice, log entry 6. -/
def Obligations.RegistersStageAndRead : Prop :=
  (∀ (s : State) (off : BitVec 24) (v : Word) (m : RegInfo) (g : Nat),
    s.mod.power = .running → off.toNat % 4 = 0 → regInfo s.mod.grade off.toNat = some m → m.group = some g →
    ∃ t, exec (.registerWrite 0 off 4 0xFF (v.zeroExtend 64)) s = .next t ∧ t.staged off.toNat = v ∧
      (∀ a, t.reg a = s.reg a) ∧ (∀ a, a ≠ off.toNat → t.staged a = s.staged a) ∧
      t.host.mem = s.host.mem ∧ t.hbm = s.hbm ∧ t.cad = s.cad ∧ t.shep = s.shep ∧ t.tiles = s.tiles ∧ t.muzzle = s.muzzle) ∧
  ((∀ (s : State) (off : BitVec 24), s.mod.power = .running → off.toNat % 4 = 0 → latchesHigh off.toNat = false →
    latchesHigh (off.toNat - 4) = false →
    exec (.lowWordRead 0 off 4) s = .next { s with regs := { s.regs with data := BitVec.ofNat 64 (s.readNow off.toNat) } }) ∧
  (∀ (s : State), s.mod.power = .running →
    ∃ t, exec (.lowWordRead 0 0x20008 4) s = .next t ∧ t.regs.data.toNat = s.tick.count % 2 ^ 32 ∧
      (Table.get 0 t.regs.latch 0x2000C).toNat = s.tick.count / 2 ^ 32 % 2 ^ 32 ∧ t.tick = s.tick ∧ t.regs.active = s.regs.active) ∧
  ∀ (s : State) (f : Fn) (off : BitVec 24) (w : Nat), ¬(w = 4 ∧ off.toNat % 4 = 0) → ¬(w = 8 ∧ off.toNat % 8 = 0) →
    exec (.lowWordRead f off w) s = .next { s with regs := { s.regs with data := 0 } } ∧
    ∀ en d, exec (.registerWrite f off w en d) s = .next s)

/-- R414, R417, R418: requests and discards wait for the tick; a second request merges; a write of zero names nothing, and
the PF's window has no VF_COMMIT.
R418, R419: a request without G5, with no VF request and no discard, when a check fails: nothing in force or staged
changes and COMMIT_STATUS names the first failing check.
R418, R419: a request of groups other than G5 and G6, with no VF request and no discard, whose checks pass: every
register of a named group has its staged value in force, every other register keeps its own, and COMMIT_STATUS says
applied. The tables that hold registers are in rising order, as every write leaves them.
R414, R418: a VF's request, with none of the PF and no discard, does the same for the registers of its own window.
A command that comes while its condition does not hold changes nothing: the model's choice, log entry 6. -/
def Obligations.CommitsWaitForTheTickAndApplyWhole : Prop :=
  (∀ (s : State) (m : Word) (f : Fn),
    exec (.commitGroups 0) s = .next s ∧
    (m ≠ 0 → exec (.commitGroups m) s = .next { s with commits := { s.commits with
      pf := { s.commits.pf with state := 1, merged := s.commits.pf.merged || s.commits.pf.request != 0
                                request := s.commits.pf.request ||| m } } }) ∧
    exec (.commitDiscard m) s = .next { s with commits := { s.commits with
      pf := { s.commits.pf with discard := s.commits.pf.discard ||| m } } } ∧
    (f.val ≠ 0 → exec (.vfCommit f) s = .next { s with commits := s.commits.setVf f.val ((s.commits.vfSt f.val).ask 2) }) ∧
    (f.val ≠ 0 → exec (.vfDiscard f) s = .next { s with commits := s.commits.setVf f.val { s.commits.vfSt f.val with discard := 2 } }) ∧
    (f.val = 0 → exec (.vfCommit f) s = .next s ∧ exec (.vfDiscard f) s = .next s)) ∧
  (∀ (s : State) (g k : Nat), s.commits.pf.request ≠ 0 → s.commits.pf.request.getLsbD 5 = false → s.commits.pf.discard = 0 →
    (∀ f, (s.commits.vfSt f).request = 0 ∧ (s.commits.vfSt f).discard = 0) →
    s.requestCheck (maskGroups s.commits.pf.request) 0 = some (g, k) →
    ∃ t, exec .commit s = .next t ∧ t.regs = s.regs ∧ t.commits.pf.state = 3 ∧ t.commits.pf.group = BitVec.ofNat 5 g ∧
      t.commits.pf.check = BitVec.ofNat 8 k ∧ t.commits.pf.request = 0 ∧ t.commits.applied = s.commits.applied ∧ t.tick = s.tick) ∧
  (∀ s : State, s.commits.pf.request ≠ 0 → (∀ g, s.commits.pf.request.getLsbD g = true → g < 10 ∧ g ≠ 5 ∧ g ≠ 6) →
    s.commits.pf.discard = 0 → (∀ f, (s.commits.vfSt f).request = 0 ∧ (s.commits.vfSt f).discard = 0) →
    Table.rising none s.regs.active = true → Table.rising none s.regs.staged = true →
    s.requestCheck (maskGroups s.commits.pf.request) 0 = none →
    ∃ t, exec .commit s = .next t ∧ t.commits.pf.state = 2 ∧ t.commits.pf.request = 0 ∧ t.commits.tick = s.tick.count ∧
      t.commits.applied = sat 16 (s.commits.applied + 1) ∧ t.regs.staged = s.regs.staged ∧
      ∀ a, t.reg a = (if (maskGroups s.commits.pf.request).any fun g => inGroup s.mod.grade g 0 a then s.staged a else s.reg a)) ∧
  (∀ (s : State) (f : Nat), 0 < f → f < 64 → s.commits.pf.request = 0 → s.commits.pf.discard = 0 →
    (∀ k, (s.commits.vfSt k).discard = 0 ∧ (k ≠ f → (s.commits.vfSt k).request = 0)) → (s.commits.vfSt f).request ≠ 0 →
    Table.rising none s.regs.active = true → Table.rising none s.regs.staged = true → s.requestCheck [1] f = none →
    ∃ t, exec .commit s = .next t ∧ (t.commits.vfSt f).state = 2 ∧ (t.commits.vfSt f).request = 0 ∧
      t.commits.tick = s.tick.count ∧ t.regs.staged = s.regs.staged ∧
      ∀ a, t.reg a = (if inGroup s.mod.grade 1 f a then s.staged a else s.reg a))

/-! ## Cadence and cues (R35 to R56) -/

/-- R36, R39, R45, R47: a transition counts up or down and a downward one is a decrease; the index zeroes the count and
advances the cycle; in ACQUIRE the second index within an eighth of a revolution locks at the first whole cycle above the
held position (outside the lock that follows a RANGE fault).
R36, R40: short pulses are ignored and counted once; a counted edge moves the count, and every (CYC_DIV + 1)th ends a
cycle; in ACQUIRE the first counted edge starts the first cycle.
A command that comes while its condition does not hold changes nothing: the model's choice, log entry 6. -/
def Obligations.EncoderAndCycleInputsCount : Prop :=
  (∀ (s : State) (t : Nat) (a : Bool), s.cadSource = 1 →
    (∃ c, exec (.encoderTransition t a) s = .next { s with cad := c } ∧ c.pos = s.cad.pos ∧
      c.track.encCount = s.cad.track.encCount + (if a != s.encDir then 1 else -1) ∧
      (s.cad.runs = true → (a != s.encDir) = false → c.backSeen = true)) ∧
    (∃ c, exec (.encoderIndex t) s = .next { s with cad := c } ∧ c.pos = s.cad.pos ∧ c.track.encCount = 0 ∧
      (s.cad.runs = true → c.track.cycles = s.cad.track.cycles + 1) ∧
      (s.cad.state = .acquire → s.cad.zeroSeed = false → s.cad.track.lockCount ≠ 0 →
        (s.cad.track.encCount - s.encCpr).natAbs * 8 ≤ s.encCpr →
        c.state = .locked ∧ c.track.lastPos = (s.cad.pos / oneCycle + 1) * oneCycle ∧ c.track.lastAt = t))) ∧
  (∀ (s : State) (t w : Nat) (r : Bool), s.cadSource = 2 →
    (w < 20 → exec (.cycInEdge t r w) s = .next (if r then { s with cad := { s.cad with glitch := sat 16 (s.cad.glitch + 1) } } else s)) ∧
    (20 ≤ w → r = false → s.cycEdge = false → exec (.cycInEdge t r w) s = .next s) ∧
    (20 ≤ w → r = true ∨ s.cycEdge = true → s.cad.runs = true → s.cad.track.edges ≠ s.cycDiv →
      exec (.cycInEdge t r w) s = .next { s with cad := { s.cad with track := { s.cad.track with edges := s.cad.track.edges + 1 } } }) ∧
    (20 ≤ w → r = true ∨ s.cycEdge = true → s.cad.runs = true → s.cad.track.edges = s.cycDiv →
      ∃ c, exec (.cycInEdge t r w) s = .next { s with cad := c } ∧ c.pos = s.cad.pos ∧ c.track.edges = 0 ∧
        c.track.runAt = t ∧ c.track.cycles = s.cad.track.cycles + 1) ∧
    (20 ≤ w → r = true ∨ s.cycEdge = true → s.cad.state = .acquire → s.cad.track.lockCount = 0 →
      exec (.cycInEdge t r w) s = .next { s with cad := { s.cad with
        track := { s.cad.track with lockCount := 1, edges := 0, runAt := t } } }))

/-- What R46 says of every cadence fault. -/
def frozenBy (s t : State) : Prop :=
  t.cad.state = .fault ∧ t.cad.pos = s.cad.pos ∧ t.cad.faultPos = s.cad.pos ∧ t.cue.actions = [] ∧
  (∃ l e, t.tel.pend = l ++ [e] ∧ e.cls = .alarm ∧ e.code = 2) ∧
  (∀ id d, s.desc? id = some d → d.cadenceHits = true →
    ∃ e, t.desc? id = some e ∧ e.status = stCadence ∧ (e.phase = .ending ∨ e.phase = .ended)) ∧
  t.host.mem = s.host.mem ∧ t.hbm = s.hbm ∧ t.regs = s.regs ∧ t.muzzle = s.muzzle

/-- R44: COASTING begins at or past 1.125 expected periods after the last accepted event, and not before.
R44 to R46: LOSS, JUMP_BACK and JUMP_FWD freeze the position, end the timed descriptors, cancel the cue actions and
raise an ALARM; memory and registers stay.
R47: the unit leaves FAULT, for ACQUIRE, only when every set fault bit has been written 1.
A command that comes while its condition does not hold changes nothing: the model's choice, log entry 6. -/
def Obligations.CadenceCoastsAndFaults : Prop :=
  (∀ s : State, s.cad.state = .locked → s.cadSource ≠ 4 → s.expectedPeriod ≠ 0 →
    (9 * s.expectedPeriod ≤ 8 * (s.tick.now - s.cad.track.lastAt) →
      exec .coasting s = .next { s with cad := { s.cad with
        state := .coasting, shown := .coasting, track := { s.cad.track with coastAt := s.tick.now } } }) ∧
    (8 * (s.tick.now - s.cad.track.lastAt) < 9 * s.expectedPeriod → exec .coasting s = .next s)) ∧
  (∀ s : State,
    (s.cad.state = .coasting → s.coastLimit * s.expectedPeriod ≤ s.tick.now - s.cad.track.coastAt →
      ∃ t, exec .loss s = .next t ∧ frozenBy s t ∧ t.cad.loss = true) ∧
    (s.cad.runs = true → s.cad.backSeen = true → ∃ t, exec .jumpBack s = .next t ∧ frozenBy s t ∧ t.cad.jumpBack = true) ∧
    (s.cad.runs = true → s.cad.fwdSeen = true → ∃ t, exec .jumpFwd s = .next t ∧ frozenBy s t ∧ t.cad.jumpFwd = true)) ∧
  (∀ (s : State) (w : Word), s.cad.state = .fault →
    ∃ c, exec (.cadStatusClear w) s = .next { s with cad := c } ∧ c.pos = s.cad.pos ∧ c.faultPos = s.cad.faultPos ∧
      c.loss = (s.cad.loss && !bit w.toNat 4) ∧ c.jumpBack = (s.cad.jumpBack && !bit w.toNat 5) ∧
      c.jumpFwd = (s.cad.jumpFwd && !bit w.toNat 6) ∧ c.range = (s.cad.range && !bit w.toNat 8) ∧
      c.state = (if c.loss || c.jumpBack || c.jumpFwd || c.range then .fault else .acquire))

/-- R37, R38: a frame with a CRC mismatch or a preamble violation is counted and discarded, and so, once the unit runs, is a
position frame out of turn; a frame of a reserved type moves only SEQ; a valid position frame in turn, neither behind its
predecessor nor beyond the jump limit, is the source position from its reference instant plus DELAY.
R41, R324: a module with the LINK source sends a probe to its master, and the echo of it gives the one-way latency; a
master echoes a probe of another module.
A command that comes while its condition does not hold changes nothing: the model's choice, log entry 6. -/
def Obligations.TimecodeAndProbesSetThePosition : Prop :=
  (∀ (s : State) (t : Nat) (b : BitVec 96) (ok : Bool),
    (s.cadSource ≠ 0 → exec (.timecodeFrame t b ok) s = .next s) ∧
    (s.cadSource = 0 → (ok = false ∨ timecodeCrc (b.extractLsb' 0 80) ≠ b.extractLsb' 80 16) →
      exec (.timecodeFrame t b ok) s = .next { s with cad := { s.cad with tcCrc := sat 16 (s.cad.tcCrc + 1) } }) ∧
    (s.cadSource = 0 → timecodeCrc (b.extractLsb' 0 80) = b.extractLsb' 80 16 → b.extractLsb' 0 4 ≠ 1 →
      exec (.timecodeFrame t b true) s = .next { s with cad := { s.cad with
        track := { s.cad.track with seq := some (b.extractLsb' 72 8) } } }) ∧
    (∀ q : Byte, s.cadSource = 0 → timecodeCrc (b.extractLsb' 0 80) = b.extractLsb' 80 16 → b.extractLsb' 0 4 = 1 →
      s.cad.track.seq = some q → b.extractLsb' 72 8 ≠ q + 1 → s.cad.runs = true →
      exec (.timecodeFrame t b true) s = .next { s with cad := { s.cad with
        tcCrc := sat 16 (s.cad.tcCrc + 1), track := { s.cad.track with seq := some (b.extractLsb' 72 8) } } }) ∧
    (∀ q : Byte, s.cadSource = 0 → timecodeCrc (b.extractLsb' 0 80) = b.extractLsb' 80 16 → b.extractLsb' 0 4 = 1 →
      s.cad.track.seq = some q → b.extractLsb' 72 8 = q + 1 → s.cad.state = .locked ∨ s.cad.state = .coasting →
      s.cad.reseeded = false → s.cad.backSeen = false → s.cad.fwdSeen = false →
      s.cad.track.lastPos ≤ framePos b - s.cad.base → framePos b - s.cad.base ≤ s.cad.pos + s.jumpLimit →
      ∃ c, exec (.timecodeFrame t b true) s = .next { s with cad := c } ∧ c.state = .locked ∧
        c.track.lastPos = framePos b - s.cad.base ∧ c.track.lastAt = t + s.tcDelay ∧ c.track.seq = some (q + 1) ∧
        c.upstreamHold = b.getLsbD 4 ∧ c.pos = s.cad.pos ∧ c.tcCrc = s.cad.tcCrc)) ∧
  (∀ (s : State) (t sent : Nat) (src : BitVec 14),
    (s.cadSource = 3 → s.devid.isSome = true → s.devid ≠ some (s.regN 0x20114) → s.muzzle.module.active = false →
      ∃ u, exec (.latencyProbe t) s = .next u ∧ u.cad.track.probeAt = some t ∧
        u.links.fabric.out = s.links.fabric.out ++ [⟨.probe, s.regN 0x20114, 0, t, 0⟩] ∧ u.cad.pos = s.cad.pos) ∧
    (s.cad.track.probeAt = some sent →
      exec (.probeEcho t sent src) s = .next { s with cad := { s.cad with
        track := { s.cad.track with probeAt := none, latency := (t - sent) / 2 } } }) ∧
    (s.cad.track.probeAt ≠ some sent → bit (s.regN 0xF000C) 0 = true → s.devid.isSome = true → s.muzzle.module.active = false →
      ∃ u, exec (.probeEcho t sent src) s = .next u ∧ u.cad = s.cad ∧
        u.links.fabric.out = s.links.fabric.out ++ [⟨.probe, src.toNat, 0, sent, 0⟩]))

/-- R15, R52: a descriptor with a hard deadline that is not complete at a position at or past it is ended with
DEADLINE_WITHHELD; below the deadline, or with a soft one, or in ACQUIRE, nothing happens.
R55, R56: the first action due on an enabled cue is performed, and the others due on it at the tick are discarded and
counted; no other cue changes. The return of a pulse restores the prior level. Cues of a Muzzled Pack are the model's
choice (log entry 15).
A command that comes while its condition does not hold changes nothing: the model's choice, log entry 6. -/
def Obligations.DeadlinesWithholdAndCuesAct : Prop :=
  (∀ (s : State) (id : Nat) (d : Desc), s.desc? id = some d →
    (s.cad.runs = true → d.timed = true → d.hard = true → d.f.deadline ≤ s.cad.pos →
      d.phase ∈ [DPhase.running, .finished, .arrived, .waiting, .parked] →
      ∃ t e, exec (.hardDeadline id) s = .next t ∧ t.desc? id = some e ∧ e.status = stDeadline ∧
        e.phase = (if d.phase = .running ∨ d.phase = .finished then .ending else .ended) ∧
        t.host.mem = s.host.mem ∧ t.hbm = s.hbm ∧ t.regs = s.regs ∧ t.cad = s.cad ∧ t.cue = s.cue) ∧
    (s.cad.runs = false ∨ d.hard = false ∨ s.cad.pos < d.f.deadline → exec (.hardDeadline id) s = .next s)) ∧
  (∀ (s : State) (c : CueIx) (a : CueAction), firstCue (s.cuesDue c) = some a → s.cueEnabled c.val = true →
    s.packMuzzled a.pack = false →
    (a.ret = none → ∃ t, exec (.cueAction c) s = .next t ∧ t.cue.level.getLsbD c.val = a.act.level ∧
      (∀ k, k ≠ c.val → t.cue.level.getLsbD k = s.cue.level.getLsbD k) ∧
      t.cue.conflicts = sat 8 (s.cue.conflicts + ((s.cuesDue c).length - 1)) ∧ t.host = s.host ∧ t.hbm = s.hbm ∧
      t.tiles = s.tiles ∧ t.regs = s.regs ∧ t.cad = s.cad) ∧
    (∀ due prior, a.ret = some (due, prior) → ∃ t, exec (.cuePulseEnd c) s = .next t ∧ t.cue.level.getLsbD c.val = prior ∧
      (∀ k, k ≠ c.val → t.cue.level.getLsbD k = s.cue.level.getLsbD k) ∧
      t.cue.conflicts = sat 8 (s.cue.conflicts + ((s.cuesDue c).length - 1)) ∧ t.host = s.host ∧ t.hbm = s.hbm ∧
      t.tiles = s.tiles ∧ t.regs = s.regs ∧ t.cad = s.cad ∧ t.shep = s.shep))

/-! ## Rings, descriptors, records (R61 to R92) -/

/-- A LOG of a ring error is the last event that waits. -/
def ringLogged (t : State) : Prop := ∃ l e, t.tel.pend = l ++ [e] ∧ e.cls = .log ∧ e.code = 0x103

/-- The descriptor that a read brings. -/
def broughtBy (fn : Fn) (ring : RingIx) (r : FetchRead) (b : List Byte) : Desc :=
  { id := r.id, fn := fn, ring := ring, slot := r.slot, cq := r.cq, tick := r.tick, f := fieldsOf b }

/-- The commands of R75's classes. -/
def classCommands (fn : Fn) (ring : RingIx) : List (Instr × Byte) :=
  [(.run fn ring, 1), (.copy fn ring, 2), (.fence fn ring, 3), (.loopDescriptor fn ring, 4), (.cadenceSet fn ring, 5),
   (.tableLoad fn ring, 6), (.pageReady fn ring, 7), (.cancel fn ring, 8)]

/-- R9, R75, R77: each class. A descriptor that passes every check, with no parameter block or with one in HBM, is a new
submission for the next tick; `u` is the machine once the block is read. One whose block lies in a HOST or PEER page, or
is held by a frequency change, waits for the block's read.
R9, R77: the first failing check of the head decides the status, and the record is due one tick after the doorbell's;
so with a reserved class or another version. Nothing of the descriptor executes.
R77: a parameter block in a HOST or PEER page: its failed read rejects the descriptor, counted from the tick that
samples the failure; read, it goes through the remaining checks; while a peer has not answered, the descriptor waits. -/
def Obligations.DescriptorsAreCheckedBeforeTheyWait : Prop :=
  (∀ (s u : State) (fn : Fn) (ring : RingIx) (r : FetchRead) (rest : List FetchRead) (b blk : List Byte),
    ∀ p ∈ classCommands fn ring,
      (s.ring fn.val ring.val).reads = r :: rest → s.hostRead r.addr 64 = some b →
      (fieldsOf b).version = 2 → (fieldsOf b).cls = p.2 →
      let s1 := s.modRing fn.val ring.val fun k => { k with reads := rest }
      let d := broughtBy fn ring r b
      let d' := { d with classWord := BitVec.ofNat 64 (leNat ((blk.drop 8).take 8))
                         cues := (cueEntries (min (blk.headD 0).toNat 16) (blk.drop 16)).map Prod.fst }
      s1.checkHead d = none →
      (d.f.paramSize ≠ 0 → s1.spanRemote fn.val d.f.param.toNat (16 * d.f.paramSize) = true →
        exec p.1 s = .next ((s1.addDesc { d with phase := .reading }).wantSpan d d.f.param.toNat (16 * d.f.paramSize))) ∧
      (((d.f.paramSize = 0 ∧ blk = [] ∧ u = s1) ∨
        (d.f.paramSize ≠ 0 ∧ s1.spanRemote fn.val d.f.param.toNat (16 * d.f.paramSize) = false ∧
          s1.readVa d d.f.param.toNat (16 * d.f.paramSize) = (.bytes blk, u))) →
      u.checkBlock d' blk = none → u.admitStatus d' = none →
      exec p.1 s = .next (u.addDesc { d' with phase := .arrived }))) ∧
  (∀ (s : State) (fn : Fn) (ring : RingIx) (r : FetchRead) (rest : List FetchRead) (b : List Byte) (st : Nat),
    (s.ring fn.val ring.val).reads = r :: rest → s.hostRead r.addr 64 = some b →
    let s1 := s.modRing fn.val ring.val fun k => { k with reads := rest }
    let d := broughtBy fn ring r b
    (∀ p ∈ classCommands fn ring, (fieldsOf b).version = 2 → (fieldsOf b).cls = p.2 → s1.checkHead d = some st →
      exec p.1 s = .next (s1.addDesc { d with phase := .rejected, status := st, due := r.tick + 1 })) ∧
    ((fieldsOf b).version ≠ 2 ∨ (fieldsOf b).cls = 0 ∨ 8 < (fieldsOf b).cls.toNat →
      exec (.reservedClass fn ring) s = .next (s1.addDesc { d with phase := .rejected, status := 0x50, due := r.tick + 1 }))) ∧
  (∀ (s u : State) (id : Nat) (x : Desc) (blk : List Byte), s.desc? id = some x → x.phase = .reading →
    exec (.paramBlockRead id false) s = .next (s.addDesc { x with phase := .rejected, status := 0x50, due := s.tick.count + 2 }) ∧
    (s.readVa x x.f.param.toNat (16 * x.f.paramSize) = (.waits, u) → exec (.paramBlockRead id true) s = .next u) ∧
    (s.readVa x x.f.param.toNat (16 * x.f.paramSize) = (.bytes blk, u) →
      let x' := { x with classWord := BitVec.ofNat 64 (leNat ((blk.drop 8).take 8))
                         cues := (cueEntries (min (blk.headD 0).toNat 16) (blk.drop 16)).map Prod.fst }
      u.checkBlock x' blk = none → u.admitStatus x' = none →
      exec (.paramBlockRead id true) s = .next (u.addDesc { x' with phase := .arrived })))

/-- R78: what is dispatched is eligible, and no eligible descriptor has a lower ring number.
R8, R10, R56, R73, R78, R149, R435: at its dispatch the descriptor runs and occupies the free Pack, which latches its
numeric defaults and its output base; its START position is the one sampled; a program is loaded or a COPY begins; and the
cue actions whose position has passed act at once. -/
def Obligations.DispatchStartsTheLowestRingsDescriptor : Prop :=
  (∀ (s : State) (p : Nat) (d : Desc), s.pick p = some d →
    s.eligible p d = true ∧ d ∈ s.shep.descs ∧ ∀ e ∈ s.shep.descs, s.eligible p e = true → d.ring.val ≤ e.ring.val) ∧
  (∀ (s : State) (p : PackIx) (d : Desc), s.packFree p.val = true → s.pick p.val = some d → (s.pack p.val).lost = false →
    let d' := { d with phase := .running, undispatched := false, run := { startPos := s.cad.pos } }
    let u := ((s.modPack p.val fun k => { k with
        desc := some d.id, lat := ⟨s.reg 0x50000, s.reg 0x50800, s.salt, d.f.output⟩ }).modDesc d.id fun x =>
      { x with phase := .running, undispatched := false, run := { startPos := s.cad.pos } }).exposeAtDispatch p.val d.id
    (d.f.cls = 2 → exec (.dispatch p) s = .next (u.startCopy p.val d').evalCues) ∧
    (d.f.cls ≠ 2 → exec (.dispatch p) s = .next (u.loadProgram p.val d').evalCues))

/-- R13, R17, R115, R268: the next iteration of a LOOP starts at a quiescent point once a record slot is free, with its start
position sampled, and not without one; a whole replay whose tile is spared starts the program again. A dispatch of
either on a Pack that has lost its contents ends the descriptor at once. -/
def Obligations.LoopAndReplayStartTheProgramAgain : Prop :=
  ∀ (s u : State) (p : PackIx) (d : Desc), s.running p.val = some d →
    (d.phase = .parked → s.quiescent p.val = true → s.packMuzzled p.val = false →
      ((s.pack p.val).lost = true → exec (.loopResume p) s = .next (s.lostAgain p.val d).evalCues) ∧
      ((s.pack p.val).lost = false → s.claimSlot d.fn.val d.cq = (false, u) → exec (.loopResume p) s = .next u.evalCues) ∧
      ((s.pack p.val).lost = false → s.claimSlot d.fn.val d.cq = (true, u) →
        let run := { d.run with startPos := u.cad.pos }
        exec (.loopResume p) s = .next (((u.modDesc d.id fun x =>
          { x with phase := .running, slotHeld := true, run := run }).exposeAtDispatch p.val d.id).startProgram p.val
            { d with phase := .running, slotHeld := true, run := run } true).evalCues)) ∧
    (∀ t, (s.pack p.val).replaying = some t → d.phase = .running → (s.pack p.val).spared = true → s.sparing t = false →
      s.packMigrating p.val = false →
      ((s.pack p.val).lost = true → exec (.wholeReplay p) s = .next (s.lostAgain p.val d)) ∧
      ((s.pack p.val).lost = false → exec (.wholeReplay p) s = .next
        ((s.modPack p.val fun k => { k with replaying := none, spared := false }).startProgram p.val d false)))

/-- R90, R152: a program is complete when every engine has halted and nothing is outstanding; a stopped descriptor has ended
when its last transaction has retired.
R81, R82, R84: the 32 bytes of a record without a tag word, for some charged energy; the ring's counts; and the frame:
no other byte of host memory changes.
A command that comes while its condition does not hold changes nothing: the model's choice, log entry 6. -/
def Obligations.CompletionsAreRecorded : Prop :=
  (∀ (s : State) (p : PackIx) (id : Nat) (d : Desc),
    (s.running p.val = some d → d.phase = .running → s.programDone d = true →
      exec (.programComplete p) s = .next (s.modDesc d.id fun x =>
        { x with phase := .finished, run := { x.run with matched := x.run.matched || x.run.whole } })) ∧
    (s.running p.val = some d → s.programDone d = false → exec (.programComplete p) s = .next s) ∧
    (s.desc? id = some d → d.phase = .ending → s.retired d.pack d.id = true →
      exec (.descriptorRetired id) s = .next (s.modDesc d.id fun d => { d with phase := .ended })) ∧
    (s.desc? id = some d → s.retired d.pack d.id = false → exec (.descriptorRetired id) s = .next s)) ∧
  (∀ (s : State) (d : Desc), d.f.tag = 0 →
    let k := s.ring d.fn.val d.cq
    let a := s.ringAddr d.fn.val d.cq 0x20 + 32 * (k.tail % s.cqSize d.fn.val d.cq)
    let t := s.putRecord d
    (∃ energy : Nat, t.host.mem.readBytes a 32 =
      leBytes 2 d.status ++ leBytes 2 (d.recordFlags (decide (2 ^ 32 ≤ energy)) +
        32768 * (if k.tail / s.cqSize d.fn.val d.cq % 2 = 0 then 1 else 0)) ++ leBytes 4 d.f.job.toNat ++ leBytes 2 d.slot ++
        leBytes 2 d.ring.val ++ leBytes 4 (min energy (2 ^ 32 - 1)) ++
        leBytes 8 (if d.undispatched || !d.occupies then s.cad.pos else d.run.startPos) ++ leBytes 8 s.cad.pos) ∧
    (∀ b, b < a ∨ a + 32 ≤ b → t.host.mem.readByte b = s.host.mem.readByte b) ∧
    (t.ring d.fn.val d.cq).tail = (k.tail + 1) % 2 ^ 32 ∧ (t.ring d.fn.val d.cq).reserved = k.reserved - 1 ∧
    (t.ring d.fn.val d.cq).pend = k.pend + 1 ∧ t.hbm = s.hbm ∧ t.regs = s.regs ∧ t.tiles = s.tiles ∧ t.cad = s.cad)

/-- R79, R81 to R86: the record of a descriptor that is due, then the head write-back of its ring, then any message; a FENCE
completes when no earlier descriptor of its ring lacks a record.
R85 to R87: an expired MOD_TIME sends the ring's vector once; a masked vector sets its pending bit, and unmasking it sends
the message at once. -/
def Obligations.RecordsThenHeadsThenMessages : Prop :=
  (∀ (s : State) (id : Nat) (d : Desc) (fn : Fn) (ring : RingIx),
    (s.desc? id = some d → d.phase = .ended →
      exec (.completionRecord id) s = .next (((s.record id).headWriteBack d.fn.val d.ring.val).moderate d.fn.val d.cq)) ∧
    (s.shep.descs = [d] → d.fn = fn → d.ring = ring → d.f.cls = 3 → d.phase = .waiting → (s.ring fn.val ring.val).reads = [] →
      exec (.fenceComplete fn ring) s = .next
        (((s.modDesc d.id fun x => { x with phase := .ended, undispatched := false }).record d.id).moderate fn.val d.cq))) ∧
  (∀ (s : State) (fn : Fn) (ring : RingIx) (v : Fin 2048),
    let k := s.ring fn.val ring.val
    let w := bits (s.ringRegN fn.val ring.val 0x30) 7 11
    let time := bits (s.ringRegN fn.val ring.val 0x34) 16 16
    (time ≠ 0 → k.pend ≠ 0 → time ≤ s.tick.count - k.pendAt → w < s.vecCount fn.val → s.host.msix.contains (fn.val, w) = false →
      ∃ t, exec (.modTimeExpiry fn ring) s = .next t ∧ (t.ring fn.val ring.val).pend = 0 ∧
        ((s.reg (msixEntry fn.val w + 12)).getLsbD 0 = false → t.host.msix = s.host.msix ++ [(fn.val, w)]) ∧
        ((s.reg (msixEntry fn.val w + 12)).getLsbD 0 = true → t.host = s.host ∧ (t.fn fn.val).msixPending.contains w = true)) ∧
    (v.val < s.vecCount fn.val → (s.fn fn.val).msixPending.contains v.val = true →
      ∃ t, exec (.msixUnmask fn v) s = .next t ∧ t.host.msix = s.host.msix ++ [(fn.val, v.val)] ∧
        (t.fn fn.val).msixPending.contains v.val = false ∧ (t.reg (msixEntry fn.val v.val + 12)).getLsbD 0 = false))

/-- R71: a failed descriptor read or doorbell read sets the ring's error and stops it, a failed summary read is flagged for
the function, and each raises a LOG; nothing in host memory, HBM or the registers changes, and no descriptor.
R62, R421: the reset of a VF ends its descriptors without a record, disables its rings by returning its G1 instance to the
reset values, drops its commit request, and changes no Pack, HBM or host memory. With the PF, every function is reset, every
request is dropped, and the staging of the other groups is reloaded from the values in force, which do not change. -/
def Obligations.RingsStopOnErrorAndClearOnReset : Prop :=
  (∀ (s : State) (f : Fn) (r : RingIx),
    (∀ x rest, (s.ring f.val r.val).reads = x :: rest →
      ∃ t, exec (.ringReadError f r .descriptor) s = .next t ∧ (t.ring f.val r.val).fetchError = true ∧
        (t.ring f.val r.val).stopped = true ∧ (t.ring f.val r.val).reads = rest ∧ ringLogged t ∧
        t.shep.descs = s.shep.descs ∧ t.host = s.host ∧ t.hbm = s.hbm ∧ t.regs = s.regs) ∧
    ((s.enabledRings f.val).contains r.val = true →
      ∃ t, exec (.ringReadError f r .doorbell) s = .next t ∧ (t.ring f.val r.val).fetchError = true ∧
        (t.ring f.val r.val).stopped = true ∧ ringLogged t ∧
        t.shep.descs = s.shep.descs ∧ t.host = s.host ∧ t.hbm = s.hbm ∧ t.regs = s.regs) ∧
    (s.enabledRings f.val ≠ [] →
      ∃ t, exec (.ringReadError f r .summary) s = .next t ∧ (t.fn f.val).summaryError = true ∧ ringLogged t ∧
        (∀ k, t.ring f.val k = s.ring f.val k) ∧ t.shep.descs = s.shep.descs ∧ t.host = s.host ∧ t.hbm = s.hbm ∧ t.regs = s.regs)) ∧
  (∀ (s : State) (f : Fn),
    (f.val ≠ 0 →
      ∃ t, exec (.functionLevelReset f) s = .next t ∧
        t.regs.active = s.regs.active.filter (fun e => !inGroup s.mod.grade 1 f.val e.1) ∧
        t.regs.staged = s.regs.staged.filter (fun e => !inGroup s.mod.grade 1 f.val e.1) ∧
        (t.commits.vfSt f.val).request = 0 ∧ (∀ p, t.shape p = s.shape p) ∧ t.host = s.host ∧ t.hbm = s.hbm ∧
        t.mod.grade = s.mod.grade) ∧
    (f.val = 0 → Table.rising none s.regs.active = true →
      ∃ t, exec (.functionLevelReset f) s = .next t ∧ t.commits.pf.request = 0 ∧ (∀ k, (t.commits.vfSt k).request = 0) ∧
        (∀ a g, regGroup s.mod.grade a = some g → g ≠ 1 → t.reg a = s.reg a ∧ t.staged a = s.reg a) ∧
        (∀ p, t.shape p = s.shape p) ∧ t.host = s.host ∧ t.hbm = s.hbm))

/-! ## Muzzle and Kennel (R20 to R30, R96, R260 to R276) -/

/-- R22, R27, R30: a request to enter or to release. A scope that does not exist, and one that the function may not name, is
refused with RESULT 3; an accepted request waits for the next tick; a release that may not be given is refused with RESULT 2.
A VF may name its own Packs only, and a release needs CAUSE_CLEAR.
R21, R22, R24: in class 1 of the tick a module trigger Muzzles the module with that cause, MUZZLE_N is driven low where its
supply is present, and every descriptor that runs, or has finished and is not sampled, stops with the cause's status; triggers
are used up.
R22, R24, R28, R29: an accepted release of the module takes effect unless a trigger for it has arrived; a parity error in
a hub structure triggers the module with cause 0x0C; re-initialising a reserved structure meets the condition of 0x01, of the
Muzzle in force and of a trigger that waits for its tick. -/
def Obligations.MuzzlesAreEnteredAndReleasedAtTheTick : Prop :=
  ((∀ (s : State) (fn : Fn) (sc : BitVec 2) (ix : BitVec 6),
    (mzScopeOf sc ix = none →
      exec (.muzzleEnter fn sc ix) s = .next (s.mzResult fn.val 3) ∧ exec (.muzzleRelease fn sc ix) s = .next (s.mzResult fn.val 3)) ∧
    ∀ x : Scope, mzScopeOf sc ix = some x →
      (s.mayMuzzle fn.val x = false →
        exec (.muzzleEnter fn sc ix) s = .next (s.mzResult fn.val 3) ∧ exec (.muzzleRelease fn sc ix) s = .next (s.mzResult fn.val 3)) ∧
      (s.mayMuzzle fn.val x = true →
        exec (.muzzleEnter fn sc ix) s = .next
          ({ s with muzzle := { s.muzzle with
              triggers := s.muzzle.triggers ++ [(⟨x, 0x0D⟩ : Trigger)]
              early := s.muzzle.early.filter fun y => y != (⟨x, 0x0D⟩ : Trigger) } }.mzResult fn.val 1)) ∧
      (s.mayMuzzle fn.val x = true → s.mayRelease x = false → exec (.muzzleRelease fn sc ix) s = .next (s.mzResult fn.val 2)) ∧
      (s.mayMuzzle fn.val x = true → s.mayRelease x = true →
        exec (.muzzleRelease fn sc ix) s = .next
          ({ s with muzzle := { s.muzzle with releases := s.muzzle.releases ++ [(x, fn)] } }.mzResult fn.val 1))) ∧
  (∀ (s : State) (x : Scope), (s.mzOf x).causeClear = false → s.mayRelease x = false) ∧
  (∀ (s : State) (f : Nat), 0 < f → s.mayMuzzle f .module = false ∧ (∀ r, s.mayMuzzle f (.region r) = false) ∧
    ∀ p : PackIx, (s.shape p.val).fn ≠ f → s.mayMuzzle f (.pack p) = false) ∧
  ∀ (s : State) (x : Scope), s.mayMuzzle 0 x = true) ∧
  (∀ (s : State) (c : Nat), s.muzzle.triggers = [⟨.module, c⟩] → s.muzzle.module.active = false → s.muzzle.releases = [] →
    s.class1.muzzle.module.active = true ∧ s.class1.muzzle.module.cause = c ∧ s.class1.muzzle.module.count = 1 ∧
    s.class1.mod.pins.muzzle = s.mod.vauxOk ∧ s.class1.muzzle.triggers = [] ∧
    (∀ id d, s.desc? id = some d → d.phase = .running ∨ d.phase = .finished →
      ∃ e, s.class1.desc? id = some e ∧ e.phase = .ending ∧ e.status = mzStatus c) ∧
    s.class1.hbm = s.hbm ∧ s.class1.regs = s.regs ∧ s.class1.host = s.host ∧ s.class1.cad = s.cad) ∧
  (∀ (s : State) (fn : Fn),
    (s.muzzle.releases = [(.module, fn)] → (∀ x ∈ s.muzzle.triggers, x.scope ≠ .module) →
      ∃ t, exec (.muzzleReleaseApply 0 0) s = .next t ∧ t.muzzle.module = {} ∧ t.mod.pins.muzzle = false ∧ t.muzzle.releases = [] ∧
        (t.fn fn.val).mzResult = 0 ∧ t.host = s.host ∧ t.hbm = s.hbm ∧ t.tiles = s.tiles ∧ t.regs = s.regs) ∧
    (s.muzzle.releases = [(.module, fn)] → (∃ x ∈ s.muzzle.triggers, x.scope = .module) →
      ∃ t, exec (.muzzleReleaseApply 0 0) s = .next t ∧ t.muzzle.module = s.muzzle.module ∧ (t.fn fn.val).mzResult = 2) ∧
    (∃ t, exec .hubParityError s = .next t ∧ t.muzzle.triggers = s.muzzle.triggers ++ [(⟨.module, 0x0C⟩ : Trigger)] ∧
      t.muzzle.module = s.muzzle.module ∧ t = { s with muzzle := t.muzzle }) ∧
    (s.muzzle.triggers.contains ⟨.module, 1⟩ = false →
      s.muzzle.module.active = true → s.muzzle.module.seen.contains 1 = true → s.muzzle.module.met.contains 1 = false →
      exec .reservedStructureReinit s = .next { s with muzzle := { s.muzzle with
        module := { s.muzzle.module with met := s.muzzle.module.met ++ [1] } } }) ∧
    (s.muzzle.triggers.contains ⟨.module, 1⟩ = true →
      ∃ t, exec .reservedStructureReinit s = .next t ∧ t.muzzle.early = s.muzzle.early ++ [(⟨.module, 1⟩ : Trigger)] ∧
        t.muzzle.triggers = s.muzzle.triggers ∧ t = { s with muzzle := t.muzzle }))

/-- R33, R57, R265 to R268: a scheduled migration starts when it may; its copy ends, and the next tick swaps the remap entry:
the entry names the new site, which serves the tile, the old site is in QUARANTINE after a repair and in TESTING after Rotation,
and the tile's contents are where they were. After a copy that lost them they are zero, and the Pack's next dispatch is told.
A command that comes while its condition does not hold changes nothing: the model's choice, log entry 6. -/
def Obligations.MigrationMovesTheTile : Prop :=
  ∀ (s : State) (m : Move), s.kennel.moves = [m] →
    (s.mayMove m = true → s.paging.asleep.contains (SiteId.domain m.to_) = false →
      exec (.migrationStart m.tile) s =
        .next { s with kennel := { s.kennel with moves := [{ m with started := true, since := s.tick.count }] } }) ∧
    (s.mayMove m = false → exec (.migrationStart m.tile) s = .next s) ∧
    (m.started = true → m.done = none → s.paging.asleep.contains (SiteId.domain m.to_) = false → ∀ lost,
      exec (.migrationComplete m.tile lost) s = .next { s with kennel := { s.kennel with moves := [{ m with done := some lost }] } }) ∧
    (m.started = false ∨ m.done ≠ none ∨ s.paging.asleep.contains (SiteId.domain m.to_) = true → ∀ lost,
      exec (.migrationComplete m.tile lost) s = .next s) ∧
    (m.done = some false → m.from_.ix ≠ m.to_.ix →
      let t := s.finishMoves
      t.kennel.moves = [] ∧ t.siteOf m.tile = (⟨m.to_.prow, m.tile.col⟩ : SiteId) ∧
      (t.site m.to_.ix).st = .inService ∧ (t.site m.to_.ix).lrow = m.tile.row.val ∧
      (t.site m.from_.ix).st = (if m.why = .repair then .quarantine else .testing) ∧
      t.tile m.tile.ix = { s.tile m.tile.ix with tlb := [] } ∧ (∀ j, j ≠ m.tile.ix → t.tile j = s.tile j) ∧
      t.host = s.host ∧ t.hbm = s.hbm ∧ t.regs = s.regs) ∧
    (∀ p, m.done = some true → m.from_.ix ≠ m.to_.ix → s.packOf m.tile = some p →
      let t := s.finishMoves
      t.siteOf m.tile = (⟨m.to_.prow, m.tile.col⟩ : SiteId) ∧ (t.site m.from_.ix).st = .quarantine ∧
      t.tile m.tile.ix = { s.tile m.tile.ix with tlb := [], mem := {}, arr := {} } ∧ (t.pack p).lost = true ∧ (t.pack p).lostFlag = true ∧
      (∃ l e, t.tel.pend = l ++ [e] ∧ e.cls = .log ∧ e.code = 0x10C) ∧ t.host = s.host ∧ t.hbm = s.hbm ∧ t.regs = s.regs)

/-- R95, R96, R270: after three corrected errors in a day a spare row of the bank takes the row's place, at a quiescent point of
the Pack; with no spare row left the site goes to quarantine. At other times the command changes nothing, and no tile content
changes.
R271, R274: a site in TESTING becomes SPARE when its run passes and RETIRED, with the LATENT_FAULT alarm, when it fails; a
site in QUARANTINE is RETIRED by its first failed run, and after its third pass SPARE with fewer than three faults and RETIRED
with more. A site in another state is not tested. No site is SUSPECT.
A command that comes while its condition does not hold changes nothing: the model's choice, log entry 6. -/
def Obligations.RowsAreSparedAndSitesTested : Prop :=
  (∀ (s : State) (tile : TileId) (m : TileMem) (row : Nat),
    let i := (s.siteOf tile).ix
    let used := ((s.site i).spareRows.filter fun e => e.1 == m && e.2.1 == rowBank m row).length
    let gone (x : SiteSt) : SiteSt := { x with corrected := x.corrected.filter fun e => !(e.1 == m && e.2.1 == row) }
    ((∀ p, s.packOf tile = some p → s.quiescent p = true) → s.rowDue i m row = true →
      (used < spareRowsOf m → exec (.rowSpareReplace tile m row) s = .next (s.modSite i fun x => { gone x with
        spareRows := x.spareRows ++ [(m, rowBank m row, row)] })) ∧
      (spareRowsOf m ≤ used → exec (.rowSpareReplace tile m row) s = .next ((s.modSite i gone).quarantine i 2 0))) ∧
    (s.rowDue i m row = false ∨ (∃ p, s.packOf tile = some p ∧ s.quiescent p = false) →
      exec (.rowSpareReplace tile m row) s = .next s)) ∧
  (∀ (s : State) (x : SiteId), (∀ i, (s.site i).st ≠ .suspect) →
    ((s.site x.ix).st = .testing →
      (∃ t, exec (.selfTestDone x true) s = .next t ∧ (t.site x.ix).st = .spare ∧ (t.site x.ix).lastPass = some s.tick.count) ∧
      (∃ t, exec (.selfTestDone x false) s = .next t ∧ (t.site x.ix).st = .retired ∧
        ∃ l e, t.tel.pend = l ++ [e] ∧ e.cls = .alarm ∧ e.code = 8)) ∧
    ((s.site x.ix).st = .quarantine →
      (∃ t, exec (.selfTestDone x false) s = .next t ∧ (t.site x.ix).st = .retired) ∧
      (2 ≤ (s.site x.ix).passed →
        ∃ t, exec (.selfTestDone x true) s = .next t ∧ (t.site x.ix).st = (if (s.site x.ix).faults < 3 then .spare else .retired)) ∧
      ((s.site x.ix).passed < 2 → ∃ t, exec (.selfTestDone x true) s = .next t ∧ (t.site x.ix).st = .quarantine ∧
        (t.site x.ix).passed = (s.site x.ix).passed + 1)) ∧
    ((s.site x.ix).st ≠ .testing → (s.site x.ix).st ≠ .quarantine → ∀ ok, exec (.selfTestDone x ok) s = .next s))

/-- R270 to R272, R276: KNL_CMD takes effect at the next tick. A quarantine of a site in service counts a fault and moves its
tile to the lowest spare of its half; one of a SUSPECT site is refused and logged; a retest brings a retired site, and no
other, back to QUARANTINE.
R273: a Rotation step in a half with the site `i` oldest and the spare `j` schedules one move; a half without a spare, or
whose last step still waits, counts the step as deferred. When the interval has run out, and the MC runs (R408), a step is taken
in each of the 64 halves and the next interval begins; else the command changes nothing.
A command that comes while its condition does not hold changes nothing: the model's choice, log entry 6. -/
def Obligations.KennelCommandsAndRotationMoveTheirTiles : Prop :=
  (∀ (s : State) (x : SiteId),
    exec (.knlQuarantine x) s = .next { s with kennel := { s.kennel with cmds := s.kennel.cmds ++ [(x, false)] } } ∧
    exec (.knlRetest x) s = .next { s with kennel := { s.kennel with cmds := s.kennel.cmds ++ [(x, true)] } } ∧
    (∀ j, s.kennel.cmds = [(x, false)] → s.kennel.moves = [] → (s.site x.ix).st = .inService →
      s.spareOf (halfSites (x.ix % 32) (x.ix / 32 / 18)) = some j →
      s.knlTick.kennel.moves.map Move.to_ = [siteOfIx j] ∧ (s.knlTick.site x.ix).faults = sat 8 ((s.site x.ix).faults + 1) ∧
        s.knlTick.kennel.cmdStatus = 1) ∧
    ((∀ m ∈ s.kennel.moves, m.done = none) →
      (s.kennel.cmds = [(x, false)] → (s.site x.ix).st = .suspect →
        s.knlTick.site x.ix = s.site x.ix ∧ s.knlTick.kennel.cmdStatus = 2 ∧
          ∃ l e, s.knlTick.tel.pend = l ++ [e] ∧ e.cls = .log ∧ e.code = 0x10E) ∧
      (s.kennel.cmds = [(x, true)] → (s.site x.ix).st = .retired →
        (s.knlTick.site x.ix).st = .quarantine ∧ (s.knlTick.site x.ix).faults = 0 ∧ s.knlTick.kennel.cmds = [] ∧
          s.knlTick.kennel.cmdStatus = 1) ∧
      (s.kennel.cmds = [(x, true)] → (s.site x.ix).st ≠ .retired →
        s.knlTick.site x.ix = s.site x.ix ∧ s.knlTick.kennel.cmdStatus = 2))) ∧
  (∀ (s : State) (l : List Nat),
    let late := s.kennel.moves.any fun m => m.why == .rotation && !m.started && l.contains m.from_.ix
    let deferred : State := { s with kennel := { s.kennel with deferred := sat 32 (s.kennel.deferred + 1) } }
    (late = false → (∀ i j, s.oldestSite l = some i → s.spareOf l = some j →
      s.rotateHalf l = { s with kennel := { s.kennel with moves := s.kennel.moves ++
        [{ tile := s.servedTile i, from_ := siteOfIx i, to_ := siteOfIx j, why := .rotation, started := false }] } }) ∧
      (s.spareOf l = none → s.rotateHalf l = deferred)) ∧
    (late = true → s.rotateHalf l = deferred) ∧
    (s.rotEnabled = false ∨ s.tick.now < s.kennel.rotSince + s.rotInterval ∨ s.sec.mcRunning = false → exec .rotationStep s = .next s) ∧
    (s.rotEnabled = true → s.rotInterval ≠ 0 → s.kennel.rotSince + s.rotInterval ≤ s.tick.now → s.sec.mcRunning = true →
      let u := (List.range 64).foldl (fun s n => s.rotateHalf (halfSites (n / 2) (n % 2))) s
      exec .rotationStep s = .next { u with kennel := { u.kennel with rotSince := u.kennel.rotSince + u.rotInterval } }))

/-! ## Tile instructions (R149 to R181) -/

/-- Engine `e` of a tile may issue, and the word at its program counter is that of instruction `i`, for this engine, with every
reserved bit zero and a slot free; `c` is the issue, and `u` the machine once the word is fetched. -/
def issuesTo (s : State) (tile : TileId) (e : Engine) (i : TileWord) (c : Issuing) (u : State) : Prop :=
  let g := (s.tile tile.ix).engine e
  s.issuer tile e = some (c.p, c.d) ∧ c = ⟨tile, tile.ix, e, c.p, c.d, g.pc, c.word⟩ ∧ g.pc < g.len ∧
  s.fetchWord c.d tile.ix e = (.word c.word, u) ∧
  TileWord.decode c.word = some i ∧ opcodeEngine i.opcode e = true ∧ (u.tile c.ix).slotsFull e = false

/-- Between two states only the counters and one tile differ, and the Pack knows that it has issued: the frame of an
instruction that works in its own tile. -/
def tileOnly (u t : State) (c : Issuing) (x : TileSt) : Prop :=
  t = { u.markIssued c.p with cnt := t.cnt, tiles := { (u.markIssued c.p).tiles with tiles := t.tiles.tiles } } ∧ t.tile c.ix = x ∧
  ∀ j, j ≠ c.ix → t.tile j = u.tile j

/-- Only the issuing engine of its tile differs. -/
def engineOnly (u t : State) (c : Issuing) (g : EngineSt) : Prop :=
  tileOnly u t c ((u.tile c.ix).setEngine c.e g)

/-- R96, R150, R152, R179: where each control instruction leaves its engine; nothing else of the tile, and no memory, changes. A
word that the engine's queue holds is fetched without any effect. With an uncorrectable error in its queue entry the
instruction has no effect, the descriptor's end is latched, and the site goes to quarantine.
R179: a target outside the stream is a BRANCH_RANGE; R175: an opcode that is not defined is an UNDEFINED_OPCODE. The
instruction is skipped, and has no effect but the taint. -/
def Obligations.ControlAndIllegalInstructions : Prop :=
  ((∀ (s u : State) (tile : TileId) (e : Engine) (i : TileWord) (c : Issuing), issuesTo s tile e i c u →
    let g := (u.tile c.ix).engine e
    (∀ n, i = .nop n → ∃ t, exec (.nop tile e {}) s = .next t ∧ engineOnly u t c g.advance) ∧
    (i = .halt → ∃ t, exec (.halt tile e {}) s = .next t ∧ engineOnly u t c { g with halted := true, hold := .none }) ∧
    (∀ a, i = .jmp a → a.toNat < g.len → ∃ t, exec (.jmp tile e {}) s = .next t ∧ engineOnly u t c (g.jump a.toNat)) ∧
    (∀ n cond imm a, i = .brc n cond imm a → a.toNat < g.len →
      ∃ t, exec (.brc tile e {}) s = .next t ∧
        engineOnly u t c (if condHolds cond ((u.tile c.ix).sem n.toNat) imm.toNat then g.jump a.toNat else g.advance)) ∧
    (∀ count last, i = .loop count last → g.pc < last.toNat → last.toNat < g.len → c.pc = g.pc → g.loops.length < 4 →
      (∀ l ∈ g.loops.head?, last.toNat ≤ l.last) →
      ∃ t, exec (.loopInstruction tile e {}) s = .next t ∧
        engineOnly u t c (if count = 0 then { g with pc := last.toNat }.advance
          else { g with pc := g.pc + 1, hold := .none, loops := ⟨g.pc + 1, last.toNat, count.toNat⟩ :: g.loops })) ∧
    (∀ up : Upset, up.corrected = [] → up.doubleBit = true ∨ up.parity = true →
      let bad := ((u.tagged c).latchFault c.d.id 0x22).quarantineTile tile 1 c.d.f.job.toNat
      (∀ n, i = .nop n → exec (.nop tile e up) s = .next bad) ∧ (i = .halt → exec (.halt tile e up) s = .next bad))) ∧
  (∀ (s : State) (d : Desc) (ix : Nat) (e : Engine) (w : QWord), ((s.tile ix).engine e).queued = some w →
    s.fetchWord d ix e = (.word w, s)) ∧
  (∀ (s : State) (tile : TileId) (e : Engine), (s.issuer tile e).isSome = true →
    ((s.tile tile.ix).engine e).len ≤ ((s.tile tile.ix).engine e).pc →
    ∃ t, exec (.streamEnd tile e) s = .next t ∧ ((t.tile tile.ix).engine e).halted = true ∧
      (t.tile tile.ix).mem = (s.tile tile.ix).mem ∧ (t.tile tile.ix).sems = (s.tile tile.ix).sems ∧
      (∀ j, j ≠ tile.ix → t.tile j = s.tile j) ∧ t.hbm = s.hbm ∧ t.host = s.host ∧ t.regs = s.regs) ∧
  (∀ g : EngineSt, g.loops = [] → g.advance = { g with pc := g.pc + 1, hold := .none }) ∧
  (∀ (g : EngineSt) (l : LoopSt) (rest : List LoopSt), g.loops = l :: rest →
    (l.last ≠ g.pc → g.advance = { g with pc := g.pc + 1, hold := .none }) ∧
    (l.last = g.pc → 1 < l.left → g.advance = { g with pc := l.first, hold := .none, loops := { l with left := l.left - 1 } :: rest}) ∧
    (l.last = g.pc → l.left ≤ 1 → g.advance = { g with loops := rest }.advance))) ∧
  (∀ (s u : State) (tile : TileId) (e : Engine) (c : Issuing),
    (∀ (i : TileWord) (a : BitVec 24), issuesTo s tile e i c u → ((u.tile c.ix).engine e).len ≤ a.toNat →
      (i = .jmp a → exec (.jmp tile e {}) s = .next (u.skip c 0x0A)) ∧
      (∀ n k m, i = .brc n k m a → exec (.brc tile e {}) s = .next (u.skip c 0x0A))) ∧
    (∀ v, s.issuer tile e = some (c.p, c.d) → c = ⟨tile, tile.ix, e, c.p, c.d, ((s.tile tile.ix).engine e).pc, c.word⟩ →
      c.pc < ((s.tile tile.ix).engine e).len → s.fetchWord c.d tile.ix e = (.word c.word, v) →
      TileWord.fields c.word = none →
      exec (.undefinedOpcode tile e) s = .next (v.skip c 0x01)) ∧
    (∀ r, ∃ t, u.skip c r = t ∧ t.hbm = u.hbm ∧ t.host = u.host ∧ t.regs = u.regs ∧ t.cad = u.cad ∧
      (t.tile c.ix) = (u.tile c.ix).setEngine c.e ((u.tile c.ix).engine c.e).advance ∧ (∀ j, j ≠ c.ix → t.tile j = u.tile j) ∧
      ∀ d, u.desc? c.d.id = some d → d.phase = .running → u.packOf c.tile = some c.p → u.running c.p = some d →
        ∃ d', t.desc? c.d.id = some d' ∧ d'.run.tainted = true))

/-- No engine of a tile is at a WAIT, and the tile holds no stream context. -/
def quiet (t : TileSt) : Prop := (∀ e a b k x, (t.engine e).hold ≠ .wait a b k x) ∧ t.ctxs = []

/-- R157 to R160, R257: SIG adds to a semaphore of its tile, and saturates; SIGX sends to a tile of the Pack, or is skipped for
one outside it, and through a flow it becomes a request RSIGNAL, with no effect on memories, tiles or registers; the oldest
signal under way to a tile is applied there, and one for a tile that sleeps or moves waits. In the tile no engine waits and no
stream is open. -/
def Obligations.SignalsAddToSemaphores : Prop :=
  (∀ (s u : State) (tile : TileId) (e : Engine) (c : Issuing) (n : BitVec 6) (inc : BitVec 16),
    issuesTo s tile e (.sig n inc) c u → quiet (u.tile c.ix) →
    ∃ t, exec (.sig tile e {}) s = .next t ∧ (t.tile c.ix).sem n.toNat = min ((u.tile c.ix).sem n.toNat + inc.toNat) 65535 ∧
      (∀ m, m ≠ n.toNat → (t.tile c.ix).sem m = (u.tile c.ix).sem m) ∧
      (t.tile c.ix).engine e = ((u.tile c.ix).engine e).advance ∧ (t.tile c.ix).mem = (u.tile c.ix).mem ∧
      (t.tile c.ix).arr = (u.tile c.ix).arr ∧ (∀ j, j ≠ c.ix → t.tile j = u.tile j) ∧ t.hbm = u.hbm ∧ t.host = u.host ∧
      t.regs = u.regs) ∧
  (∀ (s u : State) (tile : TileId) (e : Engine) (c : Issuing) (n : BitVec 6) (via : Bool) (inc : BitVec 16) (x y : BitVec 5)
      (flow : BitVec 16), issuesTo s tile e (.sigx n via inc x y flow) c u →
    (via = false → flow = 0 → x.toNat < (u.shape c.p).width → y.toNat < (u.shape c.p).height → inc ≠ 0 →
      ∃ t, exec (.sigx tile e {}) s = .next t ∧
        t.tiles.signals = u.tiles.signals ++ [⟨(u.shape c.p).at x.toNat y.toNat, n.toNat, inc.toNat, some c.p⟩] ∧
        t.tile c.ix = (u.tile c.ix).setEngine e ((u.tile c.ix).engine e).advance ∧ (∀ j, j ≠ c.ix → t.tile j = u.tile j) ∧
        t.hbm = u.hbm ∧ t.host = u.host ∧ t.regs = u.regs ∧ t.links = u.links) ∧
    (via = false → flow = 0 → (u.shape c.p).width ≤ x.toNat ∨ (u.shape c.p).height ≤ y.toNat →
      exec (.sigx tile e {}) s = .next (u.skip c 0x09)) ∧
    (via = true → u.mayUse c.d flow.toNat = true →
      exec (.sigx tile e {}) s = .next (((u.tagged c).enqueue
        { id := 0, type := .rsignal, flow := flow.toNat, issued := 0, desc := some c.d.id, tile := c.ix, engine := e.num, pc := c.pc
          word := c.word, target := rsignalTarget x.toNat y.toNat n.toNat inc.toNat, token := u.token c.p c.ix }).pump.advance c))) ∧
  (∀ v : State, v.pump.hbm = v.hbm ∧ v.pump.host = v.host ∧ v.pump.regs = v.regs ∧ v.pump.tiles = v.tiles ∧ v.pump.cad = v.cad ∧
    v.pump.cue = v.cue ∧ v.pump.muzzle = v.muzzle) ∧
  ∀ (s : State) (tile : TileId) (a b : List SignalSt) (g : SignalSt), s.tiles.signals = a ++ g :: b →
    (∀ x ∈ a, x.target ≠ tile) → g.target = tile →
    (s.away tile = true → exec (.signalArrival tile {}) s = .next
      (({ s with tiles := { s.tiles with signals := a ++ b } } : State).park (some tile) (.signal tile g.sem g.inc g.pack))) ∧
    (s.away tile = false → quiet (s.tile tile.ix) → ∃ t, exec (.signalArrival tile {}) s = .next t ∧ t.tiles.signals = a ++ b ∧
      (t.tile tile.ix).sem g.sem = min ((s.tile tile.ix).sem g.sem + g.inc) 65535 ∧
      (∀ m, m ≠ g.sem → (t.tile tile.ix).sem m = (s.tile tile.ix).sem m) ∧ (t.tile tile.ix).mem = (s.tile tile.ix).mem ∧
      (∀ j, j ≠ tile.ix → t.tile j = s.tile j) ∧ t.hbm = s.hbm ∧ t.host = s.host ∧ t.regs = s.regs)

/-- R157, R162, R166: a WAIT that its semaphore satisfies consumes and goes on, another holds its engine; a BARRIER with an empty
mask is passed, one of another mask than the open barrier of its number is skipped, one that is not full holds its engine, and
the arrival that fills it lets every engine go on. -/
def Obligations.WaitsAndBarriersHoldTheirEngine : Prop :=
  ∀ (s u : State) (tile : TileId) (e : Engine) (c : Issuing),
    (∀ (n : BitVec 6) (use timed : Bool) (count tmo : BitVec 16), issuesTo s tile e (.wait n use timed count tmo) c u →
      let x := u.tile c.ix
      (timed = false → tmo ≠ 0 → exec (.wait tile e {}) s = .next (u.skip c 0x02)) ∧
      ((timed = true ∨ tmo = 0) → ∃ t, exec (.wait tile e {}) s = .next t ∧
        (count.toNat ≤ x.sem n.toNat → tileOnly u t c
          ((if use then x.setSem n.toNat (x.sem n.toNat - count.toNat) else x).setEngine e (x.engine e).advance)) ∧
        (x.sem n.toNat < count.toNat → engineOnly u t c
          { x.engine e with hold := .wait n.toNat count.toNat use (if timed then some (u.tick.count, tmo.toNat) else none) }))) ∧
    ∀ (n : BitVec 2) (m : BitVec 5), issuesTo s tile e (.barrier n m) c u →
      let l := (u.pack c.p).barriers
      let b := (l.find? fun b => b.num == n.toNat).getD ⟨n.toNat, m.toNat, []⟩
      let b' : BarrierSt := { b with arrived := b.arrived ++ [(tile, e)] }
      let rest := l.filter fun b => b.num != n.toNat
      (m = 0 → ∃ t, exec (.barrier tile e {}) s = .next t ∧ engineOnly u t c ((u.tile c.ix).engine e).advance) ∧
      (m ≠ 0 → b.mask ≠ m.toNat → exec (.barrier tile e {}) s = .next ((u.tagged c).skip c 0x0F)) ∧
      (m ≠ 0 → b.mask = m.toNat → barrierFull (u.shape c.p).tiles b' = false →
        ∃ t, exec (.barrier tile e {}) s = .next t ∧ (t.pack c.p).barriers = rest ++ [b'] ∧
          t.tile c.ix = (u.tile c.ix).setEngine e { (u.tile c.ix).engine e with hold := .barrier n.toNat m.toNat } ∧
          (∀ j, j ≠ c.ix → t.tile j = u.tile j) ∧ t.hbm = u.hbm ∧ t.host = u.host ∧ t.regs = u.regs) ∧
      (m ≠ 0 → b.mask = m.toNat → b'.arrived.Nodup → barrierFull (u.shape c.p).tiles b' = true →
        ∃ t, exec (.barrier tile e {}) s = .next t ∧ (t.pack c.p).barriers = rest ∧
          (∀ a ∈ b'.arrived, (t.tile a.1.ix).engine a.2 = ((u.tile a.1.ix).engine a.2).advance) ∧
          t.hbm = u.hbm ∧ t.host = u.host ∧ t.regs = u.regs)

/-- R154, R166 to R168, R170: the oldest instruction of an engine that holds no stream context retires, where it may; a timed
WAIT that is past its time ends the descriptor with WAIT_TIMEOUT and is counted; a Pack whose deadlock test has held through
DEADLOCK_TICKS ends its descriptor with SYNC_DEADLOCK, is counted and Muzzled. Before that the commands change nothing. The
Pack of the WAIT has no snapshot buffer.
A command that comes while its condition does not hold changes nothing: the model's choice, log entry 6. -/
def Obligations.RetirementTimeoutAndDeadlock : Prop :=
  (∀ (s : State) (tile : TileId) (e : Engine), (s.mayRetire tile e = false → exec (.instructionRetire tile e) s = .next s) ∧
    ∀ (a b : List Flight) (f : Flight), s.mayRetire tile e = true →
    (s.tile tile.ix).flights = a ++ f :: b → (∀ x ∈ a, x.engine ≠ e ∨ x.ctx.isSome = true) → f.engine = e → f.ctx = none →
    quiet (s.tile tile.ix) →
    ∃ t, exec (.instructionRetire tile e) s = .next t ∧ (t.tile tile.ix).flights = a ++ b ∧
      (t.tile tile.ix).mem = (s.tile tile.ix).mem ∧ (t.tile tile.ix).sems = (s.tile tile.ix).sems ∧
      (∀ j, j ≠ tile.ix → t.tile j = s.tile j) ∧ t.hbm = s.hbm ∧ t.host = s.host ∧ t.regs = s.regs) ∧
  (∀ (s : State) (tile : TileId) (e : Engine) (p sem count n : Nat) (use : Bool) (since tmo : Nat) (d : Desc),
    s.packOf tile = some p → s.running p = some d → d.phase = .running →
    ((s.tile tile.ix).engine e).hold = .wait sem count use (some (since, tmo)) → n = s.tiles.waitTimeouts →
    (since + tmo + 1 ≤ s.tick.count → s.reg64 (0x4C100 + 8 * p) = 0 →
      ∃ t d' m, exec (.waitTimeout tile e) s = .next t ∧ t.desc? d.id = some d' ∧ d'.status = stWaitTimeout ∧ d'.phase = .ending ∧
        0 < m ∧ t.tiles.waitTimeouts = sat 16 (n + m) ∧ t.hbm = s.hbm ∧ t.host = s.host ∧ t.regs = s.regs) ∧
    (s.tick.count < since + tmo + 1 → exec (.waitTimeout tile e) s = .next s)) ∧
  ∀ (s : State) (p : PackIx) (d : Desc), s.running p.val = some d →
    (∀ since, s.deadTest p.val d = true → (s.mzPack p.val).active = false → (s.pack p.val).deadSince = some since →
      since + s.regN 0x4C000 ≤ s.tick.count →
      ∃ t d', exec (.syncDeadlock p) s = .next t ∧ (t.mzPack p.val).active = true ∧ (t.mzPack p.val).cause = 0x0A ∧
        t.desc? d.id = some d' ∧ d'.status = stDeadlock ∧ d'.phase = .ending ∧
        t.tiles.deadlocks = sat 16 (s.tiles.deadlocks + 1) ∧ t.hbm = s.hbm ∧ t.regs = s.regs) ∧
    (s.deadTest p.val d = false ∨ (s.pack p.val).deadSince = none → exec (.syncDeadlock p) s = .next s) ∧
    (∀ since, (s.pack p.val).deadSince = some since → s.tick.count < since + s.regN 0x4C000 → exec (.syncDeadlock p) s = .next s)

/-! ## Matrix, vector and DSP engines (R99 to R146, R182 to R195) -/

/-- Outside a tile, what the work of an instruction in it leaves alone. -/
def elsewhere (u t : State) (ix : Nat) : Prop :=
  t.hbm = u.hbm ∧ t.host = u.host ∧ t.regs = u.regs ∧ t.links = u.links ∧ t.cad = u.cad ∧ t.cue = u.cue ∧ t.muzzle = u.muzzle ∧
  t.fabric = u.fabric ∧ t.paging = u.paging ∧ t.kennel = u.kennel ∧ t.tick = u.tick ∧ t.mod = u.mod ∧ t.commits = u.commits ∧
  t.leash = u.leash ∧ t.ltime = u.ltime ∧ t.sec = u.sec ∧ t.nv = u.nv ∧ t.tel = u.tel ∧ t.pending = u.pending ∧
  t.shep.rings = u.shep.rings ∧ t.shep.fns = u.shep.fns ∧
  (∀ id, (t.desc? id).map (fun d => (d.phase, d.status)) = (u.desc? id).map fun d => (d.phase, d.status)) ∧
  t.tiles.signals = u.tiles.signals ∧ ∀ j, j ≠ ix → t.tile j = u.tile j

/-- R99, R100, R107, R183: MXLOAD fills the shadow set from its rows and records what it loaded, with the rows at or above KROWS
zero; MXSWAP exchanges the sets and frees the regions of the one that becomes inactive, in a tile where no engine waits and no
stream is open. While an MXLOAD is under way both wait. -/
def Obligations.MxloadFillsTheShadowSetAndMxswapExchanges : Prop :=
  ∀ (s u : State) (tile : TileId) (e : Engine) (c : Issuing),
    (∀ f : MxLoad, issuesTo s tile e (.mxload f) c u → loadFieldsOk f = true → operandsOk [f.opnd] [] = true →
      ((u.tile c.ix).loading = true → exec (.mxload tile e {}) s = .next u) ∧
      ((u.tile c.ix).loading = false → (u.tile c.ix).blocked none (resOf [f.opnd]) [] = none →
      let x := u.tile c.ix
      ∃ t y, exec (.mxload tile e {}) s = .next t ∧ t.tile c.ix = y ∧ elsewhere u t c.ix ∧ y.mem = x.mem ∧ y.sems = x.sems ∧
        y.engine e = (x.engine e).advance ∧ y.arr = { x.arr with loads := x.arr.loads + 1, shadow := y.arr.shadow } ∧
        y.arr.shadow.loaded = true ∧ y.arr.shadow.fmt = f.fmt.toNat ∧ y.arr.shadow.part = f.part.toNat ∧
        y.arr.shadow.half = f.half ∧ y.arr.shadow.krows = f.krows.toNat ∧ y.arr.shadow.chkCol = x.arr.loads % 64 ∧
        y.arr.shadow.held = resOf [f.opnd] ∧ y.arr.shadow.backed = true ∧
        ∀ i n, n < 64 → Table.get 0 y.arr.shadow.cells (i * 64 + n) = if i < f.cellRows then (x.loadCell f i n).1 else 0)) ∧
    (issuesTo s tile e .mxswap c u →
      ((u.tile c.ix).loading = true → exec (.mxswap tile e {}) s = .next u) ∧
      ((u.tile c.ix).loading = false →
        exec (.mxswap tile e {}) s = .next ((((u.tagged c).modTile c.ix fun t => (t.modArr ArraySt.swap).retry).advance c).settle tile)) ∧
      ((u.tile c.ix).loading = false → quiet (u.tile c.ix) →
      let x := u.tile c.ix
      ∃ t y, exec (.mxswap tile e {}) s = .next t ∧ t.tile c.ix = y ∧ elsewhere u t c.ix ∧ y.mem = x.mem ∧ y.sems = x.sems ∧
        y.engine e = (x.engine e).advance ∧ y.flights = x.flights ∧
        y.arr = { x.arr with active := x.arr.shadow, shadow := { x.arr.active with held := [], backed := false } }))

/-- R102, R124, R184: MXRUN raises its slot's k-row count by the active set's, records its kind, and, where every row passes its
check and one product group runs, each slot row below M becomes its product row, or with ACC 1 its combination with it; rows at
or above M stay, or are zero where a new kind begins. M = 0 streams nothing. With a prologue record that passes its checks, it
has the record's effect.
R101, R124, R130, R163: the checks of an MXRUN: a pair that the array does not take, a count above 2^24 k-rows, and an FP32e
accumulation under EXACT, each skips it. -/
def Obligations.MxrunDeliversItsProductRowsOrIsSkipped : Prop :=
  (∀ (s u : State) (tile : TileId) (e : Engine) (c : Issuing) (f : MxRun), issuesTo s tile e (.mxrun f) c u → runFieldsOk f = true →
    let x := u.tile c.ix
    let kind := if f.fe then SlotKind.fp32e else SlotKind.exact
    let old := x.arr.slot f.slot.toNat
    let grow := x.arr.active.running.grow f.fmt.toNat
    let used (l : List Opnd) : List Nat := if f.m = 0 then [] else resOf l
    pairOk f.fmt.toNat f.mode.toNat x.arr.active = true → (f.acc = false ∨ old.kind = .none ∨ old.kind = kind) →
    (if f.acc then old.krows else 0) + grow ≤ 2 ^ 24 → (c.d.exact = false ∨ f.fe = false) →
    (∀ pro : Pro, f.proEn = true → u.recordReady c (f.proRec.toNat * 64) 64 = none → pro = proOf (x.readN .store (f.proRec.toNat * 64) 64) →
      let o := x.runOpnds f (some pro)
      let reads := dedup (used o.1 ++ regionsOf (f.proRec.toNat * 64) 64)
      let writes := resAcc f.slot.toNat :: used o.2
      pro.ok f.fmt.toNat = true → (pro.hook = false ∨ u.portEnabled pro.port = true) → operandsOk o.1 o.2 = true →
      x.blocked none reads writes = none →
      exec (.mxrun tile e {}) s = .next ((u.launch c reads writes none).mxrunEffect c {} f (some pro))) ∧
    (f.proEn = false → operandsOk (x.runOpnds f none).1 [] = true →
      x.blocked none (dedup (used (x.runOpnds f none).1 ++ [])) (resAcc f.slot.toNat :: used []) = none →
    ∃ t y, exec (.mxrun tile e {}) s = .next t ∧ t.tile c.ix = y ∧ elsewhere u t c.ix ∧ y.mem = x.mem ∧ y.sems = x.sems ∧
      y.engine e = (x.engine e).advance ∧ y.arr = x.arr.setSlot f.slot.toNat (y.arr.slot f.slot.toNat) ∧
      (y.arr.slot f.slot.toNat).kind = kind ∧
      (y.arr.slot f.slot.toNat).krows = (if f.acc then old.krows else 0) + grow ∧
      (∀ k, f.m.toNat * 64 ≤ k → Table.get 0 (y.arr.slot f.slot.toNat).entries k =
        if f.acc = true ∨ old.kind = kind then Table.get 0 old.entries k else 0) ∧
      ((t.pack c.p).misses = (u.pack c.p).misses → (t.mxPlan c.ix f).parts.length = 1 →
        ∀ m n, m < f.m.toNat → n < 64 →
          let plan := t.mxPlan c.ix f
          let new := (plan.column ((if plan.fe then 2 else 1) * m) m n (plan.stream (plan.parts.getD 0 0) (x.entryRow f none 0 m)) (plan.col n)).1
          Table.get 0 (y.arr.slot f.slot.toNat).entries (m * 64 + n) =
            if f.acc then (combineEntries plan.fe plan.mode (Table.get 0 old.entries (m * 64 + n)) new).1 else new))) ∧
  (∀ (s u : State) (tile : TileId) (e : Engine) (c : Issuing) (f : MxRun), issuesTo s tile e (.mxrun f) c u → f.proEn = false →
    let x := u.tile c.ix
    let kind := if f.fe then SlotKind.fp32e else SlotKind.exact
    let old := x.arr.slot f.slot.toNat
    let used (l : List Opnd) : List Nat := if f.m = 0 then [] else resOf l
    let pair := pairOk f.fmt.toNat f.mode.toNat x.arr.active = true ∧ (f.acc = false ∨ old.kind = .none ∨ old.kind = kind)
    (runFieldsOk f = false → exec (.mxrun tile e {}) s = .next (u.skip c 0x02)) ∧
    (runFieldsOk f = true → ¬pair → exec (.mxrun tile e {}) s = .next (u.skip c 0x05)) ∧
    (runFieldsOk f = true → pair → operandsOk (x.runOpnds f none).1 [] = false → exec (.mxrun tile e {}) s = .next (u.skip c 0x08)) ∧
    (runFieldsOk f = true → pair → operandsOk (x.runOpnds f none).1 [] = true →
      x.blocked none (dedup (used (x.runOpnds f none).1 ++ [])) (resAcc f.slot.toNat :: used []) = none →
      (2 ^ 24 < (if f.acc then old.krows else 0) + x.arr.active.running.grow f.fmt.toNat →
        exec (.mxrun tile e {}) s = .next (u.skip c 0x06)) ∧
      ((if f.acc then old.krows else 0) + x.arr.active.running.grow f.fmt.toNat ≤ 2 ^ 24 → c.d.exact = true → f.fe = true →
        exec (.mxrun tile e {}) s = .next (u.skip c 0x07))))

/-- R98, R185, R202: MXDRAIN without an epilogue writes its rows to DST, raw entries for ACC128, and leaves the slot and all other
bytes; rows do not overlap when DSTRIDE is at least their length. With a record that passes its checks it has the record's
effect. -/
def Obligations.MxdrainWritesItsRows : Prop :=
  ∀ (s u : State) (tile : TileId) (e : Engine) (c : Issuing) (f : MxDrain), issuesTo s tile e (.mxdrain f) c u →
    drainFieldsOk f = true →
    let x := u.tile c.ix
    let used (l : List Opnd) : List Nat := if f.m = 0 then [] else resOf l
    (∀ h : Epi, f.epiEn = true → f.epiRec.toNat * 64 + 128 ≤ 1048576 → u.recordReady c (f.epiRec.toNat * 64) 128 = none →
      h = epiOf (x.readN .store (f.epiRec.toNat * 64) 128) →
      let o := f.opnds (some h)
      let reads := dedup (resAcc f.slot.toNat :: used o.1 ++ regionsOf (f.epiRec.toNat * 64) 128)
      let writes := dedup (used o.2 ++ ((if h.rescales then [resAcc h.target] else []) ++ x.heldRes f h))
      h.ok c.d.strict f.slot.toNat = true → (h.hook = false ∨ u.portEnabled h.port = true) →
      (c.d.strict && f.rnd == 3 && h.ifmt == 0) = false → operandsOk o.1 o.2 = true → h.sendInside f = true → u.sendAllowed c h = true →
      (h.send && h.sendKind == 2 && (f.m != 0 || h.sigEn) && (u.groupRun h.sendGroup).owner.isSome) = false →
      (c.d.strict && h.online) = false → x.blocked none reads writes = none →
      exec (.mxdrain tile e {}) s = .next ((u.launch c reads writes none).drainEffect c f (some h))) ∧
    (f.epiEn = false → operandsOk (f.opnds none).1 (f.opnds none).2 = true →
      x.blocked none (dedup (resAcc f.slot.toNat :: used (f.opnds none).1 ++ [])) (dedup (used (f.opnds none).2 ++ [])) = none →
      f.rowBytes ≤ f.dstride.toNat * 64 →
      let d : DrainCtl := { strict := false, ctl := u.numCtl c.ix, fmt := (fmtOf f.fmt.toNat).getD .fp32, ifmt := .fp32, rnd := f.rnd.toNat
                            ovf := f.ovf.toNat }
      let rows := if f.fmt = 8 then x.rawRows f else (x.plainRows d f none (fun _ => .fin false 1 0) { gen := x.genMx }).1
      ∃ t y, exec (.mxdrain tile e {}) s = .next t ∧ t.tile c.ix = y ∧ elsewhere u t c.ix ∧ y.arr = x.arr ∧ y.sems = x.sems ∧
        y.engine e = (x.engine e).advance ∧
        (∀ m b, m < f.m.toNat → rows[m]? = some b → y.read .store (f.dst.toNat * 64 + m * (f.dstride.toNat * 64)) b.length = b) ∧
        (∀ a, (∀ m, m < f.m.toNat → a < f.dst.toNat * 64 + m * (f.dstride.toNat * 64) ∨
            f.dst.toNat * 64 + m * (f.dstride.toNat * 64) + f.rowBytes ≤ a) →
          y.mem.store.readByte a = x.mem.store.readByte a) ∧ y.mem.x = x.mem.x ∧ y.mem.y = x.mem.y)

/-- The elementwise commands. -/
def elemCommands (tile : TileId) (e : Engine) : List (Instr × ElemOp) :=
  [(.vadd tile e {}, .vadd), (.vmul tile e {}, .vmul), (.vfma tile e {}, .vfma), (.vmax tile e {}, .vmax), (.vmin tile e {}, .vmin),
   (.vtab tile e {}, .vtab), (.vcvt tile e {}, .vcvt)]

/-- Element i of the result, before its rounding (R187). -/
def elemExact (op : ElemOp) (nl : Memory) (table : Nat) (a b d : Machine.Num) : Machine.Num :=
  match op with
  | .vadd => a.add b
  | .vmul => a.mul b
  | .vfma => (a.mul b).add d
  | .vmax => a.max b
  | .vmin => a.min b
  | .vcvt => a
  | .vtab => (vtabEval nl table a (elemPos 4 0)).1

/-- How element `i` is rounded: stochastically with its own draw (R139, R140). -/
def elemRound (mode : RndMode) (g : DWord) (i : Nat) : Round :=
  match mode with
  | .rne => .rne
  | .rtz => .rtz
  | .sr => .sr (genBits (Nat.repeat genStep (i + 1) g))

/-- R134, R137, R139, R187, R188: VADD, VMUL, VFMA, VMAX, VMIN, VTAB and VCVT. Every element of DST is the exact result rounded
once into FMT_D, stochastic rounding with one draw for each; every other byte, and everything else of the tile but the engine, stays. -/
def Obligations.ElementwiseInstructionsRoundOnce : Prop :=
  ∀ (s u : State) (tile : TileId) (e : Engine) (c : Issuing) (op : ElemOp) (f : Elem), issuesTo s tile e (.elem op f) c u →
    elemFieldsOk op f = true →
    let n := f.n.toNat
    let x := u.tile c.ix
    let srcs := elemOpnd f.src1 f.fmt1 n false ::
      ((if op.two then [elemOpnd f.src2 f.fmt2 n f.bc2] else []) ++ (if op == .vfma then [elemOpnd f.src3 f.fmt3 n f.bc3] else []))
    let dst := elemOpnd f.dst f.fmtD n false
    operandsOk srcs [dst] = true → x.blocked none (resOf srcs) (resOf [dst]) = none →
    let fd := (fmtOf f.fmtD.toNat).getD .fp32
    let src (a : BitVec 14) (fmt : BitVec 4) (bc : Bool) (i : Nat) : Machine.Num :=
      x.source ((fmtOf fmt.toNat).getD .fp32) (64 * a.toNat) (if bc then 0 else i)
    let mode := (u.numCtl c.ix).rnd f.rnd.toNat (op == .vcvt && fd != .fp32)
    ∀ p ∈ elemCommands tile e, p.2 = op →
      ∃ t m g fl, exec p.1 s = .next t ∧ elsewhere u t c.ix ∧
        t.tile c.ix = { x.setEngine e (x.engine e).advance with
          flights := x.flights ++ [fl], mem := { x.mem with store := m }, genVe := g } ∧
        (∀ a, a < 64 * f.dst.toNat ∨ 64 * f.dst.toNat + ceilDiv (n * fd.bits) 8 ≤ a → m.readByte a = x.mem.store.readByte a) ∧
        g = (if mode = .sr then Nat.repeat genStep n x.genVe else x.genVe) ∧
          (∀ i, i < n → (t.tile c.ix).elem .store (64 * f.dst.toNat) fd.bits i =
            (fd.convert (elemRound mode x.genVe i) ((u.numCtl c.ix).ieee f.ovf.toNat fd)
              (elemExact op x.mem.nl f.table.toNat (src f.src1 f.fmt1 false i) (if op.two then src f.src2 f.fmt2 f.bc2 i else .zero false)
                (if op == .vfma then src f.src3 f.fmt3 f.bc3 i else .zero false))).code % 2 ^ fd.bits)

/-- R135, R189, R190: VRED writes one reduction per row; VTOPK the indices of the best K of each row, in their order; VSAMPLE
nothing without candidates, else the index drawn, with one draw, and a stop action empties PSEM. -/
def Obligations.RowInstructionsReduceSelectAndSample : Prop :=
  (∀ (s u : State) (tile : TileId) (e : Engine) (c : Issuing) (f : Row), issuesTo s tile e (.row .vred f) c u →
    rowFieldsOk .vred f = true →
    let x := u.tile c.ix
    let dst := { Opnd.flat .store (64 * f.dst.toNat) (ceilDiv (f.rows.toNat * f.fd.bits) 8) f.fd.bits with fmt := some f.fmtD.toNat }
    operandsOk [f.srcOpnd] [dst] = true → x.blocked none (resOf [f.srcOpnd]) (resOf [dst]) = none →
    ∃ t m fl, exec (.vred tile e {}) s = .next t ∧ elsewhere u t c.ix ∧
      t.tile c.ix = { x.setEngine e (x.engine e).advance with flights := x.flights ++ [fl], mem := { x.mem with store := m } } ∧
      (∀ a, a < dst.base ∨ dst.base + dst.len ≤ a → m.readByte a = x.mem.store.readByte a) ∧
      ∀ r, r < f.rows.toNat →
        (t.tile c.ix).elem .store dst.base f.fd.bits r =
          (f.fd.convert (elemRound ((u.numCtl c.ix).rnd f.rnd.toNat false) 0 0) ((u.numCtl c.ix).ieee f.ovf.toNat f.fd) (reduce f.op.toNat ⟨1, 4, r, 0, 0⟩ (f.row x r)).1).code % 2 ^ f.fd.bits) ∧
  (∀ (s u : State) (tile : TileId) (e : Engine) (c : Issuing) (f : Row), issuesTo s tile e (.row .vtopk f) c u →
    rowFieldsOk .vtopk f = true →
    let x := u.tile c.ix
    let k := f.k.toNat
    let dst : Opnd := { base := 64 * f.dst.toNat, stride := rowPitch k f.fd.bits, len := ceilDiv (k * f.fd.bits) 8, rows := f.rows.toNat
                        bits := f.fd.bits, fmt := some f.fmtD.toNat }
    let idx : Opnd := { base := 64 * f.idx.toNat, stride := rowPitch k 32, len := 4 * k, rows := f.rows.toNat, bits := 32 }
    operandsOk [f.srcOpnd] [dst, idx] = true → dst.meets idx = false → x.blocked none (resOf [f.srcOpnd]) (resOf [dst, idx]) = none →
    ∃ t m fl, exec (.vtopk tile e {}) s = .next t ∧ elsewhere u t c.ix ∧
      t.tile c.ix = { x.setEngine e (x.engine e).advance with flights := x.flights ++ [fl], mem := { x.mem with store := m } } ∧
      (∀ a, (∀ r, r < f.rows.toNat → (a < dst.base + r * dst.stride ∨ dst.base + r * dst.stride + dst.len ≤ a) ∧
          (a < idx.base + r * idx.stride ∨ idx.base + r * idx.stride + idx.len ≤ a)) → m.readByte a = x.mem.store.readByte a) ∧
      ∀ r j, r < f.rows.toNat → j < k → ∀ b, (sortNums (if f.op.getLsbD 0 then Machine.Num.before else largestFirst) (f.row x r))[j]? = some b →
        (t.tile c.ix).readN .store (idx.base + r * idx.stride + 4 * j) 4 = b.2 % 2 ^ 32) ∧
  ∀ (s u : State) (tile : TileId) (e : Engine) (c : Issuing) (f : Samp), issuesTo s tile e (.vsample f) c u → sampFieldsOk f = true →
    let x := u.tile c.ix
    let fmt := (fmtOf f.fmt.toNat).getD .fp32
    let src := Opnd.flat .store (64 * f.src.toNat) (f.len.toNat * (fmt.bits / 8)) fmt.bits
    let n := if f.ken then f.k.toNat else f.len.toNat
    let dst := Opnd.flat .store (64 * f.dst.toNat) (if n = 0 then 0 else 4) 32
    operandsOk [src] [dst] = true → x.blocked none (resOf [src]) (resOf [dst]) = none →
    let cand := (sortNums largestFirst ((List.range f.len.toNat).map fun i => x.source fmt src.base i)).take n
    ∃ t fl, exec (.vsample tile e {}) s = .next t ∧ elsewhere u t c.ix ∧
      (n = 0 → t.tile c.ix = { x.setEngine e (x.engine e).advance with flights := x.flights ++ [fl] }) ∧
      (∀ top rest, cand = top :: rest →
        let w := cand.map fun y => (sampleWeight top.1 (bf16.decode f.temp.toNat) y.1)
        ∀ y, cand[samplePick w (genBits (genStep x.genVe))]? = some y →
          (t.tile c.ix).genVe = genStep x.genVe ∧ (t.tile c.ix).readN .store dst.base 4 = y.2 % 2 ^ 32 ∧
          (f.stopEn = true → y.2 = f.stop.toNat → (t.tile c.ix).sem f.psem.toNat = 0) ∧
          (f.stopEn = false ∨ y.2 ≠ f.stop.toNat → (t.tile c.ix).sems = x.sems) ∧
          ∀ a, a < dst.base ∨ dst.base + 4 ≤ a → (t.tile c.ix).mem.store.readByte a = x.mem.store.readByte a)

/-- A word block of the result lies at an address of the tile. -/
def wordsAt (t : TileSt) (k : Side) (a : Nat) (l : List Int) : Prop := ∀ i x, l[i]? = some x → t.spWord k (a + 4 * i) = x

/-- A memory of a tile outside a span, and its other memories, are unchanged. -/
def onlySpan (x y : TileSt) (k : Side) (a n : Nat) : Prop :=
  (∀ b, b < a ∨ a + n ≤ b → (y.mem.side k).readByte b = (x.mem.side k).readByte b) ∧
  (∀ k', k' ≠ k → y.mem.side k' = x.mem.side k') ∧ y.mem.nl = x.mem.nl ∧ y.arr = x.arr ∧ y.sems = x.sems ∧ y.ctxs = x.ctxs

/-- R191 to R195: the results of the five SP instructions, what each does to BE and HEAD, and their frame. -/
def Obligations.SpInstructionsWriteBlocksAndHeadroom : Prop :=
  ∀ (s u : State) (tile : TileId) (e : Engine) (c : Issuing),
    let x := u.tile c.ix
    (∀ f : Fft, issuesTo s tile e (.spfft4 f) c u → f.log4n.toNat ≤ 8 → f.shift ≠ 3 → (f.stage < f.log4n ∨ (f.log4n = 0 ∧ f.stage = 0)) →
      let src := Opnd.flat .store (f.src.toNat * 64) (8 * 4 ^ f.log4n.toNat) 64
      let dst := Opnd.flat .store (f.dst.toNat * 64) (8 * 4 ^ f.log4n.toNat) 64
      operandsOk [src] [dst] = true → x.blocked none (resOf [src]) (resOf [dst]) = none →
      let out := cxWords (fftStage f fun i => x.cx .store (src.base + 8 * i))
      ∃ t, exec (.spfft4 tile e {}) s = .next t ∧ elsewhere u t c.ix ∧ wordsAt (t.tile c.ix) .store dst.base out ∧
        onlySpan x (t.tile c.ix) .store dst.base dst.len ∧ (t.tile c.ix).be = x.be + BitVec.ofNat 16 f.shift.toNat ∧
        (t.tile c.ix).head = leastHead out) ∧
    (∀ f : Mac, issuesTo s tile e (.spmac f) c u → f.n.toNat ≤ 4096 → f.xa.getLsbD 0 = false → f.ya.getLsbD 0 = false →
      f.da.getLsbD 0 = false →
      let a := Opnd.flat .x (4 * f.xa.toNat) (8 * f.n.toNat) 64
      let b := Opnd.flat .y (4 * f.ya.toNat) (8 * f.n.toNat) 64
      let dst := Opnd.flat (if f.dmem then .y else .x) (4 * f.da.toNat) (if f.elem then 8 * f.n.toNat else 8) 64
      operandsOk [a, b] [dst] = true → x.blocked none (resOf [a, b]) (resOf [dst]) = none →
      let out := cxWords ((if f.elem then x.macTerms f else [(x.macTerms f).foldl Cx.add ⟨0, 0⟩]).map fun z => z.narrow (31 + f.shift.toNat))
      ∃ t, exec (.spmac tile e {}) s = .next t ∧ elsewhere u t c.ix ∧ wordsAt (t.tile c.ix) dst.side dst.base out ∧
        onlySpan x (t.tile c.ix) dst.side dst.base dst.len ∧ (t.tile c.ix).be = x.be ∧ (t.tile c.ix).head = leastHead out) ∧
    (∀ f : Blk, spFieldOk f.mem f.addr = true → operandsOk [f.opnd] [] = true →
      let l := x.spWords f.opnd.side f.opnd.base f.n.toNat
      (issuesTo s tile e (.spbexp f) c u → x.blocked none (resOf [f.opnd]) [] = none →
        ∃ t, exec (.spbexp tile e {}) s = .next t ∧ elsewhere u t c.ix ∧ (t.tile c.ix).mem = x.mem ∧ (t.tile c.ix).be = x.be ∧
          (t.tile c.ix).head = leastHead l) ∧
      (∀ (amt : BitVec 6) (h : Bool), issuesTo s tile e (.spnorm f amt h) c u → amt ≠ 0x20 → (h = false ∨ amt = 0) →
        x.blocked none (resOf [f.opnd]) (resOf [f.opnd]) = none →
        let k : Int := if h then x.head else Machine.signed 6 amt.toNat
        let out := l.map fun w => (spShift k w).1
        ∃ t, exec (.spnorm tile e {}) s = .next t ∧ elsewhere u t c.ix ∧ wordsAt (t.tile c.ix) f.opnd.side f.opnd.base out ∧
          onlySpan x (t.tile c.ix) f.opnd.side f.opnd.base f.opnd.len ∧ (t.tile c.ix).be = x.be - BitVec.ofInt 16 k ∧
          (t.tile c.ix).head = leastHead out) ∧
      (∀ (dm : BitVec 2) (da : BitVec 14) (b : Bool), issuesTo s tile e (.spexp f dm da b) c u → spFieldOk dm da = true →
        (b = false ∨ f.n = 0) →
        let dst := Opnd.flat (memSide dm.toNat) (spAddr dm da) (4 * (if b then 1 else f.n.toNat)) 32
        operandsOk [f.opnd] [dst] = true → x.blocked none (resOf [f.opnd]) (resOf [dst]) = none →
        ∃ t, exec (.spexp tile e {}) s = .next t ∧ elsewhere u t c.ix ∧
          wordsAt (t.tile c.ix) dst.side dst.base (if b then [x.be.toInt] else l.map fun w => (headroom w : Int)) ∧
          onlySpan x (t.tile c.ix) dst.side dst.base dst.len ∧ (t.tile c.ix).be = x.be ∧ (t.tile c.ix).head = x.head))

/-! ## Retriever streams and paging (R196 to R200, R234 to R259) -/

/-- R196, R198, R199, R239, R241: RGET, RPUT and RGATHER, their record checked, take their free stream context, and their hub
check unit where the record names one, and go on; the stream then goes as far as its semaphore, its scoreboard and its pages let it. -/
def Obligations.StreamsTakeTheirContext : Prop :=
  ∀ (s u : State) (tile : TileId) (e : Engine) (c : Issuing),
    let x := u.tile c.ix
    let taken (reads : List Nat) (ci : Nat) (k : CtxSt) : State :=
      (u.launch c reads [] (some ci)).modTile c.ix fun t => { t with ctxs := Table.put t.ctxs ci k }
    (∀ (f : Stream) (get : Bool), issuesTo s tile e (if get then .rget f else .rput f) c u → streamFieldsOk f = true →
      let ra := f.rcd.toNat * 64
      let r := streamRecOf (x.readN .store ra 64)
      (∀ q ∈ regionsOf ra 64, (x.pendWrites none).contains q = false) → streamRecOk get (x.readN .store ra 64) = true →
      r.inside f = true → (r.hub = 0 ∨ ((u.crcUnit (r.hub - 1)).owner = none ∧ u.regN (crcCtrlAddr (r.hub - 1)) % 8 ≠ 0)) →
      x.blocked none (regionsOf ra 64) [] = none → x.ctx? f.ctx.toNat = none →
      let n := ceilDiv r.length (2 ^ f.chunk.toNat)
      let v := taken (regionsOf ra 64) f.ctx.toNat
        { kind := if get then .get else .put, pc := c.pc, rcd := r, laddr := f.laddr.toNat * 64, recAddr := ra
          chunkLog2 := f.chunk.toNat, slots := f.slots.toNat, bind := f.bind, empty := f.empty.toNat, full := f.full.toNat
          total := if f.bind then max 1 n else n, crc := r.crc }
      exec (if get then .rget tile e {} else .rput tile e {}) s = .next
        (((if r.hub = 0 then v else v.modCrcUnit (r.hub - 1) fun k => { k with owner := some (c.ix, f.ctx.toNat) }).settle tile).ctxEnd
          tile f.ctx.toNat)) ∧
    ∀ f : Gather, issuesTo s tile e (.rgather f) c u → f.nrows.toNat ≤ 65536 →
      let ra := f.rcd.toNat * 64
      let w := x.readN .store ra 64
      let res := dedup (regionsOf ra 64 ++ regionsOf (f.idx.toNat * 64) (4 * f.nrows.toNat))
      (∀ q ∈ regionsOf ra 64, (x.pendWrites none).contains q = false) → gatherRecOk w = true →
      f.laddr.toNat * 64 + f.nrows.toNat * (f.rowb.toNat * 64) ≤ sideSize (bits w 168 2) →
      f.idx.toNat * 64 + 4 * f.nrows.toNat ≤ 1048576 →
      (bits w 168 2 = 0 → spansMeet (f.laddr.toNat * 64) (f.nrows.toNat * (f.rowb.toNat * 64)) (f.idx.toNat * 64) (4 * f.nrows.toNat) = false) →
      x.blocked none res [] = none → x.ctx? f.ctx.toNat = none →
      exec (.rgather tile e {}) s = .next (((taken res f.ctx.toNat
        { kind := .gather, pc := c.pc, rcd := { base := bits w 0 57, prefetch := bits w 160 5, tmem := bits w 168 2 }
          laddr := f.laddr.toNat * 64, recAddr := ra, total := f.nrows.toNat, idx := f.idx.toNat * 64
          rowBytes := f.rowb.toNat * 64, tstride := bits w 64 64, trows := bits w 128 32 }).settle tile).ctxEnd tile f.ctx.toNat)

/-- R200, R319, R325: RSEND within the Pack copies its bytes to the target tile and nothing else; through a flow it takes the lowest
free context and sends; to a tile outside the Pack it is skipped. RMCAST to a group without receivers completes at once, to one
that this module does not root, or that is disabled, it is tainted, and otherwise it starts at its root. -/
def Obligations.SendsReachTheirTargets : Prop :=
  ∀ (s u : State) (tile : TileId) (e : Engine) (c : Issuing),
    let x := u.tile c.ix
    (∀ f : Send, issuesTo s tile e (.rsend f) c u → f.bytes.toNat ≤ 1048576 → f.bytes.toNat % 64 = 0 → f.comb ≠ 3 →
      (f.comb = 0 ∨ u.mod.grade = .a) →
      f.laddr.toNat * 64 + f.bytes.toNat ≤ 1048576 → f.raddr.toNat * 64 + f.bytes.toNat ≤ 1048576 → (x.freeCtx).isSome = true →
      x.blocked none (regionsOf (f.laddr.toNat * 64) f.bytes.toNat) [] = none →
      let sh := u.shape c.p
      let target := (sh.at f.col.toNat f.row.toNat).ix
      (f.via = false → f.flow = 0 → f.col.toNat < sh.width → f.row.toNat < sh.height →
        (target ≠ c.ix ∨ f.laddr = f.raddr ∨ spansMeet (f.laddr.toNat * 64) f.bytes.toNat (f.raddr.toNat * 64) f.bytes.toNat = false) →
        ∃ t, exec (.rsend tile e {}) s = .next t ∧
          (t.tile target).read .store (f.raddr.toNat * 64) f.bytes.toNat = x.read .store (f.laddr.toNat * 64) f.bytes.toNat ∧
          (∀ a, a < f.raddr.toNat * 64 ∨ f.raddr.toNat * 64 + f.bytes.toNat ≤ a →
            (t.tile target).mem.store.readByte a = (u.tile target).mem.store.readByte a) ∧
          (t.tile c.ix).engine e = (x.engine e).advance ∧ (t.tile c.ix).flights = x.flights ∧
          (target ≠ c.ix → (t.tile c.ix).mem = x.mem) ∧ (∀ j, j ≠ c.ix → j ≠ target → t.tile j = u.tile j) ∧
          t.hbm = u.hbm ∧ t.host = u.host ∧ t.regs = u.regs ∧ t.links = u.links) ∧
      (f.via = true → u.mayUse c.d f.flow.toNat = true → exec (.rsend tile e {}) s = .next (u.sendEffect c f)) ∧
      (f.via = true → u.mayUse c.d f.flow.toNat = false → exec (.rsend tile e {}) s = .next (u.skip c 0x09)) ∧
      (f.via = false → f.flow = 0 → sh.width ≤ f.col.toNat ∨ sh.height ≤ f.row.toNat →
        target ≠ c.ix → exec (.rsend tile e {}) s = .next (u.skip c 0x09))) ∧
    ∀ f : Mcast, issuesTo s tile e (.rmcast f) c u → f.bytes.toNat ≤ 1048576 → f.bytes.toNat % 64 = 0 →
      f.laddr.toNat * 64 + f.bytes.toNat ≤ 1048576 → f.raddr.toNat * 64 + f.bytes.toNat ≤ 1048576 →
      x.blocked none (regionsOf (f.laddr.toNat * 64) f.bytes.toNat) [] = none →
      let g := u.group f.group.toNat
      (g.root = false ∨ g.enabled = false →
        exec (.rmcast tile e {}) s = .next (((u.tagged c).taint tile e.num c.pc 0x08 c.word).advance c)) ∧
      (g.root = true → g.enabled = true →
        (f.bytes = 0 ∨ g.branches = [] → ∃ t, exec (.rmcast tile e {}) s = .next t ∧ engineOnly u t c (x.engine e).advance) ∧
        (∀ ci, f.bytes ≠ 0 → g.branches ≠ [] → x.freeCtx = some ci → (u.groupRun f.group.toNat).owner = none →
          exec (.rmcast tile e {}) s = .next (u.mcastStart c f ci)))

/-- R198, R236, R247, R293: a chunk's data has come, or its writes are visible, once its peers have answered and no frequency change
holds it; a discarded chunk is dropped. The last chunk of a tile's one stream, in host memory: an RGET's bytes stand at their
place in the tile, an RPUT's at theirs in host memory, and the stream retires.
A command that comes while its condition does not hold changes nothing: the model's choice, log entry 6. -/
def Obligations.ChunksLandAndTheStreamRetires : Prop :=
  ∀ (s : State) (tile : TileId) (ci : Fin 16) (d : Desc) (k : CtxSt) (ch : ChunkSt) (rest : List ChunkSt),
    let x := s.tile tile.ix
    let s0 := (s.modCtx tile.ix ci.val fun c => { c with inflight := rest }).netReads (s.netTile tile) (ch.segs.map Seg.len)
    let goes (v : State) : State := ((v.modTile tile.ix TileSt.retry).settle tile).ctxEnd tile ci.val
    s.owner tile = some d → d.phase = .running → x.ctx? ci.val = some k → k.inflight = ch :: rest →
    (s.chunkDone tile.ix ci.val ch = false →
      exec (.chunkResident tile ci {}) s = .next s ∧ exec (.writeAcknowledged tile ci {}) s = .next s) ∧
    (s.chunkDone tile.ix ci.val ch = true → ch.lost = [] →
      (k.kind.inbound = true → exec (.chunkResident tile ci {}) s = .next
        (goes (if ch.discard then s0 else s0.chunkLands tile d ci.val k ch))) ∧
      (k.kind = .put → exec (.writeAcknowledged tile ci {}) s = .next
        (goes ((((s.writeSegs [d.id] ch.segs ch.data).netWrites (s.netTile tile) (ch.segs.map Seg.len)).countEv (s.netTile tile) 0x00A
          (segsLen ch.segs)).modCtx tile.ix ci.val fun c => { c with
            inflight := rest, done := if ch.discard then c.done else c.done + 1 }))) ∧
      ∀ a n, ch.discard = false → (∀ e p q c w, (x.engine e).hold ≠ .wait p q c w) → x.ctxs = [(ci.val, k)] → rest = [] → k.fault = none →
        k.next = k.total →
        k.done + 1 = k.total → k.rcd.conv = 0 → k.rcd.poly = 0 → k.rcd.hub = 0 → k.bind = false → ch.segs = [.host a n] →
        (k.kind = .get → s.hostFails a n = false → ch.len = n →
          ∃ t, exec (.chunkResident tile ci {}) s = .next t ∧
            (t.tile tile.ix).read (sideOf k.rcd.tmem) (k.chunkAddr ch.ix) n = s.host.mem.readBytes a n ∧
            (∀ p, p < k.chunkAddr ch.ix ∨ k.chunkAddr ch.ix + n ≤ p →
              ((t.tile tile.ix).mem.side (sideOf k.rcd.tmem)).readByte p = (x.mem.side (sideOf k.rcd.tmem)).readByte p) ∧
            (t.tile tile.ix).ctxs = [] ∧ (t.tile tile.ix).arr = x.arr ∧ t.host.mem = s.host.mem ∧ t.hbm = s.hbm ∧ t.regs = s.regs ∧
            ∀ j, j ≠ tile.ix → t.tile j = s.tile j) ∧
        (k.kind = .put → ch.data.length = n →
          ∃ t, exec (.writeAcknowledged tile ci {}) s = .next t ∧ t.host.mem = s.host.mem.writeBytes a ch.data ∧ t.hbm = s.hbm ∧
            (t.tile tile.ix).ctxs = [] ∧ (t.tile tile.ix).mem = x.mem ∧ t.regs = s.regs ∧ ∀ j, j ≠ tile.ix → t.tile j = s.tile j))

/-- R247, R248, R250: the tick that samples a fault counts it, writes its LOG, and notes the time; PAGE_TIMEOUT ticks on, at once
where it is 0, the descriptor ends, and before that the time-out does nothing.
A command that comes while its condition does not hold changes nothing: the model's choice, log entry 6. -/
def Obligations.PageFaultsAreReportedAndTimeOut : Prop :=
  ∀ (s : State) (tile : TileId) (ci : Fin 16) (d : Desc) (k : CtxSt) (va kind : Nat) (w : Bool),
    s.owner tile = some d → s.desc? d.id = some d → d.phase = .running → (s.tile tile.ix).ctx? ci.val = some k →
    (k.fault = some (va, kind, w, none) → s.regN 0x60004 ≠ 0 →
      ∃ t, exec (.pageFault tile ci) s = .next t ∧ t.paging.faults = sat 16 (s.paging.faults + 1) ∧
        (∃ k', (t.tile tile.ix).ctx? ci.val = some k' ∧ k'.fault = some (va, kind, w, some s.tick.count)) ∧
        (∃ r, r ∈ t.tel.pend ∧ r.cls = .log ∧ r.code = 0x104) ∧ t.desc? d.id = some d ∧ (t.tile tile.ix).mem = (s.tile tile.ix).mem ∧
        t.hbm = s.hbm ∧ (s.reg64 0x60200 = 0 → t.host = s.host)) ∧
    (k.fault = some (va, kind, w, none) → s.regN 0x60004 = 0 → ∃ t d', exec (.pageFault tile ci) s = .next t ∧
      t.desc? d.id = some d' ∧ d'.phase = .ending ∧ d'.status = 0x23 ∧ t.hbm = s.hbm ∧ t.regs = s.regs) ∧
    ∀ since, k.fault = some (va, kind, w, some since) →
      (s.regN 0x60004 ≤ s.tick.count - since → ∃ t d', exec (.pageFaultTimeout tile ci) s = .next t ∧ t.desc? d.id = some d' ∧
        d'.phase = .ending ∧ d'.status = 0x23 ∧ t.host = s.host ∧ t.hbm = s.hbm ∧ t.regs = s.regs) ∧
      (s.tick.count - since < s.regN 0x60004 → exec (.pageFaultTimeout tile ci) s = .next s)

/-- R57, R245: a batch with a bad entry, an unreadable entry or under another changes no table; one that passes fills the shadow, and
the tables swap at the first tick after it is complete, when the tiles' translation caches lose what they held of the function and
nothing else. An entry maps the whole of its range, and no other when it splits no leaf.
A command that comes while its condition does not hold changes nothing: the model's choice, log entry 6. -/
def Obligations.PageBatchSwapsWholeOrNotAtAll : Prop :=
  (∀ (s : State),
    (s.paging.batch = 1 → exec .pgBatchGo s = .next { s with paging := { s.paging with busyWrite := true } }) ∧
    (s.paging.batch ≠ 1 → s.regN 0x60108 = 0 →
      exec .pgBatchGo s = .next { s with paging := { s.paging with batch := 2, index := 0 } }) ∧
    (∀ i, s.paging.batch ≠ 1 → s.regN 0x60108 ≠ 0 → s.readEdits (s.reg64 0x60100) 0 (s.regN 0x60108) = .error i →
      exec .pgBatchGo s = .next { s with paging := { s.paging with batch := 3, readError := true, index := i } }) ∧
    ∀ l, s.paging.batch ≠ 1 → s.regN 0x60108 ≠ 0 → s.readEdits (s.reg64 0x60100) 0 (s.regN 0x60108) = .ok l →
      (∀ i e, l[i]? = some e → e.ok s.devid = false → (∀ j e', j < i → l[j]? = some e' → e'.ok s.devid = true) →
        exec .pgBatchGo s = .next { s with paging := { s.paging with batch := 3, index := i } }) ∧
      ((∀ e ∈ l, e.ok s.devid = true) → ∃ t, exec .pgBatchGo s = .next t ∧ t.paging.batch = 1 ∧ t.paging.tables = s.paging.tables ∧
        t.paging.batchAt = s.tick.now + ceilDiv (s.regN 0x60108) 16 * 1000 ∧ t.host = s.host ∧ t.hbm = s.hbm ∧ t.tiles = s.tiles)) ∧
  (∀ (s : State) (f : Fn) (tab : PageTable), s.paging.shadow = [(f.val, tab)] →
    (s.paging.batch = 1 → s.paging.batchAt ≤ s.tick.now →
      ∃ t, exec (.tableSwap (.page f)) s = .next t ∧ t.pageTable f.val = tab ∧ t.paging.batch = 2 ∧
        (∀ g, g ≠ f.val → t.pageTable g = s.pageTable g) ∧ t.host = s.host ∧ t.hbm = s.hbm ∧ t.regs = s.regs ∧
        ∀ i, t.tile i = { s.tile i with tlb := (s.tile i).tlb.filter fun e => e.fn != f.val }) ∧
    (s.tick.now < s.paging.batchAt ∨ s.paging.batch ≠ 1 → exec (.tableSwap (.page f)) s = .next s)) ∧
  ∀ (t : PageTable) (va a : Nat) (w : DWord),
    (a / 65536 = va / 65536 → (t.edit va false (some w)).leaf a = some (w, 65536)) ∧
    (a / 65536 ≠ va / 65536 → t.large.find? (fun e => e.1 == va / 2 ^ 21) = none → (t.edit va false (some w)).leaf a = t.leaf a) ∧
    (a / 2 ^ 21 = va / 2 ^ 21 → (t.edit va true (some w)).leaf a = some (w, 2 ^ 21)) ∧
    (a / 65536 = va / 65536 → (t.edit va false none).leaf a = none)

/-- R57, R188, R265, R287, R318: the other tables that swap at a tick: a column's remap becomes that of its migration, so that the
tile lies at its new site; the routing table is rebuilt when a link has gone, where a rebuilt entry gives weight 0 to just the
egresses that are lost and keeps the rest of each; a loaded nonlinear table reaches every tile of its Pack; and a retired frame's
contents stand at its spare.
A command that comes while its condition does not hold changes nothing: the model's choice, log entry 6. -/
def Obligations.TablesSwapAtTheTick : Prop :=
  (∀ (s : State) (c : Fin 32) (m : Move), s.kennel.moves.filter (fun m => m.started && m.tile.col == c) = [m] →
    exec (.tableSwap (.remap c)) s = .next (s.endMove m (m.done.getD false)) ∧
    ((s.endMove m (m.done.getD false)).siteOf m.tile).prow = m.to_.prow) ∧
  (∀ (s : State), (s.links.fabric.rerouteDue = false → exec (.tableSwap .routing) s = .next s) ∧
    (s.links.fabric.rerouteDue = true →
      let u : State := { s with links := { s.links with fabric := { s.links.fabric with
        rerouteDue := false, rerouted := [], usable := s.links.fabric.usable.filter s.linkOpen } } }
      exec (.tableSwap .routing) s = .next (s.links.fabric.active.routes.foldl State.rebuildRoute u).repath) ∧
    (∀ e : Nat × DWord, (∀ x ∈ egressesOf e.2, x.weight = 0 ∨ s.usable x = true) → s.rebuildRoute e = s) ∧
    ∀ (e : Nat × DWord) (y : Egress), y ∈ egressesOf e.2 → y.weight ≠ 0 → s.usable y = false →
      ∃ w : DWord, (s.rebuildRoute e).links.fabric.rerouted = Table.put s.links.fabric.rerouted e.1 w ∧
        ∀ (i : Nat) (x : Egress), (egressesOf e.2)[i]? = some x → ∃ x' : Egress, (egressesOf w)[i]? = some x' ∧ x'.link = x.link ∧ x'.dateline = x.dateline ∧
          (x'.weight = 0 ↔ s.usable x = false)) ∧
  (∀ (s : State) (p : PackIx) (w : TableDue), s.tablesDue p.val = [w] → w.bytes.length = 4096 →
    exec (.tableSwap (.nonlinear p)) s = .next ((s.swapDue w).record w.desc) ∧
    (∀ i ∈ (s.shape w.pack).tiles, ((s.swapDue w).tile i).mem.nl.readBytes (4096 * w.table) 4096 = w.bytes) ∧
    (∀ i, i ∉ (s.shape w.pack).tiles → (s.swapDue w).tile i = s.tile i)) ∧
  ∀ (s : State) (r : RetireSt), s.hbm.retiring.filter RetireSt.done = [r] → s.hbm.wc0 = [] → s.hbm.wc1 = [] →
    r.frame * 65536 < hbmReservedEnd → s.hbm.loc (r.frame * 65536) ≠ hbmReservedEnd + r.spare * 65536 →
    ∃ t, exec (.tableSwap .retirement) s = .next t ∧ Table.get none (t.hbm.retired.map fun e => (e.1, some e.2)) r.frame = some r.spare ∧
      (∀ o, o < 65536 → t.hbm.loc (r.frame * 65536 + o) = hbmReservedEnd + r.spare * 65536 + o ∧
        t.hbm.byteAt (t.hbm.loc (r.frame * 65536 + o)) = s.hbm.byteAt (s.hbm.loc (r.frame * 65536) + o)) ∧
      t.host = s.host ∧ t.tiles = s.tiles ∧ t.regs = s.regs

/-- R252, R293: BAR2 reaches HBM pages of one function; an access past its size is none, one to any other page is refused and counted
and changes no memory; a frequency change holds one to HBM, which is otherwise served: its bytes written, or read and returned, and
an unrecoverable read returns free bytes.
R241, R242, R259: CTRL and VALUE of a hub check unit are written only while it is idle.
A command that comes while its condition does not hold changes nothing: the model's choice, log entry 6. -/
def Obligations.Bar2AndHubUnitsFollowTheirRules : Prop :=
  (∀ (s : State) (off : BitVec 40) (data : List Byte) (len : Nat) (wr : Bool),
    let l := piecesOf ((s.reg64 0x60018 + off.toNat) % 2 ^ 57) len
    let x := s.xlates (s.regN 0x60010 % 64) wr l
    (2 ^ s.host.pcie.bar2 < off.toNat + len → exec (.bar2Access off wr data len) s = .next s) ∧
    (off.toNat + len ≤ 2 ^ s.host.pcie.bar2 →
      (((∃ e, x = .error e) ∨ ∃ gs, x = .ok gs ∧ allHbm gs = false) →
        exec (.bar2Access off wr data len) s = .next { s with paging := { s.paging with
          bar2Refused := sat 32 (s.paging.bar2Refused + 1), bar2Data := none } }) ∧
      (∀ gs, x = .ok gs → allHbm gs = true → s.hbm.held = true →
        exec (.bar2Access off wr data len) s = .next { s with paging := { s.paging with
          bar2Held := s.paging.bar2Held ++ [⟨wr, data, len, gs⟩] } }) ∧
      (∀ gs, x = .ok gs → allHbm gs = true → s.hbm.held = false →
        exec (.bar2Access off wr data len) s = .next (s.bar2Serve wr data len gs)) ∧
      ∀ a n,
        (data.length = n → s.bar2Serve true data len [.hbm a n] = (s.hbmWrite [] a data).netWrites hubInitiator [n]) ∧
        (∀ b v, s.hbmRead [] a n = (some b, v) → ∃ t, s.bar2Serve false data len [.hbm a n] = t ∧ t.paging.bar2Data = some b ∧
          t.hbm = v.hbm ∧ t.host = v.host ∧ t.tiles = v.tiles ∧ t.regs = v.regs) ∧
        ∀ v, s.hbmRead [] a n = (none, v) → ∃ b t, s.bar2Serve false data len [.hbm a n] = t ∧ t.paging.bar2Data = some b ∧
          b.length = len ∧ t.hbm = v.hbm ∧ t.host = v.host ∧ t.tiles = v.tiles ∧ t.regs = v.regs)) ∧
  (∀ (s : State) (u : Fin 8) (v : Word),
    ((s.crcUnit u.val).owner.isSome = true → ∀ r ∈ [CrcReg.ctrl, CrcReg.valueLo, CrcReg.valueHi],
      ∃ t, exec (.crcHubValueWrite u r v) s = .next t ∧ t.crcUnit u.val = { s.crcUnit u.val with writeBusy := true } ∧ t.regs = s.regs) ∧
    ((s.crcUnit u.val).owner = none →
      (∃ t, exec (.crcHubValueWrite u .ctrl v) s = .next t ∧ t.reg (0x150000 + 32 * u.val) = v &&& 0x3FFF ∧ t.paging = s.paging) ∧
      (∃ t, exec (.crcHubValueWrite u .valueLo v) s = .next t ∧ (t.crcUnit u.val).value.extractLsb' 0 32 = v ∧
        (t.crcUnit u.val).value.extractLsb' 32 32 = (s.crcUnit u.val).value.extractLsb' 32 32 ∧ t.regs = s.regs) ∧
      ∃ t, exec (.crcHubValueWrite u .valueHi v) s = .next t ∧ (t.crcUnit u.val).value.extractLsb' 32 32 = v ∧
        (t.crcUnit u.val).value.extractLsb' 0 32 = (s.crcUnit u.val).value.extractLsb' 0 32 ∧ t.regs = s.regs) ∧
    ∃ t, exec (.crcHubValueWrite u .expectLo v) s = .next t ∧ t.reg (0x150008 + 32 * u.val) = v ∧ t.paging = s.paging)

/-- R256 to R258, R270: a packet that fails at a stop on its path is retried up to three times, and each retry is counted there; a
site whose count reaches the limit goes to quarantine. One that still fails is dropped, and its owner ends; a stop off the path
counts nothing. A wake that is under way completes: what waited is delivered, and Packs whose domains are all awake go on. A domain
that has been idle for long enough is gated; NET_STAT_SEL latches the counters.
A command that comes while its condition does not hold changes nothing: the model's choice, log entry 6. -/
def Obligations.NetworkRetriesParksAndWakes : Prop :=
  ∀ (s : State) (src dest stop : NetStop) (load : NetLoad) (n : Nat),
    (n = 0 ∨ stopPassed stop src dest = false → exec (.networkPacket src dest stop n load) s = .next s) ∧
    (0 < n → n ≤ 3 → stopPassed stop src dest = true → exec (.networkPacket src dest stop n load) s = .next (s.countRetries stop n)) ∧
    (3 < n → stopPassed stop src dest = true →
      exec (.networkPacket src dest stop n load) s = .next ((s.countRetries stop 3).dropPacket load)) ∧
    (let b := Table.get 0 s.paging.retries (stopIx stop)
     let u : State := { s with paging := { s.paging with retries := Table.put s.paging.retries (stopIx stop) (b + n) } }
     (∀ x : SiteId, stop = .tile x →
       s.countRetries stop n = if b < Config.stopRetryLimit ∧ Config.stopRetryLimit ≤ b + n then u.quarantine x.ix 3 0 else u) ∧
     ((∀ x, stop ≠ .tile x) → s.countRetries stop n = u)) ∧
    (∀ id, s.dropPacket (.other (some id)) = { s with tiles := { s.tiles with faults := s.tiles.faults ++ [⟨id, stMemory⟩] } }) ∧
    (∀ (tile : TileId) (ci : Fin 16) (d : Desc) (k : CtxSt) (ch : ChunkSt) (rest : List ChunkSt),
      s.owner tile = some d → (s.tile tile.ix).ctx? ci.val = some k → k.inflight = ch :: rest → n < ch.segs.length →
      ∃ t k' ch', s.dropPacket (.piece tile ci n) = t ∧ (t.tile tile.ix).ctx? ci.val = some k' ∧ k'.inflight = ch' :: rest ∧
        n ∈ ch'.lost ∧ ch'.segs = ch.segs ∧ t.tiles.faults = s.tiles.faults ++ [⟨d.id, stMemory⟩] ∧ t.host = s.host ∧ t.hbm = s.hbm) ∧
    (∀ (row : Fin 36) (right : Bool),
      let d := domainIx row.val right
      (s.paging.wakes d = false → exec (.domainWakeComplete row right) s = .next s) ∧
      (s.paging.wakes d = true →
        let u := (List.range 64).foldl State.packWakes { s with paging := { s.paging with
          asleep := s.paging.asleep.filter (· != d), waking := Table.erase s.paging.waking d
          busyAt := Table.put s.paging.busyAt d s.tick.now } }
        exec (.domainWakeComplete row right) s = .next u.releaseInbound ∧ u.paging.asleep.contains d = false ∧
        u.paging.wakes d = false ∧ (∀ p, p < 64 → (s.packDomains p).any u.paging.asleep.contains = false → (u.pack p).waking = false) ∧
        u.tiles.tiles = s.tiles.tiles ∧ u.host = s.host ∧ u.hbm = s.hbm ∧ u.regs = s.regs ∧
        (s.links.fabric.inbound = [] → u.releaseInbound = u)) ∧
      (s.regN 0x110010 = 0 ∨ s.busyDomains.contains d = true ∨ s.paging.asleep.contains d = true ∨
        s.tick.now < Table.get 0 s.paging.busyAt d + 1000 * s.regN 0x110010 → exec (.domainGate row right) s = .next s) ∧
      (s.regN 0x110010 ≠ 0 → s.busyDomains.contains d = false → s.paging.asleep.contains d = false →
        Table.get 0 s.paging.busyAt d + 1000 * s.regN 0x110010 ≤ s.tick.now →
        exec (.domainGate row right) s = .next { s with paging := { s.paging with asleep := s.paging.asleep ++ [d] } })) ∧
    (∀ sel : BitVec 11, sel.toNat ≤ 1216 → exec (.netStatSel sel) s = .next { s with paging := { s.paging with
      sel := sel.toNat, latched := Table.get {} s.paging.counts sel.toNat } }) ∧
    (∀ sel : BitVec 11, 1216 < sel.toNat → exec (.netStatSel sel) s = .next { s with paging := { s.paging with sel := sel.toNat } })

/-! ## HBM (R277 to R297) -/

/-- Every code unit of a stripe stands clean, on working stacks and on no suspect row. -/
def cleanStripe (s : State) (stripe : Nat) : Prop :=
  ∀ p, p < 6 → s.unitLost ⟨stripe, p⟩ = false ∧ s.suspectUnit ⟨stripe, p⟩ = false ∧ ∀ c, c < 8 → s.cellBad ⟨⟨stripe, p⟩, c⟩ = 0

/-- The stored parity of a stripe is the XOR of its data. -/
def parityExact (s : State) (stripe : Nat) : Prop := ∀ e ∈ s.hbm.par, e.1 / 256 ≠ stripe

/-- What a command of HBM leaves alone. -/
def besidesHbm (s t : State) : Prop := t.host = s.host ∧ t.regs = s.regs ∧ t.shep = s.shep ∧ t.links = s.links ∧ t.tiles.tiles = s.tiles.tiles

/-- R284, R285, R291, R293: the bytes of a write within a unit enter the write-combining buffer of its stripe, unless a frequency change
holds them; where they begin a buffer, reads see them at once, no other byte changes, and memory stays. Memory changes when the buffer
is written, and then holds the buffer's bytes and no other change; a write to a group that has lost its data changes nothing and
ends its writers. -/
def Obligations.HbmWritesAreVisibleInTheirBuffer : Prop :=
  ∀ (s : State),
    (∀ (a : BitVec 40) (b : List Byte) (w : Option Nat) (errs : List UnitErr),
      let l := s.hbm.loc a.toNat
      let u := unitOf l
      (360 * 2 ^ 30 ≤ a.toNat ∨ 360 * 2 ^ 30 < a.toNat + b.length → exec (.hbmWrite a b w errs) s = .fault .noSuchAddress) ∧
      (a.toNat + b.length ≤ 360 * 2 ^ 30 → a.toNat < 360 * 2 ^ 30 →
        (s.hbm.held = true → s.hbm.lostGroup u.grp = false →
          exec (.hbmWrite a b w errs) s = .next ((s.unitHit u.stripe errs).modHbm fun h =>
            { h with waiting := h.waiting ++ [⟨a.toNat, some b, w⟩] })) ∧
        (s.hbm.held = false → a.toNat % 256 + b.length ≤ 256 → b ≠ [] →
          exec (.hbmWrite a b w errs) s = .next (((s.unitHit u.stripe errs).touchStack u.stack).bufferSpan l b w.toList) ∧
          ((∀ x ∈ s.hbm.bufs (u.stripe % 2), x.stripe ≠ u.stripe) → (s.hbm.bufs (u.stripe % 2)).length < 64 →
            ∃ t, exec (.hbmWrite a b w errs) s = .next t ∧ (∀ i x, b[i]? = some x → t.hbm.byteAt (l + i) = x) ∧
              (∀ m, m < l ∨ l + b.length ≤ m → t.hbm.byteAt m = s.hbm.byteAt m) ∧ t.hbm.data = s.hbm.data ∧ t.tiles = s.tiles ∧
              besidesHbm s t)))) ∧
    ∀ (g : Fin 2) (b : WcBuf) (rest : List WcBuf), s.hbm.bufs g.val = b :: rest → cleanStripe s b.stripe →
      (s.hbm.lostGroup (b.stripe % 2) = false → ∃ t, exec (.wcBufferFlush g []) s = .next t ∧ t.hbm.bufs g.val = rest ∧
        t.hbm.data = b.bytes.foldl (fun m e => m.writeByte (b.stripe * 1280 + e.1) e.2) s.hbm.data ∧
        cleanStripe t b.stripe ∧ t.tiles = s.tiles ∧ besidesHbm s t) ∧
      (s.hbm.lostGroup (b.stripe % 2) = true → (∀ e ∈ b.bytes, s.hbm.addrOf (b.stripe * 1280 + e.1) < 320 * 2 ^ 30) →
        ∃ t, exec (.wcBufferFlush g []) s = .next t ∧ t.hbm.bufs g.val = rest ∧ t.hbm.data = s.hbm.data ∧
          t.tiles.faults = s.tiles.faults ++ b.writers.map (⟨·, stMemory⟩) ∧ besidesHbm s t)

/-- R278, R282, R283, R285, R291, R293: one erroneous symbol of a code unit is corrected and counted, two are reconstructed from the
other five units and counted; data and host memory stay. With two units in error the read is unrecoverable, as every read of a group
that has lost its data is: it ends its reader, or Muzzles the module for a reserved address. What a buffer holds is not read from
memory. A frequency change holds the request. An address the module lacks is refused.
R286, R292: a patrol read of a stripe whose six units decode rewrites a parity that does not equal the XOR of the data, counts that
and raises a LOG; the last stripe of a group counts a pass on each of its stacks. It wakes the stacks; one that has slept for less
than a second, like a patrol that is off or held, gives no read.
A command that comes while its condition does not hold changes nothing: the model's choice, log entry 6. -/
def Obligations.HbmReadsAndPatrolRepair : Prop :=
  (∀ (s : State) (a : BitVec 40) (id : Nat) (p q : Fin 6) (errs : List UnitErr),
    let l := s.hbm.loc a.toNat
    let c := cellOf l
    let u := c.unit
    let col : Fin 8 := Fin.ofNat 8 c.col
    let fails (t : State) : Prop :=
      (a.toNat < 320 * 2 ^ 30 → t.tiles.faults = s.tiles.faults ++ [⟨id, stMemory⟩] ∧ t.muzzle = s.muzzle) ∧
      (320 * 2 ^ 30 ≤ a.toNat → a.toNat < 336 * 2 ^ 30 →
        t.tiles = s.tiles ∧ t.muzzle.triggers = s.muzzle.triggers ++ [⟨.module, 0x01⟩])
    (360 * 2 ^ 30 ≤ a.toNat → exec (.hbmRead a (some id) errs) s = .fault .noSuchAddress) ∧
    (a.toNat < 360 * 2 ^ 30 → s.hbm.held = true → s.hbm.lostGroup u.grp = false →
      exec (.hbmRead a (some id) errs) s = .next ((s.unitHit u.stripe errs).modHbm fun h =>
        { h with waiting := h.waiting ++ [⟨a.toNat, none, some id⟩] })) ∧
    (a.toNat < 360 * 2 ^ 30 → s.hbm.lostGroup u.grp = true → s.hbm.buffered l = none →
      ∃ t, exec (.hbmRead a (some id) errs) s = .next t ∧ fails t ∧ t.hbm.data = s.hbm.data ∧ besidesHbm s t) ∧
    (a.toNat < 360 * 2 ^ 30 → s.hbm.held = false → (s.hbm.buffered l).isSome = true →
      exec (.hbmRead a (some id) errs) s = .next ((s.unitHit u.stripe errs).touchStack u.stack)) ∧
    (a.toNat < 360 * 2 ^ 30 → s.hbm.held = false → s.hbm.lostGroup u.grp = false → s.hbm.buffered l = none → cleanStripe s u.stripe →
      parityExact s u.stripe → p.val = u.pos → q ≠ p →
      (∃ t, exec (.hbmRead a (some id) []) s = .next t ∧ t.hbm.data = s.hbm.data ∧ t.hbm.bad = s.hbm.bad ∧ t.tiles = s.tiles ∧
        t.muzzle = s.muzzle ∧ besidesHbm s t) ∧
      (∃ t, exec (.hbmRead a (some id) [⟨p, col, 1⟩]) s = .next t ∧ t.cellBad c = 0 ∧
        (t.stack u.stack).ce = sat 32 ((s.stack u.stack).ce + 1) ∧ t.hbm.data = s.hbm.data ∧ t.tiles = s.tiles ∧ t.muzzle = s.muzzle ∧
        besidesHbm s t) ∧
      (∃ t, exec (.hbmRead a (some id) [⟨p, col, 2⟩]) s = .next t ∧ t.cellBad c = 0 ∧
        (t.stack u.stack).repaired = sat 16 ((s.stack u.stack).repaired + 1) ∧ (t.stack u.stack).lastErr = c.local ∧
        t.hbm.data = s.hbm.data ∧ t.tiles = s.tiles ∧ t.muzzle = s.muzzle ∧ besidesHbm s t) ∧
      ∃ t, exec (.hbmRead a (some id) [⟨p, col, 2⟩, ⟨q, col, 2⟩]) s = .next t ∧
        (t.stack u.stack).unrepaired = sat 16 ((s.stack u.stack).unrepaired + 1) ∧ t.hbm.data = s.hbm.data ∧ fails t ∧ besidesHbm s t)) ∧
  (∀ (s : State) (g : Fin 2) (n : Nat) (errs : List UnitErr),
    (s.regN 0x83054 % 2 = 0 ∨ 150994944 ≤ n ∨ s.hbm.held = true ∨ (∃ j ∈ groupStacks g.val, s.patrolMay j = false) →
      exec (.patrolRead g n errs) s = .next s) ∧
    (s.regN 0x83054 % 2 = 1 → n < 150994944 → s.hbm.held = false → (∀ j ∈ groupStacks g.val, s.patrolMay j = true) →
      cleanStripe s (2 * n + g.val) →
      let k := UnitId.stack ⟨2 * n + g.val, 5⟩
      ∃ t, exec (.patrolRead g n []) s = .next t ∧ t.hbm.data = s.hbm.data ∧ t.tiles = s.tiles ∧ t.muzzle = s.muzzle ∧ besidesHbm s t ∧
        t.hbm.par = s.hbm.par.filter (fun e => e.1 / 256 != 2 * n + g.val) ∧
        (parityExact s (2 * n + g.val) → t.tel.pend = s.tel.pend ∧ (t.stack k).parityRepaired = (s.stack k).parityRepaired) ∧
        (¬ parityExact s (2 * n + g.val) → (t.stack k).parityRepaired = sat 16 ((s.stack k).parityRepaired + 1) ∧
          ∃ e, t.tel.pend = s.tel.pend ++ [e] ∧ e.cls = .log ∧ e.code = 0x106) ∧
        (∀ j ∈ groupStacks g.val, (t.stack j).asleep = false) ∧
        (n + 1 = 150994944 → ∀ j ∈ groupStacks g.val, (t.stack j).passes = sat 16 ((s.stack j).passes + 1)) ∧
        (n + 1 < 150994944 → ∀ j, (t.stack j).passes = (s.stack j).passes)))

/-- R287 to R292, R295: retirement takes the lowest free spare frame, the last of which exhausts the pool, or is refused; its copy
completes when every unit of the frame can be read, or is abandoned with a LOG and the spare freed; failures wait for the tick, where
a failed stack is recorded with an ALARM and a second loss Muzzles the module, and the failure of a training waits for its Dawn. A
stack that has been idle for long enough enters self-refresh, and no other changes.
R285, R293, R294: the steps of a frequency change in order: the buffers are written, the working stacks enter self-refresh and the
committed values of G5 become active; the stacks leave it and retrain; the point becomes current, a stack or pseudo-channel that
failed retraining is to be declared failed, and what was held is released. A step out of its place does nothing. A transaction
that takes too long is an unrecoverable one, and is no longer held.
A command that comes while its condition does not hold changes nothing: the model's choice, log entry 6. -/
def Obligations.RetirementFailuresAndFrequencyFollowTheirRules : Prop :=
  (∀ (s : State),
    (∀ f : BitVec 23,
      let under := s.hbm.retiring.any fun r => r.frame == f.toNat
      (320 * 2 ^ 30 ≤ f.toNat * 65536 → exec (.hbmRetireCmd f) s = .next { s with hbm := { s.hbm with cmdStatus := 3 } }) ∧
      (f.toNat * 65536 < 320 * 2 ^ 30 → under = true → exec (.hbmRetireCmd f) s = .next s) ∧
      (∀ n, f.toNat * 65536 < 320 * 2 ^ 30 → under = false → s.hbm.freeSpare = some n →
        ∃ t, exec (.hbmRetireCmd f) s = .next t ∧ t.hbm.retiring = s.hbm.retiring ++ [⟨f.toNat, n, none, false⟩] ∧
          t.hbm.exhausted = (s.hbm.exhausted || decide (spareFrames ≤ s.hbm.sparesUsed + 1)) ∧
          t.hbm.cmdStatus = 1 ∧ t.hbm.data = s.hbm.data ∧ t.tiles = s.tiles ∧ besidesHbm s t) ∧
      (f.toNat * 65536 < 320 * 2 ^ 30 → under = false → s.hbm.freeSpare = none →
        exec (.hbmRetireCmd f) s = .next { s with hbm := { s.hbm with
          exhausted := true, refused := sat 11 (s.hbm.refused + 1), cmdStatus := 3 } })) ∧
    (s.hbm.retiring.all RetireSt.done = true ∨ s.hbm.held = true → exec .retirementCopyDone s = .next s) ∧
    (∀ r, s.hbm.retiring = [r] → r.done = false → s.hbm.held = false →
      let l := s.hbm.loc (r.frame * 65536)
      (s.weakCells l = [] → s.hbm.lost0 = false → s.hbm.lost1 = false →
        exec .retirementCopyDone s = .next { s with hbm := { s.hbm with retiring := [{ r with done := true }] } }) ∧
      ∀ (ok : Bool) (v : State), s.readCells (s.weakCells l) = (ok, v) →
        (ok = true → (∀ c ∈ frameCells l, s.hbm.lostGroup c.unit.grp = false) →
          exec .retirementCopyDone s = .next (v.modHbm fun h => { h with retiring := h.retiring.map fun x =>
            if x.frame == r.frame then { x with done := true } else x })) ∧
        (ok = false ∨ (∃ c ∈ frameCells l, s.hbm.lostGroup c.unit.grp = true) →
          ∃ t, exec .retirementCopyDone s = .next t ∧ t.hbm.retiring = v.hbm.retiring.filter (fun x => x.frame != r.frame) ∧
            t.hbm.retired = v.hbm.retired ∧ t.hbm.exhausted = false ∧ t.hbm.data = v.hbm.data ∧
            (∃ e, t.tel.pend = v.tel.pend ++ [e] ∧ e.cls = .log ∧ e.code = 0x107) ∧ t.tiles = v.tiles ∧ besidesHbm v t)) ∧
    (∀ (k : StackIx) (pc : Fin 32),
      let due (x : Nat × Option Nat) : State :=
        { s with hbm := { s.hbm with failDue := if s.hbm.failDue.contains x then s.hbm.failDue else s.hbm.failDue ++ [x] } }
      (s.mod.power = .running → exec (.stackFailed k) s = .next (due (k.val, none))) ∧
      (s.mod.power ≠ .running →
        exec (.stackFailed k) s = .next { s with hbm := { s.hbm with untrained := s.hbm.untrained ++ [k.val] } }) ∧
      (s.hbm.phase = .retraining ∨ 16 ≤ (s.recentUes k.val pc.val).length →
        exec (.pseudoChannelFailed k pc) s = .next (due (k.val, some pc.val))) ∧
      (s.hbm.phase ≠ .retraining → (s.recentUes k.val pc.val).length < 16 → exec (.pseudoChannelFailed k pc) s = .next s) ∧
      (s.hbm.failDue = [(k.val, none)] →
        let t := s.applyFails
        (t.stack k.val).failed = true ∧ t.hbm.failDue = [] ∧ Table.get false t.nv.failedStacks k.val = true ∧
          (∃ e ∈ t.tel.pend, e.cls = .alarm ∧ e.code = 9 ∧ e.inst = k.val) ∧
          (∀ j, j ∈ groupStacks (k.val / 6) → j ≠ k.val → (s.stack j).failed = true → s.hbm.lost0 = false → s.hbm.lost1 = false →
            (⟨.module, 0x0B⟩ : Trigger) ∈ t.muzzle.triggers)) ∧
      (s.hbm.failDue = [(k.val, some pc.val)] → (s.applyFails.stack k.val).failedPc.getLsbD pc.val = true)) ∧
    ∀ (k : StackIx),
      (s.stackIdle k.val s.tick.next = true → (s.stack k.val).failed = false → (s.stack k.val).asleep = false →
        ∃ t, exec (.selfRefreshEntry k) s = .next t ∧ (t.stack k.val).asleep = true ∧
          (t.stack k.val).srEntries = sat 16 ((s.stack k.val).srEntries + 1) ∧ (∀ j, j ≠ k.val → t.stack j = s.stack j) ∧
          t.hbm.data = s.hbm.data ∧ t.tiles = s.tiles ∧ besidesHbm s t) ∧
      (s.stackIdle k.val s.tick.next = false ∨ (s.stack k.val).failed = true ∨ (s.stack k.val).asleep = true →
        exec (.selfRefreshEntry k) s = .next s)) ∧
  (∀ (s : State),
    (s.hbm.phase = .draining →
      ∃ t, exec .freqChangeDrained s = .next t ∧ t.hbm.phase = .refreshing ∧ t.hbm.data = s.flushAll.hbm.data ∧ t.hbm.op = s.hbm.op ∧
        t.hbm.wc0 = [] ∧ t.hbm.wc1 = [] ∧ (s.hbm.wc0 = [] → s.hbm.wc1 = [] → t.hbm.data = s.hbm.data ∧ t.tiles = s.tiles) ∧
        t.regs.active = (match s.hbm.shadow with
          | some g => copyGroup s.mod.grade 5 0 g s.regs.active
          | none => s.regs.active) ∧
        (∀ k, k < 12 → (s.stack k).failed = false → (t.stack k).asleep = true ∧
          (t.stack k).srEntries = if (s.stack k).asleep then (s.stack k).srEntries else sat 16 ((s.stack k).srEntries + 1)) ∧
        t.host = s.host ∧ t.links = s.links ∧ t.tiles.tiles = s.tiles.tiles) ∧
    (s.hbm.phase = .refreshing → ∃ t, exec .freqChangeLocked s = .next t ∧ t.hbm.phase = .retraining ∧ t.hbm.data = s.hbm.data ∧
      (∀ k, k < 12 → (t.stack k).asleep = false) ∧ t.tiles = s.tiles ∧ besidesHbm s t) ∧
    (∀ l : List (StackIx × Option (Fin 32)), s.hbm.phase = .retraining →
      ∃ v, exec (.freqChangeRetrained l) s = .next v.releaseHbm.bar2Release ∧ v.hbm.phase = .idle ∧
        v.hbm.held = false ∧ v.hbm.op = s.hbm.target ∧ v.hbm.changes = sat 16 (s.hbm.changes + 1) ∧
        (∀ e ∈ l, (e.1.val, e.2.map Fin.val) ∈ v.hbm.failDue) ∧
        (∀ k, k < 12 → (v.stack k).trained = (!(s.stack k).failed && !l.any fun e => e.1.val == k && e.2.isNone)) ∧
        v.hbm.waiting = s.hbm.waiting ∧ v.paging = s.paging ∧ v.hbm.data = s.hbm.data ∧ v.tiles = s.tiles ∧ besidesHbm s v ∧
        (s.hbm.waiting = [] → s.paging.bar2Held = [] → v.releaseHbm.bar2Release = v)) ∧
    (s.hbm.phase ≠ .draining → exec .freqChangeDrained s = .next s) ∧
    (s.hbm.phase ≠ .refreshing → exec .freqChangeLocked s = .next s) ∧
    (∀ l, s.hbm.phase ≠ .retraining → exec (.freqChangeRetrained l) s = .next s) ∧
    ∀ (a : BitVec 40) (w : Option Nat),
      let k := (unitOf (s.hbm.loc a.toNat)).stack
      (360 * 2 ^ 30 ≤ a.toNat → exec (.hbmTransactionTimeout a w) s = .fault .noSuchAddress) ∧
      (a.toNat < 360 * 2 ^ 30 → ∃ t, exec (.hbmTransactionTimeout a w) s = .next t ∧
        (t.stack k).unrepaired = sat 16 ((s.stack k).unrepaired + 1) ∧
        t.hbm.waiting = s.hbm.waiting.filter (fun q => !(q.addr == a.toNat && q.owner == w)) ∧
        (a.toNat < 320 * 2 ^ 30 → t.tiles.faults = s.tiles.faults ++ w.toList.map (⟨·, stMemory⟩) ∧ t.muzzle = s.muzzle) ∧
        (320 * 2 ^ 30 ≤ a.toNat → a.toNat < 336 * 2 ^ 30 →
          t.tiles = s.tiles ∧ t.muzzle.triggers = s.muzzle.triggers ++ [⟨.module, 0x01⟩]) ∧
        t.hbm.data = s.hbm.data ∧ besidesHbm s t))

/-! ## Links (R298 to R331) -/

/-- Nothing but the links has changed. -/
def onlyLinks (s t : State) : Prop := t = { s with links := t.links }

/-- Nothing but the links, the counters of events and the telemetry that waits has changed. -/
def onlyLinkSide (s t : State) : Prop := t = { s with links := t.links, cnt := t.cnt, tel := t.tel }

/-- Link n has failed in both directions, with an ALARM, and the routes are to be rebuilt. -/
def wentDown (s t : State) (n : Nat) : Prop :=
  (t.link n).tx = .down ∧ (t.link n).rx = .down ∧ (t.link n).downs = sat 16 ((s.link n).downs + 1) ∧
  t.links.fabric.rerouteDue = true ∧ (∃ e, t.tel.pend = s.tel.pend ++ [e] ∧ e.cls = .alarm ∧ e.code = 0x000B ∧ e.inst = n) ∧
  (∀ k, k ≠ n → t.link k = s.link k)

/-- R303, R304, R306, R309, R311: LNK_CFG is taken at the tick; a training ends UP with at most one lane of each direction replaced, or
DOWN, and after eight failures in succession the link stays there; it trains again after its wait; symbol-lock loss, and 100 µs
without an acknowledgement, take both directions DOWN.
A command that comes while its condition does not hold changes nothing: the model's choice, log entry 6. -/
def Obligations.LinksTrainAndFail : Prop :=
  ∀ (s : State) (n : LinkIx) (w : Word) (badRx badTx : List (Fin 5)) (far : Bool) (at_ : Nat) (lane : Fin 5),
    let l := s.link n.val
    let m := s.meas n.val
    let failed : LinkSt := { l with tx := .down, rx := .down, failures := l.failures + 1, parked := decide (8 ≤ l.failures + 1) }
    let rx := failedLanes badRx
    let tx := failedLanes badTx
    let noRef := l.cfg.getLsbD 1 = true ∧ s.mod.pins.lref = false
    (l.tx = .fused → exec (.lnkCfgWrite n w) s = .next s) ∧
    (l.tx ≠ .fused → exec (.lnkCfgWrite n w) s = .next (s.modLink n.val fun l => { l with cfgDue := some (w &&& 3) })) ∧
    (l.tx ≠ .train → exec (.linkTraining n badRx badTx far at_) s = .next s ∧ exec (.trainingStepTimeout n) s = .next s) ∧
    (l.tx = .train →
      exec (.trainingStepTimeout n) s = .next (s.setLink n.val failed) ∧
      (noRef ∨ (far = l.cfg.getLsbD 1 ∧ (1 < rx.length ∨ 1 < tx.length)) →
        exec (.linkTraining n badRx badTx far at_) s = .next (s.setLink n.val failed)) ∧
      (¬ noRef → far ≠ l.cfg.getLsbD 1 → ∃ t, exec (.linkTraining n badRx badTx far at_) s = .next t ∧
        t.link n.val = { failed with clockMismatch := true } ∧ onlyLinks s t) ∧
      (¬ noRef → far = l.cfg.getLsbD 1 → rx.length ≤ 1 → tx.length ≤ 1 →
        ∃ v : State, exec (.linkTraining n badRx badTx far at_) s = .next (v.sendProbe at_).pump ∧ onlyLinks s v ∧
          v.links.fabric.rerouteDue = true ∧ v.link n.val = { l with
            tx := .up, rx := .up, failures := 0, rxMap := rx.foldl swapLane 0x4688, txMap := tx.foldl swapLane 0x4688 })) ∧
    (l.tx = .down → l.parked = false → ∃ t, exec (.retrainTimer n) s = .next t ∧ onlyLinks s t ∧ (t.link n.val).tx = .train ∧
      (t.link n.val).rx = .train ∧ (t.link n.val).retrains = sat 16 (l.retrains + 1)) ∧
    (l.tx ≠ .down ∨ l.parked = true → exec (.retrainTimer n) s = .next s) ∧
    (l.rx = .up ∨ l.rx = .swap → (dataLane l.rxMap lane.val).isSome = true →
      ∃ t, exec (.symbolLockLoss n lane) s = .next t ∧ wentDown s t n.val ∧ onlyLinkSide s t) ∧
    ((l.rx ≠ .up ∧ l.rx ≠ .swap) ∨ (dataLane l.rxMap lane.val).isSome = false → exec (.symbolLockLoss n lane) s = .next s) ∧
    (l.tx.alive = true → m.retry ≠ [] → m.ackAt + 100000 ≤ s.tick.next →
      ∃ t, exec (.linkAckTimeout n) s = .next t ∧ wentDown s t n.val ∧ onlyLinkSide s t) ∧
    (l.tx.alive = false ∨ m.retry = [] ∨ s.tick.next < m.ackAt + 100000 → exec (.linkAckTimeout n) s = .next s)

/-- R298 to R300, R305 to R308: a lane recovers the pairs that its sender precoded; a codeword's corrected bits count by lane, an
uncorrectable one counts and the seventeenth of a window takes the link DOWN; a window's counts close, and the worst data lane over
threshold gives its place to a usable monitor; the swap goes through its steps; a direction sleeps and wakes by itself.
A command that comes while its condition does not hold changes nothing: the model's choice, log entry 6. -/
def Obligations.LanesGiveTheirPlaceToTheMonitor : Prop :=
  (∀ (y : BitVec 2) (l : List (BitVec 2)), (recoverLane y (sendLane y l).1).1 = l ∧
    (recoverLane y (sendLane y l).1).2 = (sendLane y l).2) ∧
  (∀ (s : State) (n : LinkIx) (sent : List (BitVec 10)) (levels : List (List (Fin 4))) (marks : List LaneMarker),
    let l := s.link n.val
    let m := s.meas n.val
    let lanes := (List.zip m.rxPre levels).map fun e => recoverLane e.1 e.2
    let wrong := wrongSymbols sent (laneSymbols l.rxMap (lanes.map Prod.fst))
    (l.rx ≠ .up → l.rx ≠ .swap → exec (.codewordReceive n (.data sent levels)) s = .next s) ∧
    (l.rx = .up ∨ l.rx = .swap →
      (wrong.length ≤ 15 → ∃ t, exec (.codewordReceive n (.data sent levels)) s = .next t ∧ onlyLinks s t ∧
        t.link n.val = { l with rx := .up } ∧
        (t.meas n.val).errs = (List.zip m.errs (laneErrors l.rxMap wrong)).map (fun e => e.1 + e.2)) ∧
      (15 < wrong.length → ∃ v : State, exec (.codewordReceive n (.data sent levels)) s = .next (v.uncorrectable n.val) ∧ onlyLinks s v ∧
        v.link n.val = l ∧ (v.meas n.val).windowUncorr = m.windowUncorr)) ∧
    (l.rx = .up ∨ l.rx = .swap ∨ l.rx = .wake →
      (markerAligns marks = false → exec (.codewordReceive n (.marker marks)) s = .next (s.uncorrectable n.val)) ∧
      (markerAligns marks = true → l.rx ≠ .wake → exec (.codewordReceive n (.marker marks)) s = .next s) ∧
      (markerAligns marks = true → l.rx = .wake →
        exec (.codewordReceive n (.marker marks)) s = .next (s.modLink n.val fun l => { l with rx := .up }))) ∧
    (l.rx ≠ .up → l.rx ≠ .swap → l.rx ≠ .wake → exec (.codewordReceive n (.marker marks)) s = .next s) ∧
    (l.rx = .up → ∃ t, exec (.codewordReceive n .sleep) s = .next t ∧ onlyLinks s t ∧ t.link n.val = { l with rx := .sleep }) ∧
    (l.rx ≠ .up → exec (.codewordReceive n .sleep) s = .next s) ∧
    (l.rx ≠ .swap → m.windowUncorr = 16 → wentDown s (s.uncorrectable n.val) n.val ∧ onlyLinkSide s (s.uncorrectable n.val)) ∧
    (l.rx ≠ .swap → m.windowUncorr < 16 → s.uncorrectable n.val =
      ((s.modLink n.val fun l => { l with uncorr := sat 32 (l.uncorr + 1) }).modMeas n.val fun m => { m with
        nakDue := true, windowUncorr := m.windowUncorr + 1 })) ∧
    (l.rx = .swap → m.windowUncorr ≤ 16 → s.uncorrectable n.val =
      ((s.modLink n.val fun l => { l with uncorr := sat 32 (l.uncorr + 1) }).modMeas n.val fun m => { m with nakDue := true }))) ∧
  (∀ (s : State) (n : LinkIx) (mon phys : Nat),
    let l := s.link n.val
    let m := s.meas n.val
    let counts := (m.errs.set (laneOf l.rxMap 4) mon).map (sat 32)
    (l.rx.alive = false → exec (.laneWindowClose n mon) s = .next s) ∧
    (l.rx.alive = true → m.slept = true ∨ l.rx = .sleep ∨ l.rx = .wake →
      ∃ t, exec (.laneWindowClose n mon) s = .next t ∧ onlyLinks s t ∧ (t.meas n.val).closed = m.closed ∧ t.link n.val = l) ∧
    (l.rx.alive = true → m.slept = false → l.rx ≠ .sleep → l.rx ≠ .wake →
      (l.thresh.toNat < mon → ∃ t, exec (.laneWindowClose n mon) s = .next t ∧ onlyLinkSide s t ∧ (t.meas n.val).closed = counts ∧
        (t.meas n.val).swapRx = m.swapRx ∧ (t.link n.val).monitorBad = true ∧
        ∃ e, t.tel.pend = s.tel.pend ++ [e] ∧ e.cls = .log ∧ e.code = 0x0105) ∧
      (mon ≤ l.thresh.toNat → l.thresh ≠ 0 → l.rx = .up → m.swapRx = none → worstLane l counts = some phys →
        ∃ t, exec (.laneWindowClose n mon) s = .next t ∧ onlyLinks s t ∧ (t.meas n.val).closed = counts ∧
          t.links.fabric.lanesOut = s.links.fabric.lanesOut ++ [(n.val, .swapRequest phys)] ∧
          (t.meas n.val).swapRx = some phys ∧ (t.link n.val).rxMap = l.rxMap ∧ (l.tx = .sleep → (t.link n.val).tx = .wake)) ∧
      (mon ≤ l.thresh.toNat → l.thresh = 0 ∨ worstLane l counts = none ∨ l.rx ≠ .up ∨ m.swapRx ≠ none →
        ∃ t, exec (.laneWindowClose n mon) s = .next t ∧ onlyLinks s t ∧ (t.meas n.val).closed = counts ∧
          (t.meas n.val).swapRx = m.swapRx ∧ t.link n.val = { l with prbsErr := sat 32 (l.prbsErr + mon) })) ∧
    (∀ w : List Nat, w.length = 5 → phys < 5 → (dataLane l.rxMap phys).isSome = true → l.thresh.toNat < w.getD phys 0 →
      (∀ q, q < 5 → q ≠ phys → (dataLane l.rxMap q).isSome = true →
        w.getD q 0 < w.getD phys 0 ∨ (w.getD q 0 = w.getD phys 0 ∧ phys < q)) → worstLane l w = some phys)) ∧
  (∀ (s : State) (n : LinkIx) (lane : Fin 5) (x : BitVec 3) (p at_ : Nat),
    let l := s.link n.val
    let m := s.meas n.val
    let sends (t : State) (c : List LaneMsg) : Prop := t.links.fabric.lanesOut = s.links.fabric.lanesOut ++ c.map (n.val, ·)
    (l.tx = .up ∨ l.tx = .sleep ∨ l.tx = .wake → (dataLane l.txMap lane.val).isSome = true →
      ∃ t, exec (.swapRequest n lane) s = .next t ∧ onlyLinks s t ∧ sends t [.swapMarker] ∧
        t.link n.val = { l with tx := .swap, txMap := swapLane l.txMap lane.val }) ∧
    ((l.tx ≠ .up ∧ l.tx ≠ .sleep ∧ l.tx ≠ .wake) ∨ (dataLane l.txMap lane.val).isSome = false →
      exec (.swapRequest n lane) s = .next s) ∧
    (m.swapRx = some p → ∃ t, exec (.swapMarker n) s = .next t ∧ onlyLinks s t ∧ sends t [.swapDone] ∧ (t.meas n.val).swapRx = none ∧
      (t.link n.val).rx = .swap ∧ (t.link n.val).rxMap = swapLane l.rxMap p ∧ (t.link n.val).swaps = sat 16 (l.swaps + 1)) ∧
    (m.swapRx = none → exec (.swapMarker n) s = .next s) ∧
    (l.tx = .swap →
      (∃ v : State, exec (.swapDone n) s = .next v.pump ∧ onlyLinks s v ∧ v.link n.val = { l with tx := .up, swaps := sat 16 (l.swaps + 1) } ∧
        sends v (if m.markerDue then [.alignment (4096 * m.txMarkers)] else [])) ∧
      ((∀ y ∈ m.swapTimeouts, y + 1000000000 < at_) → ∃ t, exec (.swapTimeout n at_) s = .next t ∧ onlyLinks s t ∧
        (t.link n.val).tx = .train ∧ (t.link n.val).rx = .train) ∧
      ((∃ y ∈ m.swapTimeouts, at_ ≤ y + 1000000000) → ∃ t, exec (.swapTimeout n at_) s = .next t ∧ wentDown s t n.val)) ∧
    (l.tx ≠ .swap → exec (.swapDone n) s = .next s ∧ exec (.swapTimeout n at_) s = .next s) ∧
    (x.toNat < 5 → l.rx = .up → l.tx ≠ .swap → m.swapRx = none →
      exec (.force n x) s = .next (s.modMeas n.val fun m => { m with forceDue := some x.toNat })) ∧
    (5 ≤ x.toNat ∨ l.rx ≠ .up ∨ l.tx = .swap ∨ m.swapRx ≠ none → exec (.force n x) s = .next s) ∧
    (m.forceDue = some p → l.rx = .up → m.swapRx = none → (dataLane l.rxMap p).isSome = true →
      (l.usable m = true → ((s.applyForce n.val).meas n.val).swapRx = some p) ∧
      (l.usable m = false → ((s.applyForce n.val).meas n.val).swapRx = none)) ∧
    swapLane 0x4688 2 = 0x2708) ∧
  ∀ (s : State) (n : LinkIx),
    let l := s.link n.val
    let m := s.meas n.val
    (l.tx = .up → l.idle ≠ 0 → s.linkBusy n.val = false →
      exec (.linkSleep n .tx) s = .next ((s.laneMsg n.val .sleepMarker).modLink n.val fun l => { l with tx := .sleep })) ∧
    (l.tx ≠ .up ∨ l.idle = 0 ∨ s.linkBusy n.val = true → exec (.linkSleep n .tx) s = .next s) ∧
    (l.rx = .up → ∃ t, exec (.linkSleep n .rx) s = .next t ∧ onlyLinks s t ∧ t.link n.val = { l with rx := .sleep }) ∧
    (l.rx ≠ .up → exec (.linkSleep n .rx) s = .next s) ∧
    (l.tx = .sleep ∨ l.tx = .wake → ∃ v : State, exec (.linkWake n .tx) s = .next v.pump ∧ onlyLinks s v ∧ v.link n.val = { l with tx := .up } ∧
      v.links.fabric.lanesOut = s.links.fabric.lanesOut ++ [(n.val, .alignment (4096 * m.txMarkers))]) ∧
    (l.tx ≠ .sleep → l.tx ≠ .wake → exec (.linkWake n .tx) s = .next s) ∧
    (l.rx = .sleep → exec (.linkWake n .rx) s = .next (s.modLink n.val fun l => { l with rx := .wake })) ∧
    (l.rx = .wake → exec (.linkWake n .rx) s = .next (s.modLink n.val fun l => { l with rx := .up })) ∧
    (l.rx ≠ .sleep → l.rx ≠ .wake → exec (.linkWake n .rx) s = .next s)

/-- R310 to R312, R315: a flit whose check fails, or a data flit out of sequence, is discarded and answered with NAK; the one expected
is accepted and counted; an acknowledgement empties the retry buffer up to its flit; a hold idle holds the link; a flit resent eight
times takes the link DOWN. What waits for a credit, an answer or a place then leaves.
A command that comes while its condition does not hold changes nothing: the model's choice, log entry 6. -/
def Obligations.FlitsAreAcceptedInSequence : Prop :=
  ∀ (s : State) (n : LinkIx) (vc : Fin 8) (b : List Byte),
    let l := s.link n.val
    let m := (s.meas n.val).drain
    let f := flitOf vc b
    let k := (m.txSeq - f.ack - 1).toNat
    let left := if k < m.retry.length then m.retry.drop (m.retry.length - k) else m.retry
    (l.rx ≠ .up → l.rx ≠ .swap → exec (.flitReceive n vc b) s = .next s) ∧
    (l.rx = .up ∨ l.rx = .swap →
      (f.crcOk = false → ∃ v : State, exec (.flitReceive n vc b) s = .next v.pump ∧ onlyLinkSide s v ∧ v.tel = s.tel ∧ v.link n.val = l ∧
        v.meas n.val = { m with crcFails := sat 16 (m.crcFails + 1), nakDue := true }) ∧
      (f.crcOk = true → f.kind = .data → f.fseq ≠ m.rxSeq → ∃ v : State, exec (.flitReceive n vc b) s = .next v.pump ∧ onlyLinks s v ∧
        v.link n.val = { l with rx := .up } ∧ v.meas n.val = { m with nakDue := true }) ∧
      (f.crcOk = true → f.kind = .data → f.fseq = m.rxSeq → f.nak = false → ∃ v : State, exec (.flitReceive n vc b) s = .next v.pump ∧
        onlyLinkSide s v ∧ (v.link n.val).rx = .up ∧ (v.meas n.val).rxSeq = m.rxSeq + 1 ∧ (v.meas n.val).ackDue = true ∧
        (v.meas n.val).flitsRx = (m.flitsRx + 1) % 2 ^ 48 ∧ (v.meas n.val).heldFar = false ∧ (v.meas n.val).retry = left) ∧
      (f.crcOk = true → f.kind = .reserved → ∃ t, exec (.flitReceive n vc b) s = .next t ∧ onlyLinks s t ∧
        t.link n.val = { l with rx := .up } ∧ t.meas n.val = m) ∧
      (f.crcOk = true → f.kind = .hold ∨ f.kind = .control → f.nak = false → ∃ v : State, exec (.flitReceive n vc b) s = .next v.pump ∧
        onlyLinks s v ∧ (v.meas n.val).heldFar = decide (f.kind = .hold) ∧ (v.meas n.val).rxSeq = m.rxSeq ∧
        (v.meas n.val).retry = left ∧ (m.heldFar ≠ decide (f.kind = .hold) → v.links.fabric.rerouteDue = true)) ∧
      (f.crcOk = true → f.kind = .control → f.nak = true → (∃ x ∈ left, 7 ≤ x.resent) →
        ∃ v : State, exec (.flitReceive n vc b) s = .next v.pump ∧ (v.link n.val).tx = .down ∧ (v.link n.val).rx = .down))

/-- The transactions that a peer begins: as commands, by TYPE, length and data, and with their effect at their target. -/
def peerRequests (h : Header) (len : Fin 4097) (data : List Byte) : List (Instr × TxType × Nat × List Byte × (State → State)) :=
  [(.rread h len, .rread, len.val, [], State.rreadTx h len.val), (.rwrite h data, .rwrite, data.length, data, State.rwriteTx h data),
    (.rsignal h, .rsignal, 0, [], State.rsignalTx h), (.tsend h data, .tsend, data.length, data, State.tsendTx h data),
    (.mcast h data, .mcast, data.length, data, State.mcastTx h data)]

/-- The request comes on the virtual channel of an enabled inbound flow from its peer. -/
def onFlow (s : State) (h : Header) : Prop :=
  let f := s.flow h.rflow.toNat
  f.enabled = true ∧ f.inbound = true ∧ f.peer = h.src.toNat ∧ f.vc = h.vc.val

/-- The request is answered with a status and counted, and nothing else in the links has changed but what `u` shows. -/
def answered (u t : State) (h : Header) (st : Nat) : Prop :=
  t.links.fabric.out = u.links.fabric.out ++ [ackMsg h st] ∧ (t.inFlow h.rflow.toNat).expected = (h.seq.toNat + 1) % 2 ^ 32 ∧
  t = { u with links := t.links } ∧ t.links.links = u.links.links ∧ t.links.fabric.reqs = u.links.fabric.reqs

/-- R257, R266, R293, R312 to R316, R319 to R321, R327: a transaction for another module goes on, and one for a tile that sleeps or
moves, or for HBM that is held, waits; any other is served, and what can then leave leaves. Served: a Muzzled module, or one without an
identifier, takes no request; one not on its inbound flow is refused; one ahead of its turn is discarded and a duplicate is answered
again. The next in turn reads the user range or the tile window of a flow with RW, writes the user range, signals or writes a tile
of the flow's Pack, combined where COMB says so, or is refused. -/
def Obligations.PeerRequestsAreServedInOrder : Prop :=
  ∀ (s : State) (h : Header) (len : Fin 4097) (data b : List Byte),
    let f := s.flow h.rflow.toNat
    let a := bits h.target.toNat 0 48
    let n := len.val
    (∀ c ∈ peerRequests h len data,
      (s.passes h = true → exec c.1 s = .next (s.passOn h c.2.1 c.2.2.1 c.2.2.2.1)) ∧
      (s.passes h = false → s.mustWait c.2.1 h c.2.2.1 = true → ∃ t, exec c.1 s = .next t ∧
        t.links.fabric.inbound = s.links.fabric.inbound ++ [.tx c.2.1 h c.2.2.1 c.2.2.2.1] ∧ t.tiles = s.tiles ∧ t.hbm = s.hbm ∧
        t.links.fabric.inFlows = s.links.fabric.inFlows ∧
        ∀ x, (s.txTiles c.2.1 h c.2.2.1).1.find? s.away = some x → s.paging.asleep.contains (SiteId.domain (s.siteOf x)) = true →
          t.paging.wakes (SiteId.domain (s.siteOf x)) = true) ∧
      (s.passes h = false → s.mustWait c.2.1 h c.2.2.1 = false → exec c.1 s = .next (c.2.2.2.2 s).pump) ∧
      (s.takes = false → c.2.2.2.2 s = s)) ∧
    (s.takes = true → h.group = false →
      let four : List (State → State) := [State.rreadTx h n, State.rwriteTx h data, State.rsignalTx h, State.tsendTx h data]
      (¬ onFlow s h → ∀ c ∈ four, c s = s.sendMsg (ackMsg h ackRefused)) ∧
      (onFlow s h →
        (∀ k, 0 < k → k ≤ 2 ^ 31 → (s.inFlow h.rflow.toNat).expected < 2 ^ 32 →
          h.seq.toNat = ((s.inFlow h.rflow.toNat).expected + 2 ^ 32 - k) % 2 ^ 32 →
          ∀ c ∈ four, ∃ st, c s = s.sendMsg (ackMsg h st)) ∧
        (∀ k, 0 < k → k < 2 ^ 31 → (s.inFlow h.rflow.toNat).expected < 2 ^ 32 →
          h.seq.toNat = ((s.inFlow h.rflow.toNat).expected + k) % 2 ^ 32 → ∀ c ∈ four, c s = s) ∧
        (h.seq.toNat = (s.inFlow h.rflow.toNat).expected →
          (f.rw = false → answered s (State.rreadTx h n s) h ackRefused ∧ answered s (State.rwriteTx h data s) h ackRefused) ∧
          (f.rw = true → a + n ≤ hbmUserEnd → ∀ u, s.hbmRead [] a n = (some b, u) →
            ∃ t, State.rreadTx h n s = t ∧ t = { u with links := t.links } ∧
              t.links.fabric.answers = u.links.fabric.answers ++ [(h.src.toNat, h.seq.toNat, b)] ∧
              (t.inFlow h.rflow.toNat).expected = (h.seq.toNat + 1) % 2 ^ 32) ∧
          (∀ i o, f.rw = true → hbmUserEnd < a + n → 0 < n → s.windowTile f a = some (i, o) →
            s.windowTile f (a + (n - 1)) = some (i, o + (n - 1)) → ∃ t, State.rreadTx h n s = t ∧ t = { s with links := t.links } ∧
              t.links.fabric.answers = s.links.fabric.answers ++ [(h.src.toNat, h.seq.toNat, (s.tile i).mem.store.readBytes o n)]) ∧
          (hbmUserEnd < a + n → s.windowTile f a = none → answered s (State.rreadTx h n s) h ackRefused) ∧
          (hbmUserEnd < a + data.length → answered s (State.rwriteTx h data s) h ackRefused) ∧
          (f.rw = true → a + data.length ≤ hbmUserEnd → data.length ≤ 4096 → s.spent h = false →
            let u := s.hbmWrite [] a data
            ∃ t, State.rwriteTx h data s = t ∧ t = { u with links := t.links } ∧
              (t.inFlow h.rflow.toNat).expected = (h.seq.toNat + 1) % 2 ^ 32 ∧
              (t.links.fabric.exposures.any fun e => e.device == h.src.toNat && e.token == h.token.toNat && e.pack == f.pack) = true) ∧
          (s.flowTarget f h.target.toNat = none →
            answered s (State.rsignalTx h s) h ackRefused ∧ answered s (State.tsendTx h data s) h ackRefused) ∧
          (∀ i, s.flowTarget f h.target.toNat = some i → s.spent h = false →
            (let u := s.signal i (bits h.target.toNat 10 6) (bits h.target.toNat 16 16)
             ∃ t, State.rsignalTx h s = t ∧ t = { u with links := t.links } ∧
              (t.inFlow h.rflow.toNat).expected = (h.seq.toNat + 1) % 2 ^ 32 ∧
              (u.takes = true → t.links.fabric.out = u.links.fabric.out ++ [ackMsg h ackOk])) ∧
            (data.length ≤ 4096 → bits h.target.toNat 10 14 * 64 + data.length ≤ 1048576 → h.fwdEn = false → h.comb ≠ 3 →
              (s.mod.grade = .a ∨ h.comb = 0 → ∃ t, State.tsendTx h data s = t ∧
                t.tile i.ix = (s.tile i.ix).write .store (bits h.target.toNat 10 14 * 64)
                  (s.landed h i.ix (bits h.target.toNat 10 14 * 64) data) ∧
                (h.comb = 0 → s.landed h i.ix (bits h.target.toNat 10 14 * 64) data = data) ∧
                (∀ k, k ≠ i.ix → t.tile k = s.tile k) ∧ t.hbm = s.hbm ∧ t.host = s.host ∧ t.shep = s.shep ∧
                (t.links.fabric.exposures.any fun e => e.device == h.src.toNat && e.token == h.token.toNat && e.pack == f.pack) = true) ∧
              (s.mod.grade = .b → h.comb ≠ 0 → answered s (State.tsendTx h data s) h ackRefused))))))

/-- R316, R319, R322 to R326: an answer retires its request and returns its credits; a CLEAR resolves the exposures to its token and a
WITHDRAW ends what is exposed or zeroes what nothing has met; MCAST data reaches every local receiver; a PRUNE is recorded by each
receiver beneath it; a POSITION is taken from the master alone. What can then leave leaves.
A command that comes while its condition does not hold changes nothing: the model's choice, log entry 6. -/
def Obligations.AnswersOutcomesAndGroups : Prop :=
  ∀ (s : State) (h : Header) (data : List Byte) (rate : Word) (hold : Bool) (at_ : Nat),
    let g := h.rflow.toNat % 256
    (s.passes h = true → exec (.readData h data) s = .next (s.passOn h .readData data.length data) ∧
      exec (.ack h) s = .next (s.passOn h .ack 0 []) ∧ exec (.clear h) s = .next (s.passOn h .clear 0 []) ∧
      exec (.withdraw h) s = .next (s.passOn h .withdraw 0 [])) ∧
    (s.takes = false →
      (s.passes h = false → ∀ c ∈ [Instr.readData h data, .ack h, .clear h, .withdraw h], exec c s = .next s.pump) ∧
      exec (.prune h) s = .next s ∧ exec (.position h at_ rate hold) s = .next s) ∧
    (s.takes = true →
      (s.passes h = false → s.links.fabric.inbound.any (fun x => x.ahead h) = false →
        (s.reqOf h.rflow.toNat h.seq.toNat = none → exec (.readData h data) s = .next s.pump ∧
          (h.group = false → exec (.ack h) s = .next s.pump)) ∧
        (h.group = true →
          exec (.ack h) s = .next (s.groupAck g (fun ix => ix == h.link.val) (bits h.target.toNat 32 24)).pump) ∧
        (∀ q, s.reqOf h.rflow.toNat h.seq.toNat = some q →
          (q.type = .rread → data.length = q.len → exec (.readData h data) s = .next (s.dataArrives q data).pump) ∧
          (q.type ≠ .rread ∨ data.length ≠ q.len → exec (.readData h data) s = .next s.pump) ∧
          (h.group = false → h.status = 0 → q.type = .rwrite → q.tile < portTile → q.ctx = none →
            ∃ v : State, exec (.ack h) s = .next v.pump ∧ (∀ x ∈ v.links.fabric.reqs, x.id ≠ q.id) ∧ v.tiles = s.tiles ∧ v.shep = s.shep ∧
              (v.outFlow q.flow).credits = some (s.flowCredits q.flow + q.units)) ∧
          (h.group = false → h.status = 1 → q.type = .rwrite → q.tile < portTile →
            ∃ v : State, exec (.ack h) s = .next v.pump ∧ (∀ x ∈ v.links.fabric.reqs, x.id ≠ q.id) ∧
              (v.outFlow q.flow).credits = some (s.flowCredits q.flow + q.units))) ∧
        exec (.clear h) s = .next (s.clearToken h.src.toNat h.token.toNat).pump ∧
        exec (.withdraw h) s = .next (s.withdrawToken h.src.toNat h.token.toNat).pump) ∧
      (∀ id, (∀ e ∈ s.links.fabric.exposures, e.desc = some id → e.job = none → e.cleared = false →
          e.device = h.src.toNat ∧ e.token = h.token.toNat) → (s.clearToken h.src.toNat h.token.toNat).exposed id = false) ∧
      (∀ e, s.links.fabric.exposures = [e] → e.device = h.src.toNat → e.token = h.token.toNat →
        ∃ t, s.withdrawToken h.src.toNat h.token.toNat = t ∧ t.shep = s.shep ∧
          (∀ id, e.desc = some id → e.job = none → t.tiles = (s.latchFault id stMuzzled).tiles ∧ t.hbm = s.hbm) ∧
          (∀ i a n, e.desc = none → e.job = none → e.spans = [(some i, a, n)] → t.links.fabric.exposures = [] ∧ t.hbm = s.hbm ∧
            (t.tile i).mem.store = (s.tile i).mem.store.writeBytes a (List.replicate n 0)) ∧
          (∀ j, e.job = some j → e.cleared = true →
            t.tiles = s.tiles ∧ t.hbm = s.hbm ∧ ∃ x, t.tel.pend = s.tel.pend ++ [x] ∧ x.cls = .alarm ∧ x.code = 0x000C)) ∧
      (let o := bits h.target.toNat 32 24
       let a := (bits h.target.toNat 0 14 * 64 + o) % 2 ^ 20
       ((s.group g).enabled = false ∨ (s.group g).root = true ∨ 4096 < data.length →
          State.mcastTx h data s = s.sendMsg ⟨.ack, h.link.val, 65536 + g, o, ackRefused⟩) ∧
       (∀ p c r, (s.group g).enabled = true → (s.group g).root = false → (s.group g).locals = [(p, c, r)] →
          (s.groupRun g).owner = none → data.length ≤ 4096 → h.seq.toNat = (s.inFlow (65536 + g)).expected → s.spent h = false →
          a + data.length ≤ 1048576 →
          ∃ t, State.mcastTx h data s = t ∧ (t.groupRun g).delivered = o + data.length ∧
            t.tile ((s.shape p).at c r).ix = (s.tile ((s.shape p).at c r).ix).write .store a data ∧
            (∀ k, k ≠ ((s.shape p).at c r).ix → t.tile k = s.tile k) ∧ t.hbm = s.hbm ∧ t.shep = s.shep) ∧
       ((s.group g).enabled = false → exec (.prune h) s = .next s) ∧
       (∀ p c r, (s.group g).enabled = true → (s.group g).locals = [(p, c, r)] → ∃ v : State, exec (.prune h) s = .next v.pump ∧
          Table.get 0 v.links.fabric.pruneLo p = BitVec.ofNat 32 ((s.groupRun g).delivered % 2 ^ 21 + 2 ^ 21 * g + 2 ^ 31) ∧
          (∀ k, v.tile k = s.tile k) ∧ v.hbm = s.hbm) ∧
       ((s.group g).enabled = false → s.regN 0x20114 ≠ h.src.toNat → exec (.position h at_ rate hold) s = .next s.pump) ∧
       ((s.group g).enabled = false → s.regN 0x20114 = h.src.toNat →
          exec (.position h at_ rate hold) s = .next (s.cadLink at_ h.target.toNat rate.toNat hold).pump)))

/-- R316, R323, R326, R330: a request that has waited LF_FLOW_TIMEOUT ticks retires in error and ends its descriptor with
LINK_LOST, and so does an exposure unresolved so long after the program completed; a branch that has lagged PRUNE_TICKS
is pruned; a table batch is staged whole, or refused with the index of its first failing entry.
A command that comes while its condition does not hold changes nothing: the model's choice, log entry 6. -/
def Obligations.WaitsEndAndTablesAreStaged : Prop :=
  (∀ (s : State) (k : BitVec 16),
    ((∀ q ∈ s.links.fabric.reqs, q.flow = k.toNat → s.reqLate q = false) → exec (.flowTimeout k) s = .next s) ∧
    (∀ q id d, s.links.fabric.reqs = [q] → q.flow = k.toNat → s.reqLate q = true → q.desc = some id → q.tile < portTile →
      q.type = .rwrite → q.ctx = none → s.desc? id = some d → d.live = true →
      exec (.flowTimeout k) s = .next (((s.dropReq q).endDesc id stLinkLost).modLf fun l =>
        { l with linkLost := sat 16 (l.linkLost + 1) }) ∧ (s.dropReq q).links.fabric.reqs = [])) ∧
  (∀ (s : State) (p : PackIx),
    (s.running p.val = none → exec (.exposureTimeout p) s = .next s) ∧
    (∀ d at_, s.running p.val = some d → s.desc? d.id = some d → d.outcome = some at_ → d.phase = .finished → s.exposed d.id = true →
      (at_ + s.regN 0xF0004 ≤ s.tick.count → exec (.exposureTimeout p) s = .next ((s.endDesc d.id stLinkLost).modLf fun l =>
        { l with linkLost := sat 16 (l.linkLost + 1) })) ∧
      (s.tick.count < at_ + s.regN 0xF0004 → exec (.exposureTimeout p) s = .next s))) ∧
  (∀ (s : State) (g : BitVec 8) (br : Branch), (s.groupRun g.toNat).branches.find? (fun x => x.ix == br.ix) = some br →
    (br.pruned = true ∨ br.lag = 0 ∨ br.lag < (s.group g.toNat).pruneTicks → exec (.pruneTimeout g br.ix) s = .next s) ∧
    (br.pruned = false → br.lag ≠ 0 → (s.group g.toNat).pruneTicks ≤ br.lag → (s.groupRun g.toNat).owner = none → br.ix < 48 →
      s.takes = true → ∃ t, exec (.pruneTimeout g br.ix) s = .next t ∧ onlyLinks s t ∧
        t.links.fabric.prunes = sat 16 (s.links.fabric.prunes + 1) ∧
        (∀ x ∈ (t.groupRun g.toNat).branches, x.ix = br.ix → x.pruned = true) ∧
        ∃ m x, t.links.fabric.out = s.links.fabric.out ++ [m, x] ∧ m.type = .prune ∧ m.dest = br.ix ∧ x.type = .ack ∧ x.status = 2)) ∧
  ∀ (s : State) (i : Nat) (l : List Nat),
    (s.readBatch (s.reg64 0xF0010) 0 (s.regN 0xF0018) = .error i → exec .lfBatchGo s = .next (s.modLf fun f => { f with
      batch := 3, readError := true, index := i })) ∧
    (s.readBatch (s.reg64 0xF0010) 0 (s.regN 0xF0018) = .ok l →
      ((∀ x ∈ l, lfEntryOk s.mod.grade s.devid x = true) → exec .lfBatchGo s = .next (s.modLf fun f => { f with
        batch := 2, index := 0, staged := l.foldl LinkTables.stage f.staged })) ∧
      (∀ x, l[i]? = some x → lfEntryOk s.mod.grade s.devid x = false →
        (∀ j y, j < i → l[j]? = some y → lfEntryOk s.mod.grade s.devid y = true) →
        exec .lfBatchGo s = .next (s.modLf fun f => { f with batch := 3, index := i })))

/-! ## Programmable fabric, configuration and Dawn (R332 to R363, R432) -/

/-- A hook on port p has failed: it is gone and flushed, the port records the error, and its descriptor ends at the next tick. -/
def hookLost (s t : State) (p : Nat) (h : HookSt) : Prop :=
  (t.port p).hooks = (s.port p).hooks.filter (fun y => y.number != h.number) ∧ (t.port p).overrun = true ∧ (t.port p).flush = true ∧
  (t.port p).errors = sat 16 ((s.port p).errors + 1) ∧ t.tiles.faults = s.tiles.faults ++ [⟨h.desc, stMemory⟩] ∧
  (∃ e, t.tel.pend = s.tel.pend ++ [e] ∧ e.cls = .log ∧ e.code = 0x0108 ∧ e.inst = p) ∧
  (∀ k, k ≠ p → t.port k = s.port k) ∧ t.shep = s.shep ∧ t.hbm = s.hbm ∧ (∀ i, t.tile i = s.tile i)

/-- R339, R340: rows go out beat by beat, a row's first once the port has a free tracker, and come back in the order in which
they were sent, a prologue row to its place in the tile store. A beat with another tag or of a row not begun, or with LAST in
the wrong place, a spent budget and a stopped port fail the hook; a beat of an abandoned hook is discarded.
A command that comes while its condition does not hold changes nothing: the model's choice, log entry 6. -/
def Obligations.HooksReturnTheirRowsOrFail : Prop :=
  ∀ (s : State) (port : PortIx) (b : Beat) (h : HookSt),
    let p := port.val
    let row := h.partialRow ++ (b.data ++ List.replicate (64 - b.data.length) (0 : Byte)).take 64
    let whole := 64 * ceilDiv h.rowBytes 64
    ((s.port p).presenting = none → exec (.hookRowAccepted port) s = .next s ∧ exec (.hookError port .accept) s = .next s) ∧
    ((s.port p).presenting = some h →
      ((s.port p).rowWaits h = true → exec (.hookRowAccepted port) s = .next s ∧ exec (.hookError port .accept) s = .next s) ∧
      ((s.port p).rowWaits h = false →
        (h.kind ≠ 1 ∨ h.accepted + 1 ≠ h.rows * h.beats →
          exec (.hookRowAccepted port) s = .next (s.setHook p { h with accepted := h.accepted + 1 })) ∧
        (h.kind = 1 → h.accepted + 1 = h.rows * h.beats → ∃ t, exec (.hookRowAccepted port) s = .next t ∧
          (t.port p).hooks = (s.port p).hooks.filter (fun y => y.number != h.number) ∧ t.shep = s.shep ∧ t.hbm = s.hbm) ∧
        ∃ t, exec (.hookError port .accept) s = .next t ∧ hookLost s t p h)) ∧
    (s.portIsolated p = true → exec (.hookReturnBeat port b) s = .next s) ∧
    ((s.port p).returning = none → exec (.hookReturnBeat port b) s = .next s ∧ exec (.hookError port .ret) s = .next s ∧
      exec (.hookError port .protocol) s = .next s) ∧
    ((s.port p).returning = some h →
      (h.begun h.back.length = false → exec (.hookError port .ret) s = .next s) ∧
      (h.begun h.back.length = true → ∃ t, exec (.hookError port .ret) s = .next t ∧ hookLost s t p h) ∧
      (∃ t, exec (.hookError port .protocol) s = .next t ∧ hookLost s t p h) ∧
      (s.portIsolated p = false →
        (b.tag.toNat ≠ h.tag h.back.length ∨ h.begun h.back.length = false →
          ((s.port p).flushed.contains (b.tag.toNat / 4096) = true → exec (.hookReturnBeat port b) s = .next s) ∧
          ((s.port p).flushed.contains (b.tag.toNat / 4096) = false →
            ∃ t, exec (.hookReturnBeat port b) s = .next t ∧ hookLost s t p h)) ∧
        (b.tag.toNat = h.tag h.back.length → h.begun h.back.length = true →
          (b.last = true → row.length < whole → ∃ t, exec (.hookReturnBeat port b) s = .next t ∧ hookLost s t p h) ∧
          (b.last = false → whole ≤ row.length → ∃ t, exec (.hookReturnBeat port b) s = .next t ∧ hookLost s t p h) ∧
          (b.last = false → row.length < whole →
            exec (.hookReturnBeat port b) s = .next (s.setHook p { h with partialRow := row })) ∧
          (b.last = true → whole ≤ row.length → exec (.hookReturnBeat port b) s = .next (s.rowBack p h (row.take h.rowBytes)) ∧
            ∀ d ds, h.kind = 0 → h.blocks = d :: ds → h.back.length + 1 < h.rows →
              exec (.hookReturnBeat port b) s = .next ((s.modTile h.tile fun t =>
                t.write .store (d.dst + h.back.length * d.stride) (row.take h.rowBytes)).setHook p
                { h with back := h.back ++ [row.take h.rowBytes], partialRow := [] }))))) ∧
    ((s.port p).hooks = [] → exec (.hookError port .stopped) s = .next s) ∧
    ((s.port p).hooks = [h] → ∃ t, exec (.hookError port .stopped) s = .next t ∧ hookLost s t p h)

/-- R336 to R338, R342, R343, R345: an initiator request is answered with data or in error and ends no descriptor, or waits; a PLL
that loses lock and a bank that loses its supply stop what they drive, with an ALARM; a pin's drive is the first source that
applies; a region is isolated when no row is outstanding; an enabled interrupt line that reads 1 is pending.
A command that comes while its condition does not hold changes nothing: the model's choice, log entry 6. -/
def Obligations.FabricEdgesFollowTheirRules : Prop :=
  (∀ (s : State) (port : PortIx) (r : PortRequest) (va : BitVec 57) (len : Fin 257) (data b : List Byte) (k : PackIx) (c w : Fin 32)
      (sem : Fin 64) (inc : BitVec 16) (x n : Nat),
    let p := port.val
    let fn := bits (s.regN (portCfgAddr p)) 15 6
    (bit (s.regN (portCfgAddr p)) 14 = false ∨ s.portIsolated p = true ∨ s.muzzle.module.active = true →
      exec (.portInitiatorRequest port r) s = .next s) ∧
    (bit (s.regN (portCfgAddr p)) 14 = true → s.portIsolated p = false → s.muzzle.module.active = false → (s.port p).waiting = [] →
      (s.portTry p r = none →
        exec (.portInitiatorRequest port r) s = .next (s.modPort p fun x => { x with waiting := [r] })) ∧
      (∀ u : State, s.portTry p r = some u →
        exec (.portInitiatorRequest port r) s = .next (u.modPort p fun x => { x with waiting := [] })) ∧
      (∀ e, s.xlates fn false (piecesOf va.toNat len.val) = .error e →
        ∃ t, exec (.portInitiatorRequest port (.read va len)) s = .next t ∧ (t.port p).answer = none ∧ t.tiles = s.tiles ∧ t.shep = s.shep ∧
          t.hbm = s.hbm ∧ t.host = s.host) ∧
      (s.xlates fn false (piecesOf va.toNat len.val) = .ok [.host x n] → s.hostRead x n = some b → (s.port p).use < 128 →
        ∃ t, exec (.portInitiatorRequest port (.read va len)) s = .next t ∧ (t.port p).answer = some b ∧ t.tiles = s.tiles ∧ t.shep = s.shep ∧
          t.hbm = s.hbm ∧ t.host = s.host) ∧
      (s.xlates fn true (piecesOf va.toNat data.length) = .ok [.host x data.length] → (s.port p).use < 128 →
        ∃ t, exec (.portInitiatorRequest port (.write va data)) s = .next t ∧ (t.port p).answer = some [] ∧ t.tiles = s.tiles ∧
          t.shep = s.shep ∧ t.hbm = s.hbm ∧ t.host = (s.hostWriteAs fn x data).host) ∧
      ((s.port p).use < 128 →
        ((s.shape k.val).enabled = true → (s.shape k.val).fn = fn → c.val < (s.shape k.val).width → w.val < (s.shape k.val).height →
          ∃ t, exec (.portInitiatorRequest port (.signal k c w sem inc)) s = .next t ∧ (t.port p).answer = some [] ∧
            t.tiles.signals = s.tiles.signals ++ [⟨(s.shape k.val).at c.val w.val, sem.val, inc.toNat, none⟩] ∧ t.shep = s.shep) ∧
        ((s.shape k.val).enabled = false ∨ (s.shape k.val).fn ≠ fn ∨ (s.shape k.val).width ≤ c.val ∨ (s.shape k.val).height ≤ w.val →
          ∃ t, exec (.portInitiatorRequest port (.signal k c w sem inc)) s = .next t ∧ (t.port p).answer = none ∧ t.tiles = s.tiles)) ∧
      (128 ≤ (s.port p).use → ∃ t, exec (.portInitiatorRequest port (.signal k c w sem inc)) s = .next t ∧
        (t.port p).waiting = [.signal k c w sem inc] ∧ t.tiles = s.tiles ∧ t.host = s.host ∧ t.hbm = s.hbm))) ∧
  (∀ (s : State) (pll : Fin 32) (bank level : Fin 4) (n : Nat),
    (s.fabric.pllDown.getLsbD pll.val = true → exec (.pllLockLoss pll) s = .next s) ∧
    (s.fabric.pllDown.getLsbD pll.val = false → ∃ t, exec (.pllLockLoss pll) s = .next t ∧ t.fabric.pllLost.getLsbD pll.val = true ∧
      (∀ i, Config.treePll i = pll.val → t.treeRuns i = false) ∧ t.muzzle = s.muzzle ∧
      ∃ l e, t.tel.pend = l ++ [e] ∧ e.cls = .alarm ∧ e.code = 0x000E) ∧
    (∃ t, exec (.pllRelock pll) s = .next t ∧ t.fabric.pllDown.getLsbD pll.val = false ∧ t.fabric.pllLost = s.fabric.pllLost ∧
      (s.fabric.globalClk = true → ∀ i, Config.treePll i = pll.val → t.treeRuns i = true)) ∧
    (s.fabric.bankPresent.getLsbD bank.val = false → exec (.bankSupplyLost bank) s = .next s) ∧
    (s.fabric.bankPresent.getLsbD bank.val = true → ∃ t, exec (.bankSupplyLost bank) s = .next t ∧
      t.fabric.bankLost.getLsbD bank.val = true ∧ t.muzzle = s.muzzle ∧
      (24 * bank.val ≤ n → n < 24 * bank.val + 24 → t.pinDrive n = .highZ ∧ t.fabric.gpioIn.getLsbD n = false) ∧
      (n < 96 → n < 24 * bank.val ∨ 24 * bank.val + 24 ≤ n → t.fabric.gpioIn.getLsbD n = s.fabric.gpioIn.getLsbD n) ∧
      ∃ e, t.tel.pend = s.tel.pend ++ [e] ∧ e.cls = .alarm ∧ e.code = 0x000D ∧ e.inst = bank.val) ∧
    (∃ t, exec (.bankSupplyReturn bank level) s = .next t ∧ t.fabric.bankPresent.getLsbD bank.val = true ∧
      t.fabric.bankLost = s.fabric.bankLost ∧ t.mod.pins.vio = s.mod.pins.vio.set bank.val level.val ∧ t.tel = s.tel) ∧
    (s.fabric.bankPresent.getLsbD (n / 24) = true → s.fabric.bankMismatch.getLsbD (n / 24) = false →
      (∀ c, s.pinCue n = some c → s.pinDrive n = .cue (s.cue.level.getLsbD c)) ∧
      (s.pinCue n = none → s.fabric.outReleased = false ∨ s.muzzle.module.active = true ∨ s.ownerHeld (bits (s.pinCfg n) 8 6) = true →
        s.pinDrive n = .safe (bits (s.pinCfg n) 2 2)) ∧
      (s.pinCue n = none → s.fabric.outReleased = true → s.muzzle.module.active = false → s.ownerHeld (bits (s.pinCfg n) 8 6) = false →
        s.pinDrive n = .user))) ∧
  (∀ (s : State) (r : RegionIx),
    (∃ t, exec (.isolate r) s = .next t ∧ (t.region r.val).isolateDue = some true ∧ (t.region r.val).st = (s.region r.val).st ∧
      t.reg (0x100100 + 4 * r.val) = 1 ∧ t.fabric.ports = s.fabric.ports) ∧
    (∃ t, exec (.isolateRelease r) s = .next t ∧ (t.region r.val).isolateDue = some false ∧ (t.region r.val).st = (s.region r.val).st ∧
      t.reg (0x100100 + 4 * r.val) = 0 ∧ t.fabric.ports = s.fabric.ports) ∧
    ((s.region r.val).isolateDue = some true →
      (s.hookBusy r.val = true → s.applyIsolate r.val = s) ∧
      (s.hookBusy r.val = false → (s.region r.val).st = .active → ((s.applyIsolate r.val).region r.val).st = .isolated)) ∧
    ((s.region r.val).isolateDue = some false →
      ((s.region r.val).st = .isolated → (s.mzRegion r.val).active = false → (∀ g ∈ s.muzzle.triggers, g.scope ≠ .region r) →
        ((s.applyIsolate r.val).region r.val).st = .active) ∧
      ((s.region r.val).st ≠ .isolated ∨ (s.mzRegion r.val).active = true ∨ (∃ g ∈ s.muzzle.triggers, g.scope = .region r) →
        ((s.applyIsolate r.val).region r.val).st = (s.region r.val).st))) ∧
  ∀ (s : State) (levels : BitVec 64),
    (∀ i, i < 64 → levels.getLsbD i = true → bit (s.regN (0x100900 + 4 * i)) 0 = true → (s.irqTick levels).fabric.irqPend.getLsbD i = true) ∧
    ((∀ i, i < 64 → levels.getLsbD i = false ∨ bit (s.regN (0x100900 + 4 * i)) 0 = false) → s.irqTick levels = s)

/-- R357, R358: Nightwatch takes the next frame of its pass: it corrects one bit, and a frame beyond correction Muzzles its region or,
where it is static, the module with cause 0x02; a pass that ends counts; a stall sets UNPROTECTED until a whole pass.
A command that comes while its condition does not hold changes nothing: the model's choice, log entry 6. -/
def Obligations.NightwatchChecksEveryFrame : Prop :=
  (∀ (s : State) (e : FrameError) (f : FrameAt) (bad : Fin 4096),
    (s.config.nwRunning = false → exec (.nightwatchFrame e) s = .next s) ∧
    (s.config.nwRunning = true → s.config.nwNext = none → exec (.nightwatchFrame e) s = .next s) ∧
    (s.config.nwRunning = true → s.config.nwNext.map frameAt = some f → s.frameLoading f = false →
      let u := s.modConfig fun c => { c with nwNext := f.next.map FrameAt.addr, nwFrames := (c.nwFrames + 1) % 2 ^ 32 }
      exec (.nightwatchFrame .clean) s = .next u ∧
      exec (.nightwatchFrame (.single bad)) s = .next (u.modConfig fun c => { c with
        nwCorr := sat 32 (c.nwCorr + 1), nwLast := BitVec.ofNat 32 f.addr }) ∧
      ∃ t, exec (.nightwatchFrame .uncorrectable) s = .next t ∧ t.config.nwUncorr = sat 32 (s.config.nwUncorr + 1) ∧
        t.config.nwLast = BitVec.ofNat 32 (f.addr + 2 ^ 31) ∧ t.config.frames = s.config.frames ∧
        (∀ r : Fin 32, (s.regionRect r.val).holds f = true → (∀ q : Fin 32, q < r → (s.regionRect q.val).holds f = false) →
          t.muzzle.triggers = s.muzzle.triggers ++ [⟨.region r, 0x02⟩]) ∧
        ((∀ q : Fin 32, (s.regionRect q.val).holds f = false) → s.config.isStatic f = true →
          t.muzzle.triggers = s.muzzle.triggers ++ [⟨.module, 0x02⟩]))) ∧
  ∀ (s : State),
    (s.config.nwNext.isSome = true ∨ s.config.nwRunning = false → exec .nightwatchPassEnd s = .next s) ∧
    (s.config.nwNext = none → s.config.nwRunning = true → ∃ t, exec .nightwatchPassEnd s = .next t ∧
      t.config.nwPasses = (s.config.nwPasses + 1) % 2 ^ 32 ∧ t.config.nwUnprotected = false ∧ t.config.nwNext = some 0 ∧
      t.config.nwCtrl = s.reg 0x108100 ∧
      (s.config.digestBad = true → t.config.nwDigestFail = true ∧ t.muzzle.triggers = s.muzzle.triggers ++ [⟨.module, 0x02⟩]) ∧
      (s.config.digestBad = false → t.config.nwDigestFail = s.config.nwDigestFail ∧ t.muzzle.triggers = s.muzzle.triggers)) ∧
    (s.sec.mcRunning = false → exec .nightwatchStall s = .next s) ∧
    (s.sec.mcRunning = true → ∃ t, exec .nightwatchStall s = .next t ∧ t.config.nwUnprotected = true ∧ t.config.nwNext = some 0 ∧
      (∃ e, t.tel.pend = s.tel.pend ++ [e] ∧ e.cls = .alarm ∧ e.code = 0x000F) ∧
      (bit s.config.nwCtrl.toNat 10 = true → t.muzzle = s.muzzle) ∧
      (bit s.config.nwCtrl.toNat 10 = false → ∀ r : Fin 32, (s.regionRect r.val).enabled = true →
        ((s.region r.val).st ≠ .loading → (⟨.region r, 0x04⟩ : Trigger) ∈ t.muzzle.triggers) ∧
        ((s.region r.val).st = .loading → t.config.nwStalled.contains r.val = true)))

/-- R359, R360, R362: a load is refused, or staged at the tick, checked, and written: the region then holds the image, ISOLATED; or,
at a frame outside it or a record whose CRC fails, it is blank and Muzzled. Where the staging area cannot be read the region
is blank and the module is Muzzled with cause 0x01. No frame outside the region changes.
A command that comes while its condition does not hold changes nothing: the model's choice, log entry 6. -/
def Obligations.PartialImagesReplaceTheirRegionAlone : Prop :=
  ∀ (s : State) (r : RegionIx) (src ok : Bool) (l : PartialLoad) (b : List Byte),
    let n := s.regN 0x108018
    (s.config.load.isSome = true → exec (.partialLoadGo r src) s = .next (s.modConfig fun c => { c with plBusyWrite := true })) ∧
    (s.config.load = none → s.mod.dusk.step ≠ 0 → exec (.partialLoadGo r src) s = .next (s.plFails 0xA)) ∧
    (s.config.load = none → s.mod.dusk.step = 0 → exec (.partialLoadGo r src) s = .next
      (s.modConfig fun c => { c with load := some ⟨r, src, [], 0⟩, plState := 1, plResult := 0 })) ∧
    (s.config.load = none → exec (.partialLoadStaged ok) s = .next s ∧ exec (.partialLoadWritten ok) s = .next s) ∧
    (s.config.load = some l →
      let rect := s.regionRect l.region.val
      (l.step = 0 → (s.region l.region.val).st = .active ∨ (s.region l.region.val).st = .loading → s.plTick = s.plFails 1) ∧
      (l.step = 0 → (s.region l.region.val).st = .isolated ∨ (s.region l.region.val).st = .blank →
        (n = 0 ∨ 67108864 < n → s.plTick = s.plFails 2) ∧
        (0 < n → n ≤ 67108864 → s.plBytes l n = none → s.plTick = s.plFails 3) ∧
        (0 < n → n ≤ 67108864 → s.plBytes l n = some b →
          s.plTick = s.modConfig fun c => { c with load := some { l with image := b, step := 1 } })) ∧
      (l.step ≠ 1 → exec (.partialLoadStaged ok) s = .next s) ∧
      (l.step = 1 → exec (.partialLoadStaged false) s = .next (s.stagingLost l) ∧
        (∀ e, s.plCheck l = some e → exec (.partialLoadStaged true) s = .next (s.plFails e)) ∧
        (s.plCheck l = none → ∃ t, exec (.partialLoadStaged true) s = .next t ∧ (t.region l.region.val).st = .loading ∧
          t.config.load = some { l with step := 2 } ∧ t.config.frames = s.config.frames)) ∧
      (l.step ≠ 2 → exec (.partialLoadWritten ok) s = .next s) ∧
      (l.step = 2 → exec (.partialLoadWritten false) s = .next ((s.stagingLost l).stalledRegion l.region) ∧
        (strays rect (imgStream l.image).recs = none → ∃ t, exec (.partialLoadWritten true) s = .next t ∧
          (t.region l.region.val).st = .isolated ∧ t.config.plState = 2 ∧ t.config.load = none ∧
          t.config.frames = (imgStream l.image).write (blankRegion rect s.config.frames) ∧
          (∀ a, rect.holds (frameAt a) = false → Table.get 0 t.config.frames a = Table.get 0 s.config.frames a) ∧
          Table.get [] t.config.lastImage l.region.val = l.image) ∧
        (∀ i f outside, strays rect (imgStream l.image).recs = some (i, f, outside) → s.config.nwStalled = [] →
          ∃ t, exec (.partialLoadWritten true) s = .next t ∧ (t.region l.region.val).st = .blank ∧ t.config.plState = 3 ∧
            t.config.plResult = (if outside = true then 8 else 9) ∧ t.config.plFault = f ∧ t.config.plFaultRec = i ∧
            t.config.frames = blankRegion rect s.config.frames ∧
            t.muzzle.triggers = s.muzzle.triggers ++ [⟨.region l.region, if outside = true then 0x03 else 0x02⟩]))) ∧
    (let v : State := s.stagingLost l
     (v.region l.region.val).st = .blank ∧ v.config.load = none ∧ v.config.plState = 3 ∧
        v.config.frames = blankRegion (s.regionRect l.region.val) s.config.frames ∧
        v.muzzle.triggers = s.muzzle.triggers ++ [⟨.module, 0x01⟩] ∧ v.shep = s.shep ∧ v.tiles = s.tiles) ∧
    (∀ (q : RegionRect) (m : Table (BitVec 4096)) (a : Nat), q.holds (frameAt a) = false →
      Table.get 0 (blankRegion q m) a = Table.get 0 m a)

/-- R354 to R356, R361, R425, R432: Dawn waits for both supplies and for PERST_N, opens the module at its reset values, or enters recovery
with blank frames; a Muzzle outlives a reset (log entry 120); resets and Dusk take the module down, and the rails' fall keeps host memory and the NV store.
A command that comes while its condition does not hold changes nothing: the model's choice, log entry 6. -/
def Obligations.DawnAndDuskFollowTheirSteps : Prop :=
  (∀ (s : State),
    let ready : Prop := s.mod.vauxOk = true ∧ s.mod.vin48Ok = true ∧ s.sec.mcRunning = true
    (s.mod.vauxOk = true → exec .vauxInRange s = .next s) ∧
    (s.mod.vauxOk = false → s.mod.vin48Ok = false → ∃ t, exec .vauxInRange s = .next t ∧ t.mod.power = .standby ∧ t.mod.vauxOk = true ∧
      t.sec.mcRunning = s.firmwareGood ∧ t.nv = s.nv ∧ t.host.mem = s.host.mem ∧ t.pending = s.pending) ∧
    (s.mod.vauxOk = false → s.mod.vin48Ok = true → s.firmwareGood = true → s.mod.pins.perst = true →
      ∃ t, exec .vauxInRange s = .next t ∧ t.mod.power = .dawnHeld ∧ t.sec.mcRunning = true ∧ t.nv = s.nv ∧ t.host.mem = s.host.mem) ∧
    (s.mod.vauxOk = false → s.mod.vin48Ok = true → s.firmwareGood = false →
      ∃ t, exec .vauxInRange s = .next t ∧ t.mod.power = .recovery ∧ t.sec.rcv.waiting = true ∧ t.config.frames = []) ∧
    (s.mod.vin48Ok = true → exec .vin48InRange s = .next s) ∧
    (s.mod.vin48Ok = false → s.mod.vauxOk = false → ∃ t, exec .vin48InRange s = .next t ∧ t.mod.vin48Ok = true ∧ t.mod.power = s.mod.power ∧
      t.regs = s.regs ∧ t.tiles = s.tiles ∧ t.hbm = s.hbm ∧ t.host = s.host) ∧
    (s.mod.vin48Ok = false → s.mod.vauxOk = true → s.sec.mcRunning = true → s.mod.pins.perst = true →
      ∃ t, exec .vin48InRange s = .next t ∧ t.mod.power = .dawnHeld ∧ t.host.mem = s.host.mem ∧ t.nv = s.nv) ∧
    (s.mod.vin48Ok = false → s.mod.vauxOk = true → s.sec.mcRunning = true → s.mod.pins.perst = false → s.imageGood = true →
      s.nv.failedStacks = [] → s.nv.failedPcs = [] → s.hbm.untrained = [] →
      ∃ t, exec .vin48InRange s = .next t ∧ t.mod.power = .running ∧ t.config.dawnStep = 8 ∧ t.tiles = {} ∧ t.cad = {} ∧
        t.muzzle.triggers = [] ∧ t.muzzle.module.active = s.muzzle.module.active ∧ t.muzzle.packs = s.muzzle.packs ∧ t.host.mem = s.host.mem ∧ t.nv = s.nv ∧ t.pending = s.pending) ∧
    (s.mod.power = .running ∨ s.mod.power = .recovery → ready →
      (s.mod.pins.perst = false → s.imageGood = false → ∃ t, exec .moduleReset s = .next t ∧ t.mod.power = .recovery ∧
        t.sec.rcv.waiting = true ∧ t.config.frames = [] ∧ t.config.imageBad = true ∧ t.fabric.outReleased = false) ∧
      (s.mod.pins.perst = false → s.imageGood = true → s.nv.failedStacks = [] → s.nv.failedPcs = [] →
        s.hbm.untrained = [] →
        ∃ t, exec .moduleReset s = .next t ∧ t.mod.power = .running ∧ t.config.dawnStep = 8 ∧ t.tiles = {} ∧
          t.muzzle.triggers = [] ∧ t.muzzle.module.active = s.muzzle.module.active ∧ t.muzzle.packs = s.muzzle.packs ∧ t.host.mem = s.host.mem ∧ t.nv = s.nv) ∧
      ∃ t, exec .fundamentalReset s = .next t ∧ t.mod.power = .dawnHeld ∧ t.mod.pins.perst = true ∧ t.nv = s.nv ∧ t.host.mem = s.host.mem) ∧
    (s.mod.power ≠ .running → s.mod.power ≠ .recovery → exec .moduleReset s = .next s) ∧
    (s.mod.power = .off ∨ s.mod.power = .thermalOff → exec .fundamentalReset s = .next
      { s with mod := { s.mod with pins := { s.mod.pins with perst := true } } }) ∧
    (s.mod.power = .dawnHeld → ready → s.imageGood = true →
      ∃ t, exec .perstNRelease s = .next t ∧ t.mod.power = .running ∧ t.mod.pins.perst = false ∧ t.config.dawnStep = 8) ∧
    (s.mod.power ≠ .dawnHeld → exec .perstNRelease s = .next { s with mod := { s.mod with pins := { s.mod.pins with perst := false } } })) ∧
  ∀ (s : State) (g : BitVec 16),
    (s.mod.power = .running → s.mod.dusk.step = 0 →
      exec (.duskStandby g) s = .next { s with mod := { s.mod with dusk := { step := 1, grace := g.toNat, thenReset := false } } } ∧
      exec (.duskReset g) s = .next { s with mod := { s.mod with dusk := { step := 1, grace := g.toNat, thenReset := true } } }) ∧
    (s.mod.power ≠ .running ∨ s.mod.dusk.step ≠ 0 → exec (.duskStandby g) s = .next s ∧ exec (.duskReset g) s = .next s) ∧
    (s.mod.dusk.step ≠ 2 → exec .duskGraceExpiry s = .next s) ∧
    (s.mod.dusk.step = 2 →
      (s.allStopped = false → s.tick.count < s.mod.dusk.since + s.mod.dusk.grace → exec .duskGraceExpiry s = .next s) ∧
      (s.allStopped = false → s.mod.dusk.since + s.mod.dusk.grace ≤ s.tick.count → ∃ t, exec .duskGraceExpiry s = .next t ∧
        ∀ id d, s.desc? id = some d → d.phase = .running ∨ d.phase = .finished →
          ∃ e, t.desc? id = some e ∧ e.phase = .ending ∧ e.status = stCancelled) ∧
      (s.allStopped = true → s.duskWaits = true → exec .duskGraceExpiry s = .next s) ∧
      (s.allStopped = true → s.duskWaits = false → s.mod.dusk.thenReset = false → ∃ t, exec .duskGraceExpiry s = .next t ∧
        t.mod.power = .standby ∧ t.mod.dusk = {} ∧ t.nv = s.nv ∧ t.host.mem = s.host.mem ∧ ∀ k : LinkIx, (t.link k.val).tx = .off ∨ (t.link k.val).tx = .fused))

/-! ## Power, telemetry and security (R364 to R410) -/

/-- R364, R365, R371, R375: a supply trip and a thermal trip Muzzle the module with causes 0x07 and 0x08 and raise ALARMs; the rails fall
at a junction of 125 °C; a change of point completes; a droop stretches one die's clock and is counted.
A command that comes while its condition does not hold changes nothing: the model's choice, log entry 6. -/
def Obligations.TripsMuzzleTheModule : Prop :=
  ∀ (s : State) (k : Nat) (die : Fin 4) (r : Thermal),
    (∃ t, exec (.supplyTrip .vin48) s = .next t ∧ t.muzzle.triggers = s.muzzle.triggers ++ [⟨.module, 0x07⟩] ∧ t.mod.vin48Ok = false ∧
      t.mod.vauxOk = s.mod.vauxOk ∧ t.ltime.supplyOkSince = s.tick.now ∧ ∃ e, t.tel.pend = s.tel.pend ++ [e] ∧ e.cls = .alarm ∧ e.code = 0x0003) ∧
    (∃ t, exec (.supplyTrip .vaux) s = .next t ∧ t.muzzle.triggers = s.muzzle.triggers ++ [⟨.module, 0x07⟩] ∧ t.mod.vauxOk = false ∧
      t.mod.vin48Ok = s.mod.vin48Ok) ∧
    (∃ t, exec (.supplyTrip (.rail k)) s = .next t ∧ t.muzzle.triggers = s.muzzle.triggers ++ [⟨.module, 0x07⟩] ∧ t.mod = s.mod ∧
      t.host = s.host ∧ t.hbm = s.hbm ∧ t.tiles = s.tiles ∧ t.shep = s.shep) ∧
    (s.leash.changing = true → exec .opChangeDone s = .next (s.modLeash fun l => { l with op := l.want, changing := false })) ∧
    (s.leash.changing = false → exec .opChangeDone s = .next s) ∧
    (∃ t, exec (.droop die) s = .next t ∧ t.leash.droops = sat 16 (s.leash.droops + 1) ∧ t.leash.stretch.getLsbD die.val = true ∧
      (∀ i, i ≠ die.val → t.leash.stretch.getLsbD i = s.leash.stretch.getLsbD i) ∧ t = { s with leash := t.leash }) ∧
    (∃ t, exec (.droopRecovered die) s = .next t ∧ t.leash.droops = s.leash.droops ∧ t.leash.stretch.getLsbD die.val = false ∧
      (∀ i, i < 4 → i ≠ die.val → t.leash.stretch.getLsbD i = s.leash.stretch.getLsbD i) ∧ t = { s with leash := t.leash }) ∧
    (s.mod.power ≠ .running → exec (.thermalSample r) s = .next s) ∧
    (s.mod.power = .running →
      (hottest r < 110 → r.stackList.foldl max 0 < 105 → ∃ t, exec (.thermalSample r) s = .next t ∧ t.muzzle = s.muzzle ∧
        t.leash.tj = hottest r ∧ t.leash.stackList = r.stackList ∧ t.mod.pins.thermTrip = false ∧ t.tiles = s.tiles ∧ t.shep = s.shep ∧
        (s.thAlarm < hottest r → s.ltime.alarmOver = false → ∃ e, t.tel.pend = s.tel.pend ++ [e] ∧ e.cls = .alarm ∧ e.code = 0x0004) ∧
        (hottest r ≤ s.thAlarm ∨ s.ltime.alarmOver = true → t.tel.pend = s.tel.pend)) ∧
      (hottest r < 125 → 110 ≤ hottest r ∨ 105 ≤ r.stackList.foldl max 0 → ∃ t, exec (.thermalSample r) s = .next t ∧
        t.muzzle.triggers = s.muzzle.triggers ++ [⟨.module, 0x08⟩] ∧ t.mod.pins.thermTrip = s.mod.vauxOk ∧
        ∃ e, t.tel.pend = s.tel.pend ++ [e] ∧ e.cls = .alarm ∧ e.code = 0x0004) ∧
      (125 ≤ hottest r → ∃ t, exec (.thermalSample r) s = .next t ∧ t.mod.power = .thermalOff ∧ t.mod.pins.thermTrip = s.mod.vauxOk ∧
        t.host.mem = s.host.mem ∧ t.nv = s.nv))

/-- R366, R368 to R370, R372 to R375, R378 to R380: a step of Leash's ladder is one rung and never below the floor; the engines
stall above the peak limit and resume at the floor, and the module is Muzzled where power stays above it or the sensors disagree;
what an energy interval measured is charged or unattributed.
A command that comes while its condition does not hold changes nothing: the model's choice, log entry 6. -/
def Obligations.LeashHoldsThePowerToItsLimits : Prop :=
  (∀ (s : State) (x y : Int) (at_ : Nat) (ok : Bool),
    (s.leash.duty = 1 → s.overSust = true → s.leash.capUnmet = false → ∃ t, exec .capUnmet s = .next t ∧ t.leash.capUnmet = true ∧
      t.leash.capSeen = true ∧ t.leash.duty = 1 ∧ t.leash.op = s.leash.op ∧ ∃ e, t.tel.pend = s.tel.pend ++ [e] ∧ e.cls = .alarm ∧ e.code = 0x0005) ∧
    (s.leash.duty ≠ 1 ∨ s.overSust = false ∨ s.leash.capUnmet = true → exec .capUnmet s = .next s) ∧
    (s.leash.stall = true → s.peakLimit * 4 < s.leash.p4 → ∃ t, exec .powerHoldAbort s = .next t ∧
      t.muzzle.triggers = s.muzzle.triggers ++ [⟨.module, 0x09⟩] ∧ t.leash = s.leash ∧ t.ltime.stallAt = none ∧ t.shep = s.shep) ∧
    (s.leash.stall = false ∨ s.leash.p4 ≤ s.peakLimit * 4 → exec .powerHoldAbort s = .next s) ∧
    (∃ t, exec (.powerSensorSample x y at_) s = .next t ∧ t = { s with ltime := t.ltime } ∧
      t.ltime.lastSample = some x ∧ t.ltime.lastInput = some y ∧ (x < 0 ∨ 3000 < x → t.ltime.sampleBad = true) ∧
      (∀ w, s.ltime.lastSample = some w → 1200 < (x - w).natAbs → t.ltime.sampleBad = true) ∧
      (∀ w, s.ltime.lastSample = some w → (x - w).natAbs ≤ 1200 → 0 ≤ x → x ≤ 3000 → t.ltime.sampleBad = s.ltime.sampleBad)) ∧
    (s.leash.differ = true → s.leash.modelMismatch = false → ∃ t, exec .modelMismatch s = .next t ∧
      t.leash = { s.leash with modelMismatch := true, mismatchSeen := true } ∧ t.muzzle = s.muzzle ∧
      ∃ e, t.tel.pend = s.tel.pend ++ [e] ∧ e.cls = .log ∧ e.code = 0x010A) ∧
    (s.leash.differ = false ∨ s.leash.modelMismatch = true → exec .modelMismatch s = .next s) ∧
    (∃ t, exec .sensorDisagreement s = .next t ∧ t.muzzle.triggers = s.muzzle.triggers ++ [⟨.module, 0x05⟩] ∧
      ∃ e, t.tel.pend = s.tel.pend ++ [e] ∧ e.cls = .alarm ∧ e.code = 0x0006) ∧
    exec (.sensorSelfCheck ok) s = .next { s with ltime := { s.ltime with selfCheckBad := !ok } } ∧
    (s.hbmThrottle < s.leash.tstack → s.hbm.held = false → s.ltime.hbmOrder = none → s.ltime.lastThrottle = none → s.hbm.op.toNat < 2 →
      ∃ t, exec .hbmThrottle s = .next t ∧ t.ltime.hbmOrder = some (s.hbm.op + 1) ∧ t.ltime.lastThrottle = some s.tick.now ∧ t.hbm = s.hbm) ∧
    (s.leash.tstack ≤ s.hbmThrottle → exec .hbmThrottle s = .next s)) ∧
  (∀ (s : State),
    (s.overSust = true → 100 * usNs ≤ s.ltime.sinceDown →
      (1 < s.leash.duty → s.leash.duty < 16 → s.ladder.leash.duty = s.leash.duty - 1 ∧ s.ladder.leash.op = s.leash.op) ∧
      (s.leash.duty = 16 → s.leash.want ≠ 0 → s.fixedEn = false → s.ladder.leash.want = s.leash.want - 1 ∧ s.ladder.leash.duty = 16) ∧
      (s.leash.duty = 16 → s.leash.want = 0 ∨ s.fixedEn = true → s.ladder.leash.duty = 15 ∧ s.ladder.leash.want = s.leash.want) ∧
      (s.leash.duty = 1 → s.ladder = s)) ∧
    (s.ltime.sinceDown < 100 * usNs → s.overSust = true → s.ladder = s) ∧
    (s.overPeak = true → s.peakStall.leash.stall = true) ∧
    (s.overPeak = false → s.leash.stall = true → s.peakStall.leash.stall = false ∧ s.peakStall.leash.duty = 1 ∧
      (s.fixedEn = false → s.peakStall.leash.want = 0)) ∧
    (s.leash.sensorSuspect = true → s.topOp = 4) ∧
    (s.leash.sensorSuspect = false → s.fixedEn = true → s.topOp = s.fixedOp) ∧
    (s.leash.sensorSuspect = false → s.fixedEn = false → s.boostEn = true → s.leash.tj < 85 → s.topOp = 7) ∧
    (s.leash.sensorSuspect = false → s.fixedEn = false → s.boostEn = false ∨ 85 ≤ s.leash.tj → s.topOp = 5)) ∧
  ∀ (s : State) (r : EnergyIn),
    ∃ t, exec (.energyIntervalClose r) s = .next t ∧ (t.energy.total : Int) = t.energy.charged + t.energy.unattr ∧
      t.energy.openedAt = s.tick.now ∧ t.energy.occ = [] ∧ t.hbm = s.hbm ∧ t.tiles = s.tiles ∧ t.host = s.host ∧
      (0 < r.activity.foldl (fun acc e => acc + e.2) 0 + r.idle + r.base →
        t.energy.kDen = r.activity.foldl (fun acc e => acc + e.2) 0 + r.idle + r.base) ∧
      (s.leash.sensorSuspect = false → t.energy.totalPj = s.energy.totalPj + r.measured ∧ t.energy.suspect = s.energy.suspect) ∧
      (s.leash.sensorSuspect = true → t.energy.suspect = sat 32 (s.energy.suspect + 1) ∧
        t.energy.totalPj = s.energy.totalPj + r.activity.foldl (fun acc e => acc + e.2) 0 + r.idle + r.base) ∧
      ((∀ p, s.running p = none) → t.energy.chargedPj = s.energy.chargedPj ∧ t.shep = s.shep)

/-- R385 to R389, R393, R394, R397: METRIC records come at the ticks that PERIOD names, and once; an ALARM of a key that waits is
coalesced, one that finds its table full is kept under the overflow entry; a LOG without a token is dropped
on its path and counted; counters freeze and wrap as written; a seed write reseeds every tile.
A command that comes while its condition does not hold changes nothing: the model's choice, log entry 6. -/
def Obligations.TelemetryAndCountersFollowTheirRules : Prop :=
  (∀ (s : State),
    let period := bits (s.regN 0x120034) 0 16
    (period = 0 ∨ s.tick.count % period ≠ 0 ∨ s.tel.metricAt = some s.tick.count → exec .metricPeriod s = .next s) ∧
    (period ≠ 0 → s.tick.count % period = 0 → s.tel.metricAt ≠ some s.tick.count →
      (bits (s.regN 0x120034) 16 3 = 0 → exec .metricPeriod s = .next { s with tel := { s.tel with metricAt := some s.tick.count } }) ∧
      ∃ t, exec .metricPeriod s = .next t ∧ t.tel.metricAt = some s.tick.count ∧ t.tel.pend = s.tel.pend ∧ t.shep = s.shep ∧
        t.tel.seqMetric % 2 ^ 32 = (s.tel.seqMetric + b2n (bit (s.regN 0x120034) 16) + b2n (bit (s.regN 0x120034) 17) +
          b2n (bit (s.regN 0x120034) 18)) % 2 ^ 32)) ∧
  (∀ (l : List TelEvent) (e : TelEvent),
    ((∃ x ∈ l, sameKey x e = true) → (alarmTable l e).length = l.length ∧
      ∀ x ∈ l, sameKey x e = true → ∃ y ∈ alarmTable l e, sameKey y e = true ∧ y.count = sat 16 (x.count + 1)) ∧
    ((∀ x ∈ l, sameKey x e = false) → (l.filter fun x => !isOverflow x).length < 256 → alarmTable l e = l ++ [e]) ∧
    ((∀ x ∈ l, sameKey x e = false) → 256 ≤ (l.filter fun x => !isOverflow x).length →
      ∃ y ∈ alarmTable l e, y.code = 0x0011 ∧ y.payload = leBytes 2 e.code)) ∧
  (∀ (s : State) (e : TelEvent) (p : Path), s.pathUp p = true →
    ((s.tel.path p).hasToken = false → (s.pathLog e p).tel.path p = { s.tel.path p with
        dropped := sat (if p = .nv then 32 else 8) ((s.tel.path p).dropped + 1), sinceLog := sat 16 ((s.tel.path p).sinceLog + 1) } ∧
      (s.pathLog e p).nv = s.nv ∧ (s.pathLog e p).host = s.host) ∧
    ((s.tel.path p).hasToken = true → s.room p .log = true → ((s.pathLog e p).tel.path p).sinceLog = 0 ∧
      ((s.pathLog e p).tel.path p).dropped = (s.tel.path p).dropped)) ∧
  (∀ (s : State) (seed : BitVec 24) (site : Nat),
    (∃ t, exec (.cntFreeze 0) s = .next t ∧ t.cnt.frozen = false ∧ (∀ u, (t.cntUnit u).frozen = false ∧ (t.cntUnit u).ctrs = (s.cntUnit u).ctrs) ∧
      t = { s with cnt := t.cnt }) ∧
    (∃ t, exec (.cntFreeze 1) s = .next t ∧ t.cntUnit s.cnt.unit = { s.cntUnit s.cnt.unit with frozen := true } ∧
      (∀ u, u ≠ s.cnt.unit → t.cntUnit u = s.cntUnit u) ∧ t = { s with cnt := t.cnt }) ∧
    exec (.cntFreeze 2) s = .next { s with cnt := { s.cnt with frozen := true } } ∧
    exec (.cntFreeze 3) s = .next s ∧
    (∃ t, exec (.cntTagSeed seed) s = .next t ∧ t.cnt.tagSeed = seed ∧ t.cnt.lfsr = [] ∧ t = { s with cnt := t.cnt }) ∧
    (s.cnt.frozen = true → ∀ u ev n, s.countEv u ev n = s) ∧ tagSeed seed site ≠ 0) ∧
  ∀ (u : CntUnit) (i n : Nat),
    ((u.ctr i).val + n < 2 ^ 48 → (u.add i n).2 = false ∧ ((u.add i n).1.ctr i).val = (u.ctr i).val + n ∧ (u.add i n).1.ovf = u.ovf) ∧
    (2 ^ 48 ≤ (u.ctr i).val + n → i < 32 → i % 2 = 1 → ((u.add i n).1.ctr i).val = ((u.ctr i).val + n) % 2 ^ 48 ∧
      (u.add i n).1.ovf.getLsbD i = true ∧ (u.add i n).2 = (u.ctr i).irq) ∧
    (2 ^ 48 ≤ (u.ctr i).val + n → i % 2 = 0 → (u.ctr (i + 1)).chain = true → (u.ctr (i + 1)).val + ((u.ctr i).val + n) / 2 ^ 48 < 2 ^ 48 →
      ((u.add i n).1.ctr (i + 1)).val = (u.ctr (i + 1)).val + ((u.ctr i).val + n) / 2 ^ 48 ∧
      ((u.add i n).1.ctr i).val = ((u.ctr i).val + n) % 2 ^ 48 ∧ (u.add i n).1.ovf = u.ovf)

/-- R400, R402, R404 to R406, R408, R409: an object is taken only when it verifies, and one that does not leaves the NV copy as it was;
MIN_SVN never falls and a revoked key stays revoked; a nonce serves one SUBMIT, and no SUBMIT passes where debug is disabled; a
watchdog expiry Muzzles the module and restarts the MC.
A command that comes while its condition does not hold changes nothing: the model's choice, log entry 6. -/
def Obligations.SecurityTakesOnlyWhatVerifies : Prop :=
  (∀ (s : State) (kind : BitVec 2) (changed : Bool) (b : List Byte),
    let n := s.regN 0x140208
    let m := s.regN 0x140408
    (s.sec.upd.state = 1 ∨ s.sec.rcv.state = 1 → exec (.secUpdGo kind) s = .next (s.modUpd fun u => { u with busyWrite := true })) ∧
    (s.sec.upd.state ≠ 1 → s.sec.rcv.state ≠ 1 →
      (s.mod.dusk.step ≠ 0 → exec (.secUpdGo kind) s = .next (s.modUpd fun u => u.fail 9)) ∧
      (s.mod.dusk.step = 0 →
        (kind.toNat ≠ 1 → kind.toNat ≠ 2 → exec (.secUpdGo kind) s = .next (s.modUpd fun u => u.fail 3)) ∧
        (kind.toNat = 1 ∨ kind.toNat = 2 →
          (n = 0 ∨ nvArea kind.toNat < n → exec (.secUpdGo kind) s = .next (s.modUpd fun u => u.fail 1)) ∧
          (0 < n → n ≤ nvArea kind.toNat →
            (s.hostRead (s.reg64 0x140200) n = none → exec (.secUpdGo kind) s = .next (s.modUpd fun u => u.fail 2)) ∧
            (s.hostRead (s.reg64 0x140200) n = some b → objectCheck s.sec.fuses kind.toNat b ≠ 0 →
              exec (.secUpdGo kind) s = .next (s.modUpd fun u => u.fail (objectCheck s.sec.fuses kind.toNat b))) ∧
            (s.hostRead (s.reg64 0x140200) n = some b → objectCheck s.sec.fuses kind.toNat b = 0 →
              ∃ t, exec (.secUpdGo kind) s = .next t ∧ t.sec.upd.state = 1 ∧
                t.sec.upd.job = some (kind.toNat, b, s.tick.now + nvTime n) ∧
                (kind.toNat = 1 → t.nv.firmwareOk = false ∧ t.nv.imageOk = s.nv.imageOk) ∧
                (kind.toNat = 2 → t.nv.imageOk = false ∧ t.nv.firmwareOk = s.nv.firmwareOk) ∧
                t.host = s.host ∧ t.hbm = s.hbm ∧ t.tiles = s.tiles ∧ t.config = s.config))))) ∧
    (s.mod.power ≠ .recovery → exec (.recoveryGo kind changed) s = .next s) ∧
    (s.mod.power = .recovery →
      (kind.toNat ≠ 1 → kind.toNat ≠ 2 → exec (.recoveryGo kind changed) s = .next (s.modRcv fun u => u.fail 3)) ∧
      (kind.toNat = 1 ∨ kind.toNat = 2 →
        (m = 0 ∨ nvArea kind.toNat < m → exec (.recoveryGo kind changed) s = .next (s.modRcv fun u => u.fail 1)) ∧
        (0 < m → m ≤ nvArea kind.toNat →
          (s.hostRead (s.reg64 0x140400) m = none → exec (.recoveryGo kind changed) s = .next (s.modRcv fun u => u.fail 2)) ∧
          (s.hostRead (s.reg64 0x140400) m = some b →
            (objectCheck s.sec.fuses kind.toNat b ≠ 0 →
              exec (.recoveryGo kind changed) s = .next (s.modRcv fun u => u.fail (objectCheck s.sec.fuses kind.toNat b))) ∧
            (objectCheck s.sec.fuses kind.toNat b = 0 →
              exec (.recoveryGo kind true) s = .next ((s.nvBroken kind.toNat).modRcv fun u => u.fail 10) ∧
              (s.nv.areaWorn kind.toNat = true →
                exec (.recoveryGo kind false) s = .next ((s.nvBroken kind.toNat).modRcv fun u => u.fail 8)) ∧
              (s.nv.areaWorn kind.toNat = false →
                (kind.toNat = 1 → s.imageGood = false) → (kind.toNat = 2 → s.firmwareGood = false) →
                ∃ t, exec (.recoveryGo kind false) s = .next t ∧ t.mod.power = .recovery ∧ t.sec.rcv.state = 2 ∧
                  (kind.toNat = 1 → t.nv.firmware = b ∧ t.nv.firmwareOk = true) ∧
                  (kind.toNat = 2 → t.nv.image = b ∧ t.nv.imageOk = true)) ∧
              (s.nv.areaWorn kind.toNat = false →
                let v : State := (s.nvStore kind.toNat b).modRcv fun u => { u with state := 2, result := 0 }
                v.firmwareGood = true → v.imageGood = true → exec (.recoveryGo kind false) s = .next v.dawn))))))) ∧
  (∀ (s : State),
    (∃ t, exec .secSvnCommit s = .next t ∧ t = { s with sec := t.sec } ∧
      t.sec.fuses.minSvn.toNat = max s.sec.fuses.minSvn.toNat (min s.sec.fwSvn.toNat s.sec.imageSvn.toNat) ∧
      t.sec.fuses.revoked = s.sec.fuses.revoked ||| s.sec.revokeMask ∧ t.sec.fuses.rootDigest = s.sec.fuses.rootDigest) ∧
    (∃ t, exec .debugNew s = .next t ∧ t.sec.nonceFresh = true ∧ t.sec.nonce = Config.nonce s.fresh ∧ t.sec.level = s.sec.level ∧
      t.sec.fuses = s.sec.fuses) ∧
    (s.sec.fuses.debugDisabled = true ∨ s.sec.nonceFresh = false ∨ s.hostRead (s.reg64 0x140320) (64 + sigBytes) = none ∨
        (∃ b, s.hostRead (s.reg64 0x140320) (64 + sigBytes) = some b ∧ s.debugOk b = false) → ∃ t, exec .debugSubmit s = .next t ∧ t.sec.refused = true ∧
      t.sec.level = s.sec.level ∧ t.sec.nonceFresh = false ∧ t.sec.meas = s.sec.meas) ∧
    (∀ b, s.hostRead (s.reg64 0x140320) (64 + sigBytes) = some b → s.debugOk b = true → ∃ t, exec .debugSubmit s = .next t ∧
      t.sec.level = BitVec.ofNat 2 (sliceN b 48 1) ∧ t.sec.nonceFresh = false ∧ t.sec.refused = s.sec.refused ∧
      t.measOf 6 = extend (s.measOf 6) (0xFF :: b.take 64) ∧ t.sec.fuses = s.sec.fuses) ∧
    (s.mod.power = .running → ∃ t, exec .mcWatchdogExpiry s = .next t ∧ t.muzzle.triggers = s.muzzle.triggers ++ [⟨.module, 0x06⟩] ∧
      t.sec.mcRunning = false ∧ t.sec.mcRestarts = sat 8 (s.sec.mcRestarts + 1) ∧ t.host = s.host ∧ t.hbm = s.hbm ∧ t.tiles = s.tiles) ∧
    (s.mod.power ≠ .running → exec .mcWatchdogExpiry s = .next { s with sec := { s.sec with
      mcRunning := false, mcRestarts := sat 8 (s.sec.mcRestarts + 1), spdmOut := none } }) ∧
    (s.sec.mcRunning = true ∨ s.mod.vauxOk = false ∨ s.firmwareGood = false → exec .mcRestart s = .next s) ∧
    (s.sec.mcRunning = false → s.mod.vauxOk = true → s.firmwareGood = true → ∃ t, exec .mcRestart s = .next t ∧ t.sec.mcRunning = true ∧
      t.tel.mctpQueue = [] ∧ t.tel.mctpOut = s.tel.mctpOut ++ s.tel.mctpQueue) ∧
    (s.sec.mcRunning = false ∨ s.mod.power ≠ .standby → exec .mctpWake s = .next s) ∧
    (s.sec.mcRunning = true → s.mod.power = .standby → exec .mctpWake s = .next s.dawn) ∧
    (s.sec.mcRunning = true → s.mod.power = .standby → s.mod.vauxOk = true → s.mod.vin48Ok = true → s.mod.pins.perst = true →
      ∃ t, exec .mctpWake s = .next t ∧ t.mod.power = .dawnHeld) ∧
    (s.sec.mcRunning = true → s.mod.power = .running → s.mod.dusk.step = 0 → exec .mctpStandby s = .next
      { s with mod := { s.mod with dusk := { step := 1, grace := 1000, thenReset := false } } }) ∧
    (s.sec.mcRunning = false ∨ s.mod.power ≠ .running ∨ s.mod.dusk.step ≠ 0 → exec .mctpStandby s = .next s)) ∧
  ∀ (f : Fuses) (kind : Nat) (o : List Byte), f.verify kind o = 0 →
    f.revoked.getLsbD (keyIndex o) = false ∧ f.minSvn.toNat ≤ svnOf o ∧ sliceN (sigBlock o) 4 1 = kind ∧
    leNat (hash (slice (sigBlock o) 64 1952)) = f.rootDigest.toNat

/-- R403, R407: the SPDM responder answers under 1.2 to 1.4, signs under 1.4 alone, and answers nothing while the MC is down; EXTEST and
its kin select BYPASS outside standby and recovery. -/
def Obligations.RespondersAnswerAsTheModuleStands : Prop :=
  (∀ (s : State) (v : SpdmVersion) (slot off len ix : Nat) (nonce : BitVec 256) (sig : Bool),
    (s.sec.mcRunning = false → ∀ c ∈ [Instr.getVersion, .getCapabilities v, .negotiateAlgorithms v, .getDigests, .getCertificate slot off len,
      .challenge v nonce, .getMeasurements v ix sig nonce], exec c s = .next { s with sec := { s.sec with spdmOut := none } }) ∧
    (s.sec.mcRunning = true →
      let out (a : SpdmAnswer) : State := { s with sec := { s.sec with spdmOut := some a } }
      exec .getVersion s = .next (out (.versions [.v12, .v13, .v14])) ∧
      exec (.getCapabilities v) s = .next { s with sec := { s.sec with spdmVersion := some v, spdmOut := some (.capabilities v) } } ∧
      exec (.negotiateAlgorithms v) s = .next { s with sec := { s.sec with spdmVersion := some v, spdmOut := some (.algorithms v (v == .v14)) } } ∧
      exec .getDigests s = .next (out (.digests (Config.sha3 s.nv.certificate))) ∧
      (slot ≠ 0 → exec (.getCertificate slot off len) s = .next (out .unsupported)) ∧
      exec (.getCertificate 0 off len) s = .next (out (.certificate (slice s.nv.certificate off len)
        (s.nv.certificate.length - off - (slice s.nv.certificate off len).length))) ∧
      exec (.challenge .v14 nonce) s = .next (out (.challengeAuth (s.signed nonce []))) ∧
      (v ≠ .v14 → exec (.challenge v nonce) s = .next (out .unsupported) ∧ exec (.getMeasurements v ix true nonce) s = .next (out .unsupported)) ∧
      exec (.getMeasurements v ix false nonce) s = .next (out (.measurements (s.measBlocks ix) none)) ∧
      exec (.getMeasurements .v14 ix true nonce) s = .next
        (out (.measurements (s.measBlocks ix) (some (s.signed nonce ((s.measBlocks ix).flatMap Prod.snd))))) ∧
      (1 ≤ ix → ix ≤ 6 → s.measBlocks ix = [(ix, s.measOf ix)]))) ∧
  ∀ (s : State) (x : BitVec 96),
    let scan (i : JtagInstr) (d : BitVec 96) : State := { s with mod := { s.mod with pins := { s.mod.pins with jtag := i, jtagData := d } } }
    exec .bypass s = .next (scan .bypass 0) ∧
    exec .idcode s = .next (scan .idcode (BitVec.ofNat 96 (Config.idcode s.mod.stepping))) ∧
    exec (.samplePreload x) s = .next { s with mod := { s.mod with pins := { s.mod.pins with
      jtag := .samplePreload, jtagData := s.fabric.gpioIn, preload := x } } } ∧
    (s.scanOk = true → exec .extest s = .next (scan .extest s.fabric.gpioIn) ∧ exec .extestPulse s = .next (scan .extestPulse s.fabric.gpioIn) ∧
      exec .extestTrain s = .next (scan .extestTrain s.fabric.gpioIn)) ∧
    (s.scanOk = false → ∀ c ∈ [Instr.extest, .extestPulse, .extestTrain], exec c s = .next (scan .bypass 0)) ∧
    (s.scanOk = true ↔ s.mod.power = .standby ∨ s.mod.power = .recovery)

/-! ## Rules stated whole -/

/-- R126: the value of an exact entry is that of the first of the five rules that applies. -/
def Obligations.ExactEntryHasTheValueOfTheFirstRule : Prop :=
  ∀ w : QWord, w.getLsbD 101 = false →
    let low : Nat := w.toNat % 2 ^ 96
    let v : Int := if low < 2 ^ 95 then (low : Int) else (low : Int) - 2 ^ 96
    (w.getLsbD 98 = true → entryNum w = .nan) ∧
    (w.getLsbD 98 = false → w.getLsbD 96 = true → entryNum w = .inf false) ∧
    (w.getLsbD 98 = false → w.getLsbD 96 = false → w.getLsbD 97 = true → entryNum w = .inf true) ∧
    (w.getLsbD 98 = false → w.getLsbD 96 = false → w.getLsbD 97 = false →
      (low = 0 → entryNum w = .zero (w.getLsbD 100)) ∧
      (low ≠ 0 → entryNum w = .fin (decide (v < 0)) v.natAbs (-32)))

/-- R25: Muzzles of different scopes are held independently; releasing the module leaves every Pack and region Muzzle in force; while the
module is Muzzled, a Pack release request is refused. -/
def Obligations.MuzzlesAreHeldIndependently : Prop :=
  ∀ (s : State) (fn : Fn) (p : PackIx) (r : RegionIx) (c : Nat) (ix : BitVec 6),
    (s.muzzle.releases = [(.module, fn)] → (∀ x ∈ s.muzzle.triggers, x.scope ≠ .module) →
      ∃ t, exec (.muzzleReleaseApply 0 0) s = .next t ∧ t.muzzle.module.active = false ∧ (∀ k, t.mzPack k = s.mzPack k) ∧
        ∀ k, t.mzRegion k = s.mzRegion k) ∧
    (s.muzzle.module.active = true → s.mayMuzzle fn.val (.pack ix.toFin) = true →
      exec (.muzzleRelease fn 1 ix) s = .next (s.mzResult fn.val 2)) ∧
    ((∀ k, (s.muzzle1 ⟨.module, c⟩).mzPack k = s.mzPack k) ∧ ∀ k, (s.muzzle1 ⟨.module, c⟩).mzRegion k = s.mzRegion k) ∧
    ((s.muzzle1 ⟨.pack p, c⟩).muzzle.module = s.muzzle.module ∧ ∀ k, (s.muzzle1 ⟨.pack p, c⟩).mzRegion k = s.mzRegion k) ∧
    ((s.muzzle1 ⟨.region r, c⟩).muzzle.module = s.muzzle.module ∧ ∀ k, (s.muzzle1 ⟨.region r, c⟩).mzPack k = s.mzPack k) ∧
    ((s.unmuzzle (.pack p)).muzzle.module = s.muzzle.module ∧ ∀ k, (s.unmuzzle (.pack p)).mzRegion k = s.mzRegion k) ∧
    ((s.unmuzzle (.region r)).muzzle.module = s.muzzle.module ∧ ∀ k, (s.unmuzzle (.region r)).mzPack k = s.mzPack k)
end

