-- ==== Sys2Proof/Laws/State.lean ====
section
/-! SUPPORT. What an update of one part of the state leaves alone: one lemma for each field and each update, so that no
proof unfolds a record update. -/
namespace Sys2Proof.Machine
open Sys2Proof

variable (s : State)

/-! ### `setReg` -/

@[simp] theorem State.setReg_pending (a : Nat) (v : Word) : (s.setReg a v).pending = s.pending := rfl
@[simp] theorem State.setReg_mod (a : Nat) (v : Word) : (s.setReg a v).mod = s.mod := rfl
@[simp] theorem State.setReg_tick (a : Nat) (v : Word) : (s.setReg a v).tick = s.tick := rfl
@[simp] theorem State.setReg_cad (a : Nat) (v : Word) : (s.setReg a v).cad = s.cad := rfl
@[simp] theorem State.setReg_cue (a : Nat) (v : Word) : (s.setReg a v).cue = s.cue := rfl
@[simp] theorem State.setReg_commits (a : Nat) (v : Word) : (s.setReg a v).commits = s.commits := rfl
@[simp] theorem State.setReg_shep (a : Nat) (v : Word) : (s.setReg a v).shep = s.shep := rfl
@[simp] theorem State.setReg_muzzle (a : Nat) (v : Word) : (s.setReg a v).muzzle = s.muzzle := rfl
@[simp] theorem State.setReg_host (a : Nat) (v : Word) : (s.setReg a v).host = s.host := rfl
@[simp] theorem State.setReg_tiles (a : Nat) (v : Word) : (s.setReg a v).tiles = s.tiles := rfl
@[simp] theorem State.setReg_hbm (a : Nat) (v : Word) : (s.setReg a v).hbm = s.hbm := rfl
@[simp] theorem State.setReg_paging (a : Nat) (v : Word) : (s.setReg a v).paging = s.paging := rfl
@[simp] theorem State.setReg_kennel (a : Nat) (v : Word) : (s.setReg a v).kennel = s.kennel := rfl
@[simp] theorem State.setReg_links (a : Nat) (v : Word) : (s.setReg a v).links = s.links := rfl
@[simp] theorem State.setReg_fabric (a : Nat) (v : Word) : (s.setReg a v).fabric = s.fabric := rfl
@[simp] theorem State.setReg_config (a : Nat) (v : Word) : (s.setReg a v).config = s.config := rfl
@[simp] theorem State.setReg_nv (a : Nat) (v : Word) : (s.setReg a v).nv = s.nv := rfl
@[simp] theorem State.setReg_leash (a : Nat) (v : Word) : (s.setReg a v).leash = s.leash := rfl
@[simp] theorem State.setReg_ltime (a : Nat) (v : Word) : (s.setReg a v).ltime = s.ltime := rfl
@[simp] theorem State.setReg_energy (a : Nat) (v : Word) : (s.setReg a v).energy = s.energy := rfl
@[simp] theorem State.setReg_tel (a : Nat) (v : Word) : (s.setReg a v).tel = s.tel := rfl
@[simp] theorem State.setReg_cnt (a : Nat) (v : Word) : (s.setReg a v).cnt = s.cnt := rfl
@[simp] theorem State.setReg_sec (a : Nat) (v : Word) : (s.setReg a v).sec = s.sec := rfl
@[simp] theorem State.setReg_fresh (a : Nat) (v : Word) : (s.setReg a v).fresh = s.fresh := rfl

/-! ### `setStaged` -/

@[simp] theorem State.setStaged_pending (a : Nat) (v : Word) : (s.setStaged a v).pending = s.pending := rfl
@[simp] theorem State.setStaged_mod (a : Nat) (v : Word) : (s.setStaged a v).mod = s.mod := rfl
@[simp] theorem State.setStaged_tick (a : Nat) (v : Word) : (s.setStaged a v).tick = s.tick := rfl
@[simp] theorem State.setStaged_cad (a : Nat) (v : Word) : (s.setStaged a v).cad = s.cad := rfl
@[simp] theorem State.setStaged_cue (a : Nat) (v : Word) : (s.setStaged a v).cue = s.cue := rfl
@[simp] theorem State.setStaged_commits (a : Nat) (v : Word) : (s.setStaged a v).commits = s.commits := rfl
@[simp] theorem State.setStaged_shep (a : Nat) (v : Word) : (s.setStaged a v).shep = s.shep := rfl
@[simp] theorem State.setStaged_muzzle (a : Nat) (v : Word) : (s.setStaged a v).muzzle = s.muzzle := rfl
@[simp] theorem State.setStaged_host (a : Nat) (v : Word) : (s.setStaged a v).host = s.host := rfl
@[simp] theorem State.setStaged_tiles (a : Nat) (v : Word) : (s.setStaged a v).tiles = s.tiles := rfl
@[simp] theorem State.setStaged_hbm (a : Nat) (v : Word) : (s.setStaged a v).hbm = s.hbm := rfl
@[simp] theorem State.setStaged_paging (a : Nat) (v : Word) : (s.setStaged a v).paging = s.paging := rfl
@[simp] theorem State.setStaged_kennel (a : Nat) (v : Word) : (s.setStaged a v).kennel = s.kennel := rfl
@[simp] theorem State.setStaged_links (a : Nat) (v : Word) : (s.setStaged a v).links = s.links := rfl
@[simp] theorem State.setStaged_fabric (a : Nat) (v : Word) : (s.setStaged a v).fabric = s.fabric := rfl
@[simp] theorem State.setStaged_config (a : Nat) (v : Word) : (s.setStaged a v).config = s.config := rfl
@[simp] theorem State.setStaged_nv (a : Nat) (v : Word) : (s.setStaged a v).nv = s.nv := rfl
@[simp] theorem State.setStaged_leash (a : Nat) (v : Word) : (s.setStaged a v).leash = s.leash := rfl
@[simp] theorem State.setStaged_ltime (a : Nat) (v : Word) : (s.setStaged a v).ltime = s.ltime := rfl
@[simp] theorem State.setStaged_energy (a : Nat) (v : Word) : (s.setStaged a v).energy = s.energy := rfl
@[simp] theorem State.setStaged_tel (a : Nat) (v : Word) : (s.setStaged a v).tel = s.tel := rfl
@[simp] theorem State.setStaged_cnt (a : Nat) (v : Word) : (s.setStaged a v).cnt = s.cnt := rfl
@[simp] theorem State.setStaged_sec (a : Nat) (v : Word) : (s.setStaged a v).sec = s.sec := rfl
@[simp] theorem State.setStaged_fresh (a : Nat) (v : Word) : (s.setStaged a v).fresh = s.fresh := rfl

/-! ### `hostWrite` -/

@[simp] theorem State.hostWrite_pending (a : Nat) (b : List Byte) : (s.hostWrite a b).pending = s.pending := rfl
@[simp] theorem State.hostWrite_mod (a : Nat) (b : List Byte) : (s.hostWrite a b).mod = s.mod := rfl
@[simp] theorem State.hostWrite_tick (a : Nat) (b : List Byte) : (s.hostWrite a b).tick = s.tick := rfl
@[simp] theorem State.hostWrite_cad (a : Nat) (b : List Byte) : (s.hostWrite a b).cad = s.cad := rfl
@[simp] theorem State.hostWrite_cue (a : Nat) (b : List Byte) : (s.hostWrite a b).cue = s.cue := rfl
@[simp] theorem State.hostWrite_commits (a : Nat) (b : List Byte) : (s.hostWrite a b).commits = s.commits := rfl
@[simp] theorem State.hostWrite_shep (a : Nat) (b : List Byte) : (s.hostWrite a b).shep = s.shep := rfl
@[simp] theorem State.hostWrite_muzzle (a : Nat) (b : List Byte) : (s.hostWrite a b).muzzle = s.muzzle := rfl
@[simp] theorem State.hostWrite_regs (a : Nat) (b : List Byte) : (s.hostWrite a b).regs = s.regs := rfl
@[simp] theorem State.hostWrite_tiles (a : Nat) (b : List Byte) : (s.hostWrite a b).tiles = s.tiles := rfl
@[simp] theorem State.hostWrite_hbm (a : Nat) (b : List Byte) : (s.hostWrite a b).hbm = s.hbm := rfl
@[simp] theorem State.hostWrite_paging (a : Nat) (b : List Byte) : (s.hostWrite a b).paging = s.paging := rfl
@[simp] theorem State.hostWrite_kennel (a : Nat) (b : List Byte) : (s.hostWrite a b).kennel = s.kennel := rfl
@[simp] theorem State.hostWrite_links (a : Nat) (b : List Byte) : (s.hostWrite a b).links = s.links := rfl
@[simp] theorem State.hostWrite_fabric (a : Nat) (b : List Byte) : (s.hostWrite a b).fabric = s.fabric := rfl
@[simp] theorem State.hostWrite_config (a : Nat) (b : List Byte) : (s.hostWrite a b).config = s.config := rfl
@[simp] theorem State.hostWrite_nv (a : Nat) (b : List Byte) : (s.hostWrite a b).nv = s.nv := rfl
@[simp] theorem State.hostWrite_leash (a : Nat) (b : List Byte) : (s.hostWrite a b).leash = s.leash := rfl
@[simp] theorem State.hostWrite_ltime (a : Nat) (b : List Byte) : (s.hostWrite a b).ltime = s.ltime := rfl
@[simp] theorem State.hostWrite_energy (a : Nat) (b : List Byte) : (s.hostWrite a b).energy = s.energy := rfl
@[simp] theorem State.hostWrite_tel (a : Nat) (b : List Byte) : (s.hostWrite a b).tel = s.tel := rfl
@[simp] theorem State.hostWrite_cnt (a : Nat) (b : List Byte) : (s.hostWrite a b).cnt = s.cnt := rfl
@[simp] theorem State.hostWrite_sec (a : Nat) (b : List Byte) : (s.hostWrite a b).sec = s.sec := rfl
@[simp] theorem State.hostWrite_fresh (a : Nat) (b : List Byte) : (s.hostWrite a b).fresh = s.fresh := rfl

/-! ### `setTile` -/

@[simp] theorem State.setTile_pending (i : Nat) (t : TileSt) : (s.setTile i t).pending = s.pending := rfl
@[simp] theorem State.setTile_mod (i : Nat) (t : TileSt) : (s.setTile i t).mod = s.mod := rfl
@[simp] theorem State.setTile_tick (i : Nat) (t : TileSt) : (s.setTile i t).tick = s.tick := rfl
@[simp] theorem State.setTile_cad (i : Nat) (t : TileSt) : (s.setTile i t).cad = s.cad := rfl
@[simp] theorem State.setTile_cue (i : Nat) (t : TileSt) : (s.setTile i t).cue = s.cue := rfl
@[simp] theorem State.setTile_commits (i : Nat) (t : TileSt) : (s.setTile i t).commits = s.commits := rfl
@[simp] theorem State.setTile_shep (i : Nat) (t : TileSt) : (s.setTile i t).shep = s.shep := rfl
@[simp] theorem State.setTile_muzzle (i : Nat) (t : TileSt) : (s.setTile i t).muzzle = s.muzzle := rfl
@[simp] theorem State.setTile_regs (i : Nat) (t : TileSt) : (s.setTile i t).regs = s.regs := rfl
@[simp] theorem State.setTile_host (i : Nat) (t : TileSt) : (s.setTile i t).host = s.host := rfl
@[simp] theorem State.setTile_hbm (i : Nat) (t : TileSt) : (s.setTile i t).hbm = s.hbm := rfl
@[simp] theorem State.setTile_paging (i : Nat) (t : TileSt) : (s.setTile i t).paging = s.paging := rfl
@[simp] theorem State.setTile_kennel (i : Nat) (t : TileSt) : (s.setTile i t).kennel = s.kennel := rfl
@[simp] theorem State.setTile_links (i : Nat) (t : TileSt) : (s.setTile i t).links = s.links := rfl
@[simp] theorem State.setTile_fabric (i : Nat) (t : TileSt) : (s.setTile i t).fabric = s.fabric := rfl
@[simp] theorem State.setTile_config (i : Nat) (t : TileSt) : (s.setTile i t).config = s.config := rfl
@[simp] theorem State.setTile_nv (i : Nat) (t : TileSt) : (s.setTile i t).nv = s.nv := rfl
@[simp] theorem State.setTile_leash (i : Nat) (t : TileSt) : (s.setTile i t).leash = s.leash := rfl
@[simp] theorem State.setTile_ltime (i : Nat) (t : TileSt) : (s.setTile i t).ltime = s.ltime := rfl
@[simp] theorem State.setTile_energy (i : Nat) (t : TileSt) : (s.setTile i t).energy = s.energy := rfl
@[simp] theorem State.setTile_tel (i : Nat) (t : TileSt) : (s.setTile i t).tel = s.tel := rfl
@[simp] theorem State.setTile_cnt (i : Nat) (t : TileSt) : (s.setTile i t).cnt = s.cnt := rfl
@[simp] theorem State.setTile_sec (i : Nat) (t : TileSt) : (s.setTile i t).sec = s.sec := rfl
@[simp] theorem State.setTile_fresh (i : Nat) (t : TileSt) : (s.setTile i t).fresh = s.fresh := rfl

/-! ### `modTile` -/

@[simp] theorem State.modTile_pending (i : Nat) (f : TileSt → TileSt) : (s.modTile i f).pending = s.pending := rfl
@[simp] theorem State.modTile_mod (i : Nat) (f : TileSt → TileSt) : (s.modTile i f).mod = s.mod := rfl
@[simp] theorem State.modTile_tick (i : Nat) (f : TileSt → TileSt) : (s.modTile i f).tick = s.tick := rfl
@[simp] theorem State.modTile_cad (i : Nat) (f : TileSt → TileSt) : (s.modTile i f).cad = s.cad := rfl
@[simp] theorem State.modTile_cue (i : Nat) (f : TileSt → TileSt) : (s.modTile i f).cue = s.cue := rfl
@[simp] theorem State.modTile_commits (i : Nat) (f : TileSt → TileSt) : (s.modTile i f).commits = s.commits := rfl
@[simp] theorem State.modTile_shep (i : Nat) (f : TileSt → TileSt) : (s.modTile i f).shep = s.shep := rfl
@[simp] theorem State.modTile_muzzle (i : Nat) (f : TileSt → TileSt) : (s.modTile i f).muzzle = s.muzzle := rfl
@[simp] theorem State.modTile_regs (i : Nat) (f : TileSt → TileSt) : (s.modTile i f).regs = s.regs := rfl
@[simp] theorem State.modTile_host (i : Nat) (f : TileSt → TileSt) : (s.modTile i f).host = s.host := rfl
@[simp] theorem State.modTile_hbm (i : Nat) (f : TileSt → TileSt) : (s.modTile i f).hbm = s.hbm := rfl
@[simp] theorem State.modTile_paging (i : Nat) (f : TileSt → TileSt) : (s.modTile i f).paging = s.paging := rfl
@[simp] theorem State.modTile_kennel (i : Nat) (f : TileSt → TileSt) : (s.modTile i f).kennel = s.kennel := rfl
@[simp] theorem State.modTile_links (i : Nat) (f : TileSt → TileSt) : (s.modTile i f).links = s.links := rfl
@[simp] theorem State.modTile_fabric (i : Nat) (f : TileSt → TileSt) : (s.modTile i f).fabric = s.fabric := rfl
@[simp] theorem State.modTile_config (i : Nat) (f : TileSt → TileSt) : (s.modTile i f).config = s.config := rfl
@[simp] theorem State.modTile_nv (i : Nat) (f : TileSt → TileSt) : (s.modTile i f).nv = s.nv := rfl
@[simp] theorem State.modTile_leash (i : Nat) (f : TileSt → TileSt) : (s.modTile i f).leash = s.leash := rfl
@[simp] theorem State.modTile_ltime (i : Nat) (f : TileSt → TileSt) : (s.modTile i f).ltime = s.ltime := rfl
@[simp] theorem State.modTile_energy (i : Nat) (f : TileSt → TileSt) : (s.modTile i f).energy = s.energy := rfl
@[simp] theorem State.modTile_tel (i : Nat) (f : TileSt → TileSt) : (s.modTile i f).tel = s.tel := rfl
@[simp] theorem State.modTile_cnt (i : Nat) (f : TileSt → TileSt) : (s.modTile i f).cnt = s.cnt := rfl
@[simp] theorem State.modTile_sec (i : Nat) (f : TileSt → TileSt) : (s.modTile i f).sec = s.sec := rfl
@[simp] theorem State.modTile_fresh (i : Nat) (f : TileSt → TileSt) : (s.modTile i f).fresh = s.fresh := rfl

/-! ### `modEngine` -/

@[simp] theorem State.modEngine_pending (i : Nat) (e : Engine) (f : EngineSt → EngineSt) : (s.modEngine i e f).pending = s.pending := rfl
@[simp] theorem State.modEngine_mod (i : Nat) (e : Engine) (f : EngineSt → EngineSt) : (s.modEngine i e f).mod = s.mod := rfl
@[simp] theorem State.modEngine_tick (i : Nat) (e : Engine) (f : EngineSt → EngineSt) : (s.modEngine i e f).tick = s.tick := rfl
@[simp] theorem State.modEngine_cad (i : Nat) (e : Engine) (f : EngineSt → EngineSt) : (s.modEngine i e f).cad = s.cad := rfl
@[simp] theorem State.modEngine_cue (i : Nat) (e : Engine) (f : EngineSt → EngineSt) : (s.modEngine i e f).cue = s.cue := rfl
@[simp] theorem State.modEngine_commits (i : Nat) (e : Engine) (f : EngineSt → EngineSt) : (s.modEngine i e f).commits = s.commits := rfl
@[simp] theorem State.modEngine_shep (i : Nat) (e : Engine) (f : EngineSt → EngineSt) : (s.modEngine i e f).shep = s.shep := rfl
@[simp] theorem State.modEngine_muzzle (i : Nat) (e : Engine) (f : EngineSt → EngineSt) : (s.modEngine i e f).muzzle = s.muzzle := rfl
@[simp] theorem State.modEngine_regs (i : Nat) (e : Engine) (f : EngineSt → EngineSt) : (s.modEngine i e f).regs = s.regs := rfl
@[simp] theorem State.modEngine_host (i : Nat) (e : Engine) (f : EngineSt → EngineSt) : (s.modEngine i e f).host = s.host := rfl
@[simp] theorem State.modEngine_hbm (i : Nat) (e : Engine) (f : EngineSt → EngineSt) : (s.modEngine i e f).hbm = s.hbm := rfl
@[simp] theorem State.modEngine_paging (i : Nat) (e : Engine) (f : EngineSt → EngineSt) : (s.modEngine i e f).paging = s.paging := rfl
@[simp] theorem State.modEngine_kennel (i : Nat) (e : Engine) (f : EngineSt → EngineSt) : (s.modEngine i e f).kennel = s.kennel := rfl
@[simp] theorem State.modEngine_links (i : Nat) (e : Engine) (f : EngineSt → EngineSt) : (s.modEngine i e f).links = s.links := rfl
@[simp] theorem State.modEngine_fabric (i : Nat) (e : Engine) (f : EngineSt → EngineSt) : (s.modEngine i e f).fabric = s.fabric := rfl
@[simp] theorem State.modEngine_config (i : Nat) (e : Engine) (f : EngineSt → EngineSt) : (s.modEngine i e f).config = s.config := rfl
@[simp] theorem State.modEngine_nv (i : Nat) (e : Engine) (f : EngineSt → EngineSt) : (s.modEngine i e f).nv = s.nv := rfl
@[simp] theorem State.modEngine_leash (i : Nat) (e : Engine) (f : EngineSt → EngineSt) : (s.modEngine i e f).leash = s.leash := rfl
@[simp] theorem State.modEngine_ltime (i : Nat) (e : Engine) (f : EngineSt → EngineSt) : (s.modEngine i e f).ltime = s.ltime := rfl
@[simp] theorem State.modEngine_energy (i : Nat) (e : Engine) (f : EngineSt → EngineSt) : (s.modEngine i e f).energy = s.energy := rfl
@[simp] theorem State.modEngine_tel (i : Nat) (e : Engine) (f : EngineSt → EngineSt) : (s.modEngine i e f).tel = s.tel := rfl
@[simp] theorem State.modEngine_cnt (i : Nat) (e : Engine) (f : EngineSt → EngineSt) : (s.modEngine i e f).cnt = s.cnt := rfl
@[simp] theorem State.modEngine_sec (i : Nat) (e : Engine) (f : EngineSt → EngineSt) : (s.modEngine i e f).sec = s.sec := rfl
@[simp] theorem State.modEngine_fresh (i : Nat) (e : Engine) (f : EngineSt → EngineSt) : (s.modEngine i e f).fresh = s.fresh := rfl

/-! ### `setPack` -/

@[simp] theorem State.setPack_pending (p : Nat) (v : PackSt) : (s.setPack p v).pending = s.pending := rfl
@[simp] theorem State.setPack_mod (p : Nat) (v : PackSt) : (s.setPack p v).mod = s.mod := rfl
@[simp] theorem State.setPack_tick (p : Nat) (v : PackSt) : (s.setPack p v).tick = s.tick := rfl
@[simp] theorem State.setPack_cad (p : Nat) (v : PackSt) : (s.setPack p v).cad = s.cad := rfl
@[simp] theorem State.setPack_cue (p : Nat) (v : PackSt) : (s.setPack p v).cue = s.cue := rfl
@[simp] theorem State.setPack_commits (p : Nat) (v : PackSt) : (s.setPack p v).commits = s.commits := rfl
@[simp] theorem State.setPack_shep (p : Nat) (v : PackSt) : (s.setPack p v).shep = s.shep := rfl
@[simp] theorem State.setPack_muzzle (p : Nat) (v : PackSt) : (s.setPack p v).muzzle = s.muzzle := rfl
@[simp] theorem State.setPack_regs (p : Nat) (v : PackSt) : (s.setPack p v).regs = s.regs := rfl
@[simp] theorem State.setPack_host (p : Nat) (v : PackSt) : (s.setPack p v).host = s.host := rfl
@[simp] theorem State.setPack_hbm (p : Nat) (v : PackSt) : (s.setPack p v).hbm = s.hbm := rfl
@[simp] theorem State.setPack_paging (p : Nat) (v : PackSt) : (s.setPack p v).paging = s.paging := rfl
@[simp] theorem State.setPack_kennel (p : Nat) (v : PackSt) : (s.setPack p v).kennel = s.kennel := rfl
@[simp] theorem State.setPack_links (p : Nat) (v : PackSt) : (s.setPack p v).links = s.links := rfl
@[simp] theorem State.setPack_fabric (p : Nat) (v : PackSt) : (s.setPack p v).fabric = s.fabric := rfl
@[simp] theorem State.setPack_config (p : Nat) (v : PackSt) : (s.setPack p v).config = s.config := rfl
@[simp] theorem State.setPack_nv (p : Nat) (v : PackSt) : (s.setPack p v).nv = s.nv := rfl
@[simp] theorem State.setPack_leash (p : Nat) (v : PackSt) : (s.setPack p v).leash = s.leash := rfl
@[simp] theorem State.setPack_ltime (p : Nat) (v : PackSt) : (s.setPack p v).ltime = s.ltime := rfl
@[simp] theorem State.setPack_energy (p : Nat) (v : PackSt) : (s.setPack p v).energy = s.energy := rfl
@[simp] theorem State.setPack_tel (p : Nat) (v : PackSt) : (s.setPack p v).tel = s.tel := rfl
@[simp] theorem State.setPack_cnt (p : Nat) (v : PackSt) : (s.setPack p v).cnt = s.cnt := rfl
@[simp] theorem State.setPack_sec (p : Nat) (v : PackSt) : (s.setPack p v).sec = s.sec := rfl
@[simp] theorem State.setPack_fresh (p : Nat) (v : PackSt) : (s.setPack p v).fresh = s.fresh := rfl

/-! ### `modPack` -/

@[simp] theorem State.modPack_pending (p : Nat) (f : PackSt → PackSt) : (s.modPack p f).pending = s.pending := rfl
@[simp] theorem State.modPack_mod (p : Nat) (f : PackSt → PackSt) : (s.modPack p f).mod = s.mod := rfl
@[simp] theorem State.modPack_tick (p : Nat) (f : PackSt → PackSt) : (s.modPack p f).tick = s.tick := rfl
@[simp] theorem State.modPack_cad (p : Nat) (f : PackSt → PackSt) : (s.modPack p f).cad = s.cad := rfl
@[simp] theorem State.modPack_cue (p : Nat) (f : PackSt → PackSt) : (s.modPack p f).cue = s.cue := rfl
@[simp] theorem State.modPack_commits (p : Nat) (f : PackSt → PackSt) : (s.modPack p f).commits = s.commits := rfl
@[simp] theorem State.modPack_shep (p : Nat) (f : PackSt → PackSt) : (s.modPack p f).shep = s.shep := rfl
@[simp] theorem State.modPack_muzzle (p : Nat) (f : PackSt → PackSt) : (s.modPack p f).muzzle = s.muzzle := rfl
@[simp] theorem State.modPack_regs (p : Nat) (f : PackSt → PackSt) : (s.modPack p f).regs = s.regs := rfl
@[simp] theorem State.modPack_host (p : Nat) (f : PackSt → PackSt) : (s.modPack p f).host = s.host := rfl
@[simp] theorem State.modPack_hbm (p : Nat) (f : PackSt → PackSt) : (s.modPack p f).hbm = s.hbm := rfl
@[simp] theorem State.modPack_paging (p : Nat) (f : PackSt → PackSt) : (s.modPack p f).paging = s.paging := rfl
@[simp] theorem State.modPack_kennel (p : Nat) (f : PackSt → PackSt) : (s.modPack p f).kennel = s.kennel := rfl
@[simp] theorem State.modPack_links (p : Nat) (f : PackSt → PackSt) : (s.modPack p f).links = s.links := rfl
@[simp] theorem State.modPack_fabric (p : Nat) (f : PackSt → PackSt) : (s.modPack p f).fabric = s.fabric := rfl
@[simp] theorem State.modPack_config (p : Nat) (f : PackSt → PackSt) : (s.modPack p f).config = s.config := rfl
@[simp] theorem State.modPack_nv (p : Nat) (f : PackSt → PackSt) : (s.modPack p f).nv = s.nv := rfl
@[simp] theorem State.modPack_leash (p : Nat) (f : PackSt → PackSt) : (s.modPack p f).leash = s.leash := rfl
@[simp] theorem State.modPack_ltime (p : Nat) (f : PackSt → PackSt) : (s.modPack p f).ltime = s.ltime := rfl
@[simp] theorem State.modPack_energy (p : Nat) (f : PackSt → PackSt) : (s.modPack p f).energy = s.energy := rfl
@[simp] theorem State.modPack_tel (p : Nat) (f : PackSt → PackSt) : (s.modPack p f).tel = s.tel := rfl
@[simp] theorem State.modPack_cnt (p : Nat) (f : PackSt → PackSt) : (s.modPack p f).cnt = s.cnt := rfl
@[simp] theorem State.modPack_sec (p : Nat) (f : PackSt → PackSt) : (s.modPack p f).sec = s.sec := rfl
@[simp] theorem State.modPack_fresh (p : Nat) (f : PackSt → PackSt) : (s.modPack p f).fresh = s.fresh := rfl

/-! ### `setRing` -/

@[simp] theorem State.setRing_pending (f r : Nat) (v : RingSt) : (s.setRing f r v).pending = s.pending := rfl
@[simp] theorem State.setRing_mod (f r : Nat) (v : RingSt) : (s.setRing f r v).mod = s.mod := rfl
@[simp] theorem State.setRing_tick (f r : Nat) (v : RingSt) : (s.setRing f r v).tick = s.tick := rfl
@[simp] theorem State.setRing_cad (f r : Nat) (v : RingSt) : (s.setRing f r v).cad = s.cad := rfl
@[simp] theorem State.setRing_cue (f r : Nat) (v : RingSt) : (s.setRing f r v).cue = s.cue := rfl
@[simp] theorem State.setRing_commits (f r : Nat) (v : RingSt) : (s.setRing f r v).commits = s.commits := rfl
@[simp] theorem State.setRing_muzzle (f r : Nat) (v : RingSt) : (s.setRing f r v).muzzle = s.muzzle := rfl
@[simp] theorem State.setRing_regs (f r : Nat) (v : RingSt) : (s.setRing f r v).regs = s.regs := rfl
@[simp] theorem State.setRing_host (f r : Nat) (v : RingSt) : (s.setRing f r v).host = s.host := rfl
@[simp] theorem State.setRing_tiles (f r : Nat) (v : RingSt) : (s.setRing f r v).tiles = s.tiles := rfl
@[simp] theorem State.setRing_hbm (f r : Nat) (v : RingSt) : (s.setRing f r v).hbm = s.hbm := rfl
@[simp] theorem State.setRing_paging (f r : Nat) (v : RingSt) : (s.setRing f r v).paging = s.paging := rfl
@[simp] theorem State.setRing_kennel (f r : Nat) (v : RingSt) : (s.setRing f r v).kennel = s.kennel := rfl
@[simp] theorem State.setRing_links (f r : Nat) (v : RingSt) : (s.setRing f r v).links = s.links := rfl
@[simp] theorem State.setRing_fabric (f r : Nat) (v : RingSt) : (s.setRing f r v).fabric = s.fabric := rfl
@[simp] theorem State.setRing_config (f r : Nat) (v : RingSt) : (s.setRing f r v).config = s.config := rfl
@[simp] theorem State.setRing_nv (f r : Nat) (v : RingSt) : (s.setRing f r v).nv = s.nv := rfl
@[simp] theorem State.setRing_leash (f r : Nat) (v : RingSt) : (s.setRing f r v).leash = s.leash := rfl
@[simp] theorem State.setRing_ltime (f r : Nat) (v : RingSt) : (s.setRing f r v).ltime = s.ltime := rfl
@[simp] theorem State.setRing_energy (f r : Nat) (v : RingSt) : (s.setRing f r v).energy = s.energy := rfl
@[simp] theorem State.setRing_tel (f r : Nat) (v : RingSt) : (s.setRing f r v).tel = s.tel := rfl
@[simp] theorem State.setRing_cnt (f r : Nat) (v : RingSt) : (s.setRing f r v).cnt = s.cnt := rfl
@[simp] theorem State.setRing_sec (f r : Nat) (v : RingSt) : (s.setRing f r v).sec = s.sec := rfl
@[simp] theorem State.setRing_fresh (f r : Nat) (v : RingSt) : (s.setRing f r v).fresh = s.fresh := rfl

/-! ### `modFn` -/

@[simp] theorem State.modFn_pending (f : Nat) (g : FnSt → FnSt) : (s.modFn f g).pending = s.pending := rfl
@[simp] theorem State.modFn_mod (f : Nat) (g : FnSt → FnSt) : (s.modFn f g).mod = s.mod := rfl
@[simp] theorem State.modFn_tick (f : Nat) (g : FnSt → FnSt) : (s.modFn f g).tick = s.tick := rfl
@[simp] theorem State.modFn_cad (f : Nat) (g : FnSt → FnSt) : (s.modFn f g).cad = s.cad := rfl
@[simp] theorem State.modFn_cue (f : Nat) (g : FnSt → FnSt) : (s.modFn f g).cue = s.cue := rfl
@[simp] theorem State.modFn_commits (f : Nat) (g : FnSt → FnSt) : (s.modFn f g).commits = s.commits := rfl
@[simp] theorem State.modFn_muzzle (f : Nat) (g : FnSt → FnSt) : (s.modFn f g).muzzle = s.muzzle := rfl
@[simp] theorem State.modFn_regs (f : Nat) (g : FnSt → FnSt) : (s.modFn f g).regs = s.regs := rfl
@[simp] theorem State.modFn_host (f : Nat) (g : FnSt → FnSt) : (s.modFn f g).host = s.host := rfl
@[simp] theorem State.modFn_tiles (f : Nat) (g : FnSt → FnSt) : (s.modFn f g).tiles = s.tiles := rfl
@[simp] theorem State.modFn_hbm (f : Nat) (g : FnSt → FnSt) : (s.modFn f g).hbm = s.hbm := rfl
@[simp] theorem State.modFn_paging (f : Nat) (g : FnSt → FnSt) : (s.modFn f g).paging = s.paging := rfl
@[simp] theorem State.modFn_kennel (f : Nat) (g : FnSt → FnSt) : (s.modFn f g).kennel = s.kennel := rfl
@[simp] theorem State.modFn_links (f : Nat) (g : FnSt → FnSt) : (s.modFn f g).links = s.links := rfl
@[simp] theorem State.modFn_fabric (f : Nat) (g : FnSt → FnSt) : (s.modFn f g).fabric = s.fabric := rfl
@[simp] theorem State.modFn_config (f : Nat) (g : FnSt → FnSt) : (s.modFn f g).config = s.config := rfl
@[simp] theorem State.modFn_nv (f : Nat) (g : FnSt → FnSt) : (s.modFn f g).nv = s.nv := rfl
@[simp] theorem State.modFn_leash (f : Nat) (g : FnSt → FnSt) : (s.modFn f g).leash = s.leash := rfl
@[simp] theorem State.modFn_ltime (f : Nat) (g : FnSt → FnSt) : (s.modFn f g).ltime = s.ltime := rfl
@[simp] theorem State.modFn_energy (f : Nat) (g : FnSt → FnSt) : (s.modFn f g).energy = s.energy := rfl
@[simp] theorem State.modFn_tel (f : Nat) (g : FnSt → FnSt) : (s.modFn f g).tel = s.tel := rfl
@[simp] theorem State.modFn_cnt (f : Nat) (g : FnSt → FnSt) : (s.modFn f g).cnt = s.cnt := rfl
@[simp] theorem State.modFn_sec (f : Nat) (g : FnSt → FnSt) : (s.modFn f g).sec = s.sec := rfl
@[simp] theorem State.modFn_fresh (f : Nat) (g : FnSt → FnSt) : (s.modFn f g).fresh = s.fresh := rfl

/-! ### `setDescs` -/

@[simp] theorem State.setDescs_pending (l : List Desc) : (s.setDescs l).pending = s.pending := rfl
@[simp] theorem State.setDescs_mod (l : List Desc) : (s.setDescs l).mod = s.mod := rfl
@[simp] theorem State.setDescs_tick (l : List Desc) : (s.setDescs l).tick = s.tick := rfl
@[simp] theorem State.setDescs_cad (l : List Desc) : (s.setDescs l).cad = s.cad := rfl
@[simp] theorem State.setDescs_cue (l : List Desc) : (s.setDescs l).cue = s.cue := rfl
@[simp] theorem State.setDescs_commits (l : List Desc) : (s.setDescs l).commits = s.commits := rfl
@[simp] theorem State.setDescs_muzzle (l : List Desc) : (s.setDescs l).muzzle = s.muzzle := rfl
@[simp] theorem State.setDescs_regs (l : List Desc) : (s.setDescs l).regs = s.regs := rfl
@[simp] theorem State.setDescs_host (l : List Desc) : (s.setDescs l).host = s.host := rfl
@[simp] theorem State.setDescs_tiles (l : List Desc) : (s.setDescs l).tiles = s.tiles := rfl
@[simp] theorem State.setDescs_hbm (l : List Desc) : (s.setDescs l).hbm = s.hbm := rfl
@[simp] theorem State.setDescs_paging (l : List Desc) : (s.setDescs l).paging = s.paging := rfl
@[simp] theorem State.setDescs_kennel (l : List Desc) : (s.setDescs l).kennel = s.kennel := rfl
@[simp] theorem State.setDescs_links (l : List Desc) : (s.setDescs l).links = s.links := rfl
@[simp] theorem State.setDescs_fabric (l : List Desc) : (s.setDescs l).fabric = s.fabric := rfl
@[simp] theorem State.setDescs_config (l : List Desc) : (s.setDescs l).config = s.config := rfl
@[simp] theorem State.setDescs_nv (l : List Desc) : (s.setDescs l).nv = s.nv := rfl
@[simp] theorem State.setDescs_leash (l : List Desc) : (s.setDescs l).leash = s.leash := rfl
@[simp] theorem State.setDescs_ltime (l : List Desc) : (s.setDescs l).ltime = s.ltime := rfl
@[simp] theorem State.setDescs_energy (l : List Desc) : (s.setDescs l).energy = s.energy := rfl
@[simp] theorem State.setDescs_tel (l : List Desc) : (s.setDescs l).tel = s.tel := rfl
@[simp] theorem State.setDescs_cnt (l : List Desc) : (s.setDescs l).cnt = s.cnt := rfl
@[simp] theorem State.setDescs_sec (l : List Desc) : (s.setDescs l).sec = s.sec := rfl
@[simp] theorem State.setDescs_fresh (l : List Desc) : (s.setDescs l).fresh = s.fresh := rfl

/-! ### `modDesc` -/

@[simp] theorem State.modDesc_pending (id : Nat) (f : Desc → Desc) : (s.modDesc id f).pending = s.pending := rfl
@[simp] theorem State.modDesc_mod (id : Nat) (f : Desc → Desc) : (s.modDesc id f).mod = s.mod := rfl
@[simp] theorem State.modDesc_tick (id : Nat) (f : Desc → Desc) : (s.modDesc id f).tick = s.tick := rfl
@[simp] theorem State.modDesc_cad (id : Nat) (f : Desc → Desc) : (s.modDesc id f).cad = s.cad := rfl
@[simp] theorem State.modDesc_cue (id : Nat) (f : Desc → Desc) : (s.modDesc id f).cue = s.cue := rfl
@[simp] theorem State.modDesc_commits (id : Nat) (f : Desc → Desc) : (s.modDesc id f).commits = s.commits := rfl
@[simp] theorem State.modDesc_muzzle (id : Nat) (f : Desc → Desc) : (s.modDesc id f).muzzle = s.muzzle := rfl
@[simp] theorem State.modDesc_regs (id : Nat) (f : Desc → Desc) : (s.modDesc id f).regs = s.regs := rfl
@[simp] theorem State.modDesc_host (id : Nat) (f : Desc → Desc) : (s.modDesc id f).host = s.host := rfl
@[simp] theorem State.modDesc_tiles (id : Nat) (f : Desc → Desc) : (s.modDesc id f).tiles = s.tiles := rfl
@[simp] theorem State.modDesc_hbm (id : Nat) (f : Desc → Desc) : (s.modDesc id f).hbm = s.hbm := rfl
@[simp] theorem State.modDesc_paging (id : Nat) (f : Desc → Desc) : (s.modDesc id f).paging = s.paging := rfl
@[simp] theorem State.modDesc_kennel (id : Nat) (f : Desc → Desc) : (s.modDesc id f).kennel = s.kennel := rfl
@[simp] theorem State.modDesc_links (id : Nat) (f : Desc → Desc) : (s.modDesc id f).links = s.links := rfl
@[simp] theorem State.modDesc_fabric (id : Nat) (f : Desc → Desc) : (s.modDesc id f).fabric = s.fabric := rfl
@[simp] theorem State.modDesc_config (id : Nat) (f : Desc → Desc) : (s.modDesc id f).config = s.config := rfl
@[simp] theorem State.modDesc_nv (id : Nat) (f : Desc → Desc) : (s.modDesc id f).nv = s.nv := rfl
@[simp] theorem State.modDesc_leash (id : Nat) (f : Desc → Desc) : (s.modDesc id f).leash = s.leash := rfl
@[simp] theorem State.modDesc_ltime (id : Nat) (f : Desc → Desc) : (s.modDesc id f).ltime = s.ltime := rfl
@[simp] theorem State.modDesc_energy (id : Nat) (f : Desc → Desc) : (s.modDesc id f).energy = s.energy := rfl
@[simp] theorem State.modDesc_tel (id : Nat) (f : Desc → Desc) : (s.modDesc id f).tel = s.tel := rfl
@[simp] theorem State.modDesc_cnt (id : Nat) (f : Desc → Desc) : (s.modDesc id f).cnt = s.cnt := rfl
@[simp] theorem State.modDesc_sec (id : Nat) (f : Desc → Desc) : (s.modDesc id f).sec = s.sec := rfl
@[simp] theorem State.modDesc_fresh (id : Nat) (f : Desc → Desc) : (s.modDesc id f).fresh = s.fresh := rfl

/-! ### `latchFault` -/

@[simp] theorem State.latchFault_pending (id st : Nat) : (s.latchFault id st).pending = s.pending := rfl
@[simp] theorem State.latchFault_mod (id st : Nat) : (s.latchFault id st).mod = s.mod := rfl
@[simp] theorem State.latchFault_tick (id st : Nat) : (s.latchFault id st).tick = s.tick := rfl
@[simp] theorem State.latchFault_cad (id st : Nat) : (s.latchFault id st).cad = s.cad := rfl
@[simp] theorem State.latchFault_cue (id st : Nat) : (s.latchFault id st).cue = s.cue := rfl
@[simp] theorem State.latchFault_commits (id st : Nat) : (s.latchFault id st).commits = s.commits := rfl
@[simp] theorem State.latchFault_shep (id st : Nat) : (s.latchFault id st).shep = s.shep := rfl
@[simp] theorem State.latchFault_muzzle (id st : Nat) : (s.latchFault id st).muzzle = s.muzzle := rfl
@[simp] theorem State.latchFault_regs (id st : Nat) : (s.latchFault id st).regs = s.regs := rfl
@[simp] theorem State.latchFault_host (id st : Nat) : (s.latchFault id st).host = s.host := rfl
@[simp] theorem State.latchFault_hbm (id st : Nat) : (s.latchFault id st).hbm = s.hbm := rfl
@[simp] theorem State.latchFault_paging (id st : Nat) : (s.latchFault id st).paging = s.paging := rfl
@[simp] theorem State.latchFault_kennel (id st : Nat) : (s.latchFault id st).kennel = s.kennel := rfl
@[simp] theorem State.latchFault_links (id st : Nat) : (s.latchFault id st).links = s.links := rfl
@[simp] theorem State.latchFault_fabric (id st : Nat) : (s.latchFault id st).fabric = s.fabric := rfl
@[simp] theorem State.latchFault_config (id st : Nat) : (s.latchFault id st).config = s.config := rfl
@[simp] theorem State.latchFault_nv (id st : Nat) : (s.latchFault id st).nv = s.nv := rfl
@[simp] theorem State.latchFault_leash (id st : Nat) : (s.latchFault id st).leash = s.leash := rfl
@[simp] theorem State.latchFault_ltime (id st : Nat) : (s.latchFault id st).ltime = s.ltime := rfl
@[simp] theorem State.latchFault_energy (id st : Nat) : (s.latchFault id st).energy = s.energy := rfl
@[simp] theorem State.latchFault_tel (id st : Nat) : (s.latchFault id st).tel = s.tel := rfl
@[simp] theorem State.latchFault_cnt (id st : Nat) : (s.latchFault id st).cnt = s.cnt := rfl
@[simp] theorem State.latchFault_sec (id st : Nat) : (s.latchFault id st).sec = s.sec := rfl
@[simp] theorem State.latchFault_fresh (id st : Nat) : (s.latchFault id st).fresh = s.fresh := rfl

/-! ### `raise` -/

@[simp] theorem State.raise_pending (c : TelClass) (code inst : Nat) (b : List Byte) : (s.raise c code inst b).pending = s.pending := rfl
@[simp] theorem State.raise_mod (c : TelClass) (code inst : Nat) (b : List Byte) : (s.raise c code inst b).mod = s.mod := rfl
@[simp] theorem State.raise_tick (c : TelClass) (code inst : Nat) (b : List Byte) : (s.raise c code inst b).tick = s.tick := rfl
@[simp] theorem State.raise_cad (c : TelClass) (code inst : Nat) (b : List Byte) : (s.raise c code inst b).cad = s.cad := rfl
@[simp] theorem State.raise_cue (c : TelClass) (code inst : Nat) (b : List Byte) : (s.raise c code inst b).cue = s.cue := rfl
@[simp] theorem State.raise_commits (c : TelClass) (code inst : Nat) (b : List Byte) : (s.raise c code inst b).commits = s.commits := rfl
@[simp] theorem State.raise_shep (c : TelClass) (code inst : Nat) (b : List Byte) : (s.raise c code inst b).shep = s.shep := rfl
@[simp] theorem State.raise_muzzle (c : TelClass) (code inst : Nat) (b : List Byte) : (s.raise c code inst b).muzzle = s.muzzle := rfl
@[simp] theorem State.raise_regs (c : TelClass) (code inst : Nat) (b : List Byte) : (s.raise c code inst b).regs = s.regs := rfl
@[simp] theorem State.raise_host (c : TelClass) (code inst : Nat) (b : List Byte) : (s.raise c code inst b).host = s.host := rfl
@[simp] theorem State.raise_tiles (c : TelClass) (code inst : Nat) (b : List Byte) : (s.raise c code inst b).tiles = s.tiles := rfl
@[simp] theorem State.raise_hbm (c : TelClass) (code inst : Nat) (b : List Byte) : (s.raise c code inst b).hbm = s.hbm := rfl
@[simp] theorem State.raise_paging (c : TelClass) (code inst : Nat) (b : List Byte) : (s.raise c code inst b).paging = s.paging := rfl
@[simp] theorem State.raise_kennel (c : TelClass) (code inst : Nat) (b : List Byte) : (s.raise c code inst b).kennel = s.kennel := rfl
@[simp] theorem State.raise_links (c : TelClass) (code inst : Nat) (b : List Byte) : (s.raise c code inst b).links = s.links := rfl
@[simp] theorem State.raise_fabric (c : TelClass) (code inst : Nat) (b : List Byte) : (s.raise c code inst b).fabric = s.fabric := rfl
@[simp] theorem State.raise_config (c : TelClass) (code inst : Nat) (b : List Byte) : (s.raise c code inst b).config = s.config := rfl
@[simp] theorem State.raise_nv (c : TelClass) (code inst : Nat) (b : List Byte) : (s.raise c code inst b).nv = s.nv := rfl
@[simp] theorem State.raise_leash (c : TelClass) (code inst : Nat) (b : List Byte) : (s.raise c code inst b).leash = s.leash := rfl
@[simp] theorem State.raise_ltime (c : TelClass) (code inst : Nat) (b : List Byte) : (s.raise c code inst b).ltime = s.ltime := rfl
@[simp] theorem State.raise_energy (c : TelClass) (code inst : Nat) (b : List Byte) : (s.raise c code inst b).energy = s.energy := rfl
@[simp] theorem State.raise_cnt (c : TelClass) (code inst : Nat) (b : List Byte) : (s.raise c code inst b).cnt = s.cnt := rfl
@[simp] theorem State.raise_sec (c : TelClass) (code inst : Nat) (b : List Byte) : (s.raise c code inst b).sec = s.sec := rfl
@[simp] theorem State.raise_fresh (c : TelClass) (code inst : Nat) (b : List Byte) : (s.raise c code inst b).fresh = s.fresh := rfl

/-! ### `trigger` -/

@[simp] theorem State.trigger_pending (sc : Scope) (cause : Nat) : (s.trigger sc cause).pending = s.pending := rfl
@[simp] theorem State.trigger_mod (sc : Scope) (cause : Nat) : (s.trigger sc cause).mod = s.mod := rfl
@[simp] theorem State.trigger_tick (sc : Scope) (cause : Nat) : (s.trigger sc cause).tick = s.tick := rfl
@[simp] theorem State.trigger_cad (sc : Scope) (cause : Nat) : (s.trigger sc cause).cad = s.cad := rfl
@[simp] theorem State.trigger_cue (sc : Scope) (cause : Nat) : (s.trigger sc cause).cue = s.cue := rfl
@[simp] theorem State.trigger_commits (sc : Scope) (cause : Nat) : (s.trigger sc cause).commits = s.commits := rfl
@[simp] theorem State.trigger_shep (sc : Scope) (cause : Nat) : (s.trigger sc cause).shep = s.shep := rfl
@[simp] theorem State.trigger_regs (sc : Scope) (cause : Nat) : (s.trigger sc cause).regs = s.regs := rfl
@[simp] theorem State.trigger_host (sc : Scope) (cause : Nat) : (s.trigger sc cause).host = s.host := rfl
@[simp] theorem State.trigger_tiles (sc : Scope) (cause : Nat) : (s.trigger sc cause).tiles = s.tiles := rfl
@[simp] theorem State.trigger_hbm (sc : Scope) (cause : Nat) : (s.trigger sc cause).hbm = s.hbm := rfl
@[simp] theorem State.trigger_paging (sc : Scope) (cause : Nat) : (s.trigger sc cause).paging = s.paging := rfl
@[simp] theorem State.trigger_kennel (sc : Scope) (cause : Nat) : (s.trigger sc cause).kennel = s.kennel := rfl
@[simp] theorem State.trigger_links (sc : Scope) (cause : Nat) : (s.trigger sc cause).links = s.links := rfl
@[simp] theorem State.trigger_fabric (sc : Scope) (cause : Nat) : (s.trigger sc cause).fabric = s.fabric := rfl
@[simp] theorem State.trigger_config (sc : Scope) (cause : Nat) : (s.trigger sc cause).config = s.config := rfl
@[simp] theorem State.trigger_nv (sc : Scope) (cause : Nat) : (s.trigger sc cause).nv = s.nv := rfl
@[simp] theorem State.trigger_leash (sc : Scope) (cause : Nat) : (s.trigger sc cause).leash = s.leash := rfl
@[simp] theorem State.trigger_ltime (sc : Scope) (cause : Nat) : (s.trigger sc cause).ltime = s.ltime := rfl
@[simp] theorem State.trigger_energy (sc : Scope) (cause : Nat) : (s.trigger sc cause).energy = s.energy := rfl
@[simp] theorem State.trigger_tel (sc : Scope) (cause : Nat) : (s.trigger sc cause).tel = s.tel := rfl
@[simp] theorem State.trigger_cnt (sc : Scope) (cause : Nat) : (s.trigger sc cause).cnt = s.cnt := rfl
@[simp] theorem State.trigger_sec (sc : Scope) (cause : Nat) : (s.trigger sc cause).sec = s.sec := rfl
@[simp] theorem State.trigger_fresh (sc : Scope) (cause : Nat) : (s.trigger sc cause).fresh = s.fresh := rfl

/-! ### `modSite` -/

@[simp] theorem State.modSite_pending (i : Nat) (f : SiteSt → SiteSt) : (s.modSite i f).pending = s.pending := rfl
@[simp] theorem State.modSite_mod (i : Nat) (f : SiteSt → SiteSt) : (s.modSite i f).mod = s.mod := rfl
@[simp] theorem State.modSite_tick (i : Nat) (f : SiteSt → SiteSt) : (s.modSite i f).tick = s.tick := rfl
@[simp] theorem State.modSite_cad (i : Nat) (f : SiteSt → SiteSt) : (s.modSite i f).cad = s.cad := rfl
@[simp] theorem State.modSite_cue (i : Nat) (f : SiteSt → SiteSt) : (s.modSite i f).cue = s.cue := rfl
@[simp] theorem State.modSite_commits (i : Nat) (f : SiteSt → SiteSt) : (s.modSite i f).commits = s.commits := rfl
@[simp] theorem State.modSite_shep (i : Nat) (f : SiteSt → SiteSt) : (s.modSite i f).shep = s.shep := rfl
@[simp] theorem State.modSite_muzzle (i : Nat) (f : SiteSt → SiteSt) : (s.modSite i f).muzzle = s.muzzle := rfl
@[simp] theorem State.modSite_regs (i : Nat) (f : SiteSt → SiteSt) : (s.modSite i f).regs = s.regs := rfl
@[simp] theorem State.modSite_host (i : Nat) (f : SiteSt → SiteSt) : (s.modSite i f).host = s.host := rfl
@[simp] theorem State.modSite_tiles (i : Nat) (f : SiteSt → SiteSt) : (s.modSite i f).tiles = s.tiles := rfl
@[simp] theorem State.modSite_hbm (i : Nat) (f : SiteSt → SiteSt) : (s.modSite i f).hbm = s.hbm := rfl
@[simp] theorem State.modSite_paging (i : Nat) (f : SiteSt → SiteSt) : (s.modSite i f).paging = s.paging := rfl
@[simp] theorem State.modSite_links (i : Nat) (f : SiteSt → SiteSt) : (s.modSite i f).links = s.links := rfl
@[simp] theorem State.modSite_fabric (i : Nat) (f : SiteSt → SiteSt) : (s.modSite i f).fabric = s.fabric := rfl
@[simp] theorem State.modSite_config (i : Nat) (f : SiteSt → SiteSt) : (s.modSite i f).config = s.config := rfl
@[simp] theorem State.modSite_nv (i : Nat) (f : SiteSt → SiteSt) : (s.modSite i f).nv = s.nv := rfl
@[simp] theorem State.modSite_leash (i : Nat) (f : SiteSt → SiteSt) : (s.modSite i f).leash = s.leash := rfl
@[simp] theorem State.modSite_ltime (i : Nat) (f : SiteSt → SiteSt) : (s.modSite i f).ltime = s.ltime := rfl
@[simp] theorem State.modSite_energy (i : Nat) (f : SiteSt → SiteSt) : (s.modSite i f).energy = s.energy := rfl
@[simp] theorem State.modSite_tel (i : Nat) (f : SiteSt → SiteSt) : (s.modSite i f).tel = s.tel := rfl
@[simp] theorem State.modSite_cnt (i : Nat) (f : SiteSt → SiteSt) : (s.modSite i f).cnt = s.cnt := rfl
@[simp] theorem State.modSite_sec (i : Nat) (f : SiteSt → SiteSt) : (s.modSite i f).sec = s.sec := rfl
@[simp] theorem State.modSite_fresh (i : Nat) (f : SiteSt → SiteSt) : (s.modSite i f).fresh = s.fresh := rfl

/-! ### `setLink` -/

@[simp] theorem State.setLink_pending (n : Nat) (v : LinkSt) : (s.setLink n v).pending = s.pending := rfl
@[simp] theorem State.setLink_mod (n : Nat) (v : LinkSt) : (s.setLink n v).mod = s.mod := rfl
@[simp] theorem State.setLink_tick (n : Nat) (v : LinkSt) : (s.setLink n v).tick = s.tick := rfl
@[simp] theorem State.setLink_cad (n : Nat) (v : LinkSt) : (s.setLink n v).cad = s.cad := rfl
@[simp] theorem State.setLink_cue (n : Nat) (v : LinkSt) : (s.setLink n v).cue = s.cue := rfl
@[simp] theorem State.setLink_commits (n : Nat) (v : LinkSt) : (s.setLink n v).commits = s.commits := rfl
@[simp] theorem State.setLink_shep (n : Nat) (v : LinkSt) : (s.setLink n v).shep = s.shep := rfl
@[simp] theorem State.setLink_muzzle (n : Nat) (v : LinkSt) : (s.setLink n v).muzzle = s.muzzle := rfl
@[simp] theorem State.setLink_regs (n : Nat) (v : LinkSt) : (s.setLink n v).regs = s.regs := rfl
@[simp] theorem State.setLink_host (n : Nat) (v : LinkSt) : (s.setLink n v).host = s.host := rfl
@[simp] theorem State.setLink_tiles (n : Nat) (v : LinkSt) : (s.setLink n v).tiles = s.tiles := rfl
@[simp] theorem State.setLink_hbm (n : Nat) (v : LinkSt) : (s.setLink n v).hbm = s.hbm := rfl
@[simp] theorem State.setLink_paging (n : Nat) (v : LinkSt) : (s.setLink n v).paging = s.paging := rfl
@[simp] theorem State.setLink_kennel (n : Nat) (v : LinkSt) : (s.setLink n v).kennel = s.kennel := rfl
@[simp] theorem State.setLink_fabric (n : Nat) (v : LinkSt) : (s.setLink n v).fabric = s.fabric := rfl
@[simp] theorem State.setLink_config (n : Nat) (v : LinkSt) : (s.setLink n v).config = s.config := rfl
@[simp] theorem State.setLink_nv (n : Nat) (v : LinkSt) : (s.setLink n v).nv = s.nv := rfl
@[simp] theorem State.setLink_leash (n : Nat) (v : LinkSt) : (s.setLink n v).leash = s.leash := rfl
@[simp] theorem State.setLink_ltime (n : Nat) (v : LinkSt) : (s.setLink n v).ltime = s.ltime := rfl
@[simp] theorem State.setLink_energy (n : Nat) (v : LinkSt) : (s.setLink n v).energy = s.energy := rfl
@[simp] theorem State.setLink_tel (n : Nat) (v : LinkSt) : (s.setLink n v).tel = s.tel := rfl
@[simp] theorem State.setLink_cnt (n : Nat) (v : LinkSt) : (s.setLink n v).cnt = s.cnt := rfl
@[simp] theorem State.setLink_sec (n : Nat) (v : LinkSt) : (s.setLink n v).sec = s.sec := rfl
@[simp] theorem State.setLink_fresh (n : Nat) (v : LinkSt) : (s.setLink n v).fresh = s.fresh := rfl

/-! ### `modMeas` -/

@[simp] theorem State.modMeas_pending (n : Nat) (f : LinkMeas → LinkMeas) : (s.modMeas n f).pending = s.pending := rfl
@[simp] theorem State.modMeas_mod (n : Nat) (f : LinkMeas → LinkMeas) : (s.modMeas n f).mod = s.mod := rfl
@[simp] theorem State.modMeas_tick (n : Nat) (f : LinkMeas → LinkMeas) : (s.modMeas n f).tick = s.tick := rfl
@[simp] theorem State.modMeas_cad (n : Nat) (f : LinkMeas → LinkMeas) : (s.modMeas n f).cad = s.cad := rfl
@[simp] theorem State.modMeas_cue (n : Nat) (f : LinkMeas → LinkMeas) : (s.modMeas n f).cue = s.cue := rfl
@[simp] theorem State.modMeas_commits (n : Nat) (f : LinkMeas → LinkMeas) : (s.modMeas n f).commits = s.commits := rfl
@[simp] theorem State.modMeas_shep (n : Nat) (f : LinkMeas → LinkMeas) : (s.modMeas n f).shep = s.shep := rfl
@[simp] theorem State.modMeas_muzzle (n : Nat) (f : LinkMeas → LinkMeas) : (s.modMeas n f).muzzle = s.muzzle := rfl
@[simp] theorem State.modMeas_regs (n : Nat) (f : LinkMeas → LinkMeas) : (s.modMeas n f).regs = s.regs := rfl
@[simp] theorem State.modMeas_host (n : Nat) (f : LinkMeas → LinkMeas) : (s.modMeas n f).host = s.host := rfl
@[simp] theorem State.modMeas_tiles (n : Nat) (f : LinkMeas → LinkMeas) : (s.modMeas n f).tiles = s.tiles := rfl
@[simp] theorem State.modMeas_hbm (n : Nat) (f : LinkMeas → LinkMeas) : (s.modMeas n f).hbm = s.hbm := rfl
@[simp] theorem State.modMeas_paging (n : Nat) (f : LinkMeas → LinkMeas) : (s.modMeas n f).paging = s.paging := rfl
@[simp] theorem State.modMeas_kennel (n : Nat) (f : LinkMeas → LinkMeas) : (s.modMeas n f).kennel = s.kennel := rfl
@[simp] theorem State.modMeas_fabric (n : Nat) (f : LinkMeas → LinkMeas) : (s.modMeas n f).fabric = s.fabric := rfl
@[simp] theorem State.modMeas_config (n : Nat) (f : LinkMeas → LinkMeas) : (s.modMeas n f).config = s.config := rfl
@[simp] theorem State.modMeas_nv (n : Nat) (f : LinkMeas → LinkMeas) : (s.modMeas n f).nv = s.nv := rfl
@[simp] theorem State.modMeas_leash (n : Nat) (f : LinkMeas → LinkMeas) : (s.modMeas n f).leash = s.leash := rfl
@[simp] theorem State.modMeas_ltime (n : Nat) (f : LinkMeas → LinkMeas) : (s.modMeas n f).ltime = s.ltime := rfl
@[simp] theorem State.modMeas_energy (n : Nat) (f : LinkMeas → LinkMeas) : (s.modMeas n f).energy = s.energy := rfl
@[simp] theorem State.modMeas_tel (n : Nat) (f : LinkMeas → LinkMeas) : (s.modMeas n f).tel = s.tel := rfl
@[simp] theorem State.modMeas_cnt (n : Nat) (f : LinkMeas → LinkMeas) : (s.modMeas n f).cnt = s.cnt := rfl
@[simp] theorem State.modMeas_sec (n : Nat) (f : LinkMeas → LinkMeas) : (s.modMeas n f).sec = s.sec := rfl
@[simp] theorem State.modMeas_fresh (n : Nat) (f : LinkMeas → LinkMeas) : (s.modMeas n f).fresh = s.fresh := rfl

/-! ### `modLf` -/

@[simp] theorem State.modLf_pending (f : LinkFabric → LinkFabric) : (s.modLf f).pending = s.pending := rfl
@[simp] theorem State.modLf_mod (f : LinkFabric → LinkFabric) : (s.modLf f).mod = s.mod := rfl
@[simp] theorem State.modLf_tick (f : LinkFabric → LinkFabric) : (s.modLf f).tick = s.tick := rfl
@[simp] theorem State.modLf_cad (f : LinkFabric → LinkFabric) : (s.modLf f).cad = s.cad := rfl
@[simp] theorem State.modLf_cue (f : LinkFabric → LinkFabric) : (s.modLf f).cue = s.cue := rfl
@[simp] theorem State.modLf_commits (f : LinkFabric → LinkFabric) : (s.modLf f).commits = s.commits := rfl
@[simp] theorem State.modLf_shep (f : LinkFabric → LinkFabric) : (s.modLf f).shep = s.shep := rfl
@[simp] theorem State.modLf_muzzle (f : LinkFabric → LinkFabric) : (s.modLf f).muzzle = s.muzzle := rfl
@[simp] theorem State.modLf_regs (f : LinkFabric → LinkFabric) : (s.modLf f).regs = s.regs := rfl
@[simp] theorem State.modLf_host (f : LinkFabric → LinkFabric) : (s.modLf f).host = s.host := rfl
@[simp] theorem State.modLf_tiles (f : LinkFabric → LinkFabric) : (s.modLf f).tiles = s.tiles := rfl
@[simp] theorem State.modLf_hbm (f : LinkFabric → LinkFabric) : (s.modLf f).hbm = s.hbm := rfl
@[simp] theorem State.modLf_paging (f : LinkFabric → LinkFabric) : (s.modLf f).paging = s.paging := rfl
@[simp] theorem State.modLf_kennel (f : LinkFabric → LinkFabric) : (s.modLf f).kennel = s.kennel := rfl
@[simp] theorem State.modLf_fabric (f : LinkFabric → LinkFabric) : (s.modLf f).fabric = s.fabric := rfl
@[simp] theorem State.modLf_config (f : LinkFabric → LinkFabric) : (s.modLf f).config = s.config := rfl
@[simp] theorem State.modLf_nv (f : LinkFabric → LinkFabric) : (s.modLf f).nv = s.nv := rfl
@[simp] theorem State.modLf_leash (f : LinkFabric → LinkFabric) : (s.modLf f).leash = s.leash := rfl
@[simp] theorem State.modLf_ltime (f : LinkFabric → LinkFabric) : (s.modLf f).ltime = s.ltime := rfl
@[simp] theorem State.modLf_energy (f : LinkFabric → LinkFabric) : (s.modLf f).energy = s.energy := rfl
@[simp] theorem State.modLf_tel (f : LinkFabric → LinkFabric) : (s.modLf f).tel = s.tel := rfl
@[simp] theorem State.modLf_cnt (f : LinkFabric → LinkFabric) : (s.modLf f).cnt = s.cnt := rfl
@[simp] theorem State.modLf_sec (f : LinkFabric → LinkFabric) : (s.modLf f).sec = s.sec := rfl
@[simp] theorem State.modLf_fresh (f : LinkFabric → LinkFabric) : (s.modLf f).fresh = s.fresh := rfl

/-! ### `modPort` -/

@[simp] theorem State.modPort_pending (p : Nat) (f : PortSt → PortSt) : (s.modPort p f).pending = s.pending := rfl
@[simp] theorem State.modPort_mod (p : Nat) (f : PortSt → PortSt) : (s.modPort p f).mod = s.mod := rfl
@[simp] theorem State.modPort_tick (p : Nat) (f : PortSt → PortSt) : (s.modPort p f).tick = s.tick := rfl
@[simp] theorem State.modPort_cad (p : Nat) (f : PortSt → PortSt) : (s.modPort p f).cad = s.cad := rfl
@[simp] theorem State.modPort_cue (p : Nat) (f : PortSt → PortSt) : (s.modPort p f).cue = s.cue := rfl
@[simp] theorem State.modPort_commits (p : Nat) (f : PortSt → PortSt) : (s.modPort p f).commits = s.commits := rfl
@[simp] theorem State.modPort_shep (p : Nat) (f : PortSt → PortSt) : (s.modPort p f).shep = s.shep := rfl
@[simp] theorem State.modPort_muzzle (p : Nat) (f : PortSt → PortSt) : (s.modPort p f).muzzle = s.muzzle := rfl
@[simp] theorem State.modPort_regs (p : Nat) (f : PortSt → PortSt) : (s.modPort p f).regs = s.regs := rfl
@[simp] theorem State.modPort_host (p : Nat) (f : PortSt → PortSt) : (s.modPort p f).host = s.host := rfl
@[simp] theorem State.modPort_tiles (p : Nat) (f : PortSt → PortSt) : (s.modPort p f).tiles = s.tiles := rfl
@[simp] theorem State.modPort_hbm (p : Nat) (f : PortSt → PortSt) : (s.modPort p f).hbm = s.hbm := rfl
@[simp] theorem State.modPort_paging (p : Nat) (f : PortSt → PortSt) : (s.modPort p f).paging = s.paging := rfl
@[simp] theorem State.modPort_kennel (p : Nat) (f : PortSt → PortSt) : (s.modPort p f).kennel = s.kennel := rfl
@[simp] theorem State.modPort_links (p : Nat) (f : PortSt → PortSt) : (s.modPort p f).links = s.links := rfl
@[simp] theorem State.modPort_config (p : Nat) (f : PortSt → PortSt) : (s.modPort p f).config = s.config := rfl
@[simp] theorem State.modPort_nv (p : Nat) (f : PortSt → PortSt) : (s.modPort p f).nv = s.nv := rfl
@[simp] theorem State.modPort_leash (p : Nat) (f : PortSt → PortSt) : (s.modPort p f).leash = s.leash := rfl
@[simp] theorem State.modPort_ltime (p : Nat) (f : PortSt → PortSt) : (s.modPort p f).ltime = s.ltime := rfl
@[simp] theorem State.modPort_energy (p : Nat) (f : PortSt → PortSt) : (s.modPort p f).energy = s.energy := rfl
@[simp] theorem State.modPort_tel (p : Nat) (f : PortSt → PortSt) : (s.modPort p f).tel = s.tel := rfl
@[simp] theorem State.modPort_cnt (p : Nat) (f : PortSt → PortSt) : (s.modPort p f).cnt = s.cnt := rfl
@[simp] theorem State.modPort_sec (p : Nat) (f : PortSt → PortSt) : (s.modPort p f).sec = s.sec := rfl
@[simp] theorem State.modPort_fresh (p : Nat) (f : PortSt → PortSt) : (s.modPort p f).fresh = s.fresh := rfl

/-! ### `modRegion` -/

@[simp] theorem State.modRegion_pending (r : Nat) (f : RegionSt → RegionSt) : (s.modRegion r f).pending = s.pending := rfl
@[simp] theorem State.modRegion_mod (r : Nat) (f : RegionSt → RegionSt) : (s.modRegion r f).mod = s.mod := rfl
@[simp] theorem State.modRegion_tick (r : Nat) (f : RegionSt → RegionSt) : (s.modRegion r f).tick = s.tick := rfl
@[simp] theorem State.modRegion_cad (r : Nat) (f : RegionSt → RegionSt) : (s.modRegion r f).cad = s.cad := rfl
@[simp] theorem State.modRegion_cue (r : Nat) (f : RegionSt → RegionSt) : (s.modRegion r f).cue = s.cue := rfl
@[simp] theorem State.modRegion_commits (r : Nat) (f : RegionSt → RegionSt) : (s.modRegion r f).commits = s.commits := rfl
@[simp] theorem State.modRegion_shep (r : Nat) (f : RegionSt → RegionSt) : (s.modRegion r f).shep = s.shep := rfl
@[simp] theorem State.modRegion_muzzle (r : Nat) (f : RegionSt → RegionSt) : (s.modRegion r f).muzzle = s.muzzle := rfl
@[simp] theorem State.modRegion_regs (r : Nat) (f : RegionSt → RegionSt) : (s.modRegion r f).regs = s.regs := rfl
@[simp] theorem State.modRegion_host (r : Nat) (f : RegionSt → RegionSt) : (s.modRegion r f).host = s.host := rfl
@[simp] theorem State.modRegion_tiles (r : Nat) (f : RegionSt → RegionSt) : (s.modRegion r f).tiles = s.tiles := rfl
@[simp] theorem State.modRegion_hbm (r : Nat) (f : RegionSt → RegionSt) : (s.modRegion r f).hbm = s.hbm := rfl
@[simp] theorem State.modRegion_paging (r : Nat) (f : RegionSt → RegionSt) : (s.modRegion r f).paging = s.paging := rfl
@[simp] theorem State.modRegion_kennel (r : Nat) (f : RegionSt → RegionSt) : (s.modRegion r f).kennel = s.kennel := rfl
@[simp] theorem State.modRegion_links (r : Nat) (f : RegionSt → RegionSt) : (s.modRegion r f).links = s.links := rfl
@[simp] theorem State.modRegion_config (r : Nat) (f : RegionSt → RegionSt) : (s.modRegion r f).config = s.config := rfl
@[simp] theorem State.modRegion_nv (r : Nat) (f : RegionSt → RegionSt) : (s.modRegion r f).nv = s.nv := rfl
@[simp] theorem State.modRegion_leash (r : Nat) (f : RegionSt → RegionSt) : (s.modRegion r f).leash = s.leash := rfl
@[simp] theorem State.modRegion_ltime (r : Nat) (f : RegionSt → RegionSt) : (s.modRegion r f).ltime = s.ltime := rfl
@[simp] theorem State.modRegion_energy (r : Nat) (f : RegionSt → RegionSt) : (s.modRegion r f).energy = s.energy := rfl
@[simp] theorem State.modRegion_tel (r : Nat) (f : RegionSt → RegionSt) : (s.modRegion r f).tel = s.tel := rfl
@[simp] theorem State.modRegion_cnt (r : Nat) (f : RegionSt → RegionSt) : (s.modRegion r f).cnt = s.cnt := rfl
@[simp] theorem State.modRegion_sec (r : Nat) (f : RegionSt → RegionSt) : (s.modRegion r f).sec = s.sec := rfl
@[simp] theorem State.modRegion_fresh (r : Nat) (f : RegionSt → RegionSt) : (s.modRegion r f).fresh = s.fresh := rfl

/-! ### `modStack` -/

@[simp] theorem State.modStack_pending (k : Nat) (f : StackSt → StackSt) : (s.modStack k f).pending = s.pending := rfl
@[simp] theorem State.modStack_mod (k : Nat) (f : StackSt → StackSt) : (s.modStack k f).mod = s.mod := rfl
@[simp] theorem State.modStack_tick (k : Nat) (f : StackSt → StackSt) : (s.modStack k f).tick = s.tick := rfl
@[simp] theorem State.modStack_cad (k : Nat) (f : StackSt → StackSt) : (s.modStack k f).cad = s.cad := rfl
@[simp] theorem State.modStack_cue (k : Nat) (f : StackSt → StackSt) : (s.modStack k f).cue = s.cue := rfl
@[simp] theorem State.modStack_commits (k : Nat) (f : StackSt → StackSt) : (s.modStack k f).commits = s.commits := rfl
@[simp] theorem State.modStack_shep (k : Nat) (f : StackSt → StackSt) : (s.modStack k f).shep = s.shep := rfl
@[simp] theorem State.modStack_muzzle (k : Nat) (f : StackSt → StackSt) : (s.modStack k f).muzzle = s.muzzle := rfl
@[simp] theorem State.modStack_regs (k : Nat) (f : StackSt → StackSt) : (s.modStack k f).regs = s.regs := rfl
@[simp] theorem State.modStack_host (k : Nat) (f : StackSt → StackSt) : (s.modStack k f).host = s.host := rfl
@[simp] theorem State.modStack_tiles (k : Nat) (f : StackSt → StackSt) : (s.modStack k f).tiles = s.tiles := rfl
@[simp] theorem State.modStack_paging (k : Nat) (f : StackSt → StackSt) : (s.modStack k f).paging = s.paging := rfl
@[simp] theorem State.modStack_kennel (k : Nat) (f : StackSt → StackSt) : (s.modStack k f).kennel = s.kennel := rfl
@[simp] theorem State.modStack_links (k : Nat) (f : StackSt → StackSt) : (s.modStack k f).links = s.links := rfl
@[simp] theorem State.modStack_fabric (k : Nat) (f : StackSt → StackSt) : (s.modStack k f).fabric = s.fabric := rfl
@[simp] theorem State.modStack_config (k : Nat) (f : StackSt → StackSt) : (s.modStack k f).config = s.config := rfl
@[simp] theorem State.modStack_nv (k : Nat) (f : StackSt → StackSt) : (s.modStack k f).nv = s.nv := rfl
@[simp] theorem State.modStack_leash (k : Nat) (f : StackSt → StackSt) : (s.modStack k f).leash = s.leash := rfl
@[simp] theorem State.modStack_ltime (k : Nat) (f : StackSt → StackSt) : (s.modStack k f).ltime = s.ltime := rfl
@[simp] theorem State.modStack_energy (k : Nat) (f : StackSt → StackSt) : (s.modStack k f).energy = s.energy := rfl
@[simp] theorem State.modStack_tel (k : Nat) (f : StackSt → StackSt) : (s.modStack k f).tel = s.tel := rfl
@[simp] theorem State.modStack_cnt (k : Nat) (f : StackSt → StackSt) : (s.modStack k f).cnt = s.cnt := rfl
@[simp] theorem State.modStack_sec (k : Nat) (f : StackSt → StackSt) : (s.modStack k f).sec = s.sec := rfl
@[simp] theorem State.modStack_fresh (k : Nat) (f : StackSt → StackSt) : (s.modStack k f).fresh = s.fresh := rfl

/-! ### `modCad` -/

@[simp] theorem State.modCad_pending (f : CadSt → CadSt) : (s.modCad f).pending = s.pending := rfl
@[simp] theorem State.modCad_mod (f : CadSt → CadSt) : (s.modCad f).mod = s.mod := rfl
@[simp] theorem State.modCad_tick (f : CadSt → CadSt) : (s.modCad f).tick = s.tick := rfl
@[simp] theorem State.modCad_cad (f : CadSt → CadSt) : (s.modCad f).cad = f s.cad := rfl
@[simp] theorem State.modCad_cue (f : CadSt → CadSt) : (s.modCad f).cue = s.cue := rfl
@[simp] theorem State.modCad_commits (f : CadSt → CadSt) : (s.modCad f).commits = s.commits := rfl
@[simp] theorem State.modCad_shep (f : CadSt → CadSt) : (s.modCad f).shep = s.shep := rfl
@[simp] theorem State.modCad_muzzle (f : CadSt → CadSt) : (s.modCad f).muzzle = s.muzzle := rfl
@[simp] theorem State.modCad_regs (f : CadSt → CadSt) : (s.modCad f).regs = s.regs := rfl
@[simp] theorem State.modCad_host (f : CadSt → CadSt) : (s.modCad f).host = s.host := rfl
@[simp] theorem State.modCad_tiles (f : CadSt → CadSt) : (s.modCad f).tiles = s.tiles := rfl
@[simp] theorem State.modCad_hbm (f : CadSt → CadSt) : (s.modCad f).hbm = s.hbm := rfl
@[simp] theorem State.modCad_paging (f : CadSt → CadSt) : (s.modCad f).paging = s.paging := rfl
@[simp] theorem State.modCad_kennel (f : CadSt → CadSt) : (s.modCad f).kennel = s.kennel := rfl
@[simp] theorem State.modCad_links (f : CadSt → CadSt) : (s.modCad f).links = s.links := rfl
@[simp] theorem State.modCad_fabric (f : CadSt → CadSt) : (s.modCad f).fabric = s.fabric := rfl
@[simp] theorem State.modCad_config (f : CadSt → CadSt) : (s.modCad f).config = s.config := rfl
@[simp] theorem State.modCad_nv (f : CadSt → CadSt) : (s.modCad f).nv = s.nv := rfl
@[simp] theorem State.modCad_leash (f : CadSt → CadSt) : (s.modCad f).leash = s.leash := rfl
@[simp] theorem State.modCad_ltime (f : CadSt → CadSt) : (s.modCad f).ltime = s.ltime := rfl
@[simp] theorem State.modCad_energy (f : CadSt → CadSt) : (s.modCad f).energy = s.energy := rfl
@[simp] theorem State.modCad_tel (f : CadSt → CadSt) : (s.modCad f).tel = s.tel := rfl
@[simp] theorem State.modCad_cnt (f : CadSt → CadSt) : (s.modCad f).cnt = s.cnt := rfl
@[simp] theorem State.modCad_sec (f : CadSt → CadSt) : (s.modCad f).sec = s.sec := rfl
@[simp] theorem State.modCad_fresh (f : CadSt → CadSt) : (s.modCad f).fresh = s.fresh := rfl

/-! ### `modCommits` -/

@[simp] theorem State.modCommits_pending (f : Commits → Commits) : (s.modCommits f).pending = s.pending := rfl
@[simp] theorem State.modCommits_mod (f : Commits → Commits) : (s.modCommits f).mod = s.mod := rfl
@[simp] theorem State.modCommits_tick (f : Commits → Commits) : (s.modCommits f).tick = s.tick := rfl
@[simp] theorem State.modCommits_cad (f : Commits → Commits) : (s.modCommits f).cad = s.cad := rfl
@[simp] theorem State.modCommits_cue (f : Commits → Commits) : (s.modCommits f).cue = s.cue := rfl
@[simp] theorem State.modCommits_commits (f : Commits → Commits) : (s.modCommits f).commits = f s.commits := rfl
@[simp] theorem State.modCommits_shep (f : Commits → Commits) : (s.modCommits f).shep = s.shep := rfl
@[simp] theorem State.modCommits_muzzle (f : Commits → Commits) : (s.modCommits f).muzzle = s.muzzle := rfl
@[simp] theorem State.modCommits_regs (f : Commits → Commits) : (s.modCommits f).regs = s.regs := rfl
@[simp] theorem State.modCommits_host (f : Commits → Commits) : (s.modCommits f).host = s.host := rfl
@[simp] theorem State.modCommits_tiles (f : Commits → Commits) : (s.modCommits f).tiles = s.tiles := rfl
@[simp] theorem State.modCommits_hbm (f : Commits → Commits) : (s.modCommits f).hbm = s.hbm := rfl
@[simp] theorem State.modCommits_paging (f : Commits → Commits) : (s.modCommits f).paging = s.paging := rfl
@[simp] theorem State.modCommits_kennel (f : Commits → Commits) : (s.modCommits f).kennel = s.kennel := rfl
@[simp] theorem State.modCommits_links (f : Commits → Commits) : (s.modCommits f).links = s.links := rfl
@[simp] theorem State.modCommits_fabric (f : Commits → Commits) : (s.modCommits f).fabric = s.fabric := rfl
@[simp] theorem State.modCommits_config (f : Commits → Commits) : (s.modCommits f).config = s.config := rfl
@[simp] theorem State.modCommits_nv (f : Commits → Commits) : (s.modCommits f).nv = s.nv := rfl
@[simp] theorem State.modCommits_leash (f : Commits → Commits) : (s.modCommits f).leash = s.leash := rfl
@[simp] theorem State.modCommits_ltime (f : Commits → Commits) : (s.modCommits f).ltime = s.ltime := rfl
@[simp] theorem State.modCommits_energy (f : Commits → Commits) : (s.modCommits f).energy = s.energy := rfl
@[simp] theorem State.modCommits_tel (f : Commits → Commits) : (s.modCommits f).tel = s.tel := rfl
@[simp] theorem State.modCommits_cnt (f : Commits → Commits) : (s.modCommits f).cnt = s.cnt := rfl
@[simp] theorem State.modCommits_sec (f : Commits → Commits) : (s.modCommits f).sec = s.sec := rfl
@[simp] theorem State.modCommits_fresh (f : Commits → Commits) : (s.modCommits f).fresh = s.fresh := rfl

/-! ### `modHbm` -/

@[simp] theorem State.modHbm_pending (f : Hbm → Hbm) : (s.modHbm f).pending = s.pending := rfl
@[simp] theorem State.modHbm_mod (f : Hbm → Hbm) : (s.modHbm f).mod = s.mod := rfl
@[simp] theorem State.modHbm_tick (f : Hbm → Hbm) : (s.modHbm f).tick = s.tick := rfl
@[simp] theorem State.modHbm_cad (f : Hbm → Hbm) : (s.modHbm f).cad = s.cad := rfl
@[simp] theorem State.modHbm_cue (f : Hbm → Hbm) : (s.modHbm f).cue = s.cue := rfl
@[simp] theorem State.modHbm_commits (f : Hbm → Hbm) : (s.modHbm f).commits = s.commits := rfl
@[simp] theorem State.modHbm_shep (f : Hbm → Hbm) : (s.modHbm f).shep = s.shep := rfl
@[simp] theorem State.modHbm_muzzle (f : Hbm → Hbm) : (s.modHbm f).muzzle = s.muzzle := rfl
@[simp] theorem State.modHbm_regs (f : Hbm → Hbm) : (s.modHbm f).regs = s.regs := rfl
@[simp] theorem State.modHbm_host (f : Hbm → Hbm) : (s.modHbm f).host = s.host := rfl
@[simp] theorem State.modHbm_tiles (f : Hbm → Hbm) : (s.modHbm f).tiles = s.tiles := rfl
@[simp] theorem State.modHbm_hbm (f : Hbm → Hbm) : (s.modHbm f).hbm = f s.hbm := rfl
@[simp] theorem State.modHbm_paging (f : Hbm → Hbm) : (s.modHbm f).paging = s.paging := rfl
@[simp] theorem State.modHbm_kennel (f : Hbm → Hbm) : (s.modHbm f).kennel = s.kennel := rfl
@[simp] theorem State.modHbm_links (f : Hbm → Hbm) : (s.modHbm f).links = s.links := rfl
@[simp] theorem State.modHbm_fabric (f : Hbm → Hbm) : (s.modHbm f).fabric = s.fabric := rfl
@[simp] theorem State.modHbm_config (f : Hbm → Hbm) : (s.modHbm f).config = s.config := rfl
@[simp] theorem State.modHbm_nv (f : Hbm → Hbm) : (s.modHbm f).nv = s.nv := rfl
@[simp] theorem State.modHbm_leash (f : Hbm → Hbm) : (s.modHbm f).leash = s.leash := rfl
@[simp] theorem State.modHbm_ltime (f : Hbm → Hbm) : (s.modHbm f).ltime = s.ltime := rfl
@[simp] theorem State.modHbm_energy (f : Hbm → Hbm) : (s.modHbm f).energy = s.energy := rfl
@[simp] theorem State.modHbm_tel (f : Hbm → Hbm) : (s.modHbm f).tel = s.tel := rfl
@[simp] theorem State.modHbm_cnt (f : Hbm → Hbm) : (s.modHbm f).cnt = s.cnt := rfl
@[simp] theorem State.modHbm_sec (f : Hbm → Hbm) : (s.modHbm f).sec = s.sec := rfl
@[simp] theorem State.modHbm_fresh (f : Hbm → Hbm) : (s.modHbm f).fresh = s.fresh := rfl

/-! ### `modPaging` -/

@[simp] theorem State.modPaging_pending (f : Paging → Paging) : (s.modPaging f).pending = s.pending := rfl
@[simp] theorem State.modPaging_mod (f : Paging → Paging) : (s.modPaging f).mod = s.mod := rfl
@[simp] theorem State.modPaging_tick (f : Paging → Paging) : (s.modPaging f).tick = s.tick := rfl
@[simp] theorem State.modPaging_cad (f : Paging → Paging) : (s.modPaging f).cad = s.cad := rfl
@[simp] theorem State.modPaging_cue (f : Paging → Paging) : (s.modPaging f).cue = s.cue := rfl
@[simp] theorem State.modPaging_commits (f : Paging → Paging) : (s.modPaging f).commits = s.commits := rfl
@[simp] theorem State.modPaging_shep (f : Paging → Paging) : (s.modPaging f).shep = s.shep := rfl
@[simp] theorem State.modPaging_muzzle (f : Paging → Paging) : (s.modPaging f).muzzle = s.muzzle := rfl
@[simp] theorem State.modPaging_regs (f : Paging → Paging) : (s.modPaging f).regs = s.regs := rfl
@[simp] theorem State.modPaging_host (f : Paging → Paging) : (s.modPaging f).host = s.host := rfl
@[simp] theorem State.modPaging_tiles (f : Paging → Paging) : (s.modPaging f).tiles = s.tiles := rfl
@[simp] theorem State.modPaging_hbm (f : Paging → Paging) : (s.modPaging f).hbm = s.hbm := rfl
@[simp] theorem State.modPaging_paging (f : Paging → Paging) : (s.modPaging f).paging = f s.paging := rfl
@[simp] theorem State.modPaging_kennel (f : Paging → Paging) : (s.modPaging f).kennel = s.kennel := rfl
@[simp] theorem State.modPaging_links (f : Paging → Paging) : (s.modPaging f).links = s.links := rfl
@[simp] theorem State.modPaging_fabric (f : Paging → Paging) : (s.modPaging f).fabric = s.fabric := rfl
@[simp] theorem State.modPaging_config (f : Paging → Paging) : (s.modPaging f).config = s.config := rfl
@[simp] theorem State.modPaging_nv (f : Paging → Paging) : (s.modPaging f).nv = s.nv := rfl
@[simp] theorem State.modPaging_leash (f : Paging → Paging) : (s.modPaging f).leash = s.leash := rfl
@[simp] theorem State.modPaging_ltime (f : Paging → Paging) : (s.modPaging f).ltime = s.ltime := rfl
@[simp] theorem State.modPaging_energy (f : Paging → Paging) : (s.modPaging f).energy = s.energy := rfl
@[simp] theorem State.modPaging_tel (f : Paging → Paging) : (s.modPaging f).tel = s.tel := rfl
@[simp] theorem State.modPaging_cnt (f : Paging → Paging) : (s.modPaging f).cnt = s.cnt := rfl
@[simp] theorem State.modPaging_sec (f : Paging → Paging) : (s.modPaging f).sec = s.sec := rfl
@[simp] theorem State.modPaging_fresh (f : Paging → Paging) : (s.modPaging f).fresh = s.fresh := rfl

/-! ### `modKennel` -/

@[simp] theorem State.modKennel_pending (f : Kennel → Kennel) : (s.modKennel f).pending = s.pending := rfl
@[simp] theorem State.modKennel_mod (f : Kennel → Kennel) : (s.modKennel f).mod = s.mod := rfl
@[simp] theorem State.modKennel_tick (f : Kennel → Kennel) : (s.modKennel f).tick = s.tick := rfl
@[simp] theorem State.modKennel_cad (f : Kennel → Kennel) : (s.modKennel f).cad = s.cad := rfl
@[simp] theorem State.modKennel_cue (f : Kennel → Kennel) : (s.modKennel f).cue = s.cue := rfl
@[simp] theorem State.modKennel_commits (f : Kennel → Kennel) : (s.modKennel f).commits = s.commits := rfl
@[simp] theorem State.modKennel_shep (f : Kennel → Kennel) : (s.modKennel f).shep = s.shep := rfl
@[simp] theorem State.modKennel_muzzle (f : Kennel → Kennel) : (s.modKennel f).muzzle = s.muzzle := rfl
@[simp] theorem State.modKennel_regs (f : Kennel → Kennel) : (s.modKennel f).regs = s.regs := rfl
@[simp] theorem State.modKennel_host (f : Kennel → Kennel) : (s.modKennel f).host = s.host := rfl
@[simp] theorem State.modKennel_tiles (f : Kennel → Kennel) : (s.modKennel f).tiles = s.tiles := rfl
@[simp] theorem State.modKennel_hbm (f : Kennel → Kennel) : (s.modKennel f).hbm = s.hbm := rfl
@[simp] theorem State.modKennel_paging (f : Kennel → Kennel) : (s.modKennel f).paging = s.paging := rfl
@[simp] theorem State.modKennel_kennel (f : Kennel → Kennel) : (s.modKennel f).kennel = f s.kennel := rfl
@[simp] theorem State.modKennel_links (f : Kennel → Kennel) : (s.modKennel f).links = s.links := rfl
@[simp] theorem State.modKennel_fabric (f : Kennel → Kennel) : (s.modKennel f).fabric = s.fabric := rfl
@[simp] theorem State.modKennel_config (f : Kennel → Kennel) : (s.modKennel f).config = s.config := rfl
@[simp] theorem State.modKennel_nv (f : Kennel → Kennel) : (s.modKennel f).nv = s.nv := rfl
@[simp] theorem State.modKennel_leash (f : Kennel → Kennel) : (s.modKennel f).leash = s.leash := rfl
@[simp] theorem State.modKennel_ltime (f : Kennel → Kennel) : (s.modKennel f).ltime = s.ltime := rfl
@[simp] theorem State.modKennel_energy (f : Kennel → Kennel) : (s.modKennel f).energy = s.energy := rfl
@[simp] theorem State.modKennel_tel (f : Kennel → Kennel) : (s.modKennel f).tel = s.tel := rfl
@[simp] theorem State.modKennel_cnt (f : Kennel → Kennel) : (s.modKennel f).cnt = s.cnt := rfl
@[simp] theorem State.modKennel_sec (f : Kennel → Kennel) : (s.modKennel f).sec = s.sec := rfl
@[simp] theorem State.modKennel_fresh (f : Kennel → Kennel) : (s.modKennel f).fresh = s.fresh := rfl

/-! ### `modFab` -/

@[simp] theorem State.modFab_pending (f : FabricSt → FabricSt) : (s.modFab f).pending = s.pending := rfl
@[simp] theorem State.modFab_mod (f : FabricSt → FabricSt) : (s.modFab f).mod = s.mod := rfl
@[simp] theorem State.modFab_tick (f : FabricSt → FabricSt) : (s.modFab f).tick = s.tick := rfl
@[simp] theorem State.modFab_cad (f : FabricSt → FabricSt) : (s.modFab f).cad = s.cad := rfl
@[simp] theorem State.modFab_cue (f : FabricSt → FabricSt) : (s.modFab f).cue = s.cue := rfl
@[simp] theorem State.modFab_commits (f : FabricSt → FabricSt) : (s.modFab f).commits = s.commits := rfl
@[simp] theorem State.modFab_shep (f : FabricSt → FabricSt) : (s.modFab f).shep = s.shep := rfl
@[simp] theorem State.modFab_muzzle (f : FabricSt → FabricSt) : (s.modFab f).muzzle = s.muzzle := rfl
@[simp] theorem State.modFab_regs (f : FabricSt → FabricSt) : (s.modFab f).regs = s.regs := rfl
@[simp] theorem State.modFab_host (f : FabricSt → FabricSt) : (s.modFab f).host = s.host := rfl
@[simp] theorem State.modFab_tiles (f : FabricSt → FabricSt) : (s.modFab f).tiles = s.tiles := rfl
@[simp] theorem State.modFab_hbm (f : FabricSt → FabricSt) : (s.modFab f).hbm = s.hbm := rfl
@[simp] theorem State.modFab_paging (f : FabricSt → FabricSt) : (s.modFab f).paging = s.paging := rfl
@[simp] theorem State.modFab_kennel (f : FabricSt → FabricSt) : (s.modFab f).kennel = s.kennel := rfl
@[simp] theorem State.modFab_links (f : FabricSt → FabricSt) : (s.modFab f).links = s.links := rfl
@[simp] theorem State.modFab_fabric (f : FabricSt → FabricSt) : (s.modFab f).fabric = f s.fabric := rfl
@[simp] theorem State.modFab_config (f : FabricSt → FabricSt) : (s.modFab f).config = s.config := rfl
@[simp] theorem State.modFab_nv (f : FabricSt → FabricSt) : (s.modFab f).nv = s.nv := rfl
@[simp] theorem State.modFab_leash (f : FabricSt → FabricSt) : (s.modFab f).leash = s.leash := rfl
@[simp] theorem State.modFab_ltime (f : FabricSt → FabricSt) : (s.modFab f).ltime = s.ltime := rfl
@[simp] theorem State.modFab_energy (f : FabricSt → FabricSt) : (s.modFab f).energy = s.energy := rfl
@[simp] theorem State.modFab_tel (f : FabricSt → FabricSt) : (s.modFab f).tel = s.tel := rfl
@[simp] theorem State.modFab_cnt (f : FabricSt → FabricSt) : (s.modFab f).cnt = s.cnt := rfl
@[simp] theorem State.modFab_sec (f : FabricSt → FabricSt) : (s.modFab f).sec = s.sec := rfl
@[simp] theorem State.modFab_fresh (f : FabricSt → FabricSt) : (s.modFab f).fresh = s.fresh := rfl

/-! ### `modConfig` -/

@[simp] theorem State.modConfig_pending (f : ConfigSt → ConfigSt) : (s.modConfig f).pending = s.pending := rfl
@[simp] theorem State.modConfig_mod (f : ConfigSt → ConfigSt) : (s.modConfig f).mod = s.mod := rfl
@[simp] theorem State.modConfig_tick (f : ConfigSt → ConfigSt) : (s.modConfig f).tick = s.tick := rfl
@[simp] theorem State.modConfig_cad (f : ConfigSt → ConfigSt) : (s.modConfig f).cad = s.cad := rfl
@[simp] theorem State.modConfig_cue (f : ConfigSt → ConfigSt) : (s.modConfig f).cue = s.cue := rfl
@[simp] theorem State.modConfig_commits (f : ConfigSt → ConfigSt) : (s.modConfig f).commits = s.commits := rfl
@[simp] theorem State.modConfig_shep (f : ConfigSt → ConfigSt) : (s.modConfig f).shep = s.shep := rfl
@[simp] theorem State.modConfig_muzzle (f : ConfigSt → ConfigSt) : (s.modConfig f).muzzle = s.muzzle := rfl
@[simp] theorem State.modConfig_regs (f : ConfigSt → ConfigSt) : (s.modConfig f).regs = s.regs := rfl
@[simp] theorem State.modConfig_host (f : ConfigSt → ConfigSt) : (s.modConfig f).host = s.host := rfl
@[simp] theorem State.modConfig_tiles (f : ConfigSt → ConfigSt) : (s.modConfig f).tiles = s.tiles := rfl
@[simp] theorem State.modConfig_hbm (f : ConfigSt → ConfigSt) : (s.modConfig f).hbm = s.hbm := rfl
@[simp] theorem State.modConfig_paging (f : ConfigSt → ConfigSt) : (s.modConfig f).paging = s.paging := rfl
@[simp] theorem State.modConfig_kennel (f : ConfigSt → ConfigSt) : (s.modConfig f).kennel = s.kennel := rfl
@[simp] theorem State.modConfig_links (f : ConfigSt → ConfigSt) : (s.modConfig f).links = s.links := rfl
@[simp] theorem State.modConfig_fabric (f : ConfigSt → ConfigSt) : (s.modConfig f).fabric = s.fabric := rfl
@[simp] theorem State.modConfig_config (f : ConfigSt → ConfigSt) : (s.modConfig f).config = f s.config := rfl
@[simp] theorem State.modConfig_nv (f : ConfigSt → ConfigSt) : (s.modConfig f).nv = s.nv := rfl
@[simp] theorem State.modConfig_leash (f : ConfigSt → ConfigSt) : (s.modConfig f).leash = s.leash := rfl
@[simp] theorem State.modConfig_ltime (f : ConfigSt → ConfigSt) : (s.modConfig f).ltime = s.ltime := rfl
@[simp] theorem State.modConfig_energy (f : ConfigSt → ConfigSt) : (s.modConfig f).energy = s.energy := rfl
@[simp] theorem State.modConfig_tel (f : ConfigSt → ConfigSt) : (s.modConfig f).tel = s.tel := rfl
@[simp] theorem State.modConfig_cnt (f : ConfigSt → ConfigSt) : (s.modConfig f).cnt = s.cnt := rfl
@[simp] theorem State.modConfig_sec (f : ConfigSt → ConfigSt) : (s.modConfig f).sec = s.sec := rfl
@[simp] theorem State.modConfig_fresh (f : ConfigSt → ConfigSt) : (s.modConfig f).fresh = s.fresh := rfl

/-! ### `modLeash` -/

@[simp] theorem State.modLeash_pending (f : LeashSt → LeashSt) : (s.modLeash f).pending = s.pending := rfl
@[simp] theorem State.modLeash_mod (f : LeashSt → LeashSt) : (s.modLeash f).mod = s.mod := rfl
@[simp] theorem State.modLeash_tick (f : LeashSt → LeashSt) : (s.modLeash f).tick = s.tick := rfl
@[simp] theorem State.modLeash_cad (f : LeashSt → LeashSt) : (s.modLeash f).cad = s.cad := rfl
@[simp] theorem State.modLeash_cue (f : LeashSt → LeashSt) : (s.modLeash f).cue = s.cue := rfl
@[simp] theorem State.modLeash_commits (f : LeashSt → LeashSt) : (s.modLeash f).commits = s.commits := rfl
@[simp] theorem State.modLeash_shep (f : LeashSt → LeashSt) : (s.modLeash f).shep = s.shep := rfl
@[simp] theorem State.modLeash_muzzle (f : LeashSt → LeashSt) : (s.modLeash f).muzzle = s.muzzle := rfl
@[simp] theorem State.modLeash_regs (f : LeashSt → LeashSt) : (s.modLeash f).regs = s.regs := rfl
@[simp] theorem State.modLeash_host (f : LeashSt → LeashSt) : (s.modLeash f).host = s.host := rfl
@[simp] theorem State.modLeash_tiles (f : LeashSt → LeashSt) : (s.modLeash f).tiles = s.tiles := rfl
@[simp] theorem State.modLeash_hbm (f : LeashSt → LeashSt) : (s.modLeash f).hbm = s.hbm := rfl
@[simp] theorem State.modLeash_paging (f : LeashSt → LeashSt) : (s.modLeash f).paging = s.paging := rfl
@[simp] theorem State.modLeash_kennel (f : LeashSt → LeashSt) : (s.modLeash f).kennel = s.kennel := rfl
@[simp] theorem State.modLeash_links (f : LeashSt → LeashSt) : (s.modLeash f).links = s.links := rfl
@[simp] theorem State.modLeash_fabric (f : LeashSt → LeashSt) : (s.modLeash f).fabric = s.fabric := rfl
@[simp] theorem State.modLeash_config (f : LeashSt → LeashSt) : (s.modLeash f).config = s.config := rfl
@[simp] theorem State.modLeash_nv (f : LeashSt → LeashSt) : (s.modLeash f).nv = s.nv := rfl
@[simp] theorem State.modLeash_leash (f : LeashSt → LeashSt) : (s.modLeash f).leash = f s.leash := rfl
@[simp] theorem State.modLeash_ltime (f : LeashSt → LeashSt) : (s.modLeash f).ltime = s.ltime := rfl
@[simp] theorem State.modLeash_energy (f : LeashSt → LeashSt) : (s.modLeash f).energy = s.energy := rfl
@[simp] theorem State.modLeash_tel (f : LeashSt → LeashSt) : (s.modLeash f).tel = s.tel := rfl
@[simp] theorem State.modLeash_cnt (f : LeashSt → LeashSt) : (s.modLeash f).cnt = s.cnt := rfl
@[simp] theorem State.modLeash_sec (f : LeashSt → LeashSt) : (s.modLeash f).sec = s.sec := rfl
@[simp] theorem State.modLeash_fresh (f : LeashSt → LeashSt) : (s.modLeash f).fresh = s.fresh := rfl

/-! ### `modLtime` -/

@[simp] theorem State.modLtime_pending (f : LeashTime → LeashTime) : (s.modLtime f).pending = s.pending := rfl
@[simp] theorem State.modLtime_mod (f : LeashTime → LeashTime) : (s.modLtime f).mod = s.mod := rfl
@[simp] theorem State.modLtime_tick (f : LeashTime → LeashTime) : (s.modLtime f).tick = s.tick := rfl
@[simp] theorem State.modLtime_cad (f : LeashTime → LeashTime) : (s.modLtime f).cad = s.cad := rfl
@[simp] theorem State.modLtime_cue (f : LeashTime → LeashTime) : (s.modLtime f).cue = s.cue := rfl
@[simp] theorem State.modLtime_commits (f : LeashTime → LeashTime) : (s.modLtime f).commits = s.commits := rfl
@[simp] theorem State.modLtime_shep (f : LeashTime → LeashTime) : (s.modLtime f).shep = s.shep := rfl
@[simp] theorem State.modLtime_muzzle (f : LeashTime → LeashTime) : (s.modLtime f).muzzle = s.muzzle := rfl
@[simp] theorem State.modLtime_regs (f : LeashTime → LeashTime) : (s.modLtime f).regs = s.regs := rfl
@[simp] theorem State.modLtime_host (f : LeashTime → LeashTime) : (s.modLtime f).host = s.host := rfl
@[simp] theorem State.modLtime_tiles (f : LeashTime → LeashTime) : (s.modLtime f).tiles = s.tiles := rfl
@[simp] theorem State.modLtime_hbm (f : LeashTime → LeashTime) : (s.modLtime f).hbm = s.hbm := rfl
@[simp] theorem State.modLtime_paging (f : LeashTime → LeashTime) : (s.modLtime f).paging = s.paging := rfl
@[simp] theorem State.modLtime_kennel (f : LeashTime → LeashTime) : (s.modLtime f).kennel = s.kennel := rfl
@[simp] theorem State.modLtime_links (f : LeashTime → LeashTime) : (s.modLtime f).links = s.links := rfl
@[simp] theorem State.modLtime_fabric (f : LeashTime → LeashTime) : (s.modLtime f).fabric = s.fabric := rfl
@[simp] theorem State.modLtime_config (f : LeashTime → LeashTime) : (s.modLtime f).config = s.config := rfl
@[simp] theorem State.modLtime_nv (f : LeashTime → LeashTime) : (s.modLtime f).nv = s.nv := rfl
@[simp] theorem State.modLtime_leash (f : LeashTime → LeashTime) : (s.modLtime f).leash = s.leash := rfl
@[simp] theorem State.modLtime_ltime (f : LeashTime → LeashTime) : (s.modLtime f).ltime = f s.ltime := rfl
@[simp] theorem State.modLtime_energy (f : LeashTime → LeashTime) : (s.modLtime f).energy = s.energy := rfl
@[simp] theorem State.modLtime_tel (f : LeashTime → LeashTime) : (s.modLtime f).tel = s.tel := rfl
@[simp] theorem State.modLtime_cnt (f : LeashTime → LeashTime) : (s.modLtime f).cnt = s.cnt := rfl
@[simp] theorem State.modLtime_sec (f : LeashTime → LeashTime) : (s.modLtime f).sec = s.sec := rfl
@[simp] theorem State.modLtime_fresh (f : LeashTime → LeashTime) : (s.modLtime f).fresh = s.fresh := rfl

/-! ### `modEnergy` -/

@[simp] theorem State.modEnergy_pending (f : EnergySt → EnergySt) : (s.modEnergy f).pending = s.pending := rfl
@[simp] theorem State.modEnergy_mod (f : EnergySt → EnergySt) : (s.modEnergy f).mod = s.mod := rfl
@[simp] theorem State.modEnergy_tick (f : EnergySt → EnergySt) : (s.modEnergy f).tick = s.tick := rfl
@[simp] theorem State.modEnergy_cad (f : EnergySt → EnergySt) : (s.modEnergy f).cad = s.cad := rfl
@[simp] theorem State.modEnergy_cue (f : EnergySt → EnergySt) : (s.modEnergy f).cue = s.cue := rfl
@[simp] theorem State.modEnergy_commits (f : EnergySt → EnergySt) : (s.modEnergy f).commits = s.commits := rfl
@[simp] theorem State.modEnergy_shep (f : EnergySt → EnergySt) : (s.modEnergy f).shep = s.shep := rfl
@[simp] theorem State.modEnergy_muzzle (f : EnergySt → EnergySt) : (s.modEnergy f).muzzle = s.muzzle := rfl
@[simp] theorem State.modEnergy_regs (f : EnergySt → EnergySt) : (s.modEnergy f).regs = s.regs := rfl
@[simp] theorem State.modEnergy_host (f : EnergySt → EnergySt) : (s.modEnergy f).host = s.host := rfl
@[simp] theorem State.modEnergy_tiles (f : EnergySt → EnergySt) : (s.modEnergy f).tiles = s.tiles := rfl
@[simp] theorem State.modEnergy_hbm (f : EnergySt → EnergySt) : (s.modEnergy f).hbm = s.hbm := rfl
@[simp] theorem State.modEnergy_paging (f : EnergySt → EnergySt) : (s.modEnergy f).paging = s.paging := rfl
@[simp] theorem State.modEnergy_kennel (f : EnergySt → EnergySt) : (s.modEnergy f).kennel = s.kennel := rfl
@[simp] theorem State.modEnergy_links (f : EnergySt → EnergySt) : (s.modEnergy f).links = s.links := rfl
@[simp] theorem State.modEnergy_fabric (f : EnergySt → EnergySt) : (s.modEnergy f).fabric = s.fabric := rfl
@[simp] theorem State.modEnergy_config (f : EnergySt → EnergySt) : (s.modEnergy f).config = s.config := rfl
@[simp] theorem State.modEnergy_nv (f : EnergySt → EnergySt) : (s.modEnergy f).nv = s.nv := rfl
@[simp] theorem State.modEnergy_leash (f : EnergySt → EnergySt) : (s.modEnergy f).leash = s.leash := rfl
@[simp] theorem State.modEnergy_ltime (f : EnergySt → EnergySt) : (s.modEnergy f).ltime = s.ltime := rfl
@[simp] theorem State.modEnergy_energy (f : EnergySt → EnergySt) : (s.modEnergy f).energy = f s.energy := rfl
@[simp] theorem State.modEnergy_tel (f : EnergySt → EnergySt) : (s.modEnergy f).tel = s.tel := rfl
@[simp] theorem State.modEnergy_cnt (f : EnergySt → EnergySt) : (s.modEnergy f).cnt = s.cnt := rfl
@[simp] theorem State.modEnergy_sec (f : EnergySt → EnergySt) : (s.modEnergy f).sec = s.sec := rfl
@[simp] theorem State.modEnergy_fresh (f : EnergySt → EnergySt) : (s.modEnergy f).fresh = s.fresh := rfl

/-! ### `modTel` -/

@[simp] theorem State.modTel_pending (f : Telemetry → Telemetry) : (s.modTel f).pending = s.pending := rfl
@[simp] theorem State.modTel_mod (f : Telemetry → Telemetry) : (s.modTel f).mod = s.mod := rfl
@[simp] theorem State.modTel_tick (f : Telemetry → Telemetry) : (s.modTel f).tick = s.tick := rfl
@[simp] theorem State.modTel_cad (f : Telemetry → Telemetry) : (s.modTel f).cad = s.cad := rfl
@[simp] theorem State.modTel_cue (f : Telemetry → Telemetry) : (s.modTel f).cue = s.cue := rfl
@[simp] theorem State.modTel_commits (f : Telemetry → Telemetry) : (s.modTel f).commits = s.commits := rfl
@[simp] theorem State.modTel_shep (f : Telemetry → Telemetry) : (s.modTel f).shep = s.shep := rfl
@[simp] theorem State.modTel_muzzle (f : Telemetry → Telemetry) : (s.modTel f).muzzle = s.muzzle := rfl
@[simp] theorem State.modTel_regs (f : Telemetry → Telemetry) : (s.modTel f).regs = s.regs := rfl
@[simp] theorem State.modTel_host (f : Telemetry → Telemetry) : (s.modTel f).host = s.host := rfl
@[simp] theorem State.modTel_tiles (f : Telemetry → Telemetry) : (s.modTel f).tiles = s.tiles := rfl
@[simp] theorem State.modTel_hbm (f : Telemetry → Telemetry) : (s.modTel f).hbm = s.hbm := rfl
@[simp] theorem State.modTel_paging (f : Telemetry → Telemetry) : (s.modTel f).paging = s.paging := rfl
@[simp] theorem State.modTel_kennel (f : Telemetry → Telemetry) : (s.modTel f).kennel = s.kennel := rfl
@[simp] theorem State.modTel_links (f : Telemetry → Telemetry) : (s.modTel f).links = s.links := rfl
@[simp] theorem State.modTel_fabric (f : Telemetry → Telemetry) : (s.modTel f).fabric = s.fabric := rfl
@[simp] theorem State.modTel_config (f : Telemetry → Telemetry) : (s.modTel f).config = s.config := rfl
@[simp] theorem State.modTel_nv (f : Telemetry → Telemetry) : (s.modTel f).nv = s.nv := rfl
@[simp] theorem State.modTel_leash (f : Telemetry → Telemetry) : (s.modTel f).leash = s.leash := rfl
@[simp] theorem State.modTel_ltime (f : Telemetry → Telemetry) : (s.modTel f).ltime = s.ltime := rfl
@[simp] theorem State.modTel_energy (f : Telemetry → Telemetry) : (s.modTel f).energy = s.energy := rfl
@[simp] theorem State.modTel_tel (f : Telemetry → Telemetry) : (s.modTel f).tel = f s.tel := rfl
@[simp] theorem State.modTel_cnt (f : Telemetry → Telemetry) : (s.modTel f).cnt = s.cnt := rfl
@[simp] theorem State.modTel_sec (f : Telemetry → Telemetry) : (s.modTel f).sec = s.sec := rfl
@[simp] theorem State.modTel_fresh (f : Telemetry → Telemetry) : (s.modTel f).fresh = s.fresh := rfl

/-! ### `modCnt` -/

@[simp] theorem State.modCnt_pending (f : Counters → Counters) : (s.modCnt f).pending = s.pending := rfl
@[simp] theorem State.modCnt_mod (f : Counters → Counters) : (s.modCnt f).mod = s.mod := rfl
@[simp] theorem State.modCnt_tick (f : Counters → Counters) : (s.modCnt f).tick = s.tick := rfl
@[simp] theorem State.modCnt_cad (f : Counters → Counters) : (s.modCnt f).cad = s.cad := rfl
@[simp] theorem State.modCnt_cue (f : Counters → Counters) : (s.modCnt f).cue = s.cue := rfl
@[simp] theorem State.modCnt_commits (f : Counters → Counters) : (s.modCnt f).commits = s.commits := rfl
@[simp] theorem State.modCnt_shep (f : Counters → Counters) : (s.modCnt f).shep = s.shep := rfl
@[simp] theorem State.modCnt_muzzle (f : Counters → Counters) : (s.modCnt f).muzzle = s.muzzle := rfl
@[simp] theorem State.modCnt_regs (f : Counters → Counters) : (s.modCnt f).regs = s.regs := rfl
@[simp] theorem State.modCnt_host (f : Counters → Counters) : (s.modCnt f).host = s.host := rfl
@[simp] theorem State.modCnt_tiles (f : Counters → Counters) : (s.modCnt f).tiles = s.tiles := rfl
@[simp] theorem State.modCnt_hbm (f : Counters → Counters) : (s.modCnt f).hbm = s.hbm := rfl
@[simp] theorem State.modCnt_paging (f : Counters → Counters) : (s.modCnt f).paging = s.paging := rfl
@[simp] theorem State.modCnt_kennel (f : Counters → Counters) : (s.modCnt f).kennel = s.kennel := rfl
@[simp] theorem State.modCnt_links (f : Counters → Counters) : (s.modCnt f).links = s.links := rfl
@[simp] theorem State.modCnt_fabric (f : Counters → Counters) : (s.modCnt f).fabric = s.fabric := rfl
@[simp] theorem State.modCnt_config (f : Counters → Counters) : (s.modCnt f).config = s.config := rfl
@[simp] theorem State.modCnt_nv (f : Counters → Counters) : (s.modCnt f).nv = s.nv := rfl
@[simp] theorem State.modCnt_leash (f : Counters → Counters) : (s.modCnt f).leash = s.leash := rfl
@[simp] theorem State.modCnt_ltime (f : Counters → Counters) : (s.modCnt f).ltime = s.ltime := rfl
@[simp] theorem State.modCnt_energy (f : Counters → Counters) : (s.modCnt f).energy = s.energy := rfl
@[simp] theorem State.modCnt_tel (f : Counters → Counters) : (s.modCnt f).tel = s.tel := rfl
@[simp] theorem State.modCnt_cnt (f : Counters → Counters) : (s.modCnt f).cnt = f s.cnt := rfl
@[simp] theorem State.modCnt_sec (f : Counters → Counters) : (s.modCnt f).sec = s.sec := rfl
@[simp] theorem State.modCnt_fresh (f : Counters → Counters) : (s.modCnt f).fresh = s.fresh := rfl

/-! ### `modSec` -/

@[simp] theorem State.modSec_pending (f : SecSt → SecSt) : (s.modSec f).pending = s.pending := rfl
@[simp] theorem State.modSec_mod (f : SecSt → SecSt) : (s.modSec f).mod = s.mod := rfl
@[simp] theorem State.modSec_tick (f : SecSt → SecSt) : (s.modSec f).tick = s.tick := rfl
@[simp] theorem State.modSec_cad (f : SecSt → SecSt) : (s.modSec f).cad = s.cad := rfl
@[simp] theorem State.modSec_cue (f : SecSt → SecSt) : (s.modSec f).cue = s.cue := rfl
@[simp] theorem State.modSec_commits (f : SecSt → SecSt) : (s.modSec f).commits = s.commits := rfl
@[simp] theorem State.modSec_shep (f : SecSt → SecSt) : (s.modSec f).shep = s.shep := rfl
@[simp] theorem State.modSec_muzzle (f : SecSt → SecSt) : (s.modSec f).muzzle = s.muzzle := rfl
@[simp] theorem State.modSec_regs (f : SecSt → SecSt) : (s.modSec f).regs = s.regs := rfl
@[simp] theorem State.modSec_host (f : SecSt → SecSt) : (s.modSec f).host = s.host := rfl
@[simp] theorem State.modSec_tiles (f : SecSt → SecSt) : (s.modSec f).tiles = s.tiles := rfl
@[simp] theorem State.modSec_hbm (f : SecSt → SecSt) : (s.modSec f).hbm = s.hbm := rfl
@[simp] theorem State.modSec_paging (f : SecSt → SecSt) : (s.modSec f).paging = s.paging := rfl
@[simp] theorem State.modSec_kennel (f : SecSt → SecSt) : (s.modSec f).kennel = s.kennel := rfl
@[simp] theorem State.modSec_links (f : SecSt → SecSt) : (s.modSec f).links = s.links := rfl
@[simp] theorem State.modSec_fabric (f : SecSt → SecSt) : (s.modSec f).fabric = s.fabric := rfl
@[simp] theorem State.modSec_config (f : SecSt → SecSt) : (s.modSec f).config = s.config := rfl
@[simp] theorem State.modSec_nv (f : SecSt → SecSt) : (s.modSec f).nv = s.nv := rfl
@[simp] theorem State.modSec_leash (f : SecSt → SecSt) : (s.modSec f).leash = s.leash := rfl
@[simp] theorem State.modSec_ltime (f : SecSt → SecSt) : (s.modSec f).ltime = s.ltime := rfl
@[simp] theorem State.modSec_energy (f : SecSt → SecSt) : (s.modSec f).energy = s.energy := rfl
@[simp] theorem State.modSec_tel (f : SecSt → SecSt) : (s.modSec f).tel = s.tel := rfl
@[simp] theorem State.modSec_cnt (f : SecSt → SecSt) : (s.modSec f).cnt = s.cnt := rfl
@[simp] theorem State.modSec_sec (f : SecSt → SecSt) : (s.modSec f).sec = f s.sec := rfl
@[simp] theorem State.modSec_fresh (f : SecSt → SecSt) : (s.modSec f).fresh = s.fresh := rfl

end Sys2Proof.Machine
end

