-- ==== Sys2Proof/Laws/Table.lean ====
section
/-! SUPPORT. Laws of the sparse tables and of the memories: read after write, and the canonical form. -/
namespace Sys2Proof.Machine

variable {α : Type}

@[simp] theorem Table.get_nil (d : α) (k : Nat) : Table.get d [] k = d := rfl

theorem Table.get_cons (d : α) (i : Nat) (v : α) (t : Table α) (k : Nat) :
    Table.get d ((i, v) :: t) k = if i = k then v else Table.get d t k := rfl

/-- A read after a write of the same index gives the value written. -/
@[simp] theorem Table.get_put_same (d : α) (t : Table α) (k : Nat) (v : α) : Table.get d (Table.put t k v) k = v := by
  induction t with
  | nil => simp [Table.put, Table.get]
  | cons e t ih =>
    obtain ⟨i, w⟩ := e
    by_cases h1 : k < i
    · simp [Table.put, Table.get, h1]
    · by_cases h2 : k = i
      · subst h2; simp [Table.put, Table.get]
      · have h3 : ¬ i = k := fun h => h2 h.symm
        simp [Table.put, Table.get, h1, h2, h3, ih]

/-- A write leaves every other index alone. -/
theorem Table.get_put_other (d : α) (t : Table α) (k a : Nat) (v : α) (h : a ≠ k) :
    Table.get d (Table.put t k v) a = Table.get d t a := by
  have hk : ¬ k = a := fun e => h e.symm
  induction t with
  | nil => simp [Table.put, Table.get, hk]
  | cons e t ih =>
    obtain ⟨i, w⟩ := e
    by_cases h1 : k < i
    · simp [Table.put, Table.get, h1, hk]
    · by_cases h2 : k = i
      · subst h2; simp [Table.put, Table.get, hk]
      · simp [Table.put, Table.get, h1, h2, ih]

@[simp] theorem Table.get_erase_same (d : α) (t : Table α) (k : Nat) : Table.get d (Table.erase t k) k = d := by
  induction t with
  | nil => rfl
  | cons e t ih =>
    obtain ⟨i, w⟩ := e
    by_cases h : i = k <;> simp [Table.erase, Table.get, h, ih]

theorem Table.get_erase_other (d : α) (t : Table α) (k a : Nat) (h : a ≠ k) :
    Table.get d (Table.erase t k) a = Table.get d t a := by
  have hk : ¬ k = a := fun e => h e.symm
  induction t with
  | nil => rfl
  | cons e t ih =>
    obtain ⟨i, w⟩ := e
    by_cases h1 : i = k
    · simp [Table.erase, Table.get, h1, hk, ih]
    · simp [Table.erase, Table.get, h1, ih]

@[simp] theorem Table.get_set_same [DecidableEq α] (d : α) (t : Table α) (k : Nat) (v : α) :
    Table.get d (Table.set d t k v) k = v := by
  unfold Table.set
  split
  · next h => simp [h]
  · simp

theorem Table.get_set_other [DecidableEq α] (d : α) (t : Table α) (k a : Nat) (v : α) (h : a ≠ k) :
    Table.get d (Table.set d t k v) a = Table.get d t a := by
  unfold Table.set
  split
  · exact Table.get_erase_other d t k a h
  · exact Table.get_put_other d t k a v h

/-! ## The canonical form -/

theorem Table.rising_of_lt (t : Table α) (l : Nat) (m : Option Nat) (hm : ∀ x, m = some x → x ≤ l)
    (h : Table.rising (some l) t = true) : Table.rising m t = true := by
  cases t with
  | nil => cases m <;> rfl
  | cons e t =>
    obtain ⟨i, v⟩ := e
    simp [Table.rising] at h
    cases m with
    | none => simpa [Table.rising] using h.2
    | some x =>
      have := hm x rfl
      simp [Table.rising, h.2]; omega

theorem Table.rising_put (t : Table α) (k : Nat) (v : α) (m : Option Nat) (hm : ∀ x, m = some x → x < k)
    (h : Table.rising m t = true) : Table.rising m (Table.put t k v) = true := by
  induction t generalizing m with
  | nil => cases m with
    | none => rfl
    | some x => simpa [Table.put, Table.rising] using hm x rfl
  | cons e t ih =>
    obtain ⟨i, w⟩ := e
    have hi : Table.rising (some i) t = true := by
      cases m with
      | none => exact h
      | some x => simp [Table.rising] at h; exact h.2
    have head : ∀ x, m = some x → x < i := by
      intro x hx; subst hx; simp [Table.rising] at h; exact h.1
    by_cases h1 : k < i
    · have : Table.rising (some k) ((i, w) :: t) = true := by simp [Table.rising, h1, hi]
      cases m with
      | none => simpa [Table.put, h1, Table.rising] using this
      | some x => simp [Table.put, h1, Table.rising, hm x rfl, hi]
    · by_cases h2 : k = i
      · subst h2
        cases m with
        | none => simpa [Table.put, Table.rising] using hi
        | some x => simp [Table.put, Table.rising, hm x rfl, hi]
      · have h3 := ih (some i) (by intro x hx; cases hx; omega) hi
        cases m with
        | none => simpa [Table.put, h1, h2, Table.rising] using h3
        | some x => simp [Table.put, h1, h2, Table.rising, head x rfl, h3]

theorem Table.rising_erase (t : Table α) (k : Nat) (m : Option Nat) (h : Table.rising m t = true) :
    Table.rising m (Table.erase t k) = true := by
  induction t generalizing m with
  | nil => cases m <;> rfl
  | cons e t ih =>
    obtain ⟨i, w⟩ := e
    have hi : Table.rising (some i) t = true := by
      cases m with
      | none => exact h
      | some x => simp [Table.rising] at h; exact h.2
    have head : ∀ x, m = some x → x < i := by
      intro x hx; subst hx; simp [Table.rising] at h; exact h.1
    by_cases h1 : i = k
    · simp only [Table.erase, h1, if_true]
      exact ih m (Table.rising_of_lt t i m (fun x hx => Nat.le_of_lt (head x hx)) hi)
    · have h3 := ih (some i) hi
      cases m with
      | none => simpa [Table.erase, h1, Table.rising] using h3
      | some x => simp [Table.erase, h1, Table.rising, head x rfl, h3]

theorem Table.all_put (p : Nat × α → Bool) (t : Table α) (k : Nat) (v : α) (hv : p (k, v) = true)
    (h : t.all p = true) : (Table.put t k v).all p = true := by
  induction t with
  | nil => simpa [Table.put] using hv
  | cons e t ih =>
    obtain ⟨i, w⟩ := e
    simp only [List.all_cons, Bool.and_eq_true] at h
    unfold Table.put
    split
    · simp [hv, h.1, h.2]
    · split
      · simp [hv, h.2]
      · simp only [List.all_cons, h.1, ih h.2, Bool.and_self]

theorem Table.all_erase (p : Nat × α → Bool) (t : Table α) (k : Nat) (h : t.all p = true) :
    (Table.erase t k).all p = true := by
  induction t with
  | nil => rfl
  | cons e t ih =>
    obtain ⟨i, w⟩ := e
    simp only [List.all_cons, Bool.and_eq_true] at h
    unfold Table.erase
    split
    · exact ih h.2
    · simp only [List.all_cons, h.1, ih h.2, Bool.and_self]

/-- A write keeps the canonical form. -/
theorem Table.wf_set [DecidableEq α] (d : α) (t : Table α) (k : Nat) (v : α) (h : Table.wf d t = true) :
    Table.wf d (Table.set d t k v) = true := by
  simp only [Table.wf, Bool.and_eq_true] at h ⊢
  unfold Table.set
  split
  · exact ⟨Table.rising_erase t k none h.1, Table.all_erase _ t k h.2⟩
  · next hv =>
    exact ⟨Table.rising_put t k v none (fun x hx => by cases hx) h.1, Table.all_put _ t k v (by simpa using hv) h.2⟩

/-! ## Memories -/

@[simp] theorem Memory.readByte_writeByte_same (m : Memory) (a : Nat) (b : Byte) : (m.writeByte a b).readByte a = b :=
  Table.get_set_same 0 m a b

theorem Memory.readByte_writeByte_other (m : Memory) (a k : Nat) (b : Byte) (h : k ≠ a) :
    (m.writeByte a b).readByte k = m.readByte k := Table.get_set_other 0 m a k b h

theorem Memory.wf_writeByte (m : Memory) (a : Nat) (b : Byte) (h : Memory.wf m = true) :
    Memory.wf (m.writeByte a b) = true := Table.wf_set 0 m a b h

theorem Memory.wf_writeBytes (m : Memory) (a : Nat) (l : List Byte) (h : Memory.wf m = true) :
    Memory.wf (m.writeBytes a l) = true := by
  induction l generalizing m a with
  | nil => exact h
  | cons b l ih => exact ih _ _ (Memory.wf_writeByte m a b h)

/-- Writing a list of bytes leaves every address outside them alone. -/
theorem Memory.readByte_writeBytes_other (m : Memory) (a k : Nat) (l : List Byte) (h : k < a ∨ a + l.length ≤ k) :
    (m.writeBytes a l).readByte k = m.readByte k := by
  induction l generalizing m a with
  | nil => rfl
  | cons b l ih =>
    simp only [List.length_cons] at h
    show ((m.writeByte a b).writeBytes (a + 1) l).readByte k = _
    rw [ih (m.writeByte a b) (a + 1) (by omega)]
    exact Memory.readByte_writeByte_other m a k b (by omega)

/-- Reading back what was written. -/
theorem Memory.readBytes_writeBytes_same (m : Memory) (a : Nat) (l : List Byte) :
    (m.writeBytes a l).readBytes a l.length = l := by
  induction l generalizing m a with
  | nil => rfl
  | cons b l ih =>
    simp only [List.length_cons, Memory.readBytes, Memory.writeBytes]
    rw [ih (m.writeByte a b) (a + 1), Memory.readByte_writeBytes_other _ _ _ _ (Or.inl (Nat.lt_succ_self a))]
    simp

theorem Memory.wf_writeLE (m : Memory) (a n x : Nat) (h : Memory.wf m = true) : Memory.wf (m.writeLE a n x) = true :=
  Memory.wf_writeBytes m a _ h

/-! ## Stretches of a memory -/

@[simp] theorem Memory.length_readBytes (m : Memory) (a n : Nat) : (m.readBytes a n).length = n := by
  induction n generalizing a with
  | zero => rfl
  | succ n ih => simp [Memory.readBytes, ih]

theorem Memory.drop_readBytes (m : Memory) (a n k : Nat) : (m.readBytes a n).drop k = m.readBytes (a + k) (n - k) := by
  induction k generalizing a n with
  | zero => simp
  | succ k ih =>
    cases n with
    | zero => simp [Memory.readBytes]
    | succ n =>
      simp only [Memory.readBytes, List.drop_succ_cons, ih]
      congr 1 <;> omega

theorem Memory.take_readBytes (m : Memory) (a n k : Nat) : (m.readBytes a n).take k = m.readBytes a (min k n) := by
  induction k generalizing a n with
  | zero => simp [Memory.readBytes]
  | succ k ih =>
    cases n with
    | zero => simp [Memory.readBytes]
    | succ n => simp [Memory.readBytes, ih, Nat.succ_min_succ]

theorem leNat_lt (b : List Byte) : leNat b < 256 ^ b.length := by
  induction b with
  | nil => simp [leNat]
  | cons x l ih =>
    have := x.isLt
    simp only [leNat, List.length_cons, Nat.pow_succ]
    omega

end Sys2Proof.Machine
end

