-- ==== Sys2Proof/Laws/Ops.lean ====
section
/-! SUPPORT. What each shared operation can do, said once: reads after writes, and the cases of the operations that the
meanings are built from. -/
namespace Sys2Proof.Machine
open Sys2Proof

variable (s : State)

/-! ## Reads after writes -/

@[simp] theorem State.tile_setTile_same (i : Nat) (t : TileSt) : (s.setTile i t).tile i = t := Table.get_put_same ..
theorem State.tile_setTile_other (i k : Nat) (t : TileSt) (h : k ≠ i) : (s.setTile i t).tile k = s.tile k :=
  Table.get_put_other _ _ _ _ _ h
@[simp] theorem State.tile_modTile_same (i : Nat) (f : TileSt → TileSt) : (s.modTile i f).tile i = f (s.tile i) := Table.get_put_same ..
theorem State.tile_modTile_other (i k : Nat) (f : TileSt → TileSt) (h : k ≠ i) : (s.modTile i f).tile k = s.tile k :=
  Table.get_put_other _ _ _ _ _ h
@[simp] theorem State.pack_modPack_same (p : Nat) (f : PackSt → PackSt) : (s.modPack p f).pack p = f (s.pack p) := Table.get_put_same ..
theorem State.pack_modPack_other (p k : Nat) (f : PackSt → PackSt) (h : k ≠ p) : (s.modPack p f).pack k = s.pack k :=
  Table.get_put_other _ _ _ _ _ h
@[simp] theorem State.port_modPort_same (p : Nat) (f : PortSt → PortSt) : (s.modPort p f).port p = f (s.port p) := Table.get_put_same ..
theorem State.port_modPort_other (p k : Nat) (f : PortSt → PortSt) (h : k ≠ p) : (s.modPort p f).port k = s.port k :=
  Table.get_put_other _ _ _ _ _ h
@[simp] theorem State.region_modRegion_same (r : Nat) (f : RegionSt → RegionSt) : (s.modRegion r f).region r = f (s.region r) :=
  Table.get_put_same ..
theorem State.region_modRegion_other (r k : Nat) (f : RegionSt → RegionSt) (h : k ≠ r) : (s.modRegion r f).region k = s.region k :=
  Table.get_put_other _ _ _ _ _ h
@[simp] theorem State.meas_modMeas_same (n : Nat) (f : LinkMeas → LinkMeas) : (s.modMeas n f).meas n = f (s.meas n) := Table.get_put_same ..
theorem State.meas_modMeas_other (n k : Nat) (f : LinkMeas → LinkMeas) (h : k ≠ n) : (s.modMeas n f).meas k = s.meas k :=
  Table.get_put_other _ _ _ _ _ h
@[simp] theorem State.link_setLink_same (n : Nat) (v : LinkSt) : (s.setLink n v).link n = v := Table.get_put_same ..
theorem State.link_setLink_other (n k : Nat) (v : LinkSt) (h : k ≠ n) : (s.setLink n v).link k = s.link k :=
  Table.get_put_other _ _ _ _ _ h
@[simp] theorem State.site_modSite_same (i : Nat) (f : SiteSt → SiteSt) : (s.modSite i f).site i = f (s.site i) := Table.get_put_same ..
theorem State.site_modSite_other (i k : Nat) (f : SiteSt → SiteSt) (h : k ≠ i) : (s.modSite i f).site k = s.site k :=
  Table.get_put_other _ _ _ _ _ h
@[simp] theorem State.stack_modStack_same (k : Nat) (f : StackSt → StackSt) : (s.modStack k f).stack k = f (s.stack k) := Table.get_put_same ..
theorem State.stack_modStack_other (k j : Nat) (f : StackSt → StackSt) (h : j ≠ k) : (s.modStack k f).stack j = s.stack j :=
  Table.get_put_other _ _ _ _ _ h

/-- What a read of host memory gives right after a write of the same bytes. -/
theorem State.hostRead_hostWrite_same (a : Nat) (b : List Byte) (h : s.hostFails a b.length = false) :
    (s.hostWrite a b).hostRead a b.length = some b := by
  have : (s.hostWrite a b).hostFails a b.length = false := h
  simp only [State.hostRead, this, Bool.false_eq_true, if_false]
  exact congrArg some (Memory.readBytes_writeBytes_same s.host.mem a b)

/-! ## The step -/

theorem step_idle (h : s.pending = []) : step s = .next s := by simp only [step, h]

theorem step_front (c : Instr) (cs : List Instr) (h : s.pending = c :: cs) : step s = exec c { s with pending := cs } := by
  simp only [step, h]

/-! ## Interrupts and descriptors -/

/-- A vector is not there, has been sent in this tick, is masked, or is sent (R86, R87). -/
theorem State.msixSend_cases (f v : Nat) :
    ((s.vecCount f ≤ v ∨ s.host.msix.contains (f, v) = true) ∧ s.msixSend f v = s) ∨
    ((s.reg (msixEntry f v + 12)).getLsbD 0 = true ∧ s.msixSend f v = s.modFn f fun x =>
      if x.msixPending.contains v then x else { x with msixPending := x.msixPending ++ [v] }) ∨
    (v < s.vecCount f ∧ (s.reg (msixEntry f v + 12)).getLsbD 0 = false ∧ s.msixSend f v = s.msixWrite f v) := by
  unfold State.msixSend
  by_cases h1 : s.vecCount f ≤ v
  · exact .inl ⟨.inl h1, by simp [h1]⟩
  · cases h2 : s.host.msix.contains (f, v)
    · cases h3 : (s.reg (msixEntry f v + 12)).getLsbD 0
      · exact .inr (.inr ⟨by omega, rfl, by simp [h1]⟩)
      · exact .inr (.inl ⟨rfl, by simp [h1]⟩)
    · exact .inl ⟨.inr rfl, by simp [h1]⟩

/-- A descriptor that is ended stops, is ended at once, or keeps the status it has (R53, R89, R90). -/
theorem State.endDesc_cases (id st : Nat) :
    (s.desc? id = none ∧ s.endDesc id st = s) ∨
    ∃ d, s.desc? id = some d ∧
      (((d.phase = .running ∨ d.phase = .finished) ∧
          s.endDesc id st = (s.stopPack d.pack id).modDesc id fun d => { d with phase := .ending, status := st }) ∨
       ((d.phase = .ending ∨ d.phase = .ended ∨ d.phase = .recorded) ∧ s.endDesc id st = s) ∨
       ((d.phase = .reading ∨ d.phase = .rejected ∨ d.phase = .arrived ∨ d.phase = .waiting ∨ d.phase = .parked) ∧
          s.endDesc id st = ({ s with tiles := { s.tiles with swaps := s.tiles.swaps.filter fun w => w.desc != id } } : State).modDesc id
            fun d => { d with phase := .ended, status := st })) := by
  unfold State.endDesc
  cases h : s.desc? id with
  | none => exact .inl ⟨rfl, rfl⟩
  | some d =>
    refine .inr ⟨d, rfl, ?_⟩
    cases hp : d.phase <;> simp only [hp] <;> simp

/-! ## Issue -/

/-- A word issues, is skipped, cannot be fetched, waits for memory, or nothing happens (R149, R151, R163, R176). -/
theorem State.issue_cases (tile : TileId) (e : Engine) (pick : Nat → Bool) (body : Issuing → TileWord → State → State) :
    s.issue tile e pick body = s ∨
    ∃ p d, s.issuer tile e = some (p, d) ∧ ((s.tile tile.ix).engine e).pc < ((s.tile tile.ix).engine e).len ∧
      ((∃ f t, s.fetchWord d tile.ix e = (f, t) ∧ ((f = .failed ∧ s.issue tile e pick body = t.fetchFailed p d) ∨
          ((f = .waits ∨ f = .memory) ∧ s.issue tile e pick body = t))) ∨
       ∃ w t, s.fetchWord d tile.ix e = (.word w, t) ∧ pick (w.toNat % 256) = true ∧
        let c : Issuing := ⟨tile, tile.ix, e, p, d, ((s.tile tile.ix).engine e).pc, w⟩
        ((∃ r, s.issue tile e pick body = t.skip c r) ∨
         ∃ i, TileWord.decode w = some i ∧ opcodeEngine i.opcode e = true ∧ s.issue tile e pick body = body c i t)) := by
  cases h : s.issuer tile e with
  | none => exact .inl (by simp only [State.issue, h])
  | some x =>
    obtain ⟨p, d⟩ := x
    by_cases hl : ((s.tile tile.ix).engine e).len ≤ ((s.tile tile.ix).engine e).pc
    · exact .inl (by simp only [State.issue, h, hl, if_true])
    · rcases hf : s.fetchWord d tile.ix e with ⟨w, t⟩
      cases w with
      | waits => exact .inr ⟨p, d, rfl, by omega, .inl ⟨_, t, hf, .inr ⟨.inl rfl, by simp only [State.issue, h, hl, if_false, hf]⟩⟩⟩
      | memory => exact .inr ⟨p, d, rfl, by omega, .inl ⟨_, t, hf, .inr ⟨.inr rfl, by simp only [State.issue, h, hl, if_false, hf]⟩⟩⟩
      | failed => exact .inr ⟨p, d, rfl, by omega, .inl ⟨_, t, hf, .inl ⟨rfl, by simp only [State.issue, h, hl, if_false, hf]⟩⟩⟩
      | word w =>
        cases hp : pick (w.toNat % 256)
        · exact .inl (by simp only [State.issue, h, hl, if_false, hf, hp, Bool.not_false, if_true])
        · refine .inr ⟨p, d, rfl, by omega, .inr ⟨w, t, hf, hp, ?_⟩⟩
          simp only [State.issue, h, hl, if_false, hf, hp, Bool.not_true, Bool.false_eq_true]
          cases hw : TileWord.fields w with
          | none => exact .inl ⟨rsUndefined, rfl⟩
          | some i =>
            cases ho : opcodeEngine i.opcode e
            · exact .inl ⟨rsWrongEngine, by simp [ho]⟩
            · by_cases he : i.encode = w
              · exact .inr ⟨i, by simp [TileWord.decode, hw, he], ho, by simp [ho, he]⟩
              · exact .inl ⟨rsReserved, by simp [ho, he]⟩

/-- An instruction with scoreboard resources is skipped, waits, or takes effect (R153, R155, R176). -/
theorem State.dispatchOp_cases (c : Issuing) (decode : Option Nat) (reads writes : List Nat) (issue : Option Nat)
    (effect : State → State) :
    (∃ r, (decode = some r ∨ issue = some r) ∧ s.dispatchOp c decode reads writes issue effect = s.skip c r) ∨
    (∃ r, s.dispatchOp c decode reads writes issue effect = s.holdAt c (.issue r)) ∨
    (decode = none ∧ issue = none ∧ (s.tile c.ix).slotsFull c.e = false ∧ (s.tile c.ix).blocked none reads writes = none ∧
      s.dispatchOp c decode reads writes issue effect = effect (s.launch c reads writes none)) := by
  unfold State.dispatchOp
  cases decode with
  | some r => exact .inl ⟨r, .inl rfl, rfl⟩
  | none =>
    cases hs : (s.tile c.ix).slotsFull c.e
    · cases hb : (s.tile c.ix).blocked none reads writes with
      | some r => exact .inr (.inl ⟨r, by simp [hs, hb]⟩)
      | none =>
        cases issue with
        | some r => exact .inl ⟨r, .inr rfl, by simp [hs, hb]⟩
        | none => exact .inr (.inr ⟨rfl, rfl, rfl, rfl, by simp [hs, hb]⟩)
    · exact .inr (.inl ⟨resSlot, by simp [hs]⟩)

/-- A control instruction is skipped, waits for a slot, or takes effect (R176). -/
theorem State.controlOp_cases (c : Issuing) (decode : Option Nat) (effect : State → State) :
    (∃ r, decode = some r ∧ s.controlOp c decode effect = s.skip c r) ∨
    ((s.tile c.ix).slotsFull c.e = true ∧ s.controlOp c decode effect = s.holdAt c (.issue resSlot)) ∨
    (decode = none ∧ (s.tile c.ix).slotsFull c.e = false ∧ s.controlOp c decode effect = effect (s.tagged c)) := by
  unfold State.controlOp
  cases decode with
  | some r => exact .inl ⟨r, rfl, rfl⟩
  | none =>
    cases hs : (s.tile c.ix).slotsFull c.e
    · exact .inr (.inr ⟨rfl, rfl, by simp⟩)
    · exact .inr (.inl ⟨rfl, by simp⟩)

/-! ## Programs' semaphores, fabric and security -/

/-- A semaphore add saturates, and then taints the descriptor that owns the tile (R158). -/
theorem State.semAdd_cases (ix n inc : Nat) :
    let v := (s.tile ix).sem n + inc
    (v ≤ 65535 ∧ s.semAdd ix n inc = s.modTile ix fun t => t.setSem n v) ∨
    (65535 < v ∧ s.semAdd ix n inc = (s.modTile ix fun t => t.setSem n 65535).taint (tileOfIx ix) 5 0xFFFFFF rsSemSat 0) := by
  intro v
  unfold State.semAdd
  by_cases h : 65535 < v
  · exact .inr ⟨h, by simp only [v] at h ⊢; simp [h, Nat.min_eq_right (Nat.le_of_lt h)]⟩
  · exact .inl ⟨by omega, by simp only [v] at h ⊢; simp [h, Nat.min_eq_left (Nat.not_lt.mp h)]⟩

/-- A request for boundary scan acts only in standby or recovery (R407). -/
theorem State.extest_cases (i : JtagInstr) :
    (s.scanOk = true ∧ s.extest i = s.jtag i s.fabric.gpioIn) ∨ (s.scanOk = false ∧ s.extest i = s.jtag .bypass 0) := by
  unfold State.extest
  cases s.scanOk
  · exact .inr ⟨rfl, rfl⟩
  · exact .inl ⟨rfl, rfl⟩

end Sys2Proof.Machine
end

