-- ==== Sys2Proof/WellFormed.lean ====
section
/-! DEFINITION. Which commands a sender can form: the sizes that the spec fixes for the data a command
carries. Unit numbers need no check, since their types hold no other. -/
namespace Sys2Proof

/-- Host stores name 64-bit bus addresses (R61). -/
def TickIn.wf (i : TickIn) : Bool :=
  i.stores.all (fun c => decide (c.1 < 2 ^ 64)) && i.fails.all (fun r => decide (r.1 + r.2 ≤ 2 ^ 64))

/-- One header carries at most 4,096 data bytes (R319). -/
def wfData (data : List Byte) : Bool := decide (data.length ≤ 4096)

/-- A command is well formed. -/
def Instr.wf : Instr → Bool
  | .tick inp => inp.wf
  | .mxrun _ _ u => u.rows.all fun r => decide (r.row < 192)
  | .rwrite _ data => wfData data
  | .tsend _ data => wfData data
  | .mcast _ data => wfData data
  | .readData _ data => wfData data
  | .hookReturnBeat _ b => decide (b.data.length = 64)
  | .portInitiatorRequest _ (.write _ data) => decide (data.length ≤ 256)
  | .bar2Access _ true data len => decide (data.length = len)
  | .codewordReceive _ (.data sent levels) =>
    decide (sent.length = 544) && decide (levels.length = 5) && levels.all fun l => decide (l.length = 680)
  | .codewordReceive _ (.marker lanes) => decide (lanes.length ≤ 5)
  | .flitReceive _ _ bytes => decide (bytes.length = 256)
  | .thermalSample r => decide (r.stackList.length = 12) && decide (r.sites.length = 100)
  | .hbmRead _ _ errs => errs.all fun e => decide (e.n ≤ 64)
  | .hbmWrite _ _ _ errs => errs.all fun e => decide (e.n ≤ 64)
  | .wcBufferFlush _ errs => errs.all fun e => decide (e.n ≤ 64)
  | .patrolRead _ _ errs => errs.all fun e => decide (e.n ≤ 64)
  | _ => true

end Sys2Proof
end

