-- ==== Sys2Proof/Tests/Slice0.lean ====
section
/-! SUPPORT. The model's own tests: ill-formed commands that the check refuses, the spec's worked words, and for each
statement that has hypotheses a concrete state and operands that meet them. -/
namespace Sys2Proof.Tests
open Sys2Proof Sys2Proof.Machine
set_option Elab.async false


/-! ## Fixtures: Pack 0 is 2 by 2 at the origin, and runs one descriptor on its tile 0 -/

def t00 : TileId := ⟨0, 0⟩
def t10 : TileId := ⟨1, 0⟩

/-- A RUN descriptor of the PF. -/
def theDesc : Desc := { id := 1, fn := 0, ring := 0, slot := 0, cq := 0, tick := 0, f := { cls := 1, job := 7 }, phase := .running, undispatched := false }

/-- After reset, with Pack 0 enabled and free. -/
def packed : State := State.reset.setReg 0x40000 0x420800

/-- Pack 0 runs the descriptor. -/
def ran : State := ({ packed with shep := { packed.shep with descs := [theDesc], nextId := 2 } }).modPack 0 fun k => { k with desc := some 1 }

/-- The 64 KiB at device address 0 are host memory, and the words are the stream of an engine of tile 0. -/
def prog (e : Engine) (l : List TileWord) : State :=
  let s := { ran with paging := { ran.paging with tables := [(0, { small := [(0, 0xA)] })] } }
  (s.hostWrite 0 (l.flatMap fun i => leBytes 16 i.encode.toNat)).modEngine 0 e fun g => { g with len := l.length, halted := false }

/-- What issues in `prog`. -/
def issuing (s : State) (tile : TileId) (e : Engine) : Issuing :=
  let d := ((s.issuer tile e).getD (0, theDesc))
  ⟨tile, tile.ix, e, d.1, d.2, ((s.tile tile.ix).engine e).pc, match (s.fetchWord d.2 tile.ix e).1 with
    | .word w => w
    | _ => 0⟩

/-- The machine once the word is fetched. -/
def fetched (s : State) (tile : TileId) (e : Engine) : State := (s.fetchWord (issuing s tile e).d tile.ix e).2

def issuesCheck (s : State) (tile : TileId) (e : Engine) (i : TileWord) : Bool :=
  let g := (s.tile tile.ix).engine e
  let c := issuing s tile e
  decide (s.issuer tile e = some (c.p, c.d)) && decide (g.pc < g.len) && decide ((s.fetchWord c.d tile.ix e).1 = .word c.word) &&
    decide (TileWord.decode c.word = some i) && opcodeEngine i.opcode e && !((fetched s tile e).tile c.ix).slotsFull e

theorem issues_of_check {s : State} {tile : TileId} {e : Engine} {i : TileWord} (h : issuesCheck s tile e i = true) :
    issuesTo s tile e i (issuing s tile e) (fetched s tile e) := by
  simp only [issuesCheck, Bool.and_eq_true, decide_eq_true_eq, Bool.not_eq_true'] at h
  obtain ⟨⟨⟨⟨⟨h1, h2⟩, h3⟩, h4⟩, h5⟩, h6⟩ := h
  exact ⟨h1, rfl, h2, Prod.ext h3 rfl, h4, h5, h6⟩


/-! ## Hypotheses that are met: the queue, the tick, registers, commits -/

/-- After reset, with a register at a value. -/
def withReg (a : Nat) (v : Word) : State := State.reset.setReg a v

/-- The next state of a command that has one. -/
def after (c : Instr) (s : State) : State := match exec c s with
  | .next t => t
  | _ => s

theorem meets_StepRunsTheFrontCommand :
    ({ State.reset with pending := [.commit] } : State).pending = .commit :: [] ∧ State.reset.pending = [] := ⟨rfl, rfl⟩

theorem meets_EveryStepKeepsTheMemoriesCanonical :
    ({ State.reset with pending := [.cntFreeze 2] } : State).memWf ∧
      step { State.reset with pending := [.cntFreeze 2] } = .next { State.reset with cnt := { frozen := true } } := ⟨⟨rfl, rfl⟩, rfl⟩

theorem meets_CommandsRunAndLeaveTheQueue (c : Instr) (h : c = .hbmRead 0x59FFFFFFFF none [] ∨
      c = .hbmWrite 0x59FFFFFFFF [1] none [] ∨ c = .hbmTransactionTimeout 0x59FFFFFFFF none) :
    (∀ a r e, c = .hbmRead a r e → a.toNat < 360 * 2 ^ 30) ∧
    (∀ a d w e, c = .hbmWrite a d w e → a.toNat < 360 * 2 ^ 30 ∧ a.toNat + d.length ≤ 360 * 2 ^ 30) ∧
    (∀ a o, c = .hbmTransactionTimeout a o → a.toNat < 360 * 2 ^ 30) := by
  refine ⟨?_, ?_, ?_⟩ <;> intros <;> obtain rfl | rfl | rfl := h <;> simp_all <;> (obtain ⟨rfl, rfl, -⟩ := ‹_ ∧ _›; decide)

/-- The machine once the edge is there, and when its fourth class has run, as the statement of the tick names them. -/
def atEdge (s : State) (i : TickIn) : State :=
  let len := s.tick.next - s.tick.now
  (((s.latchInputs i).newEdge.occupy len).cntTick.supplyFalls).lanesTick len
def fourthClass (s : State) (i : TickIn) : State :=
  let len := s.tick.next - s.tick.now
  let x := (List.range 64).foldl State.finish (atEdge s i).applyWrites.swapsDue
  let c2 := (x.leashLatch i.estimate len).cadLatch.class1.commits1.class2.domainTick.commits2
  (c2.class3.sendPosition.class4).duskStop.duskDrain

theorem meets_TickAdvancesTheCountAndTakesTheClassesInOrder :
    State.reset.mod.power = .running ∧ (atEdge State.reset {}).mod.power = .running ∧ (fourthClass State.reset {}).mod.power = .running ∧
      (fourthClass State.reset {}).tick.count = (atEdge State.reset {}).tick.count := by decide +kernel

theorem meets_earlySample :
    bit (State.reset.allocLo 1) 22 = false ∧ bit ((withReg 0x3F008 0x400000).allocLo 1) 22 = true ∧
      (withReg 0x3F008 0x400000).mod.power = .running ∧ (withReg 0x3F008 0x400000).tick.now + 250 ≤ 250 ∧
      250 < (withReg 0x3F008 0x400000).tick.next ∧ State.reset.tick.next ≤ max State.reset.tick.next (State.reset.tick.now + 250) ∧
      249 < (withReg 0x3F008 0x400000).tick.now + 250 ∧
      (withReg 0x3F008 0x400000).tick.now + 250 < (withReg 0x3F008 0x400000).tick.next := by decide +kernel

theorem meets_RegistersStageAndRead :
    State.reset.mod.power = .running ∧ (0x40000#24).toNat % 4 = 0 ∧
      (regInfo State.reset.mod.grade 0x40000).map (·.group) = some (some 2) ∧
      latchesHigh 0x20000 = false ∧ latchesHigh (0x20000 - 4) = false ∧
      ¬(4 = 4 ∧ (2#24).toNat % 4 = 0) ∧ ¬(4 = 8 ∧ (2#24).toNat % 8 = 0) := by decide +kernel

/-- A request of the PF. -/
def asked (m : Word) (s : State) : State := { s with commits := { s.commits with pf := { s.commits.pf with request := m } } }

/-- G0 with a tick period below its least. -/
def badG0 : State := { asked 1 State.reset with regs := { State.reset.regs with staged := [(0x20000, 1)] } }

theorem meets_commitRefused :
    badG0.commits.pf.request ≠ 0 ∧ badG0.commits.pf.request.getLsbD 5 = false ∧ badG0.commits.pf.discard = 0 ∧
      (∀ f, (badG0.commits.vfSt f).request = 0 ∧ (badG0.commits.vfSt f).discard = 0) ∧
      (badG0.requestCheck (maskGroups badG0.commits.pf.request) 0).isSome = true :=
  ⟨by decide, by decide, by decide, fun _ => ⟨rfl, rfl⟩, by decide +kernel⟩

theorem meets_commitApplied :
    (asked 8 State.reset).commits.pf.request = 8 ∧ (∀ g, (asked 8 State.reset).commits.pf.request.getLsbD g = true → g < 10 ∧ g ≠ 5 ∧ g ≠ 6) ∧
      (asked 8 State.reset).commits.pf.discard = 0 ∧
      (∀ f, ((asked 8 State.reset).commits.vfSt f).request = 0 ∧ ((asked 8 State.reset).commits.vfSt f).discard = 0) ∧
      Table.rising none (asked 8 State.reset).regs.active = true ∧ Table.rising none (asked 8 State.reset).regs.staged = true ∧
      (asked 8 State.reset).requestCheck (maskGroups (asked 8 State.reset).commits.pf.request) 0 = none := by
  refine ⟨by decide, fun g h => ?_, by decide, fun _ => ⟨rfl, rfl⟩, by decide, by decide, by decide +kernel⟩
  have hg : g = 3 := by
    by_contra hne
    have hb : ∀ k : Fin 32, k.val ≠ 3 → (8#32).getLsbD k.val = false := by decide
    by_cases hl : g < 32
    · exact absurd h (by have := hb ⟨g, hl⟩ hne; simpa [asked] using this)
    · exact absurd h (by have := BitVec.getLsbD_of_ge (8#32) g (by omega); simpa [asked] using this)
  omega

/-- VF 1 asks for its own window. -/
def vfAsked : State := { State.reset with commits := State.reset.commits.setVf 1 { State.reset.commits.vfSt 1 with request := 2 } }

theorem meets_vfCommit :
    vfAsked.commits.pf.request = 0 ∧ vfAsked.commits.pf.discard = 0 ∧
      (∀ k, (vfAsked.commits.vfSt k).discard = 0 ∧ (k ≠ 1 → (vfAsked.commits.vfSt k).request = 0)) ∧
      (vfAsked.commits.vfSt 1).request ≠ 0 ∧ Table.rising none vfAsked.regs.active = true ∧
      Table.rising none vfAsked.regs.staged = true ∧ vfAsked.requestCheck [1] 1 = none := by
  refine ⟨by decide, by decide, fun k => ?_, by decide, by decide, by decide, by decide +kernel⟩
  by_cases hk : k = 1
  · subst hk; exact ⟨by decide, fun h => absurd rfl h⟩
  · have : vfAsked.commits.vfSt k = {} := by
      simp only [vfAsked, Commits.vfSt, Commits.setVf]
      rw [Table.get_put_other _ _ _ _ _ hk]; rfl
    rw [this]; exact ⟨rfl, fun _ => rfl⟩

/-! ## Hypotheses that are met: cadence and cues -/

/-- After reset, with a cadence source and unit. -/
def sourced (n : Nat) (c : CadSt) : State := { withReg 0x20100 (BitVec.ofNat 32 n) with cad := c }

theorem meets_EncoderAndCycleInputsCount :
    (sourced 1 { track := { encCount := 1000, lockCount := 1 }, state := .acquire }).cadSource = 1 ∧
      ((sourced 1 {}).cad.runs = true ∧ (false != (sourced 1 {}).encDir) = false) ∧
      (let s := (sourced 1 { track := { encCount := 1125, lockCount := 1 }, state := .acquire }).setReg 0x20104 1000
       s.cadSource = 1 ∧ s.cad.state = .acquire ∧ s.cad.zeroSeed = false ∧ s.cad.track.lockCount ≠ 0 ∧
         (s.cad.track.encCount - s.encCpr).natAbs * 8 ≤ s.encCpr) ∧
      (let s := sourced 0x12 {}
       s.cadSource = 2 ∧ s.cycEdge = false ∧ s.cad.runs = true ∧ s.cad.track.edges ≠ s.cycDiv) ∧
      (let s := sourced 0x12 { track := { edges := 1 } }
       s.cadSource = 2 ∧ s.cad.runs = true ∧ s.cad.track.edges = s.cycDiv) ∧
      (let s := sourced 0x12 { state := .acquire }
       s.cadSource = 2 ∧ s.cad.state = .acquire ∧ s.cad.track.lockCount = 0) := by decide +kernel

/-- A unit that follows an encoder, with a known period. -/
def following (st : CadState) (now : Nat) (b f : Bool) : State :=
  let s := sourced 1 { state := st, backSeen := b, fwdSeen := f, pos := 5, track := { period := 800, coastAt := 100 } }
  { s with tick := { s.tick with now := now } }

theorem meets_CadenceCoastsAndFaults :
    ((following .locked 900 false false).cad.state = .locked ∧ (following .locked 900 false false).cadSource ≠ 4 ∧
        (following .locked 900 false false).expectedPeriod ≠ 0 ∧ 9 * (following .locked 900 false false).expectedPeriod ≤
          8 * ((following .locked 900 false false).tick.now - (following .locked 900 false false).cad.track.lastAt)) ∧
      8 * ((following .locked 899 false false).tick.now - (following .locked 899 false false).cad.track.lastAt) <
        9 * (following .locked 899 false false).expectedPeriod ∧
      (let s := following .coasting 13000 false false
       s.cad.state = .coasting ∧ s.coastLimit * s.expectedPeriod ≤ s.tick.now - s.cad.track.coastAt) ∧
      ((following .locked 0 true false).cad.runs = true ∧ (following .locked 0 true false).cad.backSeen = true) ∧
      ((following .coasting 0 false true).cad.runs = true ∧ (following .coasting 0 false true).cad.fwdSeen = true) ∧
      (following .fault 0 false false).cad.state = .fault := by decide +kernel

/-- A position frame: its type, SEQ and CRC. -/
def frameBits (seq kind : Byte) : BitVec 96 :=
  let b : BitVec 80 := (seq ++ 0x000000#24 ++ 0x0000000002#40 ++ kind : BitVec 80)
  timecodeCrc b ++ b

theorem meets_TimecodeAndProbesSetThePosition :
    (sourced 0 {}).cadSource = 0 ∧ timecodeCrc ((frameBits 5 1 + 1).extractLsb' 0 80) ≠ (frameBits 5 1 + 1).extractLsb' 80 16 ∧
      (let s := sourced 0 { pos := 2 * oneCycle, track := { seq := some 4, lastPos := 2 * oneCycle } }
       let b := frameBits 5 1
       s.cadSource = 0 ∧ timecodeCrc (b.extractLsb' 0 80) = b.extractLsb' 80 16 ∧ b.extractLsb' 0 4 = 1 ∧
         s.cad.track.seq = some 4 ∧ b.extractLsb' 72 8 = 4 + 1 ∧ s.cad.state = .locked ∧ s.cad.reseeded = false ∧
         s.cad.backSeen = false ∧ s.cad.fwdSeen = false ∧ s.cad.track.lastPos ≤ framePos b - s.cad.base ∧
         framePos b - s.cad.base ≤ s.cad.pos + s.jumpLimit) ∧
      (let b := frameBits 5 2
       timecodeCrc (b.extractLsb' 0 80) = b.extractLsb' 80 16 ∧ b.extractLsb' 0 4 ≠ 1) ∧
      (let s := sourced 0 { track := { seq := some 3 } }
       s.cadSource = 0 ∧ s.cad.track.seq = some 3 ∧ (frameBits 5 1).extractLsb' 72 8 ≠ (3 : Byte) + 1 ∧ s.cad.runs = true) ∧
      (let s := (sourced 3 {}).setReg 0xF0000 0x4007
       s.cadSource = 3 ∧ s.devid.isSome = true ∧ s.devid ≠ some (s.regN 0x20114) ∧ s.muzzle.module.active = false) ∧
      (let s := ((sourced 4 {}).setReg 0xF0000 0x4007).setReg 0xF000C 1
       s.cad.track.probeAt ≠ some 10 ∧ bit (s.regN 0xF000C) 0 = true ∧ s.devid.isSome = true ∧ s.muzzle.module.active = false) ∧
      (sourced 3 { track := { probeAt := some 10 } }).cad.track.probeAt = some 10 := by decide +kernel

/-- A descriptor with a hard deadline. -/
def hardDesc (ph : DPhase) : Desc := { theDesc with phase := ph, f := { cls := 1, flags := 2, start := 0, deadline := 9 } }

/-- It is there, at a cadence position. -/
def atPos (ph : DPhase) (pos : Nat) : State :=
  { ran with shep := { ran.shep with descs := [hardDesc ph] }, cad := { ran.cad with pos := pos } }

theorem meets_hardDeadline :
    (∀ ph ∈ [DPhase.running, .finished, .arrived, .waiting, .parked], (atPos ph 9).desc? 1 = some (hardDesc ph) ∧ (atPos ph 9).cad.runs = true ∧
      (hardDesc ph).timed = true ∧ (hardDesc ph).hard = true ∧ (hardDesc ph).f.deadline ≤ (atPos ph 9).cad.pos) ∧
    (atPos .running 8).cad.pos < (hardDesc .running).f.deadline := by decide +kernel

/-- An action of Pack 0 on cue 3. -/
def cueAct (ret : Option (Nat × Bool)) : CueAction := ⟨0, 0, 1, 0, ⟨5, 3, true, false, 2⟩, true, ret⟩

def cued (ret : Option (Nat × Bool)) : State :=
  { (ran.setReg 0x2020C 0x80) with cad := { pos := 5 }, cue := { actions := [cueAct ret] } }

theorem meets_cueAction : ∀ r ∈ [none, some (0, false)],
    firstCue ((cued r).cuesDue 3) = some (cueAct r) ∧ (cued r).cueEnabled 3 = true ∧ (cued r).packMuzzled (cueAct r).pack = false ∧
      (cueAct r).ret = r := by decide +kernel


/-! ## Hypotheses that are met: rings, descriptors, records -/

/-- The 64 bytes of an untimed descriptor of Pack 0 of a class; the classes that need a class word name a block at
device address 0, and CADENCE_SET, FENCE and CANCEL name no Pack. -/
def slotBytes (c : Byte) : List Byte :=
  leBytes 64 (c.toNat + 2 * 2 ^ 8 + (if [2, 4, 5, 6].contains c then 2 ^ 32 else 0) + (2 ^ 64 - 1) * 2 ^ 320)

/-- A read of ring 0 of the PF has come, and device address 0 is HBM. -/
def arrivals (b : List Byte) : State :=
  let s := { packed with paging := { packed.paging with tables := [(0, { small := [(0, 9)] })] } }
  (s.hostWrite 0x10000 b).modRing 0 0 fun k => { k with reads := [⟨5, 0, 0, 3, 0x10000⟩] }

theorem meets_DescriptorsAreCheckedBeforeTheyWait : ∀ p ∈ classCommands 0 0,
    let s := arrivals (slotBytes p.2)
    let b := slotBytes p.2
    let s1 := s.modRing 0 0 fun k => { k with reads := [] }
    let d := broughtBy 0 0 ⟨5, 0, 0, 3, 0x10000⟩ b
    let blk : List Byte := if d.f.paramSize = 0 then [] else List.replicate 16 0
    let u := if d.f.paramSize = 0 then s1 else (s1.readVa d d.f.param.toNat 16).2
    (s.ring 0 0).reads = [⟨5, 0, 0, 3, 0x10000⟩] ∧ s.hostRead 0x10000 64 = some b ∧ (fieldsOf b).version = 2 ∧
      (fieldsOf b).cls = p.2 ∧ s1.checkHead d = none ∧
      (d.f.paramSize = 0 ∨ (d.f.paramSize = 1 ∧ s1.spanRemote 0 d.f.param.toNat 16 = false ∧
        (s1.readVa d d.f.param.toNat 16).1 = .bytes blk)) ∧
      u.checkBlock { d with classWord := 0, cues := [] } blk = none ∧
      u.admitStatus { d with classWord := 0, cues := [] } = none := by decide +kernel

theorem meets_remoteBlock : ∀ p ∈ classCommands 0 0,
    let s : State := { arrivals (slotBytes p.2) with paging := { packed.paging with tables := [(0, { small := [(0, 0xA)] })] } }
    let d := broughtBy 0 0 ⟨5, 0, 0, 3, 0x10000⟩ (slotBytes p.2)
    s.hostRead 0x10000 64 = some (slotBytes p.2) ∧ s.checkHead d = none ∧ (d.f.paramSize = 0 ∨ s.spanRemote 0 d.f.param.toNat 16 = true) := by
  decide +kernel

theorem meets_rejected :
    (arrivals (slotBytes 9)).hostRead 0x10000 64 = some (slotBytes 9) ∧ 8 < (fieldsOf (slotBytes 9)).cls.toNat ∧
      (fieldsOf (slotBytes 0)).cls = 0 ∧
      (∀ p ∈ classCommands 0 0, ((arrivals (slotBytes p.2)).setReg 0x40000 0).hostRead 0x10000 64 = some (slotBytes p.2)) ∧
      (∀ p ∈ classCommands 0 0, let b := leBytes 64 (leNat (slotBytes p.2) + 2 ^ 31)
        (fieldsOf b).version = 2 ∧ (fieldsOf b).cls = p.2 ∧
        (State.reset).checkHead (broughtBy 0 0 ⟨5, 0, 0, 3, 0x10000⟩ b) = some 0x50) := by decide +kernel

/-- A descriptor whose block in a host page is being read. -/
def readingDesc : Desc := { theDesc with phase := .reading, undispatched := true, f := { cls := 1, paramSize := 1, deadline := noDeadline } }
def reading : State :=
  { packed with
    paging := { packed.paging with tables := [(0, { small := [(0, 0xA)] })] }, shep := { packed.shep with descs := [readingDesc] } }

/-- Its block lies in a page of device 9, which has not answered. -/
def farReading : State :=
  { reading with
    paging := { reading.paging with tables := [(0, { small := [(0, 0xB + 9 * 2 ^ 48)] })] }
    links := { reading.links with fabric := { reading.links.fabric with active := { reading.links.fabric.active with flows := [(0, 0x40009)] } } } }

theorem meets_paramBlockRead :
    reading.desc? 1 = some readingDesc ∧ readingDesc.phase = .reading ∧
      (reading.readVa readingDesc 0 16).1 = .bytes (List.replicate 16 0) ∧
      (reading.readVa readingDesc 0 16).2.checkBlock { readingDesc with classWord := 0, cues := [] } (List.replicate 16 0) = none ∧
      (reading.readVa readingDesc 0 16).2.admitStatus { readingDesc with classWord := 0, cues := [] } = none ∧
      (farReading.desc? 1 = some readingDesc ∧ (farReading.readVa readingDesc 0 16).1 = .waits) := by decide +kernel

/-- Descriptors that wait for Pack 0, after a tick. -/
def waitingAt (l : List Desc) : State := { packed with shep := { packed.shep with descs := l }, tick := { packed.tick with count := 1 } }
def waitingDesc (c : Byte) (ring : RingIx) : Desc := { theDesc with ring := ring, phase := .waiting, undispatched := true, f := { cls := c, deadline := noDeadline } }

theorem meets_DispatchStartsTheLowestRingsDescriptor : ∀ c ∈ [1, 2], let d := waitingDesc c 0
    let s := waitingAt [{ waitingDesc 4 7 with id := 2 }, d]
    s.packFree 0 = true ∧ s.pick 0 = some d ∧ (s.pack 0).lost = false ∧ d.f.cls = c := by decide +kernel

/-- A LOOP between iterations, with a completion ring of two entries of which `n` are taken. -/
def parkedAt (n : Nat) : State :=
  let d : Desc := { theDesc with phase := .parked, f := { cls := 4 } }
  ({ ran with shep := { ran.shep with descs := [d] } }.setReg 0x30030 3).modRing 0 0 fun k => { k with reserved := n }

theorem meets_loopResume : ∀ n ∈ [1, 2], let s := parkedAt n
    (s.running 0).isSome = true ∧ (s.running 0).map Desc.phase = some .parked ∧ s.quiescent 0 = true ∧ s.packMuzzled 0 = false ∧
      (s.claimSlot 0 0).1 = decide (n = 1) ∧ (s.pack 0).lost = false ∧
      ((s.modPack 0 fun k => { k with lost := true }).pack 0).lost = true := by decide +kernel

theorem meets_wholeReplay : let s := ran.modPack 0 fun k => { k with replaying := some t00, spared := true }
    s.running 0 = some theDesc ∧ (s.pack 0).replaying = some t00 ∧ theDesc.phase = .running ∧ (s.pack 0).spared = true ∧
      s.sparing t00 = false ∧ s.packMigrating 0 = false ∧ (s.pack 0).lost = false ∧
      ((s.modPack 0 fun k => { k with lost := true }).pack 0).lost = true := by decide +kernel

/-- The descriptor in another phase. -/
def inPhase (ph : DPhase) : State := { ran with shep := { ran.shep with descs := [{ theDesc with phase := ph }] } }

theorem meets_CompletionsAreRecorded :
    (ran.running 0 = some theDesc ∧ theDesc.phase = .running ∧ ran.programDone theDesc = true ∧ theDesc.f.tag = 0) ∧
      ((prog .ve [.halt]).running 0 = some theDesc ∧ (prog .ve [.halt]).programDone theDesc = false) ∧
      ((inPhase .ending).desc? 1 = some { theDesc with phase := .ending } ∧ (inPhase .ending).retired 0 1 = true) ∧
      (let s : State := { ran with tiles := { ran.tiles with signals := [⟨t00, 0, 1, some 0⟩] } }
       s.desc? 1 = some theDesc ∧ s.retired 0 1 = false) := by decide +kernel

/-- A FENCE alone. -/
def fenced : State := { State.reset with shep := { State.reset.shep with descs := [waitingDesc 3 0] } }

theorem meets_RecordsThenHeadsThenMessages :
    (inPhase .ended).desc? 1 = some { theDesc with phase := .ended } ∧
      (fenced.shep.descs = [waitingDesc 3 0] ∧ (waitingDesc 3 0).f.cls = 3 ∧ (waitingDesc 3 0).phase = .waiting ∧
        (fenced.ring 0 0).reads = []) := by decide +kernel

/-- A ring of the PF with a record that waits for its message since tick 0, at tick 2, vector 0 of one. -/
def moderated (masked : Bool) : State :=
  let s := (((withReg 0x30034 0x20000).setReg 0x3F004 0x800).setReg 0xF0000C (if masked then 1 else 0)).modRing 0 0 fun k => { k with pend := 1 }
  { s with tick := { s.tick with count := 2 } }

theorem meets_moderated :
    (∀ m, bits ((moderated m).ringRegN 0 0 0x34) 16 16 = 2 ∧ ((moderated m).ring 0 0).pend ≠ 0 ∧
      2 ≤ (moderated m).tick.count - ((moderated m).ring 0 0).pendAt ∧ bits ((moderated m).ringRegN 0 0 0x30) 7 11 = 0 ∧
      0 < (moderated m).vecCount 0 ∧ (moderated m).host.msix.contains (0, 0) = false ∧
      ((moderated m).reg 0xF0000C).getLsbD 0 = m) ∧
    ((((moderated true).modFn 0 fun x => { x with msixPending := [0] }).fn 0).msixPending.contains 0 = true) := by decide +kernel

/-- A ring pair of the PF, enabled, with a read under way. -/
def ringed : State := ((withReg 0x3F000 0x1000).setReg 0x30018 1).modRing 0 0 fun k => { k with reads := [⟨5, 0, 0, 3, 0x10000⟩] }

theorem meets_RingsStopOnErrorAndClearOnReset :
    (ringed.ring 0 0).reads = ⟨5, 0, 0, 3, 0x10000⟩ :: [] ∧ (ringed.enabledRings 0).contains 0 = true ∧
      (ringed.ring 0 0).stopped = false ∧ ringed.enabledRings 0 ≠ [] ∧ (63 : Fn).val ≠ 0 := by decide +kernel

/-! ## Hypotheses that are met: the Muzzle and the Kennel -/

/-- The module is Muzzled, its cause cleared or not. -/
def muzzled (clear : Bool) : State :=
  { State.reset with muzzle := { module := { active := true, cause := 1, seen := [1], causeClear := clear } } }

def withTriggers (l : List Trigger) (r : List (Scope × Fn)) (s : State) : State :=
  { s with muzzle := { s.muzzle with triggers := l, releases := r } }

theorem meets_muzzleRequests :
    (mzScopeOf 2 31 = some (.region 31) ∧ State.reset.mayMuzzle 1 (.region 31) = false ∧ State.reset.mayMuzzle 0 (.region 31) = true) ∧
      (mzScopeOf 0 0 = some .module ∧ ((muzzled false).mzOf .module).causeClear = false ∧ (muzzled false).mayMuzzle 0 .module = true ∧
        (muzzled true).mayRelease .module = true) ∧ mzScopeOf 1 63 = some (.pack 63) := by decide +kernel

theorem meets_muzzleAtTheTick :
    (let s := withTriggers [⟨.module, 7⟩] [] ran
     s.muzzle.triggers = [⟨.module, 7⟩] ∧ s.muzzle.module.active = false ∧ s.muzzle.releases = [] ∧ s.desc? 1 = some theDesc ∧
       theDesc.phase = .running) ∧
    (∀ l ∈ [[], [(⟨.pack 0, 1⟩ : Trigger)]], let s := withTriggers l [(.module, 0)] (muzzled true)
     s.muzzle.releases = [(.module, 0)] ∧ ∀ x ∈ s.muzzle.triggers, x.scope ≠ .module) ∧
    (∃ x ∈ (withTriggers [⟨.module, 7⟩] [(.module, 0)] (muzzled true)).muzzle.triggers, x.scope = .module) ∧
    (muzzled false).muzzle.module.active = true ∧ (muzzled false).muzzle.module.seen.contains 1 = true ∧
      (muzzled false).muzzle.module.met.contains 1 = false := by decide +kernel

/-- A move of tile 0 from its site to the spare of its half. -/
def theMove (st : Bool) (why : MoveWhy) : Move := { tile := t00, from_ := siteOfIx 0, to_ := siteOfIx 512, why := why, started := st }
def moving (st : Bool) (why : MoveWhy) : State := { State.reset with kennel := { State.reset.kennel with moves := [theMove st why] } }

theorem meets_MigrationMovesTheTile :
    ∀ st ∈ [false, true], let s := moving st .repair
      s.packOf t00 = none ∧ s.kennel.moves = [theMove st .repair] ∧ (theMove st .repair).from_.ix ≠ (theMove st .repair).to_.ix ∧
        (theMove st .repair).started = st ∧ s.paging.asleep.contains (SiteId.domain (theMove st .repair).to_) = false := by decide +kernel

/-- Three corrected errors of one row in the day. -/
def worn : State := State.reset.modSite 0 fun x => { x with corrected := List.replicate 3 (TileMem.store, 5, 0) }

/-- A site in a state. -/
def siteAs (st : SiteState) (n : Nat) : State := State.reset.modSite 0 fun x => { x with st := st, passed := n, faults := 2 }

theorem meets_rowSpare : worn.packOf t00 = none ∧ worn.rowDue (worn.siteOf t00).ix .store 5 = true ∧
    ((worn.site (worn.siteOf t00).ix).spareRows.filter fun e => e.1 == .store && e.2.1 == rowBank .store 5).length <
      spareRowsOf .store := by decide +kernel

theorem meets_noSuspect (st : SiteState) (n i : Nat) (h : st ≠ .suspect) : ((siteAs st n).site i).st ≠ .suspect := by
  simp only [siteAs, State.modSite, State.setSite, State.site]
  by_cases hi : i = 0
  · subst hi; simpa [Table.get_put_same] using h
  · rw [Table.get_put_other _ _ _ _ _ hi]
    simp only [State.reset, Table.get, dawnSite]
    by_cases hf : siteFused .a (i / 32) = true
    · simp [hf]
    · by_cases hr : i / 32 % 18 < Grade.halfRows .a <;> simp [hf, hr]

theorem meets_selfTest :
    ((siteAs .testing 0).site (siteOfIx 0).ix).st = .testing ∧
      (((siteAs .quarantine 2).site (siteOfIx 0).ix).st = .quarantine ∧ ((siteAs .quarantine 2).site (siteOfIx 0).ix).passed = 2 ∧
        ((siteAs .quarantine 2).site (siteOfIx 0).ix).faults < 3) ∧
      ((siteAs .quarantine 1).site (siteOfIx 0).ix).passed < 2 := by decide +kernel

def commanded (re : Bool) (s : State) : State := { s with kennel := { s.kennel with cmds := [(siteOfIx 0, re)] } }

theorem meets_KennelCommandsAndRotationMoveTheirTiles :
    (let s := commanded false State.reset
     s.kennel.cmds = [(siteOfIx 0, false)] ∧ s.kennel.moves = [] ∧ (s.site (siteOfIx 0).ix).st = .inService ∧
       s.spareOf (halfSites ((siteOfIx 0).ix % 32) ((siteOfIx 0).ix / 32 / 18)) = some 512) ∧
    (commanded true (siteAs .retired 0)).kennel.cmds = [(siteOfIx 0, true)] ∧
    ((commanded true (siteAs .retired 0)).site (siteOfIx 0).ix).st = .retired ∧
    ((commanded true State.reset).site (siteOfIx 0).ix).st ≠ .retired ∧
    State.reset.kennel.moves = [] ∧ State.reset.oldestSite (halfSites 0 0) = some 0 ∧ State.reset.spareOf (halfSites 0 0) = some 512 ∧
    State.reset.spareOf [0] = none ∧ (withReg 0x40800 0).rotEnabled = false ∧ (withReg 0x40800 0x10000).rotEnabled = true := by
  decide +kernel


/-! ## Hypotheses that are met: tile instructions. Every clause of these statements has `issuesTo`, which the witnesses
meet with `issues_of_check`; what else a clause asks is beside it. -/

/-- The first word of a stream issues on tile 0. -/
def goes (e : Engine) (l : List TileWord) : Bool :=
  match l with
  | i :: _ => issuesCheck (prog e l) t00 e i
  | [] => false

theorem issues_of_goes {e : Engine} {i : TileWord} {l : List TileWord} (h : goes e (i :: l) = true) :
    issuesTo (prog e (i :: l)) t00 e i (issuing (prog e (i :: l)) t00 e) (fetched (prog e (i :: l)) t00 e) := issues_of_check h

theorem quiet_of_check {t : TileSt} (h : (engines.all fun e => (t.engine e).hold == .none) = true) (hc : t.ctxs = []) : quiet t := by
  refine ⟨fun e a b k x => ?_, hc⟩
  have he : e ∈ engines := by cases e <;> decide
  have := List.all_eq_true.mp h e he
  simp only [beq_iff_eq] at this
  simp [this]

theorem meets_ControlInstructions :
    goes .ve [.nop 3] = true ∧ goes .ri [.halt] = true ∧ goes .mx [.jmp 0] = true ∧ goes .sp [.brc 1 2 0 0] = true ∧
      goes .ro [.loop 2 1, .halt] = true ∧ (0 : BitVec 24).toNat < ((prog .mx [.jmp 0]).tile 0).mx.len ∧
      (let g := ((fetched (prog .ro [.loop 2 1, .halt]) t00 .ro).tile 0).ro
       g.pc < (1 : BitVec 24).toNat ∧ (1 : BitVec 24).toNat < g.len ∧ (issuing (prog .ro [.loop 2 1, .halt]) t00 .ro).pc = g.pc ∧
         g.loops = []) ∧
      (({ ({} : EngineSt) with len := 1, queue := [5] } : EngineSt).queued = some 5) ∧
      ((prog .ve []).issuer t00 .ve).isSome = true ∧ ((prog .ve []).tile 0).ve.len ≤ ((prog .ve []).tile 0).ve.pc := by decide +kernel

/-- A stream of one word of no instruction. -/
def progWord (w : QWord) : State := (prog .ve [.halt]).hostWrite 0 (leBytes 16 w.toNat)

theorem meets_IllegalInstructions :
    goes .ve [.jmp 1] = true ∧ ((fetched (prog .ve [.jmp 1]) t00 .ve).tile 0).ve.len ≤ (1 : BitVec 24).toNat ∧
      goes .ve [.brc 0 0 0 1] = true ∧
      (let s := progWord 0xFF
       s.issuer t00 .ve = some ((issuing s t00 .ve).p, (issuing s t00 .ve).d) ∧ (issuing s t00 .ve).pc < (s.tile 0).ve.len ∧
         (s.fetchWord (issuing s t00 .ve).d 0 .ve).1 = .word (issuing s t00 .ve).word ∧
         TileWord.fields (issuing s t00 .ve).word = none) := by decide +kernel

/-- Outbound flow 0 of the PF, to device 9. -/
def withFlow (s : State) : State :=
  { s with links := { s.links with fabric := { s.links.fabric with active := { s.links.fabric.active with flows := [(0, 0x40009)] } } } }

theorem meets_Sig : goes .ve [.sig 1 3] = true ∧
    (engines.all fun e => (((fetched (prog .ve [.sig 1 3]) t00 .ve).tile 0).engine e).hold == .none) = true ∧
    ((fetched (prog .ve [.sig 1 3]) t00 .ve).tile 0).ctxs = [] ∧
    ((fetched (prog .ve [.sig 1 3]) t00 .ve).tile 0).sem 1 + 3 < 65536 := by decide +kernel

theorem meets_Sigx :
    goes .ve [.sigx 1 false 2 1 1 0] = true ∧ 1 < ((prog .ve []).shape 0).width ∧ 1 < ((prog .ve []).shape 0).height ∧
      goes .ve [.sigx 1 false 2 2 0 0] = true ∧ ((prog .ve []).shape 0).width ≤ 2 ∧
      (let s := withFlow (prog .ve [.sigx 1 true 2 1 1 0])
       issuesCheck s t00 .ve (.sigx 1 true 2 1 1 0) = true ∧ (fetched s t00 .ve).mayUse theDesc 0 = true) := by decide +kernel

theorem meets_SignalArrival :
    let s : State := { ran with tiles := { ran.tiles with signals := [⟨t10, 2, 1, some 0⟩, ⟨t00, 63, 5, none⟩] } }
    s.tiles.signals = [⟨t10, 2, 1, some 0⟩] ++ ⟨t00, 63, 5, none⟩ :: [] ∧ (∀ x ∈ [(⟨t10, 2, 1, some 0⟩ : SignalSt)], x.target ≠ t00) ∧
      (engines.all fun e => ((s.tile 0).engine e).hold == .none) = true ∧ (s.tile 0).ctxs = [] ∧ s.away t00 = false ∧
      (({ s with paging := { s.paging with asleep := [SiteId.domain (s.siteOf t00)] } } : State).away t00 = true) := by decide +kernel

/-- A barrier of Pack 0 at which all but the VE of tile 0 have arrived. -/
def almost (s : State) : State :=
  s.modPack 0 fun k => { k with barriers := [⟨1, 2, [(t10, .ve), (⟨0, 1⟩, .ve), (⟨1, 1⟩, .ve)]⟩] }

theorem meets_WaitsAndBarriersHoldTheirEngine :
    goes .ve [.wait 1 true true 0 9] = true ∧ goes .ve [.wait 1 true false 1 0] = true ∧ goes .ve [.wait 1 true false 1 9] = true ∧
      ((fetched (prog .ve [.wait 1 true false 1 0]) t00 .ve).tile 0).sem 1 < 1 ∧
      goes .ve [.barrier 1 0] = true ∧ goes .ve [.barrier 1 2] = true ∧ ((fetched (prog .ve [.barrier 1 2]) t00 .ve).pack 0).barriers = [] ∧
      barrierFull ((fetched (prog .ve [.barrier 1 2]) t00 .ve).shape 0).tiles ⟨1, 2, [(t00, .ve)]⟩ = false ∧
      (∀ m ∈ [(2 : BitVec 5), 4], let s := almost (prog .ve [.barrier 1 m])
        issuesCheck s t00 .ve (.barrier 1 m) = true ∧ ((fetched s t00 .ve).pack 0).barriers.find? (fun b => b.num == 1) =
          some ⟨1, 2, [(t10, .ve), (⟨0, 1⟩, .ve), (⟨1, 1⟩, .ve)]⟩) ∧
      [(t10, Engine.ve), (⟨0, 1⟩, .ve), (⟨1, 1⟩, .ve), (t00, .ve)].Nodup ∧
      barrierFull (packed.shape 0).tiles ⟨1, 2, [(t10, .ve), (⟨0, 1⟩, .ve), (⟨1, 1⟩, .ve), (t00, .ve)]⟩ = true := by decide +kernel

/-- The VE of tile 0 waits, timed or not, since tick 0. -/
def waitingVe (timed : Option (Nat × Nat)) (now : Nat) : State :=
  let s := (prog .ve [.wait 1 true false 1 0]).modEngine 0 .ve fun g => { g with hold := .wait 1 1 true timed }
  { s with tick := { s.tick with count := now } }

theorem meets_RetirementTimeoutAndDeadlock :
    (let s := ran.modTile 0 fun t => { t with flights := [⟨.mx, 0, 0, [], [], none⟩, ⟨.ve, 0, 0, [], [], none⟩] }
     (ran.modPack 0 fun k => { k with misses := [⟨t00, 0, 0, 0, 0, 0, 0, 0, 0, []⟩] }).mayRetire t00 .mx = false ∧ s.mayRetire t00 .ve = true ∧ (s.tile 0).flights = [⟨.mx, 0, 0, [], [], none⟩] ++ ⟨.ve, 0, 0, [], [], none⟩ :: [] ∧
       (engines.all fun e => ((s.tile 0).engine e).hold == .none) = true ∧ (s.tile 0).ctxs = []) ∧
    (let s := waitingVe (some (0, 4)) 5
     s.packOf t00 = some 0 ∧ s.running 0 = some theDesc ∧ theDesc.phase = .running ∧
       ((s.tile 0).engine .ve).hold = .wait 1 1 true (some (0, 4)) ∧ 0 + 4 + 1 ≤ s.tick.count ∧ s.reg64 (0x4C100 + 8 * 0) = 0) ∧
    (waitingVe (some (0, 4)) 4).tick.count < 0 + 4 + 1 ∧
    (let s := (waitingVe none 1000000).modPack 0 fun k => { k with deadSince := some 0 }
     s.running 0 = some theDesc ∧ s.deadTest 0 theDesc = true ∧ (s.mzPack 0).active = false ∧ (s.pack 0).deadSince = some 0 ∧
       0 + s.regN 0x4C000 ≤ s.tick.count) ∧
    ran.deadTest 0 theDesc = false := by decide +kernel

/-! The matrix, vector and DSP engines -/

/-- Whether nothing pending blocks what an instruction reads and writes. -/
def free (s : State) (e : Engine) (r w : List Nat) : Bool := ((fetched s t00 e).tile 0).blocked none r w == none

def anLoad : MxLoad := ⟨0, 2, 3, 0, 64, false⟩
def aRun (acc : Bool) : MxRun := ⟨64, 1, 3, 1, 1, acc, 0, 0, 0, false, 0⟩
def aDrain (fmt : BitVec 4) (stride : BitVec 14) : MxDrain := ⟨128, stride, fmt, 2, 1, 0, 0, 0, 0, 0, 0, false, 0⟩

theorem meets_Mxload : goes .mx [.mxload anLoad] = true ∧ loadFieldsOk anLoad = true ∧ operandsOk [anLoad.opnd] [] = true ∧
    ((fetched (prog .mx [.mxload anLoad]) t00 .mx).tile 0).loading = false ∧ free (prog .mx [.mxload anLoad]) .mx (resOf [anLoad.opnd]) [] = true ∧
    goes .mx [.mxswap] = true ∧ ((fetched (prog .mx [.mxswap]) t00 .mx).tile 0).loading = false := by decide +kernel

/-- Tile 0 of `prog`, with a matrix set in force and a slot that counts `k` rows. -/
def arrayed (l : List TileWord) (k : Nat) (d : Desc) : State :=
  let s := { prog .mx l with shep := { (prog .mx l).shep with descs := [d] } }
  s.modTile 0 fun t => { t with arr := { t.arr with
    active := { loaded := true, fmt := 3, krows := 64, backed := true, load := TileWord.encode (.mxload anLoad) }
    s1 := { kind := .exact, krows := k } } }

theorem meets_MxrunDeliversItsProductRows : ∀ acc, let f := aRun acc
    let s := arrayed [.mxrun f] 0 theDesc
    let x := (fetched s t00 .mx).tile 0
    issuesCheck s t00 .mx (.mxrun f) = true ∧ runFieldsOk f = true ∧ f.proEn = false ∧ f.fe = false ∧
      pairOk f.fmt.toNat f.mode.toNat x.arr.active = true ∧ (x.arr.slot 1).kind = .exact ∧
      operandsOk (x.runOpnds f none).1 [] = true ∧
      (if f.acc then (x.arr.slot 1).krows else 0) + x.arr.active.running.grow f.fmt.toNat ≤ 2 ^ 24 ∧
      free s .mx (dedup (resOf (x.runOpnds f none).1)) [resAcc 1] = true ∧
      ((fetched s t00 .mx).mxPlan 0 f).parts.length = 1 := by decide +kernel

def farRun : MxRun := { aRun false with src := 0x3FFF, rstride := 0x3FFF, m := 64 }
def feRun : MxRun := { aRun false with fmt := 1 }
def exactDesc : Desc := { theDesc with f := { theDesc.f with flags := 8 } }
def feState : State := (arrayed [.mxrun feRun] 0 exactDesc).modTile 0 fun t => { t with arr := { t.arr with active := {} } }
def fullState : State := arrayed [.mxrun (aRun true)] 16777216 theDesc

theorem meets_MxrunReserved :
    goes .mx [.mxrun { aRun false with pass := 1 }] = true ∧ runFieldsOk { aRun false with pass := 1 } = false := by decide +kernel

theorem meets_MxrunPair :
    issuesCheck (arrayed [.mxrun { aRun false with fmt := 6 }] 0 theDesc) t00 .mx (.mxrun { aRun false with fmt := 6 }) = true ∧
      pairOk 6 0 ((arrayed [.mxrun { aRun false with fmt := 6 }] 0 theDesc).tile 0).arr.active = false := by decide +kernel

theorem meets_MxrunAddress :
    issuesCheck (arrayed [.mxrun farRun] 0 theDesc) t00 .mx (.mxrun farRun) = true ∧ runFieldsOk farRun = true ∧
      operandsOk (((fetched (arrayed [.mxrun farRun] 0 theDesc) t00 .mx).tile 0).runOpnds farRun none).1 [] = false := by decide +kernel

theorem meets_MxrunKBound :
    issuesCheck fullState t00 .mx (.mxrun (aRun true)) = true ∧ (((fetched fullState t00 .mx).tile 0).arr.slot 1).krows = 16777216 ∧
      ((fetched fullState t00 .mx).tile 0).arr.active.running.grow 3 ≠ 0 :=
  ⟨by decide +kernel, by decide +kernel, by decide +kernel⟩

theorem meets_MxrunExact :
    issuesCheck feState t00 .mx (.mxrun feRun) = true ∧ runFieldsOk feRun = true ∧ feRun.fe = true ∧ exactDesc.exact = true ∧
      pairOk feRun.fmt.toNat feRun.mode.toNat ((fetched feState t00 .mx).tile 0).arr.active = true ∧
      operandsOk (((fetched feState t00 .mx).tile 0).runOpnds feRun none).1 [] = true ∧
      free feState .mx (dedup (resOf (((fetched feState t00 .mx).tile 0).runOpnds feRun none).1)) [resAcc 1] = true := by decide +kernel

/-- What the statement of MXDRAIN asks of a form. -/
def drains (f : MxDrain) : Bool :=
  goes .mx [.mxdrain f] && drainFieldsOk f && !f.epiEn && operandsOk (f.opnds none).1 (f.opnds none).2 &&
    free (prog .mx [.mxdrain f]) .mx (dedup (resAcc 1 :: resOf (f.opnds none).1)) (dedup (resOf (f.opnds none).2)) &&
    decide (f.rowBytes ≤ f.dstride.toNat * 64)

theorem meets_MxdrainWritesItsRows : drains (aDrain 0 4) = true ∧ drains (aDrain 8 16) = true := by decide +kernel

def anElem (op : ElemOp) : Elem :=
  ⟨64, 0, if op.two then 1 else 0, if op == .vfma then 2 else 0, 1, 0, 0, 0, 3, 0, 0, false, false, 0⟩

theorem meets_ElementwiseInstructionsRoundOnce : ∀ p ∈ elemCommands t00 .ve, let f := anElem p.2
    let srcs := elemOpnd f.src1 f.fmt1 3 false ::
      ((if p.2.two then [elemOpnd f.src2 f.fmt2 3 f.bc2] else []) ++ (if p.2 == .vfma then [elemOpnd f.src3 f.fmt3 3 f.bc3] else []))
    goes .ve [.elem p.2 f] = true ∧ elemFieldsOk p.2 f = true ∧ operandsOk srcs [elemOpnd f.dst f.fmtD 3 false] = true ∧
      free (prog .ve [.elem p.2 f]) .ve (resOf srcs) (resOf [elemOpnd f.dst f.fmtD 3 false]) = true ∧
      ((prog .ve [.elem p.2 f]).numCtl 0).rnd f.rnd.toNat (p.2 == .vcvt && true) = .rne := by decide +kernel

def aRow (k : BitVec 13) : Row := ⟨64, 0, if k = 0 then 0 else 128, 2, 0, 0, 3, k, 0, 0, 0⟩

theorem meets_RowInstructions :
    (let f := aRow 0
     let dst := Opnd.flat .store (64 * f.dst.toNat) (ceilDiv (f.rows.toNat * f.fd.bits) 8) f.fd.bits
     goes .ve [.row .vred f] = true ∧ rowFieldsOk .vred f = true ∧ operandsOk [f.srcOpnd] [dst] = true ∧
       free (prog .ve [.row .vred f]) .ve (resOf [f.srcOpnd]) (resOf [dst]) = true ∧
       ((prog .ve [.row .vred f]).numCtl 0).rnd f.rnd.toNat false = .rne) ∧
    (let f := aRow 2
     let dst : Opnd := { base := 64 * f.dst.toNat, stride := rowPitch 2 f.fd.bits, len := ceilDiv (2 * f.fd.bits) 8, rows := 2, bits := f.fd.bits }
     let idx : Opnd := { base := 64 * f.idx.toNat, stride := rowPitch 2 32, len := 8, rows := 2, bits := 32 }
     goes .ve [.row .vtopk f] = true ∧ rowFieldsOk .vtopk f = true ∧ operandsOk [f.srcOpnd] [dst, idx] = true ∧ dst.meets idx = false ∧
       free (prog .ve [.row .vtopk f]) .ve (resOf [f.srcOpnd]) (resOf [dst, idx]) = true) ∧
    ∀ n ∈ [(0 : BitVec 17), 3], let f : Samp := ⟨64, 0, 0, n, 0, false, true, 5, 0, 0x3F80⟩
      let src := Opnd.flat .store 0 (n.toNat * 4) 32
      let dst := Opnd.flat .store 4096 (if n = 0 then 0 else 4) 32
      goes .ve [.vsample f] = true ∧ sampFieldsOk f = true ∧ operandsOk [src] [dst] = true ∧
        free (prog .ve [.vsample f]) .ve (resOf [src]) (resOf [dst]) = true := by
  refine ⟨by decide +kernel, by decide +kernel, fun n hn => ?_⟩
  simp only [List.mem_cons, List.not_mem_nil, or_false] at hn
  obtain rfl | rfl := hn <;> decide +kernel

def aBlock : Blk := ⟨2, 64, 4⟩

theorem meets_SpInstructions :
    (let f : Fft := ⟨0, 64, 1, 0, false, 1⟩
     goes .sp [.spfft4 f] = true ∧ f.stage < f.log4n ∧ operandsOk [Opnd.flat .store 0 32 64] [Opnd.flat .store 4096 32 64] = true ∧
       free (prog .sp [.spfft4 f]) .sp (resOf [Opnd.flat .store 0 32 64]) (resOf [Opnd.flat .store 4096 32 64]) = true) ∧
    (let f : Mac := ⟨0, 0, 2, true, false, false, 64, 1⟩
     goes .sp [.spmac f] = true ∧ operandsOk [Opnd.flat .x 0 16 64, Opnd.flat .y 0 16 64] [Opnd.flat .x 256 8 64] = true ∧
       free (prog .sp [.spmac f]) .sp (resOf [Opnd.flat .x 0 16 64, Opnd.flat .y 0 16 64]) (resOf [Opnd.flat .x 256 8 64]) = true) ∧
    spFieldOk aBlock.mem aBlock.addr = true ∧ operandsOk [aBlock.opnd] [] = true ∧ goes .sp [.spbexp aBlock] = true ∧
    free (prog .sp [.spbexp aBlock]) .sp (resOf [aBlock.opnd]) [] = true ∧
    goes .sp [.spnorm aBlock 0x1F false] = true ∧ goes .sp [.spnorm aBlock 0 true] = true ∧
    free (prog .sp [.spnorm aBlock 0 true]) .sp (resOf [aBlock.opnd]) (resOf [aBlock.opnd]) = true ∧
    goes .sp [.spexp aBlock 2 256 false] = true ∧ spFieldOk 2 256 = true ∧ goes .sp [.spexp { aBlock with n := 0 } 2 256 true] = true ∧
    operandsOk [aBlock.opnd] [Opnd.flat (memSide 2) (spAddr 2 256) 16 32] = true ∧
    free (prog .sp [.spexp aBlock 2 256 false]) .sp (resOf [aBlock.opnd]) (resOf [Opnd.flat (memSide 2) (spAddr 2 256) 16 32]) = true := by
  decide +kernel


/-! ## Hypotheses that are met: streams, sends, paging -/

/-- The record of an unconverted stream of `n` bytes from device address 0x4000. -/
def recBytes (n : Nat) : List Byte := leBytes 64 (0x4000 + n * 2 ^ 64 + 2 ^ 96 + 2 ^ 128 + 2 ^ 160)

/-- The record stands at the tile store's first 64 bytes. -/
def recorded (s : State) (b : List Byte) : State :=
  s.modTile 0 fun t => { t with mem := { t.mem with store := t.mem.store.writeBytes 0 b } }

def aStream : Stream := ⟨15, 64, 6, 0, false, 0, 0, 0⟩
def streaming (i : TileWord) (e : Engine) (b : List Byte) : State := recorded (prog e [i]) b

theorem meets_RgetAndRput : ∀ get : Bool, let f := aStream
    let e : Engine := if get then .ri else .ro
    let s := streaming (if get then .rget f else .rput f) e (recBytes 100)
    let x := (fetched s t00 e).tile 0
    let r := streamRecOf (x.readN .store 0 64)
    issuesCheck s t00 e (if get then .rget f else .rput f) = true ∧ streamFieldsOk f = true ∧
      (∀ q ∈ regionsOf 0 64, (x.pendWrites none).contains q = false) ∧ streamRecOk get (x.readN .store 0 64) = true ∧
      r.inside f = true ∧ r.hub = 0 ∧ x.blocked none (regionsOf 0 64) [] = none ∧ x.ctx? f.ctx.toNat = none := by decide +kernel

def aGather : Gather := ⟨3, 64, 128, 0, 2, 1⟩

theorem meets_Rgather : let f := aGather
    let s := streaming (.rgather f) .ri (leBytes 64 (0x4000 + 64 * 2 ^ 64 + 8 * 2 ^ 128))
    let x := (fetched s t00 .ri).tile 0
    let w := x.readN .store 0 64
    issuesCheck s t00 .ri (.rgather f) = true ∧ f.nrows.toNat ≤ 65536 ∧ (x.pendWrites none) = [] ∧ gatherRecOk w = true ∧
      f.laddr.toNat * 64 + f.nrows.toNat * (f.rowb.toNat * 64) ≤ sideSize (bits w 168 2) ∧ f.idx.toNat * 64 + 4 * f.nrows.toNat ≤ 1048576 ∧
      spansMeet (f.laddr.toNat * 64) (f.nrows.toNat * (f.rowb.toNat * 64)) (f.idx.toNat * 64) (4 * f.nrows.toNat) = false ∧
      x.blocked none (dedup (regionsOf 0 64 ++ regionsOf (f.idx.toNat * 64) (4 * f.nrows.toNat))) [] = none ∧ x.ctx? f.ctx.toNat = none := by
  decide +kernel

def aSend (via : Bool) (col : BitVec 5) : Send := ⟨0, 64, 128, via, col, 0, 0, 0⟩

/-- What the statement of RSEND asks of every form. -/
def sends (s : State) (f : Send) : Bool :=
  issuesCheck s t00 .ro (.rsend f) && decide (f.bytes.toNat % 64 = 0 ∧ f.comb = 0 ∧ f.laddr.toNat * 64 + f.bytes.toNat ≤ 1048576 ∧
    f.raddr.toNat * 64 + f.bytes.toNat ≤ 1048576) && (((fetched s t00 .ro).tile 0).freeCtx).isSome &&
    free s .ro (regionsOf (f.laddr.toNat * 64) f.bytes.toNat) []

theorem meets_Rsend :
    (sends (prog .ro [.rsend (aSend false 1)]) (aSend false 1) = true ∧ 1 < (packed.shape 0).width ∧ 0 < (packed.shape 0).height ∧
      ((packed.shape 0).at 1 0).ix ≠ 0) ∧
    (let s := withFlow (prog .ro [.rsend (aSend true 0)])
     sends s (aSend true 0) = true ∧ (fetched s t00 .ro).mayUse theDesc 0 = true) ∧
    sends (prog .ro [.rsend (aSend false 2)]) (aSend false 2) = true ∧ (packed.shape 0).width ≤ 2 ∧ ((packed.shape 0).at 2 0).ix ≠ 0 := by
  decide +kernel

/-- Group 3 of this module as root, with or without the egress by link 0. -/
def rooted (egress : Nat) (s : State) : State :=
  { s with links := { s.links with fabric := { s.links.fabric with
      active := { s.links.fabric.active with groups := [(3, BitVec.ofNat 192 (egress + 2 ^ 54 + 2 ^ 55))] } } } }

def aMcast : Mcast := ⟨0, 64, 128, 3⟩

theorem meets_Rmcast :
    (let s := rooted 0 (prog .ro [.rmcast aMcast])
     issuesCheck s t00 .ro (.rmcast aMcast) = true ∧ aMcast.bytes.toNat % 64 = 0 ∧ aMcast.laddr.toNat * 64 + aMcast.bytes.toNat ≤ 1048576 ∧
       aMcast.raddr.toNat * 64 + aMcast.bytes.toNat ≤ 1048576 ∧ free s .ro (regionsOf 0 128) [] = true ∧
       ((fetched s t00 .ro).group 3).root = true ∧ ((fetched s t00 .ro).group 3).enabled = true ∧
       ((fetched s t00 .ro).group 3).branches = []) ∧
    (let s := rooted 1 (prog .ro [.rmcast aMcast])
     issuesCheck s t00 .ro (.rmcast aMcast) = true ∧ ((fetched s t00 .ro).group 3).branches ≠ [] ∧
       ((fetched s t00 .ro).tile 0).freeCtx = some 0 ∧ ((fetched s t00 .ro).groupRun 3).owner = none) := by decide +kernel

/-- The last chunk of a stream of 64 bytes at host address 0x4000. -/
def lastChunk (put : Bool) : ChunkSt := { ix := 0, segs := [.host 0x4000 64], len := 64, data := if put then List.replicate 64 7 else [] }
def lastCtx (put : Bool) : CtxSt :=
  { kind := if put then .put else .get, pc := 0, rcd := { base := 0x4000, len0 := 64, cnt1 := 1, cnt2 := 1, cnt3 := 1 }, laddr := 4096
    total := 1, next := 1, inflight := [lastChunk put] }
def chunked (put : Bool) : State := ran.modTile 0 fun t => { t with ctxs := [(15, lastCtx put)] }

theorem meets_ChunksLandAndTheStreamRetires : ∀ put : Bool, let s := chunked put
    s.owner t00 = some theDesc ∧ theDesc.phase = .running ∧ (s.tile 0).ctx? 15 = some (lastCtx put) ∧
      (lastCtx put).inflight = [lastChunk put] ∧ (lastChunk put).discard = false ∧ s.chunkDone 0 15 (lastChunk put) = true ∧ (lastChunk put).lost = [] ∧
      (lastCtx put).kind.inbound = !put ∧ (engines.all fun e => ((s.tile 0).engine e).hold == .none) = true ∧
      (s.tile 0).ctxs = [(15, lastCtx put)] ∧ (lastCtx put).fault = none ∧ (lastCtx put).next = (lastCtx put).total ∧
      (lastCtx put).done + 1 = (lastCtx put).total ∧ (lastCtx put).rcd.conv = 0 ∧ (lastCtx put).rcd.poly = 0 ∧ (lastCtx put).rcd.hub = 0 ∧
      (lastCtx put).bind = false ∧ s.hostFails 0x4000 64 = false ∧ (lastChunk put).len = 64 ∧ (put = true → (lastChunk put).data.length = 64) ∧
      ({ s with hbm := { s.hbm with phase := .retraining } } : State).chunkDone 0 15 { lastChunk put with segs := [.hbm 0 64] } = false := by
  decide +kernel

/-- A stream stopped on a fault, at a tick, with a timeout of two ticks. -/
def faulted (since : Option Nat) (now : Nat) : State :=
  let s := (ran.setReg 0x60004 2).modTile 0 fun t => { t with ctxs := [(15, { lastCtx false with inflight := [], next := 0, fault := some (0x4000, 0, false, since) })] }
  { s with tick := { s.tick with count := now } }

/-- What the statement of page faults asks. -/
def faultsOn (since : Option Nat) (s : State) : Bool :=
  decide (s.owner t00 = some theDesc ∧ s.desc? 1 = some theDesc ∧ s.regN 0x60004 = 2 ∧ s.reg64 0x60200 = 0) &&
    (match (s.tile 0).ctx? 15 with
     | some k => decide (k.fault = some (0x4000, 0, false, since))
     | none => false)

theorem meets_PageFaultsAreReportedAndTimeOut :
    faultsOn none (faulted none 1) = true ∧ (faultsOn (some 1) (faulted (some 1) 3) = true ∧ 2 ≤ (faulted (some 1) 3).tick.count - 1) ∧
      faultsOn (some 1) (faulted (some 1) 2) = true ∧ (faulted (some 1) 2).tick.count - 1 < 2 ∧
      ((faulted none 1).setReg 0x60004 0).regN 0x60004 = 0 := by decide +kernel

/-- Two page edits stand in host memory, or their read fails: a leaf of function 3, and a bad operation. -/
def editBytes (op : Nat) : List Byte := leBytes 32 (0x10000 + 3 * 2 ^ 64 + op * 2 ^ 72 + 0xA * 2 ^ 128)
def batched (n : Word) (fails : Bool) (op : Nat) (busy : BitVec 2) : State :=
  let s := ((withReg 0x60100 0x8000).setReg 0x60108 n).hostWrite 0x8000 (editBytes 1 ++ editBytes op)
  { s with host := { s.host with fails := if fails then [(0x8020, 1)] else [] }, paging := { s.paging with batch := busy } }

theorem meets_pageBatch :
    (batched 2 false 1 1).paging.batch = 1 ∧ (batched 0 false 1 0).regN 0x60108 = 0 ∧
      (batched 2 false 1 0).paging.batch ≠ 1 ∧ (batched 2 false 1 0).regN 0x60108 ≠ 0 ∧
      (match (batched 2 true 1 0).readEdits 0x8000 0 2 with
        | .error i => i == 1
        | .ok _ => false) = true ∧
      (match (batched 2 false 1 0).readEdits 0x8000 0 2 with
        | .ok l => l.length == 2 && l.all fun e => e.ok none
        | .error _ => false) = true ∧
      (match (batched 2 false 3 0).readEdits 0x8000 0 2 with
        | .ok l => (l.map fun e => e.ok none) == [true, false]
        | .error _ => false) = true := by decide +kernel

/-- A shadow table that is complete at a time. -/
def shadowed (t : Nat) : State :=
  { State.reset with
    paging := { State.reset.paging with shadow := [(3, { small := [(1, 9)] })], batch := 1, batchAt := t }
    tick := { State.reset.tick with now := 5000 } }

theorem meets_pageSwap :
    (shadowed 5000).paging.shadow = [((3 : Fn).val, { small := [(1, 9)] })] ∧ (shadowed 5000).paging.batch = 1 ∧
      (shadowed 5000).paging.batchAt ≤ (shadowed 5000).tick.now ∧ (shadowed 5001).tick.now < (shadowed 5001).paging.batchAt ∧
      ({} : PageTable).large.find? (fun e => e.1 == 0) = none := by decide +kernel

/-- A loaded nonlinear table waits, since an earlier tick. -/
def tableDue : TableDue := ⟨9, 0, 0, 1, List.replicate 4096 5⟩
def withTable : State :=
  { packed with tiles := { packed.tiles with swaps := [tableDue] }, tick := { packed.tick with count := 1 } }

theorem meets_nonlinearSwap : withTable.tablesDue 0 = [tableDue] ∧ tableDue.bytes.length = 4096 := by
  have hq : withTable.quiescent 0 = true := by decide +kernel
  exact ⟨by unfold State.tablesDue; rw [if_pos hq]; rfl, List.length_replicate⟩

/-- A retirement whose copy is complete. -/
def retireDone : State := { State.reset with hbm := { State.reset.hbm with retiring := [⟨7, 0, none, true⟩] } }

/-- Link 5 has gone, and the entry of device 9 names it. -/
def linkGone : State :=
  { State.reset with links := { State.reset.links with fabric := { State.reset.links.fabric with
      rerouteDue := true, active := { State.reset.links.fabric.active with routes := [(9, 0x105)] } } } }

theorem meets_TablesSwapAtTheTick :
    (moving true .rotation).kennel.moves.filter (fun m => m.started && m.tile.col == 0) = [theMove true .rotation] ∧
      State.reset.links.fabric.rerouteDue = false ∧ linkGone.links.fabric.rerouteDue = true ∧
      (∃ y ∈ egressesOf 0x105, y.weight ≠ 0 ∧ linkGone.usable y = false) ∧ (∀ x ∈ egressesOf 0, x.weight = 0 ∨ linkGone.usable x = true) ∧
      (retireDone.hbm.retiring.filter RetireSt.done = [⟨7, 0, none, true⟩] ∧ retireDone.hbm.wc0 = [] ∧
        retireDone.hbm.wc1 = [] ∧ 7 * 65536 < hbmReservedEnd ∧ retireDone.hbm.loc (7 * 65536) ≠ hbmReservedEnd + 0 * 65536) := by
  decide +kernel

/-- BAR2 reaches an HBM page of the PF at 0 and a host page at 0x10000. -/
def bar2 : State := { State.reset with paging := { State.reset.paging with tables := [(0, { small := [(0, 9), (1, 0xA)] })] } }

/-- What a span of addresses translates to. -/
def segsOf (s : State) (wr : Bool) (va n : Nat) : Option (List Seg) := match s.xlates 0 wr (piecesOf va n) with
  | .ok l => some l
  | .error _ => none

theorem meets_bar2 :
    2 ^ bar2.host.pcie.bar2 < (0x8000000000#40).toNat + 1 ∧ 0x10004 ≤ 2 ^ bar2.host.pcie.bar2 ∧
      segsOf bar2 true 0x20000 4 = none ∧ segsOf bar2 false 0x10000 4 = some [.host 0 4] ∧ allHbm [.host 0 4] = false ∧
      segsOf bar2 true 0xFC 4 = some [.hbm 0xFC 4] ∧ segsOf bar2 false 0xFC 4 = some [.hbm 0xFC 4] ∧ bar2.hbm.held = false ∧
      (bar2.hbmRead [] 0xFC 4).1 = some [0, 0, 0, 0] ∧
      (({ bar2 with hbm := { bar2.hbm with lost0 := true } } : State).hbmRead [] 0xFC 4).1 = none ∧
      bar2.regN 0x60010 % 64 = 0 ∧ bar2.reg64 0x60018 = 0 := by decide +kernel

theorem meets_crcUnits :
    (let s := bar2.modCrcUnit 7 fun u => { u with owner := some (0, 1) }
     (s.crcUnit 7).owner.isSome = true) ∧ (bar2.crcUnit 7).owner = none := by decide +kernel

/-- The domain of the last site sleeps, and is waking; gating is on. -/
def sleeping : State :=
  { State.reset with paging := { State.reset.paging with asleep := [domainIx 35 true], waking := [(domainIx 35 true, 0)] } }
def gating : State := { withReg 0x110010 1 with tick := { State.reset.tick with now := 1000 } }

theorem meets_NetworkRetriesParksAndWakes :
    stopPassed (.tile (siteOfIx 0)) (.tile (siteOfIx 0)) (.link 47) = true ∧
      stopPassed (.tile (siteOfIx 1151)) (.tile (siteOfIx 0)) (.tile (siteOfIx 1)) = false ∧
      ((chunked false).owner t00 = some theDesc ∧ (lastCtx false).inflight = lastChunk false :: [] ∧ 0 < (lastChunk false).segs.length) ∧
      sleeping.paging.wakes (domainIx 35 true) = true ∧ State.reset.paging.wakes (domainIx 35 true) = false ∧
      sleeping.links.fabric.inbound = [] ∧ (ran.packDomains 0).any State.reset.paging.asleep.contains = false ∧
      (withReg 0x110010 0).regN 0x110010 = 0 ∧
      (gating.regN 0x110010 ≠ 0 ∧ gating.busyDomains.contains (domainIx 0 false) = false ∧
        gating.paging.asleep.contains (domainIx 0 false) = false ∧
        Table.get 0 gating.paging.busyAt (domainIx 0 false) + 1000 * gating.regN 0x110010 ≤ gating.tick.now) ∧
      (1216 : BitVec 11).toNat ≤ 1216 ∧ 1216 < (1217 : BitVec 11).toNat := by decide +kernel

/-! ## Hypotheses that are met: HBM -/

/-- HBM with a change of point in a phase. -/
def hbmIn (ph : FreqPhase) : State := { State.reset with hbm := { State.reset.hbm with phase := ph } }

/-- A module without a failed stack, an error or a retirement has clean stripes. -/
theorem clean_of (s : State) (hs : s.hbm.stackList = []) (hb : s.hbm.bad = []) (hr : s.hbm.retiring = []) (st : Nat) : cleanStripe s st :=
  fun _ _ => ⟨by simp [State.unitLost, Hbm.unitLost, hs], by simp [State.suspectUnit, hr],
    fun _ _ => by simp [State.cellBad, hb]⟩

/-- A buffer of stripe 1 that holds one byte. -/
def buffered : State := { State.reset with hbm := { State.reset.hbm with wc1 := [⟨1, [(4, 9)], 0, []⟩] } }

theorem meets_HbmWritesAreVisibleInTheirBuffer :
    State.reset.hbm.held = false ∧ (0x59FFFFFFFF#40).toNat + 1 ≤ 360 * 2 ^ 30 ∧ (0x59FFFFFFFF#40).toNat < 360 * 2 ^ 30 ∧
      (0x59FFFFFFFF#40).toNat % 256 + 1 ≤ 256 ∧ (∀ n, State.reset.hbm.bufs (n % 2) = []) ∧
      360 * 2 ^ 30 < (0x59FFFFFFFF#40).toNat + 2 ∧ 360 * 2 ^ 30 ≤ (0x5A00000000#40).toNat ∧ (hbmIn .draining).hbm.held = true ∧
      (∀ g, (hbmIn .draining).hbm.lostGroup g = false) ∧
      (buffered.hbm.bufs (1 : Fin 2).val = ⟨1, [(4, 9)], 0, []⟩ :: [] ∧ cleanStripe buffered 1 ∧ buffered.hbm.lostGroup (1 % 2) = false) ∧
      (({ buffered.hbm with lost1 := true } : Hbm).lostGroup (1 % 2) = true ∧ buffered.hbm.addrOf (1 * 1280 + 4) < 320 * 2 ^ 30) := by
  refine ⟨by decide +kernel, by decide, by decide, by decide, fun n => ?_, by decide, by decide, by decide +kernel, fun g => ?_,
    ⟨by decide +kernel, clean_of _ rfl rfl rfl 1, by decide +kernel⟩, by decide +kernel⟩
  · unfold Hbm.bufs; split <;> rfl
  · unfold Hbm.lostGroup; split <;> rfl

/-- The patrol runs, from a second after reset on. -/
def patrolling : State := withReg 0x83054 1

theorem meets_HbmReadsAndPatrolRepair :
    State.reset.hbm.held = false ∧ (hbmIn .draining).hbm.held = true ∧ (∀ st, cleanStripe State.reset st) ∧
      (∀ st, parityExact State.reset st) ∧ (∀ g, State.reset.hbm.lostGroup g = false) ∧ State.reset.hbm.buffered 5 = none ∧
      ({ State.reset.hbm with lost0 := true } : Hbm).lostGroup 0 = true ∧ (buffered.hbm.buffered (1 * 1280 + 4)).isSome = true ∧
      (4 : Fin 6).val = (cellOf (State.reset.hbm.loc (0x4FFFFFFF00#40).toNat)).unit.pos ∧ (0x4FFFFFFF00#40).toNat < 320 * 2 ^ 30 ∧
      320 * 2 ^ 30 ≤ (0x5000000000#40).toNat ∧ (0x5000000000#40).toNat < 336 * 2 ^ 30 ∧
      (0 : Fin 6).val = (cellOf (State.reset.hbm.loc (0x5000000000#40).toNat)).unit.pos ∧
      (withReg 0x83054 0).regN 0x83054 % 2 = 0 ∧ patrolling.regN 0x83054 % 2 = 1 ∧ 150994943 + 1 = 150994944 ∧
      cleanStripe patrolling (2 * 150994943 + 1) ∧ patrolling.hbm.held = false ∧ (∀ j ∈ groupStacks 1, patrolling.patrolMay j = true) ∧
      (∃ j ∈ groupStacks 0, ({ patrolling with hbm := { patrolling.hbm with stackList := [(0, { asleep := true })] } } : State).patrolMay j
        = false) ∧
      ¬ parityExact { patrolling with hbm := { patrolling.hbm with par := [(256 * 7, 1)] } } 7 := by
  refine ⟨by decide +kernel, by decide +kernel, clean_of _ rfl rfl rfl, fun st e he => ?_, fun g => ?_, by decide +kernel, by decide, by decide +kernel,
    by decide +kernel, by decide, by decide, by decide, by decide +kernel, by decide +kernel, by decide +kernel, rfl, clean_of _ rfl rfl rfl _,
    by decide +kernel, by decide +kernel, ⟨0, by decide, by decide +kernel⟩, fun h => h (256 * 7, 1) (by simp) (by decide)⟩
  · cases he
  · unfold Hbm.lostGroup; split <;> rfl

/-- A retirement under way, declared failures, and idle stacks. -/
def retiringOne : State := { State.reset with hbm := { State.reset.hbm with retiring := [⟨7, 0, none, false⟩] } }
def failing (pc : Option Nat) : State :=
  { State.reset with hbm := { State.reset.hbm with failDue := [(0, pc)], stackList := [(1, { failed := true })] } }
def idling : State := { withReg 0x83050 1 with tick := { State.reset.tick with next := 1000 } }

theorem meets_RetirementFailures :
    320 * 2 ^ 30 ≤ (0x500000#23).toNat * 65536 ∧ (0x4FFFFF#23).toNat * 65536 < 320 * 2 ^ 30 ∧
      State.reset.hbm.retiring.any (fun r => r.frame == 0x4FFFFF) = false ∧ State.reset.hbm.freeSpare = some 0 ∧
      State.reset.hbm.retiring.all RetireSt.done = true ∧
      (retiringOne.hbm.retiring = [⟨7, 0, none, false⟩] ∧ retiringOne.hbm.held = false ∧ retiringOne.hbm.lost0 = false ∧
        retiringOne.hbm.lost1 = false) ∧
      (hbmIn .retraining).hbm.phase = .retraining ∧ (State.reset.hbm.phase ≠ .retraining ∧ (State.reset.recentUes 11 31).length < 16) ∧
      State.reset.mod.power = .running ∧ (State.reset.railsDown .standby).mod.power ≠ .running ∧
      ((failing none).hbm.failDue = [((0 : StackIx).val, none)] ∧ 1 ∈ groupStacks ((0 : StackIx).val / 6) ∧ ((failing none).stack 1).failed = true ∧
        (failing none).hbm.lost0 = false ∧ (failing none).hbm.lost1 = false) ∧
      (failing (some 31)).hbm.failDue = [((0 : StackIx).val, some (31 : Fin 32).val)] ∧
      (idling.stackIdle 11 idling.tick.next = true ∧ (idling.stack 11).failed = false ∧ (idling.stack 11).asleep = false) ∧
      State.reset.stackIdle 11 State.reset.tick.next = false := by decide +kernel

/-- Nothing in the frame that retires needs a read but one unit, whose code fails. -/
theorem weak_of (s : State) (hs : s.hbm.stackList = []) (hb : s.hbm.bad = []) (l : Nat)
    (hr : ∀ r ∈ s.hbm.retiring, r.row = none) : s.weakCells l = [] := by
  refine List.filter_eq_nil_iff.mpr fun c _ => ?_
  have h1 : s.suspectUnit c.unit = false := by
    refine List.any_eq_false.mpr fun r hrr => ?_
    simp [hr r hrr]
  simp [State.cellBad, hb, State.unitLost, Hbm.unitLost, hs, h1]

theorem meets_copyDone : retiringOne.weakCells (retiringOne.hbm.loc (7 * 65536)) = [] :=
  weak_of _ rfl rfl _ (by decide)

theorem meets_FrequencySteps :
    ((hbmIn .draining).hbm.phase = .draining ∧ (hbmIn .draining).hbm.wc0 = [] ∧ (hbmIn .draining).hbm.wc1 = [] ∧
        (hbmIn .draining).hbm.shadow = none) ∧
      (hbmIn .refreshing).hbm.phase = .refreshing ∧
      ((hbmIn .retraining).hbm.phase = .retraining ∧ (hbmIn .retraining).hbm.waiting = [] ∧ (hbmIn .retraining).paging.bar2Held = []) ∧
      State.reset.hbm.phase = .idle ∧
      360 * 2 ^ 30 ≤ (0x5A00000000#40).toNat ∧ (0x4FFFFFFFFF#40).toNat < 320 * 2 ^ 30 ∧ 320 * 2 ^ 30 ≤ (0x5000000000#40).toNat ∧
      (0x5000000000#40).toNat < 336 * 2 ^ 30 := by decide +kernel


/-! ## Hypotheses that are met: links -/

/-- Link 47 in a state. -/
def linked (l : LinkSt) (m : LinkMeas) : State := (State.reset.setLink 47 l).modMeas 47 fun _ => m

def upLink : LinkSt := { tx := .up, rx := .up }

/-- At a time t. -/
def State.at_ (s : State) (t : Nat) : State := { s with tick := { s.tick with next := t } }

def aRetry (q : BitVec 10) (r : Nat) : RetryFlit := ⟨q, 1, [], r⟩

theorem meets_LinksTrainAndFail :
    ((linked { tx := .fused } {}).link 47).tx = .fused ∧
      (((linked {} {}).link 47).tx = .train ∧ State.reset.mod.pins.lref = true ∧ ((linked {} {}).link 47).cfg.getLsbD 1 = false ∧
        failedLanes [3, 3] = [3] ∧ failedLanes [] = [] ∧ failedLanes [0, 4, 0] = [0, 4] ∧ 1 < (failedLanes [0, 4, 0]).length) ∧
      (let s := (linked { cfg := 3 } {}).latchLref false
       (s.link 47).tx = .train ∧ (s.link 47).cfg.getLsbD 1 = true ∧ s.mod.pins.lref = false) ∧
      (((linked { tx := .down } {}).link 47).tx = .down ∧ ((linked { tx := .down } {}).link 47).parked = false) ∧
      ((linked { tx := .down, parked := true } {}).link 47).parked = true ∧
      ((linked upLink {}).link 47).rx = .up ∧ (dataLane ((linked upLink {}).link 47).rxMap 3).isSome = true ∧
      (dataLane ((linked upLink {}).link 47).rxMap 4).isSome = false ∧
      (let s := linked upLink { retry := [aRetry 0 0], ackAt := 7 }
       (s.link 47).tx.alive = true ∧ (s.meas 47).retry ≠ [] ∧ (s.meas 47).ackAt + 100000 ≤ (State.at_ s 100007).tick.next ∧
         (State.at_ s 100006).tick.next < (s.meas 47).ackAt + 100000) ∧
      ((linked upLink {}).meas 47).retry = [] := by decide +kernel

/-- A marker of five lanes, the last of them t nanoseconds after the others. -/
def aMarker (t : Nat) : List LaneMarker := [⟨0, 4096, 0⟩, ⟨1, 4096, 0⟩, ⟨2, 4096, 0⟩, ⟨3, 4096, 0⟩, ⟨4, 4096, t⟩]

/-- The wrong symbols where the lanes bring zeros for a codeword whose first k symbols are not zero. -/
def wrongOf (k : Nat) : List (Nat × Nat) :=
  let lanes := (List.zip ((linked upLink {}).meas 47).rxPre (List.replicate 5 (List.replicate 20 (0 : Fin 4)))).map fun e => recoverLane e.1 e.2
  wrongSymbols (List.replicate k (1 : BitVec 10)) (laneSymbols ((linked upLink {}).link 47).rxMap (lanes.map Prod.fst))

theorem meets_codewords :
    ((linked upLink {}).link 47).rx = .up ∧ ((linked {} {}).link 47).rx = .train ∧ (wrongOf 15).length = 15 ∧ (wrongOf 16).length = 16 ∧
      markerAligns (aMarker 80) = true ∧ markerAligns (aMarker 81) = false ∧ ((linked { rx := .wake } {}).link 47).rx = .wake ∧
      (∀ w ∈ [16, 15], let m := (linked upLink { windowUncorr := w }).meas 47
        m.windowUncorr = w) ∧
      (let s := linked { upLink with rx := .swap } { windowUncorr := 16 }
       (s.link 47).rx = .swap ∧ (s.meas 47).windowUncorr ≤ 16) := by decide +kernel

theorem meets_laneWindow :
    ((linked { tx := .down, rx := .down } {}).link 47).rx.alive = false ∧
      (((linked upLink { slept := true }).link 47).rx.alive = true ∧ ((linked upLink { slept := true }).meas 47).slept = true) ∧
      (let s := linked upLink { errs := [0, 1281, 0, 0, 0] }
       let counts := ((s.meas 47).errs.set (laneOf (s.link 47).rxMap 4) 1280).map (sat 32)
       (s.link 47).rx.alive = true ∧ (s.meas 47).slept = false ∧ (s.link 47).rx = .up ∧ (s.link 47).thresh.toNat < 1281 ∧
         1280 ≤ (s.link 47).thresh.toNat ∧ (s.link 47).thresh ≠ 0 ∧ (s.meas 47).swapRx = none ∧
         worstLane (s.link 47) counts = some 1 ∧ (dataLane (s.link 47).rxMap 1).isSome = true) ∧
      worstLane upLink [1280, 0, 0, 0, 9] = none ∧ worstLane upLink [0, 1281, 1281, 7, 0] = some 1 ∧
      (([0, 1281, 1281, 7, 0] : List Nat).length = 5 ∧ upLink.thresh.toNat < ([0, 1281, 1281, 7, 0] : List Nat).getD 1 0 ∧
        ∀ q < 5, q ≠ 1 → (dataLane upLink.rxMap q).isSome = true →
          ([0, 1281, 1281, 7, 0] : List Nat).getD q 0 < 1281 ∨ (([0, 1281, 1281, 7, 0] : List Nat).getD q 0 = 1281 ∧ 1 < q)) := by
  decide +kernel

theorem meets_swaps :
    (∀ x ∈ [LnkState.up, .sleep, .wake], ((linked { upLink with tx := x } {}).link 47).tx = x) ∧
      (dataLane upLink.txMap 3).isSome = true ∧ (dataLane upLink.txMap 4).isSome = false ∧
      ((linked upLink { swapRx := some 2 }).meas 47).swapRx = some 2 ∧ ((linked { tx := .swap } {}).link 47).tx = .swap ∧
      (let m := (linked { tx := .swap } { swapTimeouts := [5] }).meas 47
       (∀ y ∈ m.swapTimeouts, y + 1000000000 < 1000000006) ∧ ∃ y ∈ m.swapTimeouts, 1000000005 ≤ y + 1000000000) ∧
      (4 : BitVec 3).toNat < 5 ∧ 5 ≤ (5 : BitVec 3).toNat ∧ ((linked upLink {}).link 47).tx ≠ .swap ∧ ((linked upLink {}).meas 47).swapRx = none ∧
      (let s := linked upLink { forceDue := some 3 }
       (s.meas 47).forceDue = some 3 ∧ (s.link 47).rx = .up ∧ (s.meas 47).swapRx = none ∧ (dataLane (s.link 47).rxMap 3).isSome = true ∧
         (s.link 47).usable (s.meas 47) = true) ∧
      upLink.usable { closed := [0, 0, 0, 0, 1281] } = false := by decide +kernel

theorem meets_linkSleep :
    (let s := linked upLink {}
     (s.link 47).tx = .up ∧ (s.link 47).idle ≠ 0 ∧ s.linkBusy 47 = false) ∧
      ((linked { upLink with idle := 0 } {}).link 47).idle = 0 ∧ (linked upLink { nakDue := true }).linkBusy 47 = true ∧
      ((linked { tx := .sleep, rx := .wake } {}).link 47).tx = .sleep ∧ ((linked { tx := .sleep, rx := .wake } {}).link 47).rx = .wake ∧
      ((linked { tx := .wake, rx := .sleep } {}).link 47).tx = .wake ∧ ((linked { tx := .wake, rx := .sleep } {}).link 47).rx = .sleep := by
  decide +kernel

/-- The bytes of a flit with no payload, and the same with its last byte spoilt. -/
def aFlit (k : FlitKind) (nak : Bool) (q : BitVec 10) : List Byte := flitBytes ⟨q, 1, nak, 0, 0, k, 0, true⟩ []
def spoilt (b : List Byte) : List Byte := b.set 255 (b.getD 255 0 + 1)

theorem meets_FlitsAreAcceptedInSequence :
    ((linked upLink {}).link 47).rx = .up ∧
      (flitOf 0 (spoilt (aFlit .data false 0))).crcOk = false ∧
      (let f := flitOf 0 (aFlit .data true 1)
       f.crcOk = true ∧ f.kind = .data ∧ f.fseq ≠ ((linked upLink {}).meas 47).drain.rxSeq) ∧
      (let f := flitOf 0 (aFlit .data false 0)
       f.crcOk = true ∧ f.kind = .data ∧ f.fseq = ((linked upLink {}).meas 47).drain.rxSeq ∧ f.nak = false) ∧
      (let f := flitOf 0 (aFlit .reserved false 0)
       f.crcOk = true ∧ f.kind = .reserved) ∧
      (∀ k ∈ [FlitKind.hold, .control], (flitOf 0 (aFlit k false 0)).crcOk = true ∧ (flitOf 0 (aFlit k false 0)).kind = k ∧
        (flitOf 0 (aFlit k false 0)).nak = false) ∧
      (let m := ((linked upLink { retry := [aRetry 1 7, aRetry 2 7], txSeq := 3 }).meas 47).drain
       let f := flitOf 0 (aFlit .control true 0)
       f.crcOk = true ∧ f.kind = .control ∧ f.nak = true ∧ (m.txSeq - f.ack - 1).toNat = 1 ∧ 1 < m.retry.length ∧
         ∃ x ∈ m.retry.drop 1, 7 ≤ x.resent) := by decide +kernel

/-! ## Hypotheses that are met: the link fabric -/

/-- The module has identifier 7, inbound flow 5 from device 9 on channel 1 into Pack 0, with read and write rights or
without, that expects `e`. -/
def inbound (rw : Bool) (e : Nat) (g : Grade) (s : State) : State :=
  let s := { s.setReg 0xF0000 0x4007 with mod := { s.mod with grade := g } }
  s.modLf fun l => { l with
    active := { l.active with flows := [(5, BitVec.ofNat 64 (9 + 2 ^ 14 + 3 * 2 ^ 17 + (if rw then 2 ^ 31 else 0)))] }
    inFlows := [(5, { expected := e })] }

def aHeader (seq : BitVec 32) (target : BitVec 64) : Header := { src := 9, vc := 1, rflow := 5, seq := seq, target := target, token := 3 }

theorem meets_peerRefused :
    State.reset.takes = false ∧ (inbound true 0 .a packed).takes = true ∧
      (let f := (inbound true 0 .a packed).flow 5
       f.enabled = true ∧ f.inbound = true ∧ f.peer = 9 ∧ f.vc = 1 ∧ f.rw = true ∧ f.pack = 0) ∧
      (aHeader 0 0).group = false := by decide +kernel

theorem meets_onFlow :
    onFlow (inbound true 0 .a packed) (aHeader 0 0) ∧ ¬ onFlow (inbound true 0 .a packed) { aHeader 0 0 with rflow := 6 } := by
  unfold onFlow; decide +kernel

/-- Transactions that pass, that wait for a tile that sleeps, for HBM, or for one before them, and that are served. -/
theorem meets_peerWays :
    (inbound true 0 .a packed).passes { aHeader 0 0 with dest := some 8 } = true ∧ (inbound true 0 .a packed).passes (aHeader 0 0) = false ∧
      (∀ c ∈ peerRequests (aHeader 0 0) 1 [1], (inbound true 0 .a packed).mustWait c.2.1 (aHeader 0 0) c.2.2.1 = false) ∧
      (let s := inbound true 0 .a packed
       let s := { s with paging := { s.paging with asleep := [SiteId.domain (s.siteOf ⟨0, 0⟩)] } }
       s.mustWait .tsend (aHeader 0 0) 1 = true ∧ (s.txTiles .tsend (aHeader 0 0) 1).1.find? s.away = some ⟨0, 0⟩) ∧
      (let s := inbound true 0 .a packed
       { s with hbm := { s.hbm with phase := .draining } }.mustWait .rwrite (aHeader 0 0) 1 = true) ∧
      (∀ c ∈ peerRequests (aHeader 0 0) 1 [1], ((inbound true 0 .a packed).modLf fun l => { l with
        inbound := [.tx .rsignal (aHeader 0 0) 0 []] }).mustWait c.2.1 (aHeader 0 0) c.2.2.1 = true) := by decide +kernel

theorem meets_peerOrder :
    ((inbound true 0 .a packed).inFlow 5).expected = 0 ∧ (0xFFFFFFFF#32).toNat = (0 + 2 ^ 32 - 1) % 2 ^ 32 ∧
      (0x80000000#32).toNat = (0 + 2 ^ 32 - 2 ^ 31) % 2 ^ 32 ∧ (0x7FFFFFFF#32).toNat = (0 + (2 ^ 31 - 1)) % 2 ^ 32 ∧
      (aHeader 0 0).seq.toNat = 0 := by decide +kernel

/-- What the statement asks of a request that the flow serves. -/
def served (rw : Bool) (g : Grade) (h : Header) : Bool :=
  let s := inbound rw 0 g packed
  decide (h.group = false ∧ h.seq.toNat = (s.inFlow 5).expected ∧ (s.flow 5).rw = rw ∧ s.spent h = false ∧ s.mod.grade = g)

theorem meets_peerServed :
    served false .a (aHeader 0 0) = true ∧ served true .b (aHeader 0 0) = true ∧
      (bits (aHeader 0 0x4FFFFFFFFF).target.toNat 0 48 + 1 ≤ hbmUserEnd ∧
        ((inbound true 0 .a packed).hbmRead [] 0x4FFFFFFFFF 1).1 = some [0]) ∧
      hbmUserEnd < bits (aHeader 0 0x4FFFFFFFFF).target.toNat 0 48 + [(1 : Byte), 2].length ∧
      (∀ a ∈ [0x8000000000, 0x80000FFFFF], hbmUserEnd < a + 1 ∧
        (inbound true 0 .a packed).windowTile ((inbound true 0 .a packed).flow 5) a = some (0, a - 0x8000000000)) ∧
      (inbound true 0 .a packed).windowTile ((inbound true 0 .a packed).flow 5) 0x8000200000 = none ∧
      ((inbound true 0 .a packed).signal ⟨1, 1⟩ 0 1).takes = true ∧
      (inbound true 0 .a packed).flowTarget ((inbound true 0 .a packed).flow 5) 2 = none ∧
      (inbound true 0 .a packed).flowTarget ((inbound true 0 .a packed).flow 5) (33 + 1024 * 0x3FFF) = some ⟨1, 1⟩ ∧
      bits (33 + 1024 * 0x3FFF) 10 14 * 64 + 64 ≤ 1048576 := by decide +kernel

/-- A request of this module on flow 5 that waits for its answer. -/
def aReq (t : TxType) (late : Bool) : LinkReq :=
  { id := 4, type := t, flow := 5, seq := some 0, issued := if late then 0 else 9, desc := some 1, tile := 0, engine := 3, pc := 0, word := 0
    target := 0, len := 2, token := 3 }
def requested (t : TxType) (late : Bool) : State :=
  let s := (inbound true 0 .a ran).setReg 0xF0004 4
  { (s.modLf fun l => { l with reqs := [aReq t late] }) with tick := { s.tick with count := 4 } }

theorem meets_answers :
    (requested .rread true).takes = true ∧ (requested .rread true).reqOf 5 0 = some (aReq .rread true) ∧
      (requested .rread true).reqOf 5 1 = none ∧ [(1 : Byte), 2].length = (aReq .rread true).len ∧
      (requested .rwrite true).reqOf 5 0 = some (aReq .rwrite true) ∧ (aReq .rwrite true).tile < portTile ∧ (aReq .rwrite true).ctx = none ∧
      (requested .rread true).passes (aHeader 0 0) = false ∧ (requested .rread true).passes { aHeader 0 0 with dest := some 7 } = false ∧
      (requested .rread true).passes { aHeader 0 0 with dest := some 8 } = true ∧
      (requested .rread true).links.fabric.inbound.any (fun x => x.ahead (aHeader 0 0)) = false ∧
      (∀ st ∈ [(0 : BitVec 2), 1], { aHeader 0 0 with status := st }.status = st) := by decide +kernel

/-- One exposure to a token of device 9. -/
def anExposure (id : Option Nat) (job : Option Word) (cleared : Bool) : Exposure := ⟨9, 3, 0, id, [(some 0, 64, 2)], cleared, none, job⟩
def exposedTo (e : Exposure) : State := (inbound true 0 .a ran).modLf fun l => { l with exposures := [e] }

theorem meets_outcomes :
    (∀ e ∈ [anExposure (some 1) none false, anExposure none none false, anExposure (some 1) (some 7) true],
      (exposedTo e).links.fabric.exposures = [e] ∧ (exposedTo e).takes = true ∧ e.device = (aHeader 0 0).src.toNat ∧
        e.token = (aHeader 0 0).token.toNat) ∧
      (anExposure none none false).spans = [(some 0, 64, 2)] ∧ (anExposure (some 1) (some 7) true).job = some 7 := by decide +kernel

/-- Group 3 with one local receiver, tile (1, 1) of Pack 0. -/
def grouped : State := (inbound true 0 .a packed).modLf fun l => { l with
  active := { l.active with groups := [(3, BitVec.ofNat 192 (2 ^ 55 + 2 ^ 56 + (1 * 64 + 1 * 2048) * 2 ^ 64))] } }
def groupHeader : Header := { src := 9, vc := 1, rflow := 3, group := true, target := 64 }

theorem meets_groups :
    (grouped.takes = true ∧ (grouped.group 3).enabled = true ∧ (grouped.group 3).root = false ∧ (grouped.group 3).locals = [(0, 1, 1)] ∧
        (grouped.group 3).links = [] ∧ (grouped.groupRun 3).owner = none ∧ groupHeader.seq.toNat = (grouped.inFlow (65536 + 3)).expected ∧
        grouped.spent groupHeader = false ∧ bits groupHeader.target.toNat 0 14 * 64 + bits groupHeader.target.toNat 32 24 + 2 ≤ 1048576) ∧
      (grouped.group 4).enabled = false ∧ ((rooted 0 grouped).group 3).root = true ∧ grouped.regN 0x20114 ≠ groupHeader.src.toNat ∧
      (grouped.setReg 0x20114 9).regN 0x20114 = groupHeader.src.toNat := by decide +kernel

theorem meets_flowTimeout :
    (∀ q ∈ (requested .rwrite false).links.fabric.reqs, q.flow = (5 : BitVec 16).toNat → (requested .rwrite false).reqLate q = false) ∧
      (let s := requested .rwrite true
       let q := aReq .rwrite true
       s.links.fabric.reqs = [q] ∧ q.flow = (5 : BitVec 16).toNat ∧ s.reqLate q = true ∧ q.desc = some 1 ∧ q.type = .rwrite ∧ q.ctx = none ∧
         s.desc? 1 = some theDesc ∧ theDesc.live = true) := by decide +kernel

/-- The program of Pack 0 completed at tick 3, and what reached it is not resolved. -/
def outcomeDesc : Desc := { theDesc with phase := .finished, outcome := some 3 }
def unresolved (now : Nat) : State :=
  let s := { (exposedTo (anExposure (some 1) none false)).setReg 0xF0004 4 with shep := { ran.shep with descs := [outcomeDesc] } }
  { s with tick := { s.tick with count := now } }

theorem meets_exposureTimeout :
    packed.running 0 = none ∧ (∀ n ∈ [7, 6], (unresolved n).running 0 = some outcomeDesc ∧ (unresolved n).desc? outcomeDesc.id = some outcomeDesc ∧
      outcomeDesc.outcome = some 3 ∧ outcomeDesc.phase = .finished ∧ (unresolved n).exposed outcomeDesc.id = true) ∧
      3 + (unresolved 7).regN 0xF0004 ≤ (unresolved 7).tick.count ∧ (unresolved 6).tick.count < 3 + (unresolved 6).regN 0xF0004 := by
  decide +kernel

/-- A branch of group 3 that has lagged, at a node that prunes after two ticks. -/
def lagging (n : Nat) : State :=
  ((inbound true 0 .a packed).modLf fun l => { l with
    active := { l.active with groups := [(3, BitVec.ofNat 192 (1 + 2 ^ 55 + 2 * 2 ^ 160))] } }).modGroup 3 fun r =>
      { r with branches := [⟨0, 0, n, false⟩] }

theorem meets_pruneTimeout :
    (∀ n ∈ [1, 2], ((lagging n).groupRun 3).branches.find? (fun x => x.ix == 0) = some ⟨0, 0, n, false⟩ ∧
      ((lagging n).group 3).pruneTicks = 2 ∧ ((lagging n).groupRun 3).owner = none ∧ (lagging n).takes = true) := by decide +kernel

/-- A table batch of two entries: flow 1 to device 9, and an entry of some kind. -/
def lfBatched (kind : Nat) (fails : Bool) : State :=
  let s := ((withReg 0xF0010 0x8000).setReg 0xF0018 2).hostWrite 0x8000
    (leBytes 32 (2 + 2 ^ 16 + (9 + 2 ^ 18) * 2 ^ 64) ++ leBytes 32 (kind + 2 ^ 16 + (9 + 2 ^ 18) * 2 ^ 64))
  { s with host := { s.host with fails := if fails then [(0x8020, 1)] else [] } }

/-- What a batch's entries are. -/
def lfRead (s : State) : Except Nat (List Bool) := match s.readBatch (s.reg64 0xF0010) 0 (s.regN 0xF0018) with
  | .ok l => .ok (l.map (lfEntryOk s.mod.grade s.devid))
  | .error i => .error i

theorem meets_lfBatch :
    (match lfRead (lfBatched 2 true) with
      | .error i => i == 1
      | .ok _ => false) = true ∧
    (match lfRead (lfBatched 2 false) with
      | .ok l => l == [true, true]
      | .error _ => false) = true ∧
    (match lfRead (lfBatched 9 false) with
      | .ok l => l == [true, false]
      | .error _ => false) = true := by decide +kernel


/-! ## Hypotheses that are met: programmable fabric and configuration -/

/-- A hook of two rows of 100 bytes on port 3 whose first row has gone out, and whose return has so many bytes so far. -/
def aHook (kind : Nat) (got : Nat) : HookSt :=
  { number := 5, tile := 0, engine := .mx, desc := 1, pc := 0, word := 0, kind := kind, fmt := 0
    blocks := [⟨4096, 64, [List.replicate 64 0, List.replicate 64 0]⟩], perBlock := 2, rows := 2, rowBytes := 100
    accepted := if kind = 1 then 3 else 1, partialRow := List.replicate got 9 }
def hooked (h : HookSt) (flushed : Bool) : State := ran.modPort 3 fun x => { x with
  hooks := [h], flushed := if flushed then [7] else [] }
def aBeat (tag : BitVec 16) (last : Bool) : Beat := ⟨tag, last, List.replicate 64 1⟩

theorem meets_hooks :
    ((ran.port 3).presenting = none ∧ (ran.port 3).returning = none) ∧
      ((hooked (aHook 0 0) false).port 3).presenting = some (aHook 0 0) ∧ ((aHook 0 0).kind ≠ 1) ∧
      (((hooked (aHook 1 0) false).port 3).presenting = some (aHook 1 0) ∧ (aHook 1 0).kind = 1 ∧
        (aHook 1 0).accepted + 1 = (aHook 1 0).rows * (aHook 1 0).beats) ∧
      (∀ k ∈ [0, 1], ((hooked (aHook k 0) false).port 3).rowWaits (aHook k 0) = false) ∧
      (let h : HookSt := { aHook 0 0 with accepted := 0 }
       let s := (hooked h false).modPort 3 fun x => { x with asks := [⟨0, List.replicate 128 none⟩] }
       (s.port 3).presenting = some h ∧ (s.port 3).rowWaits h = true ∧ (s.port 3).returning = some h ∧
         h.begun h.back.length = false ∧ (s.port 3).hooks = [h]) ∧
      State.portIsolated { ran with fabric := { ran.fabric with outReleased := false } } 3 = true := by decide +kernel

theorem meets_hookReturns : ∀ part full : Bool,
    let h := aHook 0 (if full then 64 else 0)
    let s := hooked h part
    let row := h.partialRow ++ ((aBeat 0x5000 true).data ++ List.replicate (64 - (aBeat 0x5000 true).data.length) (0 : Byte)).take 64
    (s.port 3).returning = some h ∧ h.begun h.back.length = true ∧ s.portIsolated 3 = false ∧
      (aBeat 0x7000 true).tag.toNat ≠ h.tag h.back.length ∧ (s.port 3).flushed.contains ((aBeat 0x7000 true).tag.toNat / 4096) = part ∧
      (aBeat 0x5000 true).tag.toNat = h.tag h.back.length ∧
      (if full then 64 * ceilDiv h.rowBytes 64 ≤ row.length else row.length < 64 * ceilDiv h.rowBytes 64) ∧ h.kind = 0 ∧
      h.blocks = [⟨4096, 64, [List.replicate 64 0, List.replicate 64 0]⟩] ∧ h.back.length + 1 < h.rows ∧ (s.port 3).hooks = [h] := by
  decide +kernel

/-- Port 3 takes its user's requests for the PF. -/
def initiated : State := (prog .ro []).setReg 0x10020C 0x4001

theorem meets_initiator :
    bit (initiated.regN (portCfgAddr 3)) 14 = true ∧ bit (packed.regN (portCfgAddr 3)) 14 = false ∧ initiated.portIsolated 3 = false ∧
      initiated.muzzle.module.active = false ∧ (initiated.port 3).waiting = [] ∧ (initiated.port 3).use < 128 ∧
      (let s := initiated.modPort 3 fun x => { x with asks := [⟨0, List.replicate 128 none⟩] }
       128 ≤ (s.port 3).use ∧ s.portTry 3 (.signal 0 0 0 0 1) = none) ∧ (initiated.portTry 3 (.signal 0 0 0 0 1)).isSome = true ∧ bits (initiated.regN (portCfgAddr 3)) 15 6 = 0 ∧
      (match initiated.xlates 0 false (piecesOf 0x100000 8) with
        | .error _ => true
        | .ok _ => false) = true ∧
      (match initiated.xlates 0 false (piecesOf 0x4000 8), initiated.xlates 0 true (piecesOf 0x4000 2) with
        | .ok l, .ok k => l == [.host 0x4000 8] && k == [.host 0x4000 2]
        | _, _ => false) = true ∧
      initiated.hostRead 0x4000 8 = some (List.replicate 8 0) ∧
      ((initiated.shape 0).enabled = true ∧ (initiated.shape 0).fn = 0 ∧ 1 < (initiated.shape 0).width ∧ 1 < (initiated.shape 0).height) ∧
      (initiated.shape 1).enabled = false ∧ (initiated.shape 0).width ≤ 2 := by decide +kernel

/-- Cue 2 drives pin 40; pin 41 belongs to region 7. -/
def pinned : State := ((State.reset.setReg (0x40020 + 2 * 16) 0).setReg (0x100500 + 4 * 41) 0x704)

theorem meets_edges :
    packed.fabric.pllDown.getLsbD 3 = false ∧ { packed.fabric with pllDown := 8 }.pllDown.getLsbD 3 = true ∧
      packed.fabric.bankPresent.getLsbD 1 = true ∧ { packed.fabric with bankPresent := 0xD }.bankPresent.getLsbD 1 = false ∧
      packed.fabric.bankMismatch.getLsbD 1 = false ∧ packed.pinCue 40 = none ∧ packed.fabric.outReleased = true ∧
      packed.muzzle.module.active = false ∧ packed.ownerHeld (bits (pinned.pinCfg 41) 8 6) = false ∧ packed.fabric.globalClk = true ∧
      (pinned.modRegion 7 fun x => { x with st := .blank }).ownerHeld (bits (pinned.pinCfg 41) 8 6) = true := by decide +kernel

/-- Region 4 is die 0, columns 10 to 20, bands 5 and 6, and owns port 3. -/
def regioned (st : RegionState) (due : Option Bool) (s : State) : State :=
  ((s.setReg 0x100020 0x4C52828).setReg 0x100024 8).modRegion 4 fun x => { x with st := st, isolateDue := due }

theorem meets_isolate :
    (∀ busy : Bool, let s := regioned .active (some true) (hooked (aHook 0 0) false)
      let u := if busy then s else regioned .active (some true) ran
      (u.region 4).isolateDue = some true ∧ u.hookBusy 4 = busy ∧ (u.region 4).st = .active) ∧
      (let s := regioned .isolated (some false) ran
       (s.region 4).isolateDue = some false ∧ (s.region 4).st = .isolated ∧ (s.mzRegion 4).active = false ∧ s.muzzle.triggers = []) ∧
      ((regioned .blank (some false) ran).region 4).st ≠ .isolated ∧
      (let s := packed.setReg 0x100900 0x201
       bit (s.regN 0x100900) 0 = true ∧ (0x1#64).getLsbD 0 = true ∧ bit (s.regN 0x100904) 0 = false) := by decide +kernel

def watching (next : Option Nat) (s : State) : State := { s with config := { s.config with nwNext := next } }

theorem meets_nightwatch :
    ({ packed.config with nwRunning := false }.nwRunning = false ∧ packed.config.nwRunning = true) ∧
      (watching none packed).config.nwNext = none ∧
      (let s := watching (some 0x38A3) (regioned .active none packed)
       s.config.nwNext.map frameAt = some ⟨3, 5, 14, 0⟩ ∧ s.frameLoading ⟨3, 5, 14, 0⟩ = false ∧
         (s.regionRect 4).holds ⟨3, 5, 14, 0⟩ = true ∧ (∀ q : Fin 32, q < 4 → (s.regionRect q.val).holds ⟨3, 5, 14, 0⟩ = false)) ∧
      (let s := watching (some 0) packed
       s.frameLoading ⟨0, 0, 0, 0⟩ = false ∧ (∀ q : Fin 32, (s.regionRect q.val).holds ⟨0, 0, 0, 0⟩ = false) ∧
         s.config.isStatic ⟨0, 0, 0, 0⟩ = true) ∧
      packed.config.digestBad = false ∧ packed.sec.mcRunning = true ∧ bit packed.config.nwCtrl.toNat 10 = false ∧
      bit { packed.config with nwCtrl := 0x428 }.nwCtrl.toNat 10 = true ∧
      ((regioned .loading none packed).region 4).st = .loading ∧ ((regioned .loading none packed).regionRect 4).enabled = true ∧
      ((regioned .active none packed).region 4).st ≠ .loading := by decide +kernel

/-- The digest of the static frames is not the golden one, where they hash to something. -/
theorem meets_digest (h : ∃ d : List Byte, ∀ b, hash b ≠ d) : ∃ s : State, s.config.digestBad = true := by
  obtain ⟨d, hd⟩ := h
  refine ⟨{ packed with config := { packed.config with staticDigest := some d } }, ?_⟩
  simp [ConfigSt.digestBad, hd]

/-- A load of region 4 at a step. -/
def aLoad (step : Nat) (image : List Byte) : PartialLoad := ⟨4, false, image, step⟩
def loading (l : PartialLoad) (st : RegionState) (n : Word) (fails : Bool) : State :=
  let s := ((regioned st none packed).setReg 0x108018 n).setReg 0x108010 0x8000
  { s with config := { s.config with load := some l }, host := { s.host with fails := if fails then [(0x8000, 1)] else [] } }

theorem meets_partialRequests :
    (loading (aLoad 0 []) .active 8 false).config.load.isSome = true ∧ (packed.config.load = none ∧ packed.mod.dusk.step = 0) ∧
      (∀ fails : Bool, let s := loading (aLoad 0 []) .isolated 8 fails
        s.config.load = some (aLoad 0 []) ∧ (s.region 4).st = .isolated ∧ s.regN 0x108018 = 8 ∧
          s.plBytes (aLoad 0 []) 8 = (if fails then none else some (List.replicate 8 0))) ∧
      (loading (aLoad 0 []) .active 0 false).regN 0x108018 = 0 ∧ ((loading (aLoad 0 []) .active 0 false).region 4).st = .active ∧
      (loading (aLoad 1 [0]) .isolated 8 false).plCheck (aLoad 1 [0]) = some 4 := by decide +kernel

/-- The header of a stream at byte 8 of the image, one record of frame 0x38A3 and the end. -/
def aStreamImage (frame : Nat) (crc : Nat) : List Byte :=
  let s := leBytes 4 (1 + 2 ^ 16) ++ leBytes 4 crc ++ List.replicate 512 0 ++ leBytes 8 frame ++ leBytes 8 (2 + 2 ^ 32)
  List.replicate 12 0 ++ leBytes 4 64 ++ leBytes 4 s.length ++ List.replicate 44 0 ++ s

/-- The CRC-32C of 512 bytes of zero. -/
def zeroCrc : Nat := Poly.crc32c.finish (crcBytes Poly.crc32c Poly.crc32c.init (List.replicate 512 0))

set_option maxRecDepth 20000 in
theorem meets_partialWritten :
    (let s := loading (aLoad 2 (aStreamImage 0x38A3 zeroCrc)) .loading 8 false
     strays (s.regionRect 4) (imgStream (aStreamImage 0x38A3 zeroCrc)).recs = none ∧
       (imgStream (aStreamImage 0x38A3 zeroCrc)).recs.length = 1 ∧ s.config.load = some (aLoad 2 (aStreamImage 0x38A3 zeroCrc))) ∧
      (let s := loading (aLoad 2 (aStreamImage 0x38A3 0)) .loading 8 false
       strays (s.regionRect 4) (imgStream (aStreamImage 0x38A3 0)).recs = some (0, 0x38A3, false) ∧ s.config.nwStalled = []) ∧
      (let s := loading (aLoad 2 (aStreamImage 0 zeroCrc)) .loading 8 false
       strays (s.regionRect 4) (imgStream (aStreamImage 0 zeroCrc)).recs = some (0, 0, true)) ∧
      (let s := loading (aLoad 2 []) .loading 8 false
       (s.regionRect 4).holds (frameAt 0) = false) := by decide +kernel

/-! ## Hypotheses that are met: Dawn and Dusk -/

def powered (p : Power) (vaux vin perst : Bool) : State :=
  let m := packed.mod
  { packed with mod := { m with power := p, vauxOk := vaux, vin48Ok := vin, pins := { m.pins with perst := perst } } }

theorem meets_DawnAndDusk :
    (∀ b : Bool, (powered .off b false false).mod.vauxOk = b) ∧
      (∀ b : Bool, let s := { powered .off false true true with nv := { packed.nv with firmwareOk := b } }
        s.mod.vauxOk = false ∧ s.mod.vin48Ok = true ∧ s.firmwareGood = b ∧ s.mod.pins.perst = true) ∧
      (∀ perst : Bool, let s := powered .standby true false perst
        s.mod.vin48Ok = false ∧ s.mod.vauxOk = true ∧ s.sec.mcRunning = true ∧ s.mod.pins.perst = perst ∧ s.imageGood = true ∧
          s.nv.failedStacks = [] ∧ s.nv.failedPcs = [] ∧ s.hbm.untrained = []) ∧
      (∀ good : Bool, let s := { powered .running true true false with nv := { packed.nv with imageOk := good } }
        s.imageGood = good ∧ s.mod.power = .running ∧ s.mod.vauxOk = true ∧ s.mod.vin48Ok = true ∧ s.sec.mcRunning = true ∧
          s.mod.pins.perst = false) ∧
      (powered .dawnHeld true true true).mod.power = .dawnHeld := by decide +kernel

/-- Dusk drains since tick 3, for two ticks. -/
def dusking (step now : Nat) (l : List Desc) : State :=
  let s := { packed with shep := { packed.shep with descs := l }, mod := { packed.mod with dusk := { step := step, since := 3, grace := 2 } } }
  { s with tick := { s.tick with count := now } }

theorem meets_dusk :
    ((dusking 0 4 []).mod.power = .running ∧ (dusking 0 4 []).mod.dusk.step = 0 ∧ (dusking 1 4 []).mod.dusk.step ≠ 0) ∧
      ((dusking 2 4 [theDesc]).allStopped = false ∧ (dusking 2 4 [theDesc]).tick.count < 3 + 2) ∧
      ((dusking 2 5 [theDesc]).allStopped = false ∧ 3 + 2 ≤ (dusking 2 5 [theDesc]).tick.count ∧
        (dusking 2 5 [theDesc]).desc? 1 = some theDesc ∧ theDesc.phase = .running) ∧
      ((dusking 2 5 []).allStopped = true ∧ (dusking 2 5 []).duskWaits = false ∧ (dusking 2 5 []).mod.dusk.thenReset = false) ∧
      State.duskWaits { dusking 2 5 [] with config := { packed.config with load := some (aLoad 1 []) } } = true := by decide +kernel

/-! ## Hypotheses that are met: power, telemetry, security -/

def leashed (l : LeashSt) (t : LeashTime) : State := { packed with leash := l, ltime := t }

/-- Power of 10 kW above the last millisecond. -/
def atOneMs (s : State) : State := { s with tick := { s.tick with now := 1000000 } }
def hotter (duty want : Nat) (since : Nat) : State :=
  atOneMs (leashed { duty := duty, want := want } { history := [(1000000, 1000000, 40000)], sinceDown := since })

theorem meets_TripsMuzzleTheModule :
    (leashed { changing := true } {}).leash.changing = true ∧ packed.leash.changing = false ∧
      (let r : Thermal := ⟨[(100, 100, 99)], [104]⟩
       hottest r < 110 ∧ r.stackList.foldl max 0 < 105 ∧ (packed.setReg 0x11000C 0x555A5F).thAlarm < hottest r ∧
         packed.ltime.alarmOver = false) ∧
      (let r : Thermal := ⟨[(20, 124, 125)], [104]⟩
       hottest r < 125 ∧ 110 ≤ hottest r) ∧
      (let r : Thermal := ⟨[(109, 109, 109)], [105]⟩
       hottest r < 125 ∧ 105 ≤ r.stackList.foldl max 0) ∧
      (let r : Thermal := ⟨[(40, 40, 40)], []⟩
       hottest r ≤ packed.thAlarm) ∧ 125 ≤ hottest ⟨[(125, 125, 10)], []⟩ ∧ packed.mod.power = .running ∧
      (powered .standby true false false).mod.power ≠ .running := by decide +kernel

theorem meets_Leash :
    ((hotter 1 5 0).leash.duty = 1 ∧ (hotter 1 5 0).overSust = true ∧ (hotter 1 5 0).leash.capUnmet = false) ∧ packed.overSust = false ∧
      (let s := leashed { stall := true, p4 := 100000 } {}
       s.leash.stall = true ∧ s.peakLimit * 4 < s.leash.p4) ∧ packed.leash.p4 ≤ packed.peakLimit * 4 ∧
      (let s := leashed { estimate := 100, measure := 300 } { lastSample := some 0 }
       s.leash.differ = true ∧ s.leash.modelMismatch = false ∧ s.ltime.lastSample = some 0 ∧ 1200 < ((1201 : Int) - 0).natAbs ∧
         ((1200 : Int) - 0).natAbs ≤ 1200) ∧ packed.leash.differ = false ∧
      (let s := leashed { stackList := [255] } {}
       s.hbmThrottle < s.leash.tstack ∧ s.hbm.held = false ∧ s.ltime.hbmOrder = none ∧ s.ltime.lastThrottle = none ∧ s.hbm.op.toNat < 2) ∧
      packed.leash.tstack ≤ packed.hbmThrottle := by decide +kernel

theorem meets_ladder :
    ((hotter 9 5 100000).overSust = true ∧ 100 * usNs ≤ (hotter 9 5 100000).ltime.sinceDown ∧ 1 < (hotter 9 5 100000).leash.duty) ∧
      (∀ fixed : Bool, let s := (hotter 16 5 100000).setReg 0x110008 (if fixed then 0xD else 5)
        s.overSust = true ∧ s.leash.duty = 16 ∧ s.leash.want ≠ 0 ∧ s.fixedEn = fixed) ∧ (hotter 16 0 100000).leash.want = 0 ∧
      ((hotter 16 5 99999).ltime.sinceDown < 100 * usNs ∧ (hotter 16 5 99999).overSust = true) ∧
      (hotter 16 5 0).overPeak = true ∧ ((leashed { stall := true } {}).overPeak = false ∧ (leashed { stall := true } {}).leash.stall = true) ∧
      (leashed { sensorSuspect := true } {}).leash.sensorSuspect = true ∧
      (let s := packed.setReg 0x110008 0x10
       s.leash.sensorSuspect = false ∧ s.fixedEn = false ∧ s.boostEn = true ∧ s.leash.tj < 85) ∧
      85 ≤ (leashed { tj := 85 } {}).leash.tj ∧ (∀ p, packed.running p = none) := by
  refine ⟨?_, ?_, ?_, ?_, ?_, ?_, ?_, ?_, ?_, fun p => rfl⟩ <;> decide +kernel

def anEvent (code inst : Nat) : TelEvent := ⟨.alarm, code, inst, 0, 0, 1, 0, []⟩

theorem meets_telemetry :
    (let s := packed.setReg 0x120034 0x70003
     bits (s.regN 0x120034) 0 16 ≠ 0 ∧ s.tick.count % 3 = 0 ∧ s.tel.metricAt ≠ some s.tick.count) ∧
      bits ((packed.setReg 0x120034 3).regN 0x120034) 16 3 = 0 ∧ bits ((packed.setReg 0x120034 0).regN 0x120034) 0 16 = 0 ∧
      (∃ x ∈ [anEvent 3 4], sameKey x (anEvent 3 4) = true) ∧ (∀ x ∈ [anEvent 3 4], sameKey x (anEvent 3 5) = false) ∧
      (let l := (List.range 256).map (anEvent 3)
       256 ≤ (l.filter fun x => !isOverflow x).length ∧ (∀ x ∈ l, sameKey x (anEvent 4 0) = false)) ∧
      packed.pathUp .nv = true ∧ (packed.tel.path .nv).hasToken = true ∧ packed.room .nv .log = true ∧
      ({ (packed.tel.path .nv) with tokens := 0 } : PathSt).hasToken = false ∧
      ({ packed.cnt with frozen := true } : Counters).frozen = true := by decide +kernel

theorem meets_counters :
    (let u : CntUnit := { ctrs := [(2, { val := 2 ^ 48 - 1 }), (3, { cfg := 2 ^ 27, val := 7 })] }
     (u.ctr 2).val + 1 = 2 ^ 48 ∧ (u.ctr 3).chain = true ∧ (u.ctr 3).val + ((u.ctr 2).val + 1) / 2 ^ 48 < 2 ^ 48) ∧
      (let u : CntUnit := { ctrs := [(3, { val := 2 ^ 48 - 1 })] }
       2 ^ 48 ≤ (u.ctr 3).val + 1 ∧ (u.ctr 3).val + 0 < 2 ^ 48) := by decide +kernel

/-- An update of `n` bytes at host address 0x8000. -/
def updating (u : UpdSt) (n : Word) (fails : Bool) : State :=
  let s := (packed.setReg 0x140208 n).setReg 0x140200 0x8000
  { s with sec := { s.sec with upd := u }, host := { s.host with fails := if fails then [(0x8000, 1)] else [] } }

theorem meets_updates :
    (updating { state := 1 } 0 false).sec.upd.state = 1 ∧ (updating {} 0 false).sec.upd.state ≠ 1 ∧ (updating {} 0 false).sec.rcv.state ≠ 1 ∧
      (updating {} 0 false).mod.dusk.step = 0 ∧ (updating {} 0 false).regN 0x140208 = 0 ∧
      (∀ fails : Bool, (updating {} 4 fails).hostRead ((updating {} 4 fails).reg64 0x140200) 4 =
        if fails then none else some (List.replicate 4 0)) ∧
      (∀ k : Bool, objectCheck packed.sec.fuses (if k then 1 else 2) (List.replicate 4 0) ≠ 0) ∧
      ((packed.setReg 0x140408 4).regN 0x140408 = 4 ∧
        (packed.setReg 0x140408 4).hostRead ((packed.setReg 0x140408 4).reg64 0x140400) 4 = some (List.replicate 4 0)) ∧
      (∀ b : Bool, (powered (if b then .recovery else .running) true true true).mod.power = if b then .recovery else .running) ∧
      packed.sec.nonceFresh = false ∧ packed.sec.mcRunning = true ∧ ({ packed.sec.fuses with debugDisabled := true } : Fuses).debugDisabled = true ∧
      (∀ w : Bool, { packed.nv with worn := if w then [72, 584] else [71] }.areaWorn 1 = w ∧ { packed.nv with worn := if w then [72, 584] else [71] }.areaWorn 2 = w) ∧
      packed.mod.power = .running ∧ (powered .standby true true true).sec.mcRunning = true ∧
      (powered .standby true true true).mod.power = .standby ∧ packed.mod.dusk.step = 0 ∧
      (let s := { powered .standby true true true with sec := { packed.sec with mcRunning := false } }
       s.sec.mcRunning = false ∧ s.mod.vauxOk = true ∧ s.firmwareGood = true ∧ s.mod.vin48Ok = true ∧ s.mod.pins.perst = true) := by
  decide +kernel

theorem meets_RespondersAnswer :
    packed.sec.mcRunning = true ∧ ({ packed.sec with mcRunning := false } : SecSt).mcRunning = false ∧ SpdmVersion.v13 ≠ .v14 ∧
      packed.scanOk = false ∧ (powered .recovery true true true).scanOk = true := by decide +kernel

/-! ## Hypotheses that are met: the rules stated whole -/

theorem meets_ExactEntry :
    (∀ k : Fin 4, let w := BitVec.ofNat 128 (if k = 0 then 2 ^ 98 else if k = 1 then 2 ^ 96 + 2 ^ 97 else if k = 2 then 2 ^ 97 else 2 ^ 95)
      w.getLsbD 101 = false ∧ w.getLsbD 98 = decide (k = 0) ∧ (k ≠ 0 → w.getLsbD 96 = decide (k = 1)) ∧
        (k = 2 → w.getLsbD 97 = true) ∧ (k = 3 → w.toNat % 2 ^ 96 ≠ 0 ∧ w.getLsbD 97 = false)) ∧
      (0 : QWord).toNat % 2 ^ 96 = 0 := by decide +kernel

theorem meets_MuzzlesAreHeldIndependently (fn : Fn) :
    ({ packed with muzzle := { packed.muzzle with releases := [(.module, fn)], triggers := [⟨.pack 3, 1⟩] } } : State).muzzle.releases = [(.module, fn)] ∧
      (∀ x ∈ [(⟨.pack 3, 1⟩ : Trigger)], x.scope ≠ .module) ∧
      (let s := { packed with muzzle := { packed.muzzle with module := { packed.muzzle.module with active := true } } }
       s.muzzle.module.active = true ∧ s.mayMuzzle 0 (.pack 3) = true) := by
  refine ⟨rfl, ?_, ?_⟩ <;> decide +kernel


/-! ## Hypotheses that are met: signed objects, where the signatures verify -/

/-- Every signature verifies: what the opaque `Config.verify` answers is the only thing assumed. -/
def allVerify : Prop := ∀ k m g, Config.verify k m g = true

/-- The bytes of a signature block of a KIND at an address: the rest of it is zero. -/
def blockAt (a kind : Nat) : Memory := [(a, 0x42), (a + 1, 0x47), (a + 2, 0x49), (a + 3, 0x53), (a + 4, BitVec.ofNat 8 kind)]

/-- Fuses that hold the digest of the root key of that block. -/
def fusesOf (m : Memory) (a : Nat) : Fuses := { rootDigest := BitVec.ofNat 512 (leNat (hash (m.readBytes (a + 64) 1952))) }

theorem slice_readBytes (m : Memory) (a n k j : Nat) (h : k + j ≤ n) : slice (m.readBytes a n) k j = m.readBytes (a + k) j := by
  rw [slice, Memory.drop_readBytes, Memory.take_readBytes, Nat.min_eq_left (by omega)]

/-- A block that stands at the end of an object verifies. -/
theorem verify_block (hv : allVerify) (m : Memory) (a n kind : Nat)
    (h : sigBytes ≤ n) (hk : m.readBytes (a + (n - sigBytes)) 64 = (blockAt 0 kind).readBytes 0 64)
    (hc : let b := (blockAt 0 kind).readBytes 0 64
      sliceN b 0 4 = 0x53494742 ∧ sliceN b 4 1 = kind ∧ sliceN b 5 1 = 0 ∧ sliceN b 6 1 = 0 ∧ sliceN b 7 57 = 0) :
    (fusesOf m (a + (n - sigBytes))).verify kind (m.readBytes a n) = 0 := by
  have hb : sigBlock (m.readBytes a n) = m.readBytes (a + (n - sigBytes)) sigBytes := by
    rw [sigBlock, Memory.length_readBytes, Memory.drop_readBytes, show n - (n - sigBytes) = sigBytes by omega]
  have hs (k j : Nat) (hj : k + j ≤ 64) : slice (sigBlock (m.readBytes a n)) k j = slice ((blockAt 0 kind).readBytes 0 64) k j := by
    rw [hb, slice_readBytes _ _ _ _ _ (by simp only [sigBytes]; omega), ← hk, slice_readBytes _ _ _ _ _ hj]
  have hl : leNat (hash (m.readBytes (a + (n - sigBytes) + 64) 1952)) < 2 ^ 512 := by
    refine Nat.lt_of_lt_of_le (leNat_lt _) ?_
    rw [show (2 : Nat) ^ 512 = 256 ^ 64 by decide +kernel]
    exact Nat.pow_le_pow_right (by omega) (by simp only [Machine.hash, List.length_take]; omega)
  have hr : slice (sigBlock (m.readBytes a n)) 64 1952 = m.readBytes (a + (n - sigBytes) + 64) 1952 := by
    rw [hb, slice_readBytes _ _ _ _ _ (by simp only [sigBytes]; omega)]
  obtain ⟨h0, h4, h5, h6, h7⟩ := hc
  unfold Fuses.verify
  simp only [sliceN, keyIndex, svnOf, Memory.length_readBytes, hs 0 4 (by omega), hs 4 1 (by omega), hs 5 1 (by omega), hs 6 1 (by omega),
    hs 7 57 (by omega), hr] at h0 h4 h5 h6 h7 ⊢
  simp only [allVerify] at hv
  simp only [h0, h4, h5, h6, h7, hv, fusesOf, BitVec.toNat_ofNat, Nat.mod_eq_of_lt hl]
  simp [Nat.not_lt.mpr h]

/-- Host memory holds an object with that block at its end; it is signed with the fused root key. -/
def signedState (m : Memory) (a n : Nat) : State :=
  let s := (((packed.setReg 0x140208 n).setReg 0x140200 0x8000).setReg 0x140408 n).setReg 0x140400 0x8000
  { s with host := { s.host with mem := m }, sec := { s.sec with fuses := fusesOf m (a + (n - sigBytes)), nonceFresh := true, nonce := 0 }, mod := { s.mod with serial := 0 } }

theorem meets_verified (hv : allVerify) :
    ∃ (s : State) (b : List Byte), s.regN 0x140208 = 10586 ∧ s.hostRead (s.reg64 0x140200) 10586 = some b ∧ objectCheck s.sec.fuses 1 b = 0 ∧
      s.regN 0x140408 = 10586 ∧ s.hostRead (s.reg64 0x140400) 10586 = some b ∧ s.sec.upd.state ≠ 1 ∧ s.mod.dusk.step = 0 := by
  have h := verify_block hv (blockAt 0x8000 1) 0x8000 10586 1 (by decide) (by decide +kernel) (by decide +kernel)
  refine ⟨signedState (blockAt 0x8000 1) 0x8000 10586, (blockAt 0x8000 1).readBytes 0x8000 10586, by decide +kernel, ?_, ?_,
    by decide +kernel, ?_, by decide +kernel, by decide +kernel⟩
  · rw [show (signedState (blockAt 0x8000 1) 0x8000 10586).reg64 0x140200 = 0x8000 by decide +kernel]; rfl
  · simp only [objectCheck, signedState]
    simp [h]
  · rw [show (signedState (blockAt 0x8000 1) 0x8000 10586).reg64 0x140400 = 0x8000 by decide +kernel]; rfl

theorem meets_debug (hv : allVerify) : ∃ (s : State) (b : List Byte), s.hostRead (s.reg64 0x140320) (64 + sigBytes) = some b ∧ s.debugOk b = true := by
  have h := verify_block hv (blockAt 64 4) 0 10650 4 (by decide) (by decide +kernel) (by decide +kernel)
  have hz (k j : Nat) (hj : k + j ≤ 64) : slice ((blockAt 64 4).readBytes 0 10650) k j = slice ((blockAt 64 4).readBytes 0 64) k j := by
    rw [slice_readBytes _ _ _ _ _ (by omega), slice_readBytes _ _ _ _ _ hj]
  refine ⟨signedState (blockAt 64 4) 0 10650, (blockAt 64 4).readBytes 0 10650, ?_, ?_⟩
  · rw [show (signedState (blockAt 64 4) 0 10650).reg64 0x140320 = 0 by decide +kernel]; rfl
  · simp only [State.debugOk, sliceN, hz 0 32 (by omega), hz 32 16 (by omega), hz 48 1 (by omega), hz 49 15 (by omega)]
    simp only [signedState]
    simp only [h, Memory.length_readBytes]
    decide +kernel

/-- A partial image without frames: its header, an END record at 256, its one frame range and its signature block. -/
def emptyImage : Memory :=
  [(0, 0x00), (1, 0x36), (2, 0x39), (3, 0x54), (4, 2), (6, 1), (8, 0x6A), (9, 0x2A), (13, 1), (16, 8), (28, 8), (29, 1), (32, 1), (44, 0x10), (45, 1),
    (48, 0x5A), (49, 0x29), (256, 2), (264, 0x28), (265, 0x28), (266, 0xC5)] ++ blockAt 272 3

theorem meets_plCheck (hv : allVerify) : ∃ (s : State) (l : PartialLoad), s.config.load = some l ∧ l.step = 1 ∧ s.plCheck l = none := by
  have h := verify_block hv emptyImage 0 10858 3 (by decide) (by decide +kernel) (by decide +kernel)
  let l : PartialLoad := aLoad 1 (emptyImage.readBytes 0 10858)
  let s0 := loading l .isolated 8 false
  let s : State := { s0 with
    config := { s0.config with imageRegions := [0x4C52828] }, sec := { s0.sec with fuses := fusesOf emptyImage 272 } }
  have hz (k j : Nat) (hj : k + j ≤ 272) : slice (emptyImage.readBytes 0 10858) k j = slice (emptyImage.readBytes 0 272) k j := by
    rw [slice_readBytes _ _ _ _ _ (by omega), slice_readBytes _ _ _ _ _ hj]
  have hr : s.regionRect 4 = ⟨true, 0, 10, 20, 5, 6, 8⟩ := by decide +kernel
  have hi (f : FrameAt) : (s.regionRect 4).holds f = true → s.config.isStatic f = false := by
    intro hf
    rw [hr] at hf
    show (!([0x4C52828].any fun w => (regionRectOf w 0).holds f)) = false
    rw [List.any_cons, show regionRectOf 0x4C52828 0 = ⟨true, 0, 10, 20, 5, 6, 0⟩ by decide +kernel]
    simpa [RegionRect.holds] using hf
  have c (k j v : Nat) (hj : k + j ≤ 272) (h : sliceN (emptyImage.readBytes 0 272) k j = v) :
      sliceN (emptyImage.readBytes 0 10858) k j = v := by rw [sliceN, hz k j hj]; exact h
  have c0 := c 0 4 0x54393600 (by omega) (by decide +kernel)
  have c4 := c 4 2 2 (by omega) (by decide +kernel)
  have c6 := c 6 1 1 (by omega) (by decide +kernel)
  have c7 := c 7 1 0 (by omega) (by decide +kernel)
  have c8 := c 8 4 10858 (by omega) (by decide +kernel)
  have c12 := c 12 4 256 (by omega) (by decide +kernel)
  have c16 := c 16 4 8 (by omega) (by decide +kernel)
  have c28 := c 28 4 264 (by omega) (by decide +kernel)
  have c32 := c 32 2 1 (by omega) (by decide +kernel)
  have c34 := c 34 2 0 (by omega) (by decide +kernel)
  have c36 := c 36 4 0 (by omega) (by decide +kernel)
  have c40 := c 40 4 0 (by omega) (by decide +kernel)
  have c44 := c 44 4 272 (by omega) (by decide +kernel)
  have c48 := c 48 4 10586 (by omega) (by decide +kernel)
  have c52 := c 52 12 0 (by omega) (by decide +kernel)
  have c64 := c 64 64 0 (by omega) (by decide +kernel)
  have c128 := c 128 128 0 (by omega) (by decide +kernel)
  have c264 := c 264 4 0xC52828 (by omega) (by decide +kernel)
  have hh : headOk false (emptyImage.readBytes 0 10858) = true := by
    unfold headOk
    simp only [c0, c4, c6, c7, c8, c12, c16, c28, c32, c34, c36, c40, c44, c48, c52, c64, c128, Memory.length_readBytes]
    simp [c264, sigBytes]
  have hw : (imgStream (emptyImage.readBytes 0 10858)).writes = some 0 := by
    unfold imgStream
    rw [c12, c16, slice_readBytes _ _ _ _ _ (by omega)]
    decide +kernel
  have hg : imgRanges (emptyImage.readBytes 0 10858) = [regionRectOf 0xC52828 0] := by
    unfold imgRanges
    simp [c32, c28, c264]
  have hv' : s.sec.fuses.verify 3 (emptyImage.readBytes 0 10858) = 0 := h
  have hf : (allFrames.any fun f => (s.regionRect 4).holds f && s.config.isStatic f) = false := by
    rw [List.any_eq_false]
    intro f _ hb
    rw [Bool.and_eq_true] at hb
    simp [hi f hb.1] at hb
  refine ⟨s, l, rfl, rfl, ?_⟩
  show (if s.sec.fuses.verify 3 (emptyImage.readBytes 0 10858) ≠ 0 then some 4
    else if !headOk false (emptyImage.readBytes 0 10858) || sliceN (emptyImage.readBytes 0 10858) 7 1 != (s.regionRect 4).die ||
        (imgStream (emptyImage.readBytes 0 10858)).writes.isNone then some 5
    else if !((s.regionRect 4).enabled && (imgRanges (emptyImage.readBytes 0 10858)).all fun q => q.inside (s.regionRect 4)) then some 6
    else if allFrames.any fun f => (s.regionRect 4).holds f && s.config.isStatic f then some 7
    else none : Option (BitVec 4)) = none
  rw [hv', hh, c7, hw, hg, hf, hr]
  decide +kernel


/-! ## Ill-formed commands, one for each check -/

def ones (n : Nat) : List Byte := List.replicate n 1

theorem test_wf_refuses_ticks :
    (Instr.tick { stores := [(2 ^ 64, 1)] }).wf = false ∧ (Instr.tick { fails := [(2 ^ 64 - 1, 2)] }).wf = false ∧
      (Instr.tick { stores := [(2 ^ 64 - 1, 1)], fails := [(2 ^ 64 - 1, 1)] }).wf = true := by decide +kernel

theorem test_wf_refuses_data :
    (Instr.rwrite {src := 0, vc := 0} (ones 4097)).wf = false ∧ (Instr.tsend {src := 0, vc := 0} (ones 4097)).wf = false ∧
      (Instr.mcast {src := 0, vc := 0} (ones 4097)).wf = false ∧ (Instr.readData {src := 0, vc := 0} (ones 4097)).wf = false ∧
      (Instr.readData {src := 0, vc := 0} (ones 4)).wf = true := by
  simp only [Instr.wf, wfData, ones, List.length_replicate]; decide

theorem test_wf_refuses_units :
    (Instr.mxrun ⟨0, 0⟩ .mx { rows := [⟨192, 0, 1, false⟩] }).wf = false ∧ (Instr.hookReturnBeat 0 ⟨0, true, ones 63⟩).wf = false ∧
      (Instr.portInitiatorRequest 0 (.write 0 (ones 257))).wf = false ∧ (Instr.bar2Access 0 true [1] 2).wf = false ∧
      (Instr.codewordReceive 0 (.data [0] [])).wf = false ∧
      (Instr.codewordReceive 0 (.data (List.replicate 544 0) (List.replicate 4 (List.replicate 680 0)))).wf = false ∧
      (Instr.codewordReceive 0 (.data (List.replicate 544 0) (List.replicate 5 (List.replicate 679 0)))).wf = false ∧
      (Instr.codewordReceive 0 (.marker (List.replicate 6 ⟨0, 0, 0⟩))).wf = false ∧ (Instr.flitReceive 0 0 (ones 255)).wf = false ∧
      (Instr.thermalSample ⟨[(40, 40, 40)], List.replicate 12 40⟩).wf = false ∧
      (Instr.thermalSample ⟨List.replicate 100 (40, 40, 40), [40]⟩).wf = false ∧ (Instr.hbmRead 0 none [⟨0, 0, 65⟩]).wf = false ∧
      (Instr.hbmWrite 0 [] none [⟨0, 0, 65⟩]).wf = false ∧ (Instr.wcBufferFlush 0 [⟨0, 0, 65⟩]).wf = false ∧
      (Instr.patrolRead 0 0 [⟨0, 0, 65⟩]).wf = false := by decide +kernel

/-! ## The spec's worked words and figures -/

/-- Chapter 8, one FP4 block of the decode step. -/
theorem test_words_of_the_decode_step :
    TileWord.decode 0x00020050_00440020#128 = some (.mxload ⟨0x400, 1, 5, 0, 128, false⟩) ∧
      TileWord.decode 0x21#128 = some .mxswap ∧
      TileWord.decode 0x00020150_00600022#128 = some (.mxrun ⟨0x2000, 1, 5, 1, 0, true, 0, 0, 0, false, 0⟩) ∧
      TileWord.decode 0x48_80200110_00A40023#128 = some (.mxdrain ⟨0x2400, 2, 1, 1, 0, 0, 0, 1, 0, 0x2440, 0, false, 0⟩) := by decide +kernel

/-- Chapter 10, the four-point transform; and a word with a reserved bit set. -/
theorem test_word_of_the_transform :
    TileWord.decode 0x4010_4001_0060#128 = some (.spfft4 ⟨0x100, 0x100, 1, 0, false, 2⟩) ∧
      TileWord.decode (2#128 ^ 127 + 0x21#128) = none := by decide +kernel

/-- Chapter 6: an exact entry of 36.375, scaled by four, in E4M3, by RNE and by SR with u = 0xF0_1234; and in FP4. -/
theorem test_exact_block :
    let e : QWord := 0x24_60000000#128 + 1#128 <<< 99
    let x := (entryNum e).mul (.fin false 4 0)
    entryNum e = .fin false 0x24_60000000 (-32) ∧ (e4m3.convert .rne false x).code = 0x71 ∧ (e4m3.convert (.sr 0xF01234) false x).code = 0x72 ∧
      (e4m3.convert (.sr 0xE7FFFF) false x).code = 0x71 ∧ (fp4.convert .rne false x).code = 7 ∧ (fp4.convert .rne false x).ovf = true := by
  decide +kernel

/-- Chapter 6, one FP32 product: the split of 0x3FAAAAAB and its three groups with 3.0. -/
theorem test_fp32_product :
    let s := splitFp32 0x3FAAAAAB
    let t := splitFp32 0x40400000
    s.1 = bf16.decode 0x3FAA ∧ s.2.1 = some (bf16.decode 0x3BAA) ∧ s.2.2 = some (bf16.decode 0x37AB) ∧ t.1 = bf16.decode 0x4040 ∧
      toE ((bf16.decode 0x3FAA).mul (bf16.decode 0x4040)) = 0x1007F0000 ∧
      (fp32.convert .rne true ((fp32.decode 0x3FAAAAAB).mul (fp32.decode 0x40400000))).code = 0x40800000 := by decide +kernel

/-- Chapter 13: where device physical address 0x12_3450_0D40 lies, healthy and under the other bank masks. -/
theorem test_hbm_address :
    let u := unitOf 0x1234500D40
    let s := (((packed.setReg 0x83040 0x880).setReg 0x83044 0x1100).setReg 0x83048 0x2200).setReg 0x8304C 0x4400
    u = ⟨61083650, 3⟩ ∧ u.grp = 0 ∧ u.gs = 30541825 ∧ u.stack = 5 ∧ UnitId.stack ⟨61083650, 5⟩ = 1 ∧ u.pc = 1 ∧ packed.bankOf u.gs = 0 ∧
      s.bankOf u.gs = 1 := by decide +kernel

/-- Chapter 17: frame 0x38A3, whose die, column, band and minor the decoder example gives. -/
theorem test_frame_address : frameAt 0x38A3 = ⟨3, 5, 14, 0⟩ ∧ FrameAt.addr ⟨3, 5, 14, 0⟩ = 0x38A3 := by decide +kernel

/-- Chapter 14: the window of the example, whose lane 2 is over threshold. -/
theorem test_worst_lane : worstLane upLink [20, 35, 3100, 41, 18] = some 2 := by decide +kernel

end Sys2Proof.Tests
end

section
/-! SUPPORT. What the shared operations of the module at work do, said once: the order in which a key sorts, the Pack
and descriptor updates, a cue's level, and what stopping a Pack leaves alone. -/
namespace Sys2Proof.Machine
open Sys2Proof

/-! ## Sorting by a key -/

theorem mem_insertBy {α : Type} (k : α → Nat) (x y : α) (l : List α) : y ∈ insertBy k x l ↔ y = x ∨ y ∈ l := by
  induction l with
  | nil => simp [insertBy]
  | cons z l ih =>
    by_cases h : k x < k z
    · simp [insertBy, h]
    · simp [insertBy, h, ih, or_left_comm]

theorem insertBy_pairwise {α : Type} (k : α → Nat) (x : α) (l : List α) (h : l.Pairwise fun a b => k a ≤ k b) :
    (insertBy k x l).Pairwise fun a b => k a ≤ k b := by
  induction l with
  | nil => simp [insertBy]
  | cons z l ih =>
    obtain ⟨hz, hl⟩ := List.pairwise_cons.mp h
    by_cases hx : k x < k z
    · simp only [insertBy, hx, if_true, List.pairwise_cons]
      refine ⟨fun y hy => ?_, hz, hl⟩
      rcases List.mem_cons.mp hy with rfl | hy
      · exact Nat.le_of_lt hx
      · exact Nat.le_trans (Nat.le_of_lt hx) (hz y hy)
    · simp only [insertBy, hx, if_false, List.pairwise_cons]
      refine ⟨fun y hy => ?_, ih hl⟩
      rcases (mem_insertBy k x y l).mp hy with rfl | hy
      · exact Nat.not_lt.mp hx
      · exact hz y hy

theorem mem_sortBy {α : Type} (k : α → Nat) (y : α) (l : List α) : y ∈ sortBy k l ↔ y ∈ l := by
  have gen : ∀ acc, y ∈ l.foldl (fun acc x => insertBy k x acc) acc ↔ y ∈ acc ∨ y ∈ l := by
    induction l with
    | nil => simp
    | cons x l ih => intro acc; simp [ih, mem_insertBy, or_left_comm, or_assoc]
  simpa [sortBy] using gen []

theorem sortBy_pairwise {α : Type} (k : α → Nat) (l : List α) : (sortBy k l).Pairwise fun a b => k a ≤ k b :=
  List.foldlRecOn l _ List.Pairwise.nil fun acc h x _ => insertBy_pairwise k x acc h

/-- The head of a sorted list comes from the list, and nothing there has a smaller key. -/
theorem head?_sortBy {α : Type} (k : α → Nat) (l : List α) (x : α) (h : (sortBy k l).head? = some x) :
    x ∈ l ∧ ∀ y ∈ l, k x ≤ k y := by
  obtain ⟨ys, hs⟩ := List.head?_eq_some_iff.mp h
  have sorted := sortBy_pairwise k l
  rw [hs, List.pairwise_cons] at sorted
  refine ⟨(mem_sortBy k x l).mp (by simp [hs]), fun y hy => ?_⟩
  have hy' : y ∈ x :: ys := hs ▸ (mem_sortBy k y l).mpr hy
  rcases List.mem_cons.mp hy' with rfl | hy'
  · exact Nat.le_refl _
  · exact sorted.1 y hy'

variable (s : State)

/-! ## Descriptors -/

/-- What a descriptor is after an update that keeps its name. -/
theorem State.desc?_modDesc_same (id : Nat) (f : Desc → Desc) (d : Desc) (hd : s.desc? id = some d) (hf : ∀ d, (f d).id = d.id) :
    (s.modDesc id f).desc? id = some (f d) := by
  have found : ∀ l : List Desc, l.find? (fun d => d.id == id) = some d →
      (l.map fun d => if d.id == id then f d else d).find? (fun d => d.id == id) = some (f d) := by
    intro l
    induction l with
    | nil => simp
    | cons x l ih =>
      cases hx : x.id == id
      · simpa only [List.map_cons, List.find?_cons, hx, Bool.false_eq_true, if_false] using ih
      · simp only [List.map_cons, List.find?_cons, hx, if_true, hf, Option.some.injEq]
        exact fun h => congrArg f h
  exact found s.shep.descs hd

/-! ## What stopping a Pack leaves alone -/

/-- Updates of tiles, each of which may read the state, change nothing but the tiles. -/
theorem State.foldl_modTile_frame (f : State → Nat → TileSt → TileSt) (l : List Nat) :
    ∃ t, l.foldl (fun s i => s.modTile i (f s i)) s = { s with tiles := t } := by
  induction l generalizing s with
  | nil => exact ⟨s.tiles, rfl⟩
  | cons i l ih =>
    obtain ⟨t, ht⟩ := ih (s.modTile i (f s i))
    exact ⟨t, ht⟩

theorem State.stopTiles_frame (p : Nat) : ∃ t g, s.stopTiles p = { s with tiles := t, paging := g } := by
  obtain ⟨t, ht⟩ := s.foldl_modTile_frame (fun s i => TileSt.stopped (s.ctxBusy i)) (s.shape p).tiles
  unfold State.stopTiles
  rw [ht]
  exact ⟨t, _, rfl⟩

/-- R90: stopping a Pack's run touches its tiles, the hub check units, the links and the fabric's ports. -/
theorem State.stopPack_frame (p id : Nat) :
    ∃ t g k b, s.stopPack p id = { s with tiles := t, paging := g, links := k, fabric := b } := by
  unfold State.stopPack
  obtain ⟨t, g, h⟩ := State.stopTiles_frame
    ((s.modLf fun l => { l with reqs := l.reqs.filter fun q => !(q.desc == some id && q.first.isNone) }).modLf
      fun l => l.stopGroups id) p
  simp only [h]
  exact ⟨_, _, _, _, rfl⟩

/-- R53, R89, R90: a descriptor without an end takes the status. One that runs waits for its last transaction; any other
has ended. The cues are left to the record (log entry 118). -/
theorem State.endDesc_open (id st : Nat) (d : Desc) (hd : s.desc? id = some d)
    (ho : d.phase ∈ [DPhase.running, .finished, .arrived, .waiting, .parked]) :
    ∃ e, (s.endDesc id st).desc? id = some e ∧ e.status = st ∧
      e.phase = (if d.phase = .running ∨ d.phase = .finished then .ending else .ended) ∧
      (s.endDesc id st).host = s.host ∧ (s.endDesc id st).hbm = s.hbm ∧ (s.endDesc id st).regs = s.regs ∧
      (s.endDesc id st).cad = s.cad ∧ (s.endDesc id st).cue = s.cue := by
  rcases s.endDesc_cases id st with ⟨hn, -⟩ | ⟨d', hd', ⟨hr, h⟩ | ⟨hr, -⟩ | ⟨hr, h⟩⟩
  · simp [hd] at hn
  all_goals obtain rfl : d = d' := Option.some.inj (hd.symm.trans hd')
  · obtain ⟨t, g, k, b, hs⟩ := s.stopPack_frame d.pack id
    rw [h, hs]
    exact ⟨_, State.desc?_modDesc_same _ id _ d hd (fun _ => rfl), rfl, by rw [if_pos hr], rfl, rfl, rfl, rfl, rfl⟩
  · rcases hr with hr | hr | hr <;> simp [hr] at ho
  · rw [h]
    refine ⟨_, State.desc?_modDesc_same _ id _ d hd (fun _ => rfl), rfl, ?_, rfl, rfl, rfl, rfl, rfl⟩
    rcases hr with hr | hr | hr | hr | hr <;> simp [hr]

/-! ## Cues -/

/-- The levels of the cues once cue `c` is driven to `v`. -/
def drivenLevels (l : BitVec 16) (c : CueIx) (v : Bool) : BitVec 16 :=
  if v then l ||| (1#16 <<< c.val) else l &&& ~~~(1#16 <<< c.val)

theorem drivenLevels_same (l : BitVec 16) (c : CueIx) (v : Bool) : (drivenLevels l c v).getLsbD c.val = v := by
  cases v <;> simp [drivenLevels, c.isLt]

theorem drivenLevels_other (l : BitVec 16) (c : CueIx) (v : Bool) (k : Nat) (h : k ≠ c.val) :
    (drivenLevels l c v).getLsbD k = l.getLsbD k := by
  have off : (1#16 <<< c.val).getLsbD k = false := by
    rcases Nat.lt_or_gt_of_ne h with h | h
    · simp [h]
    · simp [show k - c.val ≠ 0 by omega]
  cases v
  · simp only [drivenLevels, Bool.false_eq_true, if_false, BitVec.getLsbD_and, BitVec.getLsbD_not, off, Bool.not_false,
      Bool.and_true, Bool.and_eq_left_iff_imp, decide_eq_true_eq]
    exact BitVec.lt_of_getLsbD
  · simp only [drivenLevels, if_true, BitVec.getLsbD_or, off, Bool.or_false]

theorem State.cueLevel_enabled (c : CueIx) (v : Bool) (h : s.cueEnabled c.val = true) :
    s.cueLevel c v = { s with cue := { s.cue with level := drivenLevels s.cue.level c v } } := by
  simp [State.cueLevel, h, drivenLevels]

theorem firstCue_mem (l : List CueAction) (a : CueAction) (h : firstCue l = some a) : a ∈ l := by
  induction l generalizing a with
  | nil => cases h
  | cons x l ih =>
    cases hf : firstCue l with
    | none =>
      simp only [firstCue, hf, Option.some.injEq] at h
      exact h ▸ List.mem_cons_self
    | some b =>
      simp only [firstCue, hf, Option.some.injEq] at h
      split at h
      · exact h ▸ List.mem_cons_of_mem x (ih b hf)
      · exact h ▸ List.mem_cons_self

/-- An action due on a cue is one of that cue. -/
theorem State.cue_of_firstCue (c : CueIx) (a : CueAction) (h : firstCue (s.cuesDue c) = some a) : a.act.cue = c := by
  obtain ⟨-, due⟩ := List.mem_filter.mp (firstCue_mem _ _ h)
  exact beq_iff_eq.mp (Bool.and_eq_true_iff.mp due).1

/-- R55: a scheduled action drives its level, marks its descriptor, and leaves the return of its pulse to come. -/
theorem State.cuePerform_action (a : CueAction) (hm : s.packMuzzled a.pack = false)
    (he : s.cueEnabled a.act.cue.val = true) (hr : a.ret = none) :
    ∃ o l, s.cuePerform a = { s with cue := { s.cue with level := drivenLevels s.cue.level a.act.cue a.act.level
                                                         owner := o, actions := l } }.modDesc a.desc
      fun d => { d with run := { d.run with cueActed := true } } := by
  unfold State.cuePerform
  simp only [hm, hr, Bool.false_eq_true, if_false]
  rw [State.cueLevel_enabled _ _ _ (by exact he)]
  split
  · exact ⟨_, _, rfl⟩
  · exact ⟨_, _, rfl⟩

/-- R55: the return of a pulse drives the prior level. -/
theorem State.cuePerform_return (a : CueAction) (due : Nat) (prior : Bool) (hm : s.packMuzzled a.pack = false)
    (he : s.cueEnabled a.act.cue.val = true) (hr : a.ret = some (due, prior)) :
    ∃ o, s.cuePerform a = { s with cue := { s.cue with level := drivenLevels s.cue.level a.act.cue prior, owner := o } } := by
  unfold State.cuePerform
  simp only [hm, hr, Bool.false_eq_true, if_false]
  rw [State.cueLevel_enabled _ _ _ (by exact he)]
  exact ⟨_, rfl⟩

/-- R56: the actions due on a cue leave the schedule, and all but one of them are counted. -/
def State.takeCue (s : State) (c : CueIx) : State :=
  { s with cue := { s.cue with
    actions := s.cue.actions.filter fun x => !((s.cuesDue c).contains x)
    conflicts := sat 8 (s.cue.conflicts + ((s.cuesDue c).length - 1))
    acted := [c.val] } }

/-- R56: on a cue that has not acted at the tick, the first action due is performed. -/
theorem State.evalCue_first (c : CueIx) (a : CueAction) (h : firstCue (s.cuesDue c) = some a) :
    s.newCueTick.evalCue c = (s.takeCue c).cuePerform a := by
  have h' : firstCue (s.newCueTick.cuesDue c) = some a := h
  simp only [State.evalCue, h']
  rfl

end Sys2Proof.Machine
end

section
/-! SUPPORT. The commands of the module at work, as their meanings. -/
namespace Sys2Proof.Machine
open Sys2Proof

variable (s : State)

theorem exec_hardDeadline (id : Nat) : exec (.hardDeadline id) s = .next (s.hardDeadline id) := rfl
theorem exec_dispatch (p : PackIx) : exec (.dispatch p) s = .next (s.dispatchPack p.val).evalCues := rfl
theorem exec_loopResume (p : PackIx) : exec (.loopResume p) s = .next (s.nextIteration p.val).evalCues := rfl
theorem exec_wholeReplay (p : PackIx) : exec (.wholeReplay p) s = .next (s.replayStep p.val) := rfl
theorem exec_reservedClass (fn : Fn) (ring : RingIx) :
    exec (.reservedClass fn ring) s = .next (s.arrive fn ring fun f => !f.known || f.version != 2) := rfl

theorem exec_classCommand (fn : Fn) (ring : RingIx) :
    ∀ p ∈ classCommands fn ring, exec p.1 s = .next (s.arrive fn ring (ofClass p.2)) := by
  simp only [classCommands, List.forall_mem_cons, List.not_mem_nil, false_implies, implies_true, and_true]
  exact ⟨rfl, rfl, rfl, rfl, rfl, rfl, rfl, rfl⟩

theorem exec_cueAction (c : CueIx) (a : CueAction) (h : firstCue (s.cuesDue c) = some a) (hr : a.ret = none) :
    exec (.cueAction c) s = .next (s.newCueTick.evalCue c) := by
  show execCueAction c s = _
  simp [execCueAction, h, hr]

theorem exec_cuePulseEnd (c : CueIx) (a : CueAction) (h : firstCue (s.cuesDue c) = some a) (hr : a.ret.isSome = true) :
    exec (.cuePulseEnd c) s = .next (s.newCueTick.evalCue c) := by
  show execCuePulseEnd c s = _
  simp [execCuePulseEnd, h, hr]

theorem exec_paramBlockRead (id : Nat) (ok : Bool) (x : Desc) (hx : s.desc? id = some x) (hp : x.phase = .reading) :
    exec (.paramBlockRead id ok) s =
      .next (if ok then s.readBlock x (s.tick.count + 2) else s.reject x stInvalid (s.tick.count + 2)) := by
  show execParamBlockRead id ok s = _
  simp [execParamBlockRead, hx, hp]

end Sys2Proof.Machine
end

section
/-! Hard deadlines and cues (R15, R52, R55, R56). -/
namespace Sys2Proof.Machine
open Sys2Proof

variable (s : State)

theorem State.hardDeadline_missed (id : Nat) (d : Desc) (hd : s.desc? id = some d) (hm : s.deadlineMissed d = true) :
    s.hardDeadline id = s.endDesc id stDeadline := by
  simp [State.hardDeadline, hd, hm]

theorem State.hardDeadline_met (id : Nat) (d : Desc) (hd : s.desc? id = some d) (hm : s.deadlineMissed d = false) :
    s.hardDeadline id = s := by
  simp [State.hardDeadline, hd, hm]

/-- R51, R52: no deadline is evaluated while the unit does not run, and none but a hard one that is reached. -/
theorem State.deadlineMissed_false (d : Desc) (h : s.cad.runs = false ∨ d.hard = false ∨ s.cad.pos < d.f.deadline) :
    s.deadlineMissed d = false := by
  rcases h with h | h | h
  · simp [State.deadlineMissed, h]
  · simp [State.deadlineMissed, h]
  · simp [State.deadlineMissed, Nat.not_le.mpr h]

theorem State.deadlineMissed_open (d : Desc) (hc : s.cad.runs = true) (ht : d.timed = true) (hh : d.hard = true)
    (hl : d.f.deadline ≤ s.cad.pos) (ho : d.phase ∈ [DPhase.running, .finished, .arrived, .waiting, .parked]) :
    s.deadlineMissed d = true := by
  simp only [List.mem_cons, List.not_mem_nil, or_false] at ho
  rcases ho with h | h | h | h | h <;> simp [State.deadlineMissed, hc, ht, hh, hl, h]

/-- Settles O11: the missed descriptor is ended as `endDesc` ends one; the cue takes the level of the first action due. -/
theorem deadlinesWithholdAndCuesAct : Obligations.DeadlinesWithholdAndCuesAct := by
  refine ⟨fun s id d hd => ⟨fun hc ht hh hl ho => ?_, fun h => ?_⟩, fun s c a hf he hm => ⟨fun hr => ?_, fun due prior hr => ?_⟩⟩
  · have missed := s.deadlineMissed_open d hc ht hh hl ho
    obtain ⟨e, hid, hst, hph, hhost, hhbm, hregs, hcad, hcue⟩ := s.endDesc_open id stDeadline d hd ho
    refine ⟨_, e, ?_, hid, hst, hph, congrArg HostSt.mem hhost, hhbm, hregs, hcad, hcue⟩
    rw [exec_hardDeadline, s.hardDeadline_missed id d hd missed]
  · rw [exec_hardDeadline, s.hardDeadline_met id d hd (s.deadlineMissed_false d h)]
  · obtain rfl := s.cue_of_firstCue c a hf
    obtain ⟨o, l, hp⟩ := (s.takeCue a.act.cue).cuePerform_action a hm he hr
    have hev := (s.evalCue_first _ a hf).trans hp
    exact ⟨_, (exec_cueAction s _ a hf hr).trans (congrArg _ hev), drivenLevels_same .., drivenLevels_other _ _ _,
      rfl, rfl, rfl, rfl, rfl, rfl⟩
  · obtain rfl := s.cue_of_firstCue c a hf
    obtain ⟨o, hp⟩ := (s.takeCue a.act.cue).cuePerform_return a due prior hm he hr
    have hev := (s.evalCue_first _ a hf).trans hp
    exact ⟨_, (exec_cuePulseEnd s _ a hf (by simp [hr])).trans (congrArg _ hev), drivenLevels_same ..,
      drivenLevels_other _ _ _, rfl, rfl, rfl, rfl, rfl, rfl, rfl⟩

end Sys2Proof.Machine
end

section
/-! The checks at fetch (R9, R75, R77). -/
namespace Sys2Proof.Machine
open Sys2Proof

/-- R75, R76: a descriptor with the class word and the cue list of its parameter block. -/
def Desc.withBlock (d : Desc) (b : List Byte) : Desc :=
  { d with classWord := BitVec.ofNat 64 (leNat ((b.drop 8).take 8))
           cues := (cueEntries (min (b.headD 0).toNat 16) (b.drop 16)).map Prod.fst }

variable (s u : State) (d : Desc) (b : List Byte) (due : Nat)

theorem State.admitBlock_admits (hc : s.checkBlock (d.withBlock b) b = none) (ha : s.admitStatus (d.withBlock b) = none) :
    s.admitBlock d b due = s.addDesc { d.withBlock b with phase := .arrived } := by
  unfold Desc.withBlock at *
  simp only [State.admitBlock, hc, ha]

theorem State.readBlock_bytes (h : s.readVa d d.f.param.toNat (16 * d.f.paramSize) = (.bytes b, u)) :
    s.readBlock d due = u.admitBlock d b due := by
  simp only [State.readBlock, h]

theorem State.readBlock_waits (h : s.readVa d d.f.param.toNat (16 * d.f.paramSize) = (.waits, u)) :
    s.readBlock d due = u := by
  simp only [State.readBlock, h]

theorem State.arriveDesc_rejects (st : Nat) (h : s.checkHead d = some st) : s.arriveDesc d = s.reject d st (d.tick + 1) := by
  simp only [State.arriveDesc, h]

theorem State.arriveDesc_remote (h : s.checkHead d = none) (hn : d.f.paramSize ≠ 0)
    (hr : s.spanRemote d.fn.val d.f.param.toNat (16 * d.f.paramSize) = true) :
    s.arriveDesc d = (s.addDesc { d with phase := .reading }).wantSpan d d.f.param.toNat (16 * d.f.paramSize) := by
  simp only [State.arriveDesc, h, hn, hr, if_true, if_false]

/-- A descriptor whose block is absent or in HBM goes through its remaining checks at once. -/
theorem State.arriveDesc_block (h : s.checkHead d = none)
    (hb : (d.f.paramSize = 0 ∧ b = [] ∧ u = s) ∨
      (d.f.paramSize ≠ 0 ∧ s.spanRemote d.fn.val d.f.param.toNat (16 * d.f.paramSize) = false ∧
        s.readVa d d.f.param.toNat (16 * d.f.paramSize) = (.bytes b, u))) :
    s.arriveDesc d = u.admitBlock d b (d.tick + 1) := by
  rcases hb with ⟨h0, rfl, rfl⟩ | ⟨hn, hr, hv⟩
  · simp only [State.arriveDesc, h, h0, if_true]
  · simp only [State.arriveDesc, h, hn, hr, Bool.false_eq_true, if_false]
    exact s.readBlock_bytes u d b _ hv

/-- The oldest read of a ring brings a descriptor that the command takes. -/
theorem State.arrive_takes (fn : Fn) (ring : RingIx) (r : FetchRead) (rest : List FetchRead) (pick : Fields → Bool)
    (hr : (s.ring fn.val ring.val).reads = r :: rest) (hb : s.hostRead r.addr 64 = some b) (hp : pick (fieldsOf b) = true) :
    s.arrive fn ring pick =
      (s.modRing fn.val ring.val fun k => { k with reads := rest }).arriveDesc (broughtBy fn ring r b) := by
  simp only [State.arrive, hr, hb, hp, if_true, broughtBy]

/-- R75, R77: a descriptor of another version, or of a class that is not one of R75's, is RESERVED_CLASS's. -/
theorem Fields.reserved_iff (f : Fields) :
    (!f.known || f.version != 2) = true ↔ f.version ≠ 2 ∨ f.cls = 0 ∨ 8 < f.cls.toNat := by
  have zero : f.cls = 0 ↔ f.cls.toNat = 0 := BitVec.toNat_inj.symm
  rw [Bool.or_eq_true, bne_iff_ne, zero, or_comm]
  refine or_congr Iff.rfl ?_
  simp only [Fields.known, Bool.not_eq_true', Bool.and_eq_false_iff, decide_eq_false_iff_not]
  omega

/-- R77: check 1 fails on another version, and on a class that is not one of R75's. -/
theorem State.checkHead_reserved (h : (!d.f.known || d.f.version != 2) = true) : s.checkHead d = some stInvalid := by
  have fails : (d.f.version != 2 || !d.f.known) = true := by rwa [Bool.or_comm]
  simp only [State.checkHead, fails, Bool.true_or, if_true]

/-- The command of a descriptor's class takes it to the checks. -/
theorem exec_classCommand_takes (fn : Fn) (ring : RingIx) (r : FetchRead) (rest : List FetchRead) (p : Instr × Byte)
    (hp : p ∈ classCommands fn ring) (hr : (s.ring fn.val ring.val).reads = r :: rest)
    (hb : s.hostRead r.addr 64 = some b) (hv : (fieldsOf b).version = 2) (hc : (fieldsOf b).cls = p.2) :
    exec p.1 s =
      .next ((s.modRing fn.val ring.val fun k => { k with reads := rest }).arriveDesc (broughtBy fn ring r b)) := by
  rw [exec_classCommand s fn ring p hp, s.arrive_takes b fn ring r rest _ hr hb (by simp [ofClass, hv, hc])]

/-- Settles O12, clause by clause from what `arriveDesc`, `readBlock` and `admitBlock` do with a descriptor. -/
theorem descriptorsAreCheckedBeforeTheyWait : Obligations.DescriptorsAreCheckedBeforeTheyWait := by
  refine ⟨fun s u fn ring r rest b blk p hp hr hb hv hc => ?_, fun s fn ring r rest b st hr hb => ?_,
    fun s u id x blk hx hph => ⟨?_, fun hw => ?_, fun hw hblk hadm => ?_⟩⟩
  · intro s1 d d' hh
    have takes : exec p.1 s = .next (s1.arriveDesc d) := exec_classCommand_takes s b fn ring r rest p hp hr hb hv hc
    refine ⟨fun hn hrem => ?_, fun hread hblk hadm => ?_⟩
    · rw [takes, s1.arriveDesc_remote d hh hn hrem]
    · rw [takes, s1.arriveDesc_block u d blk hh hread]
      exact congrArg _ (u.admitBlock_admits d blk _ hblk hadm)
  · intro s1 d
    refine ⟨fun p hp hv hc hh => ?_, fun hres => ?_⟩
    · rw [exec_classCommand_takes s b fn ring r rest p hp hr hb hv hc]
      exact congrArg _ (s1.arriveDesc_rejects d st hh)
    · have taken := (fieldsOf b).reserved_iff.mpr hres
      rw [exec_reservedClass, s.arrive_takes b fn ring r rest _ hr hb taken]
      exact congrArg _ (s1.arriveDesc_rejects d stInvalid (s1.checkHead_reserved d taken))
  · exact exec_paramBlockRead s id false x hx hph
  · rw [exec_paramBlockRead s id true x hx hph, if_pos rfl, s.readBlock_waits u x _ hw]
  · rw [exec_paramBlockRead s id true x hx hph, if_pos rfl, s.readBlock_bytes u x blk _ hw]
    exact congrArg _ (u.admitBlock_admits x blk _ hblk hadm)

end Sys2Proof.Machine
end

section
/-! Dispatch, LOOP iterations and whole replays (R8, R13, R17, R78, R115, R268). -/
namespace Sys2Proof.Machine
open Sys2Proof

variable (s : State) (p : Nat) (d : Desc)

theorem Desc.ring_le_of_otherKey_le (d e : Desc) (h : d.otherKey ≤ e.otherKey) : d.ring.val ≤ e.ring.val := by
  have hd := d.fn.isLt
  have he := e.fn.isLt
  simp only [Desc.otherKey] at h
  omega

/-- R78: the descriptor picked is eligible, and none that is has a lower ring number. -/
theorem State.pick_lowest (h : s.pick p = some d) :
    s.eligible p d = true ∧ d ∈ s.shep.descs ∧ ∀ e ∈ s.shep.descs, s.eligible p e = true → d.ring.val ≤ e.ring.val := by
  obtain ⟨hmem, hmin⟩ := head?_sortBy _ _ _ h
  obtain ⟨hin, helig⟩ := List.mem_filter.mp hmem
  exact ⟨helig, hin, fun e he hel => d.ring_le_of_otherKey_le e (hmin e (List.mem_filter.mpr ⟨he, hel⟩))⟩

theorem State.dispatchPack_picks (hfree : s.packFree p = true) (hp : s.pick p = some d) :
    s.dispatchPack p = s.dispatchDesc p d := by
  simp only [State.dispatchPack, hfree, hp, if_true]

/-- A descriptor at its dispatch, with the start position sampled (R10). -/
def Desc.dispatchedAt (d : Desc) (pos : Nat) : Desc :=
  { d with phase := .running, undispatched := false, run := { startPos := pos } }

/-- The Pack occupied by a descriptor that is dispatched, with what it latches (R8, R73). -/
def State.occupied (s : State) (p : Nat) (d : Desc) : State :=
  ((s.modPack p fun k => { k with
      desc := some d.id, lat := ⟨s.reg 0x50000, s.reg 0x50800, s.salt, d.f.output⟩ }).modDesc d.id fun x =>
    x.dispatchedAt s.cad.pos).exposeAtDispatch p d.id

/-- R149, R435: the dispatched descriptor of a Pack with its contents begins its COPY or loads its program. -/
theorem State.dispatchDesc_starts (hlost : (s.pack p).lost = false) :
    s.dispatchDesc p d = if d.f.cls == 2 then (s.occupied p d).startCopy p (d.dispatchedAt s.cad.pos)
      else (s.occupied p d).loadProgram p (d.dispatchedAt s.cad.pos) := by
  unfold State.dispatchDesc
  rw [hlost, if_neg Bool.false_ne_true]
  rfl

/-- Settles O13: `pick` is the head of a list sorted by ring, and `dispatchDesc` starts what it picked. -/
theorem dispatchStartsTheLowestRingsDescriptor : Obligations.DispatchStartsTheLowestRingsDescriptor := by
  refine ⟨State.pick_lowest, fun s p d hfree hp hlost => ?_⟩
  have starts := (s.dispatchPack_picks p d hfree hp).trans (s.dispatchDesc_starts p d hlost)
  refine ⟨fun hc => ?_, fun hc => ?_⟩
  · exact congrArg (fun t => (.next t.evalCues : Result)) (starts.trans (if_pos (beq_iff_eq.mpr hc)))
  · exact congrArg (fun t => (.next t.evalCues : Result)) (starts.trans (if_neg (mt beq_iff_eq.mp hc)))

theorem State.mayIterate_parked (hph : d.phase = .parked) (hq : s.quiescent p = true) (hm : s.packMuzzled p = false) :
    s.mayIterate p d = true := by
  simp [State.mayIterate, hph, hq, hm]

section
variable (hr : s.running p = some d)
include hr

theorem State.nextIteration_lost (hi : s.mayIterate p d = true) (hl : (s.pack p).lost = true) :
    s.nextIteration p = s.lostAgain p d := by
  simp [State.nextIteration, hr, hi, hl]

theorem State.nextIteration_noSlot (u : State) (hi : s.mayIterate p d = true) (hl : (s.pack p).lost = false)
    (hs : s.claimSlot d.fn.val d.cq = (false, u)) : s.nextIteration p = u := by
  simp [State.nextIteration, hr, hi, hl, hs]

/-- R17: with a slot for its record the iteration starts at the position sampled. -/
theorem State.nextIteration_starts (u : State) (hi : s.mayIterate p d = true) (hl : (s.pack p).lost = false)
    (hs : s.claimSlot d.fn.val d.cq = (true, u)) :
    s.nextIteration p = ((u.modDesc d.id fun x =>
      { x with phase := .running, slotHeld := true, run := { d.run with startPos := u.cad.pos } }).exposeAtDispatch p
        d.id).startProgram p { d with phase := .running, slotHeld := true, run := { d.run with startPos := u.cad.pos } } true := by
  simp [State.nextIteration, hr, hi, hl, hs]

/-- R115, R268: once the suspect tile is spared, the replay starts the program again unless the Pack lost its contents. -/
theorem State.replayStep_spared (t : TileId) (ht : (s.pack p).replaying = some t) (hph : d.phase = .running)
    (hsp : (s.pack p).spared = true) (hno : s.sparing t = false) (hmig : s.packMigrating p = false) :
    s.replayStep p = if (s.pack p).lost then s.lostAgain p d
      else (s.modPack p fun k => { k with replaying := none, spared := false }).startProgram p d false := by
  simp [State.replayStep, hr, ht, hph, hsp, hno, hmig]

end

/-- Settles O14, by the branches of `nextIteration` and of `replayStep`. -/
theorem loopAndReplayStartTheProgramAgain : Obligations.LoopAndReplayStartTheProgramAgain := by
  refine fun s u p d hr => ⟨fun hph hq hm => ?_, fun t ht hph hsp hno hmig => ?_⟩
  · have may := s.mayIterate_parked p.val d hph hq hm
    simp only [exec_loopResume]
    refine ⟨fun hl => ?_, fun hl hs => ?_, fun hl hs => ?_⟩
    · rw [s.nextIteration_lost p.val d hr may hl]
    · rw [s.nextIteration_noSlot p.val d hr u may hl hs]
    · rw [s.nextIteration_starts p.val d hr u may hl hs]
  · rw [exec_wholeReplay, s.replayStep_spared p.val d hr t ht hph hsp hno hmig]
    exact ⟨fun hl => by rw [hl, if_pos rfl], fun hl => by rw [hl, if_neg Bool.false_ne_true]⟩

end Sys2Proof.Machine
end

section
/-! SUPPORT. The Muzzle at work, said once: what ending descriptors, driving cues safe, entering and meeting a condition
leave alone. -/
namespace Sys2Proof.Machine
open Sys2Proof

variable (s : State)

/-! ## Descriptors that a Muzzle ends -/

/-- An update of one descriptor that keeps its name leaves every other descriptor as it is. -/
theorem State.desc?_modDesc_other (id k : Nat) (f : Desc → Desc) (hk : k ≠ id) (hf : ∀ d, (f d).id = d.id) :
    (s.modDesc id f).desc? k = s.desc? k := by
  have kept : ∀ l : List Desc,
      (l.map fun d => if d.id == id then f d else d).find? (fun d => d.id == k) = l.find? fun d => d.id == k := by
    intro l
    induction l with
    | nil => rfl
    | cons x l ih =>
      cases hx : x.id == id
      · simp only [List.map_cons, hx, Bool.false_eq_true, if_false, List.find?_cons, ih]
      · have off : (x.id == k) = false := beq_false_of_ne fun h => hk (h.symm.trans (beq_iff_eq.mp hx))
        simp only [List.map_cons, hx, if_true, List.find?_cons, hf, off, ih]
  exact kept s.shep.descs

/-- R90: the end of a descriptor touches the run of its Pack and the descriptors. -/
theorem State.endDesc_frame (id st : Nat) :
    ∃ t g k b l, s.endDesc id st =
      { s with tiles := t, paging := g, links := k, fabric := b, shep := { s.shep with descs := l } } := by
  rcases s.endDesc_cases id st with ⟨-, h⟩ | ⟨d, -, ⟨-, h⟩ | ⟨-, h⟩ | ⟨-, h⟩⟩
  · exact ⟨_, _, _, _, _, h⟩
  · obtain ⟨t, g, k, b, hs⟩ := s.stopPack_frame d.pack id
    exact ⟨t, g, k, b, _, by rw [h, hs]; rfl⟩
  · exact ⟨_, _, _, _, _, h⟩
  · exact ⟨_, _, _, _, _, h⟩

/-- The end of one descriptor is not the end of another. -/
theorem State.desc?_endDesc_other (id st k : Nat) (hk : k ≠ id) : (s.endDesc id st).desc? k = s.desc? k := by
  rcases s.endDesc_cases id st with ⟨-, h⟩ | ⟨d, -, ⟨-, h⟩ | ⟨-, h⟩ | ⟨-, h⟩⟩
  · rw [h]
  · obtain ⟨t, g, a, b, hs⟩ := s.stopPack_frame d.pack id
    rw [h, hs]
    exact State.desc?_modDesc_other _ id k _ hk fun _ => rfl
  · rw [h]
  · rw [h]
    exact State.desc?_modDesc_other _ id k _ hk fun _ => rfl

/-- A descriptor that is ending keeps the status it has (R53). -/
theorem State.endDesc_ending (id st : Nat) (d : Desc) (hd : s.desc? id = some d) (hp : d.phase = .ending) :
    s.endDesc id st = s := by
  simp [State.endDesc, hd, hp]

theorem State.foldl_endDesc_frame (st : Nat) (ids : List Nat) :
    ∃ t g k b l, ids.foldl (fun (s : State) id => s.endDesc id st) s =
      { s with tiles := t, paging := g, links := k, fabric := b, shep := { s.shep with descs := l } } := by
  induction ids generalizing s with
  | nil => exact ⟨_, _, _, _, _, rfl⟩
  | cons id ids ih =>
    obtain ⟨t, g, k, b, l, h⟩ := s.endDesc_frame id st
    obtain ⟨t', g', k', b', l', h'⟩ := ih (s.endDesc id st)
    exact ⟨t', g', k', b', l', by rw [List.foldl_cons, h', h]⟩

@[simp] theorem State.foldl_endDesc_muzzle (st : Nat) (ids : List Nat) :
    (ids.foldl (fun (s : State) id => s.endDesc id st) s).muzzle = s.muzzle := by
  obtain ⟨t, g, k, b, l, h⟩ := s.foldl_endDesc_frame st ids
  rw [h]

/-- A descriptor that stops with a status: its last transaction is awaited. -/
def State.stopsWith (id st : Nat) : Prop := ∃ e, s.desc? id = some e ∧ e.phase = .ending ∧ e.status = st

/-- R90: a descriptor that runs or has finished stops with the status, and waits for its last transaction. -/
theorem State.endDesc_stops (id st : Nat) (d : Desc) (hd : s.desc? id = some d)
    (hp : d.phase = .running ∨ d.phase = .finished) : (s.endDesc id st).stopsWith id st := by
  have hopen : d.phase ∈ [DPhase.running, .finished, .arrived, .waiting, .parked] := by
    rcases hp with hp | hp <;> simp [hp]
  obtain ⟨e, he, hst, hph, -⟩ := s.endDesc_open id st d hd hopen
  exact ⟨e, he, by rw [hph, if_pos hp], hst⟩

theorem State.endDesc_keeps_stopsWith (id st x u : Nat) (h : s.stopsWith id st) : (s.endDesc x u).stopsWith id st := by
  obtain ⟨e, he, hp, hst⟩ := h
  by_cases hx : id = x
  · subst hx
    rw [s.endDesc_ending id u e he hp]
    exact ⟨e, he, hp, hst⟩
  · exact ⟨e, (s.desc?_endDesc_other x u id hx).trans he, hp, hst⟩

/-- R23, R89: of the descriptors that are ended in turn, each that runs or has finished stops with the status. -/
theorem State.foldl_endDesc_stops (id st : Nat) (ids : List Nat) (hid : id ∈ ids) (d : Desc) (hd : s.desc? id = some d)
    (hp : d.phase = .running ∨ d.phase = .finished) :
    (ids.foldl (fun (s : State) id => s.endDesc id st) s).stopsWith id st := by
  induction ids generalizing s with
  | nil => cases hid
  | cons x ids ih =>
    by_cases hx : id = x
    · subst hx
      exact List.foldlRecOn (motive := fun u : State => u.stopsWith id st) ids _ (s.endDesc_stops id st d hd hp)
        fun u hu y _ => u.endDesc_keeps_stopsWith id st y st hu
    · have rest : id ∈ ids := (List.mem_cons.mp hid).resolve_left hx
      exact ih (s.endDesc x st) rest ((s.desc?_endDesc_other x st id hx).trans hd)

/-! ## Cues -/

theorem State.cueSafe_frame (c : CueIx) : ∃ q, s.cueSafe c = { s with cue := q } := by
  unfold State.cueSafe State.cueLevel
  split
  · exact ⟨_, rfl⟩
  · exact ⟨_, rfl⟩

/-- R21: driving cues to their safe levels touches the cues. -/
theorem State.cuesSafe_frame (p : CueIx → Bool) : ∃ q, s.cuesSafe p = { s with cue := q } := by
  refine List.foldlRecOn (motive := fun t => ∃ q, t = { s with cue := q }) _ _ ⟨s.cue, rfl⟩ ?_
  rintro _ ⟨q, rfl⟩ c -
  split
  · exact State.cueSafe_frame { s with cue := q } c
  · exact ⟨q, rfl⟩

@[simp] theorem State.cuesSafe_muzzle (p : CueIx → Bool) : (s.cuesSafe p).muzzle = s.muzzle := by
  obtain ⟨q, h⟩ := s.cuesSafe_frame p
  rw [h]

/-! ## What a trigger does at its scope (R21, R24, R25) -/

theorem MzScope.enter_inactive (m : MzScope) (c : Nat) (h : m.active = false) :
    m.enter c = { active := true, cause := c, count := 1, seen := [c] } := by
  simp [MzScope.enter, h]

/-- The descriptors that a Muzzle of the module ends (R22). -/
def State.muzzleHitIds : List Nat := (s.shep.descs.filter Desc.muzzleHits).map Desc.id

theorem State.mem_muzzleHitIds (id : Nat) (d : Desc) (hd : s.desc? id = some d)
    (hp : d.phase = .running ∨ d.phase = .finished) : id ∈ s.muzzleHitIds := by
  have named : d.id = id := by simpa using List.find?_some (p := fun d : Desc => d.id == id) hd
  have hit : d.muzzleHits = true := by rcases hp with hp | hp <;> simp [Desc.muzzleHits, hp]
  exact List.mem_map.mpr ⟨d, List.mem_filter.mpr ⟨List.mem_of_find?_eq_some hd, hit⟩, named⟩

/-- R24: a module that is Muzzled counts a further trigger, and nothing is ended again. -/
theorem State.muzzleModule_again (c : Nat) (h : s.muzzle.module.active = true) :
    ∃ lt, s.muzzleModule c =
      { s with ltime := lt, muzzle := { s.muzzle with module := s.muzzle.module.enter c } } := by
  unfold State.muzzleModule
  rw [h]
  exact ⟨_, rfl⟩

/-- R21, R22: a module that is not Muzzled, as its Muzzle opens: MUZZLE_N falls where its supply is present, and no
descriptor has been ended yet. -/
def State.moduleEntered (c : Nat) : State :=
  ({ (s.restartSecond c) with
      mod := { s.mod with pins := { s.mod.pins with muzzle := s.mod.vauxOk } }
      muzzle := { s.muzzle with module := s.muzzle.module.enter c } } : State).raise .alarm 0x0001 noInst
    (wordBytes (s.muzzle.module.enter c).word)

/-- R21, R22: a module that is not Muzzled enters; its descriptors end, and the cues go to their safe levels. -/
theorem State.muzzleModule_first (c : Nat) (h : s.muzzle.module.active = false) :
    s.muzzleModule c =
      (s.muzzleHitIds.foldl (fun (s : State) id => s.endDesc id (mzStatus c)) (s.moduleEntered c)).cuesSafe fun _ => true := by
  unfold State.muzzleModule
  rw [h]
  rfl

/-- R25: a module trigger is recorded at the module alone. -/
theorem State.muzzleModule_muzzle (c : Nat) :
    (s.muzzleModule c).muzzle = { s.muzzle with module := s.muzzle.module.enter c } := by
  cases h : s.muzzle.module.active
  · rw [s.muzzleModule_first c h, State.cuesSafe_muzzle, State.foldl_endDesc_muzzle]
    rfl
  · obtain ⟨lt, hs⟩ := s.muzzleModule_again c h
    rw [hs]

/-- R25: a Pack trigger is recorded at its Pack alone. -/
theorem State.muzzlePack_muzzle (p c : Nat) :
    (s.muzzlePack p c none).muzzle = { s.muzzle with packs := Table.put s.muzzle.packs p ((s.mzPack p).enter c) } := by
  unfold State.muzzlePack
  cases (s.mzPack p).active
  · simp
  · rfl

/-- R25: a region trigger is recorded at its region alone. -/
theorem State.muzzleRegion_muzzle (r c : Nat) :
    (s.muzzleRegion r c).muzzle = { s.muzzle with regions := Table.put s.muzzle.regions r ((s.mzRegion r).enter c) } := by
  unfold State.muzzleRegion
  cases (s.mzRegion r).active
  · simp
  · rfl

/-- R21: what the first trigger of the module leaves alone. -/
theorem State.muzzleModule_first_frame (c : Nat) (h : s.muzzle.module.active = false) :
    ∃ t g k b l q, s.muzzleModule c =
      { (s.moduleEntered c) with tiles := t, paging := g, links := k, fabric := b, cue := q
                                 shep := { s.shep with descs := l } } := by
  obtain ⟨t, g, k, b, l, hl⟩ := (s.moduleEntered c).foldl_endDesc_frame (mzStatus c) s.muzzleHitIds
  rw [s.muzzleModule_first c h, hl]
  obtain ⟨q, hq⟩ := State.cuesSafe_frame _ fun _ => true
  exact ⟨t, g, k, b, l, q, hq⟩

/-- R22: the first trigger of the module stops every descriptor that runs or has finished, with the cause's status. -/
theorem State.muzzleModule_first_stops (c : Nat) (h : s.muzzle.module.active = false) (id : Nat) (d : Desc)
    (hd : s.desc? id = some d) (hp : d.phase = .running ∨ d.phase = .finished) :
    (s.muzzleModule c).stopsWith id (mzStatus c) := by
  have stops := (s.moduleEntered c).foldl_endDesc_stops id (mzStatus c) _ (s.mem_muzzleHitIds id d hd hp) d hd hp
  obtain ⟨q, hq⟩ := State.cuesSafe_frame _ fun _ => true
  rw [s.muzzleModule_first c h, hq]
  exact stops

/-! ## Conditions that are met (R29) -/

theorem MzScope.meet_frame (m : MzScope) (c : Nat) : ∃ l, m.meet c = { m with met := l } := by
  unfold MzScope.meet
  split
  · exact ⟨_, rfl⟩
  · exact ⟨_, rfl⟩

theorem State.meetScope_frame (t : Trigger) :
    ∃ l p r, s.meetScope t =
      { s with muzzle := { s.muzzle with module := { s.muzzle.module with met := l }, packs := p, regions := r } } := by
  obtain ⟨sc, c⟩ := t
  cases sc with
  | module =>
    obtain ⟨l, h⟩ := s.muzzle.module.meet_frame c
    exact ⟨l, s.muzzle.packs, s.muzzle.regions, by simp only [State.meetScope, h]⟩
  | pack p => exact ⟨_, _, _, rfl⟩
  | region r => exact ⟨_, _, _, rfl⟩

/-- R29: conditions that are met touch no Muzzle's cause or count, and nothing outside the Muzzle. -/
theorem State.foldl_meetScope_frame (ts : List Trigger) :
    ∃ l p r, ts.foldl State.meetScope s =
      { s with muzzle := { s.muzzle with module := { s.muzzle.module with met := l }, packs := p, regions := r } } := by
  induction ts generalizing s with
  | nil => exact ⟨_, _, _, rfl⟩
  | cons t ts ih =>
    obtain ⟨l, p, r, h⟩ := s.meetScope_frame t
    obtain ⟨l', p', r', h'⟩ := ih (s.meetScope t)
    exact ⟨l', p', r', by rw [List.foldl_cons, h', h]⟩

/-! ## Commands -/

theorem exec_muzzleEnter (fn : Fn) (sc : BitVec 2) (ix : BitVec 6) :
    exec (.muzzleEnter fn sc ix) s = .next (s.mzEnter fn.val sc ix) := rfl
theorem exec_muzzleRelease (fn : Fn) (sc : BitVec 2) (ix : BitVec 6) :
    exec (.muzzleRelease fn sc ix) s = .next (s.mzRelease fn sc ix) := rfl
theorem exec_hubParityError : exec .hubParityError s = .next (s.trigger .module 0x0C) := rfl
theorem exec_reservedStructureReinit : exec .reservedStructureReinit s = .next (s.meetModule 0x01) := rfl

@[simp] theorem State.fn_mzResult_same (f : Nat) (r : BitVec 2) : ((s.mzResult f r).fn f).mzResult = r :=
  congrArg FnSt.mzResult (Table.get_put_same ..)

section
variable (fn : Fn) (h : s.muzzle.releases = [(.module, fn)])
include h

/-- R24, R28: the one accepted release is the module's, and it is applied. -/
theorem exec_muzzleReleaseApply_module :
    exec (.muzzleReleaseApply 0 0) s = .next (({ s with muzzle := { s.muzzle with releases := [] } } : State).applyRelease
      (s.muzzle.triggers.map Trigger.scope) (.module, fn)) := by
  show execMuzzleReleaseApply 0 0 s = _
  simp [execMuzzleReleaseApply, mzScopeOf, h]

/-- R28: without a trigger for the module its release takes effect. -/
theorem exec_muzzleReleaseApply_released (hn : ∀ x ∈ s.muzzle.triggers, x.scope ≠ .module) :
    exec (.muzzleReleaseApply 0 0) s =
      .next ((({ s with muzzle := { s.muzzle with releases := [] } } : State).unmuzzle .module).mzResult fn.val 0) := by
  have free : Scope.module ∉ s.muzzle.triggers.map Trigger.scope := by simpa using hn
  rw [exec_muzzleReleaseApply_module s fn h, State.applyRelease, if_neg (List.contains_iff_mem.not.mpr free)]

/-- R24: a release yields to a trigger for its scope. -/
theorem exec_muzzleReleaseApply_yields (ht : ∃ x ∈ s.muzzle.triggers, x.scope = .module) :
    exec (.muzzleReleaseApply 0 0) s =
      .next (({ s with muzzle := { s.muzzle with releases := [] } } : State).mzResult fn.val 2) := by
  have triggered : Scope.module ∈ s.muzzle.triggers.map Trigger.scope := List.mem_map.mpr ht
  rw [exec_muzzleReleaseApply_module s fn h, State.applyRelease, if_pos (List.contains_iff_mem.mpr triggered)]

end

end Sys2Proof.Machine
end

section
/-! Requests, the tick and releases of the Muzzle (R21 to R30). -/
namespace Sys2Proof.Machine
open Sys2Proof

variable (s : State)

/-! ## Requests (R22, R27, R30) -/

section
variable (fn : Fn) (sc : BitVec 2) (ix : BitVec 6) (x : Scope)

theorem State.mzEnter_noScope (f : Nat) (h : mzScopeOf sc ix = none) : s.mzEnter f sc ix = s.mzResult f 3 := by
  simp [State.mzEnter, h]

theorem State.mzRelease_noScope (h : mzScopeOf sc ix = none) : s.mzRelease fn sc ix = s.mzResult fn.val 3 := by
  simp [State.mzRelease, h]

variable (h : mzScopeOf sc ix = some x)
include h

theorem State.mzEnter_scope (f : Nat) :
    s.mzEnter f sc ix = if s.mayMuzzle f x then (s.trigger x 0x0D).mzResult f 1 else s.mzResult f 3 := by
  simp [State.mzEnter, h]

theorem State.mzRelease_notNamed (hm : s.mayMuzzle fn.val x = false) : s.mzRelease fn sc ix = s.mzResult fn.val 3 := by
  simp [State.mzRelease, h, hm]

theorem State.mzRelease_refused (hm : s.mayMuzzle fn.val x = true) (hr : s.mayRelease x = false) :
    s.mzRelease fn sc ix = s.mzResult fn.val 2 := by
  simp [State.mzRelease, h, hm, hr]

theorem State.mzRelease_accepted (hm : s.mayMuzzle fn.val x = true) (hr : s.mayRelease x = true) :
    s.mzRelease fn sc ix =
      ({ s with muzzle := { s.muzzle with releases := s.muzzle.releases ++ [(x, fn)] } } : State).mzResult fn.val 1 := by
  simp [State.mzRelease, h, hm, hr]

end

/-- R28: a release needs CAUSE_CLEAR. -/
theorem State.mayRelease_needs_causeClear (x : Scope) (h : (s.mzOf x).causeClear = false) : s.mayRelease x = false := by
  simp [State.mayRelease, h]

/-- R25: no Pack is released while the module is Muzzled. -/
theorem State.mayRelease_pack_muzzled (p : PackIx) (h : s.muzzle.module.active = true) : s.mayRelease (.pack p) = false := by
  simp [State.mayRelease, h]

/-- R27: a VF may name its own Packs only. -/
theorem State.mayMuzzle_vf (f : Nat) (hf : 0 < f) :
    s.mayMuzzle f .module = false ∧ (∀ r, s.mayMuzzle f (.region r) = false) ∧
      ∀ p : PackIx, (s.shape p.val).fn ≠ f → s.mayMuzzle f (.pack p) = false := by
  have off : (f == 0) = false := beq_false_of_ne hf.ne'
  refine ⟨off, fun _ => off, fun p hp => ?_⟩
  simp [State.mayMuzzle, off, hp]

/-- R27: the PF may name every scope. -/
theorem State.mayMuzzle_pf (x : Scope) : s.mayMuzzle 0 x = true := by
  cases x <;> rfl

/-! ## The tick (R21, R22, R24) -/

/-- Class 1 has taken what waited for it (R24). -/
def State.mzTaken : State := { s with muzzle := { s.muzzle with triggers := [], releases := [], early := [] } }

/-- The tick has handled every request: RESULT 1 of a function returns to 0 (R30). -/
def State.mzResultsDone : State := { s with shep := { s.shep with fns := s.shep.fns.map fun e =>
  (e.1, { e.2 with mzResult := if e.2.mzResult == 1 then 0 else e.2.mzResult }) } }

/-- Class 1 with one module trigger and no release: the module's trigger, then the conditions met early. -/
theorem State.class1_module (c : Nat) (ht : s.muzzle.triggers = [⟨.module, c⟩]) (hr : s.muzzle.releases = []) :
    s.class1 = (s.muzzle.early.foldl State.meetScope (s.mzTaken.muzzleModule c)).mzResultsDone := by
  unfold State.class1
  rw [ht, hr]
  rfl

/-- R21, R24: the module is Muzzled at the tick, and what that leaves alone. -/
theorem State.class1_module_enters (c : Nat) (ht : s.muzzle.triggers = [⟨.module, c⟩]) (ha : s.muzzle.module.active = false)
    (hr : s.muzzle.releases = []) :
    (∃ l, s.class1.muzzle.module = { active := true, cause := c, count := 1, seen := [c], met := l }) ∧
      s.class1.mod.pins.muzzle = s.mod.vauxOk ∧ s.class1.muzzle.triggers = [] ∧
      s.class1.hbm = s.hbm ∧ s.class1.regs = s.regs ∧ s.class1.host = s.host ∧ s.class1.cad = s.cad := by
  obtain ⟨l, p, r, hmet⟩ := (s.mzTaken.muzzleModule c).foldl_meetScope_frame s.muzzle.early
  obtain ⟨t, g, k, b, ds, q, hin⟩ := s.mzTaken.muzzleModule_first_frame c ha
  have entered := s.muzzle.module.enter_inactive c ha
  rw [s.class1_module c ht hr, hmet, hin]
  refine ⟨⟨l, ?_⟩, rfl, rfl, rfl, rfl, rfl, rfl⟩
  exact congrArg (fun m : MzScope => { m with met := l }) entered

/-- R22: at the tick of a module trigger every descriptor that runs or has finished stops with the cause's status. -/
theorem State.class1_module_stops (c : Nat) (ht : s.muzzle.triggers = [⟨.module, c⟩]) (ha : s.muzzle.module.active = false)
    (hr : s.muzzle.releases = []) (id : Nat) (d : Desc) (hd : s.desc? id = some d)
    (hp : d.phase = .running ∨ d.phase = .finished) : s.class1.stopsWith id (mzStatus c) := by
  obtain ⟨l, p, r, hmet⟩ := (s.mzTaken.muzzleModule c).foldl_meetScope_frame s.muzzle.early
  rw [s.class1_module c ht hr, hmet]
  exact s.mzTaken.muzzleModule_first_stops c ha id d hd hp

/-! ## Conditions of a reserved structure (R29) -/

theorem MzScope.meet_new (m : MzScope) (c : Nat) (ha : m.active = true) (hs : m.seen.contains c = true)
    (hm : m.met.contains c = false) : m.meet c = { m with met := m.met ++ [c] } := by
  simp only [MzScope.meet, ha, hs, hm, Bool.not_false, Bool.and_self, if_true]

theorem State.meetModule_inForce (c : Nat) (ht : s.muzzle.triggers.contains ⟨.module, c⟩ = false) :
    s.meetModule c = { s with muzzle := { s.muzzle with module := s.muzzle.module.meet c } } :=
  if_neg (ne_true_of_eq_false ht)

theorem State.meetModule_waiting (c : Nat) (ht : s.muzzle.triggers.contains ⟨.module, c⟩ = true) :
    s.meetModule c = { s with muzzle := { s.muzzle with module := s.muzzle.module.meet c
                                                        early := s.muzzle.early ++ [⟨.module, c⟩] } } :=
  if_pos ht

/-- Settles O18: the branches of a request, the frame of class 1 with a module trigger, and the two answers to a release. -/
theorem muzzlesAreEnteredAndReleasedAtTheTick : Obligations.MuzzlesAreEnteredAndReleasedAtTheTick := by
  refine ⟨⟨fun s fn sc ix => ⟨fun hx => ?_, fun x hx => ?_⟩, State.mayRelease_needs_causeClear, State.mayMuzzle_vf,
    State.mayMuzzle_pf⟩, fun s c ht ha hr => ?_, fun s fn =>
    ⟨fun hr hn => ?_, fun hr hx => ?_, ?_, fun ht ha hs hm => ?_, fun ht => ?_⟩⟩
  · rw [exec_muzzleEnter, exec_muzzleRelease, s.mzEnter_noScope sc ix _ hx, s.mzRelease_noScope fn sc ix hx]
    exact ⟨rfl, rfl⟩
  · rw [exec_muzzleEnter, exec_muzzleRelease, s.mzEnter_scope sc ix x hx]
    refine ⟨fun hm => ⟨?_, ?_⟩, fun hm => ?_, fun hm hr => ?_, fun hm hr => ?_⟩
    · rw [hm, if_neg Bool.false_ne_true]
    · rw [s.mzRelease_notNamed fn sc ix x hx hm]
    · rw [hm, if_pos rfl]
      rfl
    · rw [s.mzRelease_refused fn sc ix x hx hm hr]
    · rw [s.mzRelease_accepted fn sc ix x hx hm hr]
  · obtain ⟨⟨l, hmod⟩, hpin, htr, hhbm, hregs, hhost, hcad⟩ := s.class1_module_enters c ht ha hr
    rw [hmod]
    exact ⟨rfl, rfl, rfl, hpin, htr, s.class1_module_stops c ht ha hr, hhbm, hregs, hhost, hcad⟩
  · exact ⟨_, exec_muzzleReleaseApply_released s fn hr hn, rfl, rfl, rfl, State.fn_mzResult_same .., rfl, rfl, rfl, rfl⟩
  · exact ⟨_, exec_muzzleReleaseApply_yields s fn hr hx, rfl, State.fn_mzResult_same ..⟩
  · exact ⟨_, exec_hubParityError s, rfl, rfl, rfl⟩
  · rw [exec_reservedStructureReinit, s.meetModule_inForce 1 ht, s.muzzle.module.meet_new 1 ha hs hm]
  · refine ⟨_, exec_reservedStructureReinit s, ?_⟩
    rw [s.meetModule_waiting 1 ht]
    exact ⟨rfl, rfl, rfl⟩

end Sys2Proof.Machine
end

section
/-! Scopes apart (R25). -/
namespace Sys2Proof.Machine
open Sys2Proof

/-- Settles O60: each trigger and each release writes the entry of its own scope and no other. -/
theorem muzzlesAreHeldIndependently : Obligations.MuzzlesAreHeldIndependently := by
  refine fun s fn p r c ix => ⟨fun hr hn => ?_, fun ha hm => ?_, ?_, ?_, ?_, ⟨rfl, fun _ => rfl⟩, ⟨rfl, fun _ => rfl⟩⟩
  · exact ⟨_, exec_muzzleReleaseApply_released s fn hr hn, rfl, fun _ => rfl, fun _ => rfl⟩
  · rw [exec_muzzleRelease, s.mzRelease_refused fn 1 ix (.pack ix.toFin) rfl hm (s.mayRelease_pack_muzzled _ ha)]
  · simp [State.muzzle1, State.mzPack, State.mzRegion, State.muzzleModule_muzzle]
  · simp [State.muzzle1, State.mzRegion, State.muzzlePack_muzzle]
  · simp [State.muzzle1, State.mzPack, State.muzzleRegion_muzzle]

end Sys2Proof.Machine
end

section
/-! The state after Dawn (R35, R59, R415, R419). -/
namespace Sys2Proof.Machine
open Sys2Proof

/-- Settles O2: every value is a field of `State.reset` or a register word formed from it. -/
theorem resetHoldsTheStatedValues : Obligations.ResetHoldsTheStatedValues := by
  refine ⟨⟨rfl, rfl, ?_, ?_, rfl, ?_, ?_, ?_, ?_, ?_, ?_, ?_, ?_, rfl⟩, rfl, rfl⟩
  all_goals decide

end Sys2Proof.Machine
end

section
/-! The tick and the early sample (R31, R33, R72). -/
namespace Sys2Proof.Machine
open Sys2Proof

variable (s : State)

/-- What each step of a fold leaves alone, the whole fold leaves alone. -/
theorem foldl_keeps {α β σ : Type} (g : σ → β) (f : σ → α → σ) (h : ∀ x a, g (f x a) = g x) (l : List α) (x : σ) :
    g (l.foldl f x) = g x := by
  induction l generalizing x with
  | nil => rfl
  | cons a l ih => rw [List.foldl_cons, ih, h]

theorem State.cfgWrite_tick (c : CfgWrite) : (s.cfgWrite c).tick = s.tick := by
  cases c with
  | vfs n => rfl
  | bar2 n =>
    simp only [State.cfgWrite]
    split <;> rfl
  | link r w f => rfl

theorem State.downLink_tick (n : Nat) : (s.downLink n).tick = s.tick := by
  simp [State.downLink, State.rerouteNow, State.modLink, State.dropLink]

theorem State.latchLref_tick (present : Bool) : (s.latchLref present).tick = s.tick := by
  unfold State.latchLref
  cases present
  · simp only [Bool.false_eq_true, if_false]
    rw [foldl_keeps State.tick _ fun x n => ?_]
    split
    · exact x.downLink_tick n
    · rfl
  · simp only [if_true]

theorem State.userEvent_tick (e : UserEvent) : (s.userEvent e).tick = s.tick := by
  cases e with
  | cellClock c second ce reset d =>
    simp only [State.userEvent, State.cellClock]
    split <;> rfl
  | cellCarry c v =>
    simp only [State.userEvent, State.cellCarry]
    split <;> rfl
  | ramWrite b second a d =>
    simp only [State.userEvent, State.ramWrite]
    split <;> rfl
  | ramRead b second a =>
    simp only [State.userEvent, State.ramRead]
    repeat (split <;> [rfl; skip])
    split <;> rfl
  | ramUpset b w x => rfl
  | seamClock src dst w =>
    simp only [State.userEvent, State.seamClock]
    split <;> rfl

/-- R31: what the host and the world bring does not move the tick. -/
theorem State.latchInputs_tick (i : TickIn) : (s.latchInputs i).tick = s.tick := by
  unfold State.latchInputs
  simp only [apply_ite State.tick, State.raise_tick, ite_self]
  rw [foldl_keeps State.tick _ State.userEvent_tick, foldl_keeps State.tick _ State.cfgWrite_tick, State.latchLref_tick]
  rfl

theorem exec_tick_stopped (i : TickIn) (h : s.mod.power ≠ .running) : exec (.tick i) s = .next s := by
  show execTick i s = _
  simp [execTick, h]

theorem exec_tick_running (i : TickIn) (h : s.mod.power = .running) : exec (.tick i) s = .next (s.oneTick i) := by
  show execTick i s = _
  simp [execTick, h]

/-- R31: an edge moves the count by one and the time to the edge that was due, and the next is one period later. -/
theorem State.newEdge_tick : s.newEdge.tick =
    { count := (s.tick.count + 1) % 2 ^ 64, now := s.tick.next, next := s.tick.next + 10 * s.regN 0x20000 } := by
  rw [Nat.mul_comm]
  rfl

theorem State.tickHead_eq (i : TickIn) (len : Nat) : s.tickHead i len =
    (((((List.range 64).foldl State.finish s.applyWrites.swapsDue).leashLatch i.estimate
      len).cadLatch.class1.commits1.class2.domainTick.commits2.class3).sendPosition.class4).duskStop.duskDrain := rfl

theorem State.tickRest_eq (i : TickIn) : s.tickRest i =
    ((s.class5.class6.writeRecords.class7 i.irq).evalCauseClear.newCueTick.dispatches.sampleDoorbells.moderateAll).flushExpired.srTick.holdTick.pump :=
  rfl

/-- A tick whose supplies hold, and which no Dusk ends, goes from the inputs to its end. -/
theorem State.oneTick_runs (i : TickIn) (e : State)
    (he : (((s.latchInputs i).newEdge.occupy (s.tick.next - s.tick.now)).cntTick.supplyFalls).lanesTick
      (s.tick.next - s.tick.now) = e)
    (hr : e.mod.power = .running) (hh : (e.tickHead i (s.tick.next - s.tick.now)).mod.power = .running)
    (hc : (e.tickHead i (s.tick.next - s.tick.now)).tick.count = e.tick.count) :
    s.oneTick i = (e.tickHead i (s.tick.next - s.tick.now)).tickRest i := by
  simp [State.oneTick, he, hr, hh, hc]

/-- What an early sample does where EARLY_EN is set and the module runs (R72). -/
theorem exec_hifEarlySample (f : Fn) (t : Nat) : exec (.hifEarlySample f t) s =
    .next (if bit (s.allocLo f.val) 22 && s.mod.power == .running && decide (max t (s.tick.now + 250) < s.tick.next)
      then { s with tick := { s.tick with next := max t (s.tick.now + 250) } } else s) := rfl

/-- Settles O5: the order is that of `oneTick`, and an early sample is the greater of the write's time and 250 ns. -/
theorem tickAdvancesTheCountAndTakesTheClassesInOrder : Obligations.TickAdvancesTheCountAndTakesTheClassesInOrder := by
  refine ⟨fun s i => ⟨exec_tick_stopped s i, ?_⟩,
    fun s f t => ⟨fun hb => ?_, fun hb hp hlo hhi => ?_, fun hb hp hlo hhi => ?_, fun h => ?_⟩⟩
  · intro len edge e x c2 c4 c7
    have htick : edge.tick = _ := s.newEdge_tick
    simp only [htick, true_and]
    refine ⟨s.latchInputs_tick i, fun hp he hc hn => ?_⟩
    have head : e.tickHead i len = c4 := State.tickHead_eq e i len
    rw [exec_tick_running s i hp, s.oneTick_runs i e rfl he (head ▸ hc) (head ▸ hn), head, State.tickRest_eq]
  · rw [exec_hifEarlySample, hb]
    rfl
  · rw [exec_hifEarlySample, hb, hp, Nat.max_eq_left hlo, decide_eq_true hhi]
    rfl
  · rw [exec_hifEarlySample, hb, hp, Nat.max_eq_right (Nat.le_of_lt hlo), decide_eq_true hhi]
    rfl
  · rw [exec_hifEarlySample, decide_eq_false (Nat.not_lt.mpr h), Bool.and_false]
    rfl

end Sys2Proof.Machine
end

section
/-! Register writes and reads (R59, R411, R412). -/
namespace Sys2Proof.Machine
open Sys2Proof

variable (s : State)

theorem exec_registerWrite (fn : Fn) (off : BitVec 24) (w : Nat) (en : BitVec 8) (d : DWord) :
    exec (.registerWrite fn off w en d) s = .next (s.writeBar fn off.toNat w en d) := rfl
theorem exec_lowWordRead (fn : Fn) (off : BitVec 24) (w : Nat) :
    exec (.lowWordRead fn off w) s = .next (s.readBar fn off.toNat w) := rfl

/-- R412: with all four bytes enabled a word takes the whole of the data. -/
theorem byteEnable_all (old v : Word) : byteEnable old v 0xF = v := by
  have bytes : ∀ i < 4, (0xF : BitVec 4).getLsbD i = true := by decide
  simp only [byteEnable, bytes 0 (by decide), bytes 1 (by decide), bytes 2 (by decide), bytes 3 (by decide), if_true,
    ← BitVec.and_or_distrib_left]
  exact BitVec.and_allOnes

/-- R411: the whole-word write of an ST register by the PF. -/
theorem State.writeBar_staged (off g : Nat) (v : Word) (m : RegInfo) (hp : s.mod.power = .running) (ha : off % 4 = 0)
    (hm : regInfo s.mod.grade off = some m) (hg : m.group = some g) :
    s.writeBar 0 off 4 0xFF (v.zeroExtend 64) = s.writeStaged g off ⟨s.reg off, 0xF, v⟩ := by
  have data : (v.zeroExtend 64).extractLsb' 0 32 = v := by
    ext i hi
    simpa [hi] using fun _ => Nat.lt_trans hi (by decide)
  simp [State.writeBar, State.writeAt, barAddr, State.answers, State.write32, ha, hp, hm, hg, data]

theorem State.writeStaged_frame (g a : Nat) (w : Wr) :
    ∃ c, s.writeStaged g a w = { s.setStaged a (byteEnable (s.staged a) w.data w.en) with commits := c } := by
  unfold State.writeStaged
  split
  · exact ⟨_, rfl⟩
  · exact ⟨_, rfl⟩

theorem State.staged_setStaged_same (a : Nat) (v : Word) : (s.setStaged a v).staged a = v := Table.get_set_same ..

/-- Every other register keeps its staged value, whatever reset value the written one has. -/
theorem State.staged_setStaged_other (a k : Nat) (v : Word) (h : k ≠ a) : (s.setStaged a v).staged k = s.staged k := by
  show Table.get _ (Table.set _ _ a v) k = _
  unfold Table.set
  split
  · exact Table.get_erase_other _ _ _ _ h
  · exact Table.get_put_other _ _ _ _ _ h

/-- R412: the word of a running module at an aligned offset of the PF. -/
theorem State.readBar_word (off : Nat) (hp : s.mod.power = .running) (ha : off % 4 = 0) :
    s.readBar 0 off 4 = { (s.read32 off).2 with
      regs := { (s.read32 off).2.regs with data := BitVec.ofNat 64 (s.read32 off).1 } } := by
  simp [State.readBar, State.readAt, barAddr, State.answers, ha, hp]

theorem State.read32_plain (a : Nat) (h : latchesHigh a = false) (hl : latchesHigh (a - 4) = false) :
    s.read32 a = (s.readNow a, s) := by
  simp [State.read32, h, hl]

theorem State.read32_low (a : Nat) (h : latchesHigh a = true) : s.read32 a = (s.readNow a,
    { s with regs := { s.regs with latch := Table.put s.regs.latch (a + 4) (BitVec.ofNat 32 (s.readNow (a + 4))) } }) := by
  simp [State.read32, h]

/-- R59: the two words of the tick count. -/
theorem State.readNow_tickLow : s.readNow 0x20008 = s.tick.count % 2 ^ 32 := by
  have : s.readNow 0x20008 = wordOf s.tick.count 0 := rfl
  simp [this, wordOf, bits]

theorem State.readNow_tickHigh : s.readNow 0x2000C = s.tick.count / 2 ^ 32 % 2 ^ 32 := by
  have : s.readNow 0x2000C = wordOf s.tick.count 1 := rfl
  simp [this, wordOf, bits]

/-- Settles O6: a write goes through `writeStaged`, a read through `read32`, and a misshapen access through neither. -/
theorem registersStageAndRead : Obligations.RegistersStageAndRead := by
  refine ⟨fun s off v m g hp ha hm hg => ?_, fun s off hp ha h hl => ?_, fun s hp => ?_,
    fun s f off w h4 h8 => ⟨?_, fun en d => ?_⟩⟩
  · obtain ⟨c, hc⟩ := s.writeStaged_frame g off.toNat ⟨s.reg off.toNat, 0xF, v⟩
    refine ⟨_, (exec_registerWrite s 0 off 4 0xFF _).trans (congrArg _ ((s.writeBar_staged _ g v m hp ha hm hg).trans hc)),
      ?_, fun _ => rfl, fun a h => s.staged_setStaged_other _ a _ h, rfl, rfl, rfl, rfl, rfl, rfl⟩
    exact (s.staged_setStaged_same _ _).trans (byteEnable_all _ v)
  · rw [exec_lowWordRead, s.readBar_word _ hp ha, s.read32_plain _ h hl]
  · refine ⟨_, (exec_lowWordRead s 0 0x20008 4).trans (congrArg _ (s.readBar_word 0x20008 hp rfl)), ?_⟩
    rw [s.read32_low 0x20008 rfl, s.readNow_tickLow, s.readNow_tickHigh]
    refine ⟨?_, ?_, rfl, rfl⟩
    · simp only [BitVec.toNat_ofNat]
      omega
    · rw [Table.get_put_same, BitVec.toNat_ofNat, Nat.mod_mod]
  · rw [exec_lowWordRead, State.readBar, if_neg h4, if_neg h8]
    rfl
  · rw [exec_registerWrite, State.writeBar, if_neg h4, if_neg h8]

end Sys2Proof.Machine
end

section
/-! SUPPORT. The cadence unit at work, said once: what taking a source value, locking and rating an interval change. -/
namespace Sys2Proof.Machine
open Sys2Proof

variable (s : State) (c : CadSt)

/-- R43: rating an interval changes the rates and the expected period. -/
theorem CadSt.rated_frame (num den per : Nat) (whole : Bool) :
    ∃ n d mn md p, c.rated num den per whole =
      { c with track := { c.track with num := n, den := d, meanNum := mn, meanDen := md, period := p } } := by
  unfold CadSt.rated
  split
  · exact ⟨_, _, _, _, _, rfl⟩
  · exact ⟨_, _, _, _, _, rfl⟩

/-- R44, R45: a source value while the unit runs is behind, beyond the limit, or accepted. -/
theorem CadSt.accept_cases (limit v t : Nat) (back : Bool) :
    ((back = true ∨ v < c.track.lastPos) ∧ ∃ r, c.accept limit v t back = { c with rangeSeen := r, backSeen := true }) ∨
    (back = false ∧ ∃ r, c.accept limit v t back = { c with rangeSeen := r, fwdSeen := true }) ∨
    (back = false ∧ ∃ r, c.accept limit v t back =
      { c with rangeSeen := r, state := .locked, track := { c.track with lastPos := v, lastAt := t } }) := by
  unfold CadSt.accept
  by_cases hb : back = true ∨ v < c.track.lastPos
  · exact .inl ⟨hb, _, if_pos (by simpa using hb)⟩
  · obtain ⟨hf, hv⟩ := not_or.mp hb
    obtain rfl : back = false := Bool.eq_false_iff.mpr hf
    simp only [hv, decide_false, Bool.or_false, Bool.false_eq_true, if_false]
    generalize (if c.reseeded = true then c.track.lastPos else c.pos) = ref
    split
    · exact .inr (.inl ⟨trivial, _, rfl⟩)
    · exact .inr (.inr ⟨trivial, _, rfl⟩)

/-- What a source value leaves alone: the position sampled, and the counts of the source's own. -/
def CadSt.sameCounts (c c' : CadSt) : Prop :=
  c'.pos = c.pos ∧ c'.track.encCount = c.track.encCount ∧ c'.track.edges = c.track.edges ∧
    c'.track.cycles = c.track.cycles ∧ c'.track.runAt = c.track.runAt

theorem CadSt.accept_sameCounts (limit v t : Nat) (back : Bool) : c.sameCounts (c.accept limit v t back) := by
  rcases c.accept_cases limit v t back with ⟨-, r, h⟩ | ⟨-, r, h⟩ | ⟨-, r, h⟩ <;>
    exact h ▸ ⟨rfl, rfl, rfl, rfl, rfl⟩

/-- A source value that may end an interval, accepted and then rated. -/
theorem CadSt.accept_rated_sameCounts (limit v t num den per : Nat) (back whole : Bool) :
    c.sameCounts (if (c.accept limit v t back).backSeen || (c.accept limit v t back).fwdSeen
      then c.accept limit v t back else (c.accept limit v t back).rated num den per whole) := by
  have acc := c.accept_sameCounts limit v t back
  split
  · exact acc
  · obtain ⟨n, d, mn, md, p, h⟩ := (c.accept limit v t back).rated_frame num den per whole
    rw [h]
    exact acc

/-- R45: a transition that counts down is a decrease. -/
theorem CadSt.accept_back (limit v t : Nat) : (c.accept limit v t true).backSeen = true := by
  rcases c.accept_cases limit v t true with ⟨-, r, h⟩ | ⟨hf, -⟩ | ⟨hf, -⟩
  · rw [h]
  · cases hf
  · cases hf

theorem CadSt.runs_iff : c.runs = true ↔ c.state = .locked ∨ c.state = .coasting := by
  simp [CadSt.runs]

end Sys2Proof.Machine
end

section
/-! Encoder transitions, the index and cycle edges (R36, R39, R40, R45, R47). -/
namespace Sys2Proof.Machine
open Sys2Proof

variable (s : State) (t : Nat)

/-! ## ENCODER -/

/-- R39: the unit after the count of a transition has moved. -/
def CadSt.counted (c : CadSt) (up : Bool) : CadSt :=
  { c with track := { c.track with encCount := c.track.encCount + (if up then 1 else -1) } }

/-- R39, R44: while the unit runs a transition is a source value. -/
def State.transition (s : State) (t : Nat) (up : Bool) : CadSt :=
  let c := s.cad.counted up
  if c.runs then c.accept s.jumpLimit (c.track.encPos s.encCpr) t !up else c

theorem exec_encoderTransition (a : Bool) (h : s.cadSource = 1) :
    exec (.encoderTransition t a) s = .next { s with cad := s.transition t (a != s.encDir) } := by
  show execEncoderTransition t a s = _
  simp only [execEncoderTransition, h, ne_eq, not_true_eq_false, if_false]
  rfl

theorem State.transition_counts (up : Bool) : (s.cad.counted up).sameCounts (s.transition t up) := by
  unfold State.transition
  dsimp only
  split
  · exact CadSt.accept_sameCounts ..
  · exact ⟨rfl, rfl, rfl, rfl, rfl⟩

theorem State.transition_down (hr : s.cad.runs = true) : (s.transition t false).backSeen = true := by
  have runs : (s.cad.counted false).runs = true := hr
  simp only [State.transition, runs, if_true, Bool.not_false, CadSt.accept_back]

/-- R39: the unit after an index pulse has ended its cycle. -/
def CadSt.indexed (c : CadSt) (t : Nat) : CadSt :=
  { c with track := { c.track with encCount := 0, runAt := t, cycles := c.track.cycles + 1 } }

/-- R36, R43: the unit after an index pulse has locked it. -/
def CadSt.indexLocks (c : CadSt) (t : Nat) : CadSt :=
  ((c.indexed t).lock true 0 t).rated oneCycle (t - c.track.runAt) (t - c.track.runAt) true

/-- R39, R44: while the unit runs an index pulse is a source value that ends an interval. -/
def CadSt.indexRuns (c : CadSt) (limit t : Nat) : CadSt :=
  let c' := (c.indexed t).accept limit ((c.indexed t).track.cycles * oneCycle) t false
  if c'.backSeen || c'.fwdSeen then c' else c'.rated oneCycle (t - c.track.runAt) (t - c.track.runAt) true

/-- R36: an index pulse is the second, within an eighth of a revolution. -/
def State.indexNear (s : State) : Prop :=
  s.cad.track.lockCount ≠ 0 ∧ (s.cad.track.encCount - s.encCpr).natAbs * 8 ≤ s.encCpr

section
variable (h : s.cadSource = 1)
include h

/-- The cases of an index pulse. -/
theorem exec_encoderIndex_cases : ∃ c, exec (.encoderIndex t) s = .next { s with cad := c } ∧
    ((s.cad.state = .fault ∧ c = s.cad.indexed t) ∨
     (s.cad.state = .acquire ∧ s.indexNear ∧ c = s.cad.indexLocks t) ∨
     (s.cad.state = .acquire ∧ ¬s.indexNear ∧
        c = { s.cad.indexed t with track := { (s.cad.indexed t).track with lockCount := 1 } }) ∨
     (s.cad.runs = true ∧ c = s.cad.indexRuns s.jumpLimit t)) := by
  show ∃ c, execEncoderIndex t s = _ ∧ _
  simp only [execEncoderIndex, h, ne_eq, not_true_eq_false, if_false, State.modCad]
  refine ⟨_, rfl, ?_⟩
  split
  case h_1 e => exact .inl ⟨e, rfl⟩
  case h_2 e =>
    split
    · exact .inr (.inl ⟨e, ‹_›, rfl⟩)
    · exact .inr (.inr (.inl ⟨e, ‹_›, rfl⟩))
  case h_3 e => exact .inr (.inr (.inr ⟨s.cad.runs_iff.mpr (.inl e), rfl⟩))
  case h_4 e => exact .inr (.inr (.inr ⟨s.cad.runs_iff.mpr (.inr e), rfl⟩))

end

/-- R47: the first whole cycle above the held position, from which an index pulse locks. -/
theorem CadSt.indexLocks_seed (c : CadSt) (hz : c.zeroSeed = false) :
    (c.indexLocks t).state = .locked ∧ (c.indexLocks t).track.lastPos = (c.pos / oneCycle + 1) * oneCycle ∧
      (c.indexLocks t).track.lastAt = t := by
  obtain ⟨n, d, mn, md, p, h⟩ :=
    ((c.indexed t).lock true 0 t).rated_frame oneCycle (t - c.track.runAt) (t - c.track.runAt) true
  have seed : ((c.indexed t).lock true 0 t).track.lastPos = (c.pos / oneCycle + 1) * oneCycle := by
    simp [CadSt.lock, CadSt.indexed, hz]
  rw [CadSt.indexLocks, h]
  exact ⟨rfl, seed, rfl⟩

theorem CadSt.indexLocks_frame (c : CadSt) : (c.indexLocks t).pos = c.pos ∧ (c.indexLocks t).track.encCount = 0 := by
  obtain ⟨n, d, mn, md, p, h⟩ :=
    ((c.indexed t).lock true 0 t).rated_frame oneCycle (t - c.track.runAt) (t - c.track.runAt) true
  rw [CadSt.indexLocks, h]
  exact ⟨rfl, rfl⟩

theorem CadSt.indexRuns_counts (c : CadSt) (limit : Nat) : (c.indexed t).sameCounts (c.indexRuns limit t) :=
  CadSt.accept_rated_sameCounts ..

/-! ## CYCLE -/

/-- R40: a counted edge ends a cycle, or is one of those within it. -/
def CadSt.edge (c : CadSt) (limit div t : Nat) : CadSt :=
  if c.state == .acquire && c.track.lockCount == 0 then
    { c with track := { c.track with lockCount := 1, edges := 0, runAt := t } }
  else if c.track.edges = div then c.cycleEnd limit t
  else { c with track := { c.track with edges := c.track.edges + 1 } }

theorem CadSt.edge_runs (c : CadSt) (limit div : Nat) (hr : c.runs = true) : c.edge limit div t =
    if c.track.edges = div then c.cycleEnd limit t else { c with track := { c.track with edges := c.track.edges + 1 } } := by
  rcases c.runs_iff.mp hr with h | h <;> simp [CadSt.edge, h]

section
variable (r : Bool) (w : Nat) (h : s.cadSource = 2)
include h

theorem exec_cycInEdge_short (hw : w < 20) : exec (.cycInEdge t r w) s =
    .next (if r then { s with cad := { s.cad with glitch := sat 16 (s.cad.glitch + 1) } } else s) := by
  show execCycInEdge t r w s = _
  simp only [execCycInEdge, h, ne_eq, not_true_eq_false, if_false, hw, if_true]
  rfl

theorem exec_cycInEdge_uncounted (hw : 20 ≤ w) (hr : r = false) (he : s.cycEdge = false) :
    exec (.cycInEdge t r w) s = .next s := by
  show execCycInEdge t r w s = _
  simp [execCycInEdge, h, Nat.not_lt.mpr hw, hr, he]

theorem exec_cycInEdge_counted (hw : 20 ≤ w) (hr : r = true ∨ s.cycEdge = true) :
    exec (.cycInEdge t r w) s = .next { s with cad := s.cad.edge s.jumpLimit s.cycDiv t } := by
  have counted : (!r && !s.cycEdge) = false := by rcases hr with hr | hr <;> simp [hr]
  show execCycInEdge t r w s = _
  simp only [execCycInEdge, h, ne_eq, not_true_eq_false, if_false, Nat.not_lt.mpr hw, counted, Bool.false_eq_true]
  rfl

end

/-- R40: a cycle that ends while the unit runs advances the cycle count. -/
theorem CadSt.cycleEnd_counts (c : CadSt) (limit : Nat) (hr : c.runs = true) :
    (c.cycleEnd limit t).pos = c.pos ∧ (c.cycleEnd limit t).track.edges = 0 ∧ (c.cycleEnd limit t).track.runAt = t ∧
      (c.cycleEnd limit t).track.cycles = c.track.cycles + 1 := by
  have same : CadSt.sameCounts { c with track := { c.track with edges := 0, runAt := t, cycles := c.track.cycles + 1 } }
      (c.cycleEnd limit t) := by
    unfold CadSt.cycleEnd
    dsimp only
    split <;> rename_i e
    · simp [CadSt.runs, e] at hr
    · simp [CadSt.runs, e] at hr
    all_goals exact CadSt.accept_rated_sameCounts ..
  obtain ⟨hpos, -, hedges, hcycles, hrun⟩ := same
  exact ⟨hpos, hedges, hrun, hcycles⟩

/-- Settles O8: the cases of an index pulse and of a counted edge, with what a source value leaves alone. -/
theorem encoderAndCycleInputsCount : Obligations.EncoderAndCycleInputsCount := by
  refine ⟨fun s t a hsrc => ⟨?_, ?_⟩, fun s t w r hsrc => ⟨exec_cycInEdge_short s t r w hsrc,
    exec_cycInEdge_uncounted s t r w hsrc, fun hw hr hc hd => ?_, fun hw hr hc hd => ?_, fun hw hr ha hl => ?_⟩⟩
  · obtain ⟨hpos, hcount, -⟩ := s.transition_counts t (a != s.encDir)
    exact ⟨_, exec_encoderTransition s t a hsrc, hpos, hcount, fun hr hd => hd ▸ s.transition_down t hr⟩
  · obtain ⟨c, hx, ⟨hs, rfl⟩ | ⟨hs, -, rfl⟩ | ⟨hs, hn, rfl⟩ | ⟨hr, rfl⟩⟩ := exec_encoderIndex_cases s t hsrc
    · refine ⟨_, hx, rfl, rfl, fun _ => rfl, fun ha => ?_⟩
      cases hs.symm.trans ha
    · obtain ⟨hpos, hcount⟩ := s.cad.indexLocks_frame t
      refine ⟨_, hx, hpos, hcount, fun hr => ?_, fun _ hz _ _ => ?_⟩
      · simp [CadSt.runs, hs] at hr
      · exact s.cad.indexLocks_seed t hz
    · exact ⟨_, hx, rfl, rfl, fun _ => rfl, fun _ _ hl hnear => absurd ⟨hl, hnear⟩ hn⟩
    · obtain ⟨hpos, hcount, -, hcycles, -⟩ := s.cad.indexRuns_counts t s.jumpLimit
      refine ⟨_, hx, hpos, hcount, fun _ => hcycles, fun ha => ?_⟩
      simp [CadSt.runs, ha] at hr
  · rw [exec_cycInEdge_counted s t r w hsrc hw hr, s.cad.edge_runs t _ _ hc, if_neg hd]
  · refine ⟨_, exec_cycInEdge_counted s t r w hsrc hw hr, ?_⟩
    rw [s.cad.edge_runs t _ _ hc, if_pos hd]
    exact s.cad.cycleEnd_counts t _ hc
  · rw [exec_cycInEdge_counted s t r w hsrc hw hr]
    simp [CadSt.edge, ha, hl]

end Sys2Proof.Machine
end

section
/-! Coasting, cadence faults and their clearing (R44 to R47). -/
namespace Sys2Proof.Machine
open Sys2Proof

variable (s : State)

/-! ## Descriptors that a fault ends -/

/-- A descriptor that has the status and has no more to do than end. -/
def State.endsWith (id st : Nat) : Prop :=
  ∃ e, s.desc? id = some e ∧ e.status = st ∧ (e.phase = .ending ∨ e.phase = .ended)

theorem State.endDesc_endsWith (id st : Nat) (d : Desc) (hd : s.desc? id = some d)
    (ho : d.phase ∈ [DPhase.running, .finished, .arrived, .waiting, .parked]) : (s.endDesc id st).endsWith id st := by
  obtain ⟨e, he, hst, hph, -⟩ := s.endDesc_open id st d hd ho
  refine ⟨e, he, hst, ?_⟩
  split at hph
  · exact .inl hph
  · exact .inr hph

theorem State.endDesc_keeps_endsWith (id st x u : Nat) (h : s.endsWith id st) : (s.endDesc x u).endsWith id st := by
  obtain ⟨e, he, hst, hp⟩ := h
  by_cases hx : id = x
  · subst hx
    have kept : s.endDesc id u = s := by rcases hp with hp | hp <;> simp [State.endDesc, he, hp]
    rw [kept]
    exact ⟨e, he, hst, hp⟩
  · exact ⟨e, (s.desc?_endDesc_other x u id hx).trans he, hst, hp⟩

/-- R46, R89: of the descriptors that are ended in turn, each that is open has the status. -/
theorem State.foldl_endDesc_endsWith (id st : Nat) (ids : List Nat) (hid : id ∈ ids) (d : Desc) (hd : s.desc? id = some d)
    (ho : d.phase ∈ [DPhase.running, .finished, .arrived, .waiting, .parked]) :
    (ids.foldl (fun (s : State) id => s.endDesc id st) s).endsWith id st := by
  induction ids generalizing s with
  | nil => cases hid
  | cons x ids ih =>
    by_cases hx : id = x
    · subst hx
      exact List.foldlRecOn (motive := fun u : State => u.endsWith id st) ids _ (s.endDesc_endsWith id st d hd ho)
        fun u hu y _ => u.endDesc_keeps_endsWith id st y st hu
    · exact ih (s.endDesc x st) ((List.mem_cons.mp hid).resolve_left hx) ((s.desc?_endDesc_other x st id hx).trans hd)

theorem Desc.cadenceHits_open (d : Desc) (h : d.cadenceHits = true) :
    d.phase ∈ [DPhase.running, .finished, .arrived, .waiting, .parked] := by
  have phases := (Bool.and_eq_true_iff.mp h).2
  simp only [Bool.or_eq_true, beq_iff_eq] at phases
  simp only [List.mem_cons, List.not_mem_nil, or_false]
  tauto

/-- The descriptors that a cadence fault ends (R46). -/
def State.cadenceHitIds : List Nat := (s.shep.descs.filter Desc.cadenceHits).map Desc.id

theorem State.mem_cadenceHitIds (id : Nat) (d : Desc) (hd : s.desc? id = some d) (h : d.cadenceHits = true) :
    id ∈ s.cadenceHitIds := by
  have named : d.id = id := by simpa using List.find?_some (p := fun d : Desc => d.id == id) hd
  exact List.mem_map.mpr ⟨d, List.mem_filter.mpr ⟨List.mem_of_find?_eq_some hd, h⟩, named⟩

/-! ## Cue actions that a fault cancels -/

theorem State.cueLevel_frame (c : CueIx) (v : Bool) :
    ∃ l, s.cueLevel c v = { s with cue := { s.cue with level := l } } := by
  unfold State.cueLevel
  split
  · exact ⟨_, rfl⟩
  · exact ⟨_, rfl⟩

/-- R56: cancelling actions takes them from the schedule and moves levels. -/
theorem State.cancelCues_frame (p : CueAction → Bool) : ∃ l, s.cancelCues p =
    { s with cue := { s.cue with level := l, actions := s.cue.actions.filter fun a => !p a } } := by
  unfold State.cancelCues
  generalize s.cue.actions.filter p = hit
  refine List.foldlRecOn (motive := fun t : State => ∃ l, t =
    { s with cue := { s.cue with level := l, actions := s.cue.actions.filter fun a => !p a } }) hit _ ⟨s.cue.level, rfl⟩ ?_
  rintro _ ⟨l, rfl⟩ a -
  exact State.cueLevel_frame _ _ _

/-! ## The fault -/

/-- R44 to R46: the unit as a fault has frozen it. -/
def CadSt.faulted (c : CadSt) (f : CadFaults) : CadSt :=
  { c with
    state := .fault, shown := .fault, faultPos := c.pos
    loss := c.loss || f.loss, jumpBack := c.jumpBack || f.back, jumpFwd := c.jumpFwd || f.fwd
    range := c.range || f.range, zeroSeed := c.zeroSeed || f.range
    backSeen := false, fwdSeen := false, rangeSeen := false }

/-- R46: with the unit frozen, its timed descriptors end. -/
def State.cadFrozen (s : State) (f : CadFaults) : State :=
  s.cadenceHitIds.foldl (fun (s : State) id => s.endDesc id stCadence) { s with cad := s.cad.faulted f }

theorem State.cadFrozen_frame (f : CadFaults) : ∃ t g k b l, s.cadFrozen f = { s with
    cad := s.cad.faulted f, tiles := t, paging := g, links := k, fabric := b, shep := { s.shep with descs := l } } :=
  State.foldl_endDesc_frame _ stCadence s.cadenceHitIds

theorem State.cadFrozen_endsWith (f : CadFaults) (id : Nat) (d : Desc) (hd : s.desc? id = some d)
    (h : d.cadenceHits = true) : (s.cadFrozen f).endsWith id stCadence :=
  State.foldl_endDesc_endsWith _ id stCadence _ (s.mem_cadenceHitIds id d hd h) d hd (d.cadenceHits_open h)

theorem State.cadFault_eq (f : CadFaults) (h : (f.loss || f.back || f.fwd || f.range) = true) :
    ∃ b, s.cadFault f = ((s.cadFrozen f).cancelCues fun _ => true).raise .alarm 0x0002 noInst b := by
  simp only [State.cadFault, h, Bool.not_true, Bool.false_eq_true, if_false]
  exact ⟨_, rfl⟩

/-- R46: a fault of any kind freezes the position, ends the timed descriptors, cancels the cue actions, and raises the
ALARM. -/
theorem State.cadFault_frozen (f : CadFaults) (h : (f.loss || f.back || f.fwd || f.range) = true) :
    frozenBy s (s.cadFault f) ∧ (s.cadFault f).cad = s.cad.faulted f := by
  obtain ⟨b, hb⟩ := s.cadFault_eq f h
  obtain ⟨q, hq⟩ := (s.cadFrozen f).cancelCues_frame fun _ => true
  obtain ⟨t, g, k, p, l, hl⟩ := s.cadFrozen_frame f
  have ends (id : Nat) (d : Desc) (hd : s.desc? id = some d) (hc : d.cadenceHits = true) :=
    s.cadFrozen_endsWith f id d hd hc
  rw [hl] at hq ends
  rw [hb, hl, hq]
  exact ⟨⟨rfl, rfl, rfl, by simp, ⟨_, _, rfl, rfl, rfl⟩, ends, rfl, rfl, rfl, rfl⟩, rfl⟩

/-! ## Commands -/

theorem exec_coasting : exec .coasting s = .next s.coast := rfl
theorem State.coast_due (h : s.coastDue = true) : s.coast = { s with cad := { s.cad with
    state := .coasting, shown := .coasting, track := { s.cad.track with coastAt := s.tick.now } } } := by
  rw [State.coast, if_pos h]
  rfl

theorem State.coast_notDue (h : s.coastDue = false) : s.coast = s := by
  rw [State.coast, h, if_neg Bool.false_ne_true]

/-- R44: a unit that coasts takes the LOSS that is due. -/
theorem exec_loss_due (hc : s.cad.state = .coasting) (hd : s.lossDue = true) :
    exec .loss s = .next (s.cadFault { loss := true }) := by
  have still : s.coast = s := s.coast_notDue (by simp [State.coastDue, hc])
  show Host.Outcome.next (s.coast.cadFault { loss := s.coast.lossDue }) = _
  rw [still, hd]

theorem exec_jumpBack_seen (hr : s.cad.runs = true) (hb : s.cad.backSeen = true) :
    exec .jumpBack s = .next (s.cadFault { back := true }) := by
  show Host.Outcome.next (s.cadFault { back := s.cad.runs && s.cad.backSeen }) = _
  rw [hr, hb, Bool.and_self]

theorem exec_jumpFwd_seen (hr : s.cad.runs = true) (hf : s.cad.fwdSeen = true) :
    exec .jumpFwd s = .next (s.cadFault { fwd := true }) := by
  show Host.Outcome.next (s.cadFault { fwd := s.cad.runs && s.cad.fwdSeen }) = _
  rw [hr, hf, Bool.and_self]

/-- R44: a locked unit is to coast from 1.125 expected periods on. -/
theorem State.coastDue_locked (hl : s.cad.state = .locked) (hs : s.cadSource ≠ 4) (hp : s.expectedPeriod ≠ 0) :
    s.coastDue = decide (9 * s.expectedPeriod ≤ 8 * (s.tick.now - s.cad.track.lastAt)) := by
  simp [State.coastDue, hl, hs, hp]

/-- R47: the unit with the fault bits that a write leaves set. -/
def CadSt.cleared (c : CadSt) (w : Nat) : CadSt :=
  { c with loss := c.loss && !bit w 4, jumpBack := c.jumpBack && !bit w 5
           jumpFwd := c.jumpFwd && !bit w 6, range := c.range && !bit w 8 }

/-- A fault bit is set. -/
def CadSt.anyFault (c : CadSt) : Bool := c.loss || c.jumpBack || c.jumpFwd || c.range

/-- R47: a unit in FAULT stays there while a bit is left, and else re-acquires. -/
def CadSt.written (c : CadSt) (w : Nat) : CadSt :=
  if (c.cleared w).anyFault then c.cleared w else { (c.cleared w).acquire with shown := .acquire }

theorem exec_cadStatusClear_fault (w : Word) (hf : s.cad.state = .fault) :
    exec (.cadStatusClear w) s = .next { s with cad := s.cad.written w.toNat } := by
  have fault : ((s.cad.cleared w.toNat).state == .fault) = true := beq_iff_eq.mpr hf
  show Host.Outcome.next (s.modCad fun c => if (c.cleared w.toNat).state == .fault && !(c.cleared w.toNat).anyFault then
    { (c.cleared w.toNat).acquire with shown := .acquire } else c.cleared w.toNat) = _
  rw [State.modCad, fault, Bool.true_and, CadSt.written]
  cases (s.cad.cleared w.toNat).anyFault <;> rfl

/-- Settles O9: `cadFault_frozen` for the three faults; clearing by the bits that are left. -/
theorem cadenceCoastsAndFaults : Obligations.CadenceCoastsAndFaults := by
  refine ⟨fun s hl hs hp => ⟨fun h => ?_, fun h => ?_⟩, fun s => ⟨fun hc hd => ?_, fun hr hb => ?_, fun hr hf => ?_⟩,
    fun s w hf => ?_⟩
  · rw [exec_coasting, s.coast_due ((s.coastDue_locked hl hs hp).trans (decide_eq_true h))]
  · rw [exec_coasting, s.coast_notDue ((s.coastDue_locked hl hs hp).trans (decide_eq_false (Nat.not_le.mpr h)))]
  · have due : s.lossDue = true := by simp [State.lossDue, hc, hd]
    obtain ⟨frozen, hcad⟩ := s.cadFault_frozen { loss := true } rfl
    exact ⟨_, exec_loss_due s hc due, frozen, hcad ▸ Bool.or_true _⟩
  · obtain ⟨frozen, hcad⟩ := s.cadFault_frozen { back := true } rfl
    exact ⟨_, exec_jumpBack_seen s hr hb, frozen, hcad ▸ Bool.or_true _⟩
  · obtain ⟨frozen, hcad⟩ := s.cadFault_frozen { fwd := true } rfl
    exact ⟨_, exec_jumpFwd_seen s hr hf, frozen, hcad ▸ Bool.or_true _⟩
  · refine ⟨_, exec_cadStatusClear_fault s w hf, ?_⟩
    unfold CadSt.written
    split <;> rename_i left
    · exact ⟨rfl, rfl, rfl, rfl, rfl, rfl, hf.trans (if_pos left).symm⟩
    · exact ⟨rfl, rfl, rfl, rfl, rfl, rfl, (if_neg left).symm⟩

end Sys2Proof.Machine
end

section
/-! Timecode frames and latency probes (R37, R38, R41, R324). -/
namespace Sys2Proof.Machine
open Sys2Proof

variable (s : State)

/-! ## Frames (R37, R38) -/

section
variable (t : Nat) (b : BitVec 96)

theorem exec_timecodeFrame_otherSource (ok : Bool) (h : s.cadSource ≠ 0) : exec (.timecodeFrame t b ok) s = .next s := by
  show execTimecodeFrame t b ok s = _
  rw [execTimecodeFrame, if_pos h]

variable (h : s.cadSource = 0)
include h

theorem exec_timecodeFrame_damaged (ok : Bool)
    (hb : ok = false ∨ timecodeCrc (b.extractLsb' 0 80) ≠ b.extractLsb' 80 16) :
    exec (.timecodeFrame t b ok) s = .next { s with cad := { s.cad with tcCrc := sat 16 (s.cad.tcCrc + 1) } } := by
  have damaged : (!ok || timecodeCrc (b.extractLsb' 0 80) != b.extractLsb' 80 16) = true := by
    rcases hb with hb | hb <;> simp [hb]
  show execTimecodeFrame t b ok s = _
  rw [execTimecodeFrame, if_neg (not_not.mpr h), if_pos damaged]
  rfl

variable (hc : timecodeCrc (b.extractLsb' 0 80) = b.extractLsb' 80 16)
include hc

theorem exec_timecodeFrame_reserved (ht : b.extractLsb' 0 4 ≠ 1) :
    exec (.timecodeFrame t b true) s = .next { s with cad := { s.cad with
      track := { s.cad.track with seq := some (b.extractLsb' 72 8) } } } := by
  have good : (!true || timecodeCrc (b.extractLsb' 0 80) != b.extractLsb' 80 16) = false := by simp [hc]
  show execTimecodeFrame t b true s = _
  rw [execTimecodeFrame, if_neg (not_not.mpr h), if_neg (ne_true_of_eq_false good), if_pos (bne_iff_ne.mpr ht)]
  rfl

/-- R38: the unit as a position frame leaves it, by whether its SEQ is in turn. -/
theorem exec_timecodeFrame_position (q : Byte) (turn : Bool) (ht : b.extractLsb' 0 4 = 1) (hq : s.cad.track.seq = some q)
    (hs : (b.extractLsb' 72 8 == q + 1) = turn) : exec (.timecodeFrame t b true) s = .next (s.modCad fun c =>
      CadSt.reported { c with
          track := { c.track with seq := some (b.extractLsb' 72 8) }
          tcCrc := if turn then c.tcCrc else sat 16 (c.tcCrc + 1)
          upstreamHold := if turn then b.getLsbD 4 else c.upstreamHold }
        s.jumpLimit (framePos b) (t + s.tcDelay) s.tcInterval !turn) := by
  have good : (!true || timecodeCrc (b.extractLsb' 0 80) != b.extractLsb' 80 16) = false := by simp [hc]
  have typ : ¬((b.extractLsb' 0 4 != 1) = true) := by simpa using ht
  show execTimecodeFrame t b true s = _
  rw [execTimecodeFrame, if_neg (not_not.mpr h), if_neg (ne_true_of_eq_false good), if_neg typ]
  simp only [hq, hs]

/-- R38: the unit as a position frame with its SEQ in turn leaves it. -/
theorem exec_timecodeFrame_inTurn (q : Byte) (ht : b.extractLsb' 0 4 = 1) (hq : s.cad.track.seq = some q)
    (hs : b.extractLsb' 72 8 = q + 1) : exec (.timecodeFrame t b true) s = .next (s.modCad fun c =>
      CadSt.reported { c with track := { c.track with seq := some (q + 1) }, upstreamHold := b.getLsbD 4 }
        s.jumpLimit (framePos b) (t + s.tcDelay) s.tcInterval false) := by
  rw [exec_timecodeFrame_position s t b h hc q true ht hq (beq_iff_eq.mpr hs), hs]
  rfl

/-- R38: the unit as a position frame with its SEQ out of turn leaves it. -/
theorem exec_timecodeFrame_outOfTurn (q : Byte) (ht : b.extractLsb' 0 4 = 1) (hq : s.cad.track.seq = some q)
    (hs : b.extractLsb' 72 8 ≠ q + 1) : exec (.timecodeFrame t b true) s = .next (s.modCad fun c =>
      CadSt.reported { c with track := { c.track with seq := some (b.extractLsb' 72 8) }, tcCrc := sat 16 (c.tcCrc + 1) }
        s.jumpLimit (framePos b) (t + s.tcDelay) s.tcInterval true) := by
  rw [exec_timecodeFrame_position s t b h hc q false ht hq (beq_false_of_ne hs)]
  rfl

end

/-- A value that is not consecutive moves nothing while the unit runs. -/
theorem CadSt.reported_stale (c : CadSt) (limit v t per : Nat) (hr : c.runs = true) :
    c.reported limit v t per true = c := by
  rcases c.runs_iff.mp hr with h | h <;> simp [CadSt.reported, h]

/-- R45: a value neither behind its predecessor nor beyond the limit is accepted. -/
theorem CadSt.accept_valid (c : CadSt) (limit v t : Nat) (hr : c.reseeded = false) (hlo : c.track.lastPos ≤ v)
    (hhi : v ≤ c.pos + limit) : ∃ r, c.accept limit v t false =
      { c with rangeSeen := r, state := .locked, track := { c.track with lastPos := v, lastAt := t } } := by
  unfold CadSt.accept
  simp only [hr, Bool.false_eq_true, if_false, Nat.not_lt.mpr hlo, decide_false, Bool.or_false, Nat.not_lt.mpr hhi]
  exact ⟨_, rfl⟩

/-- R37, R43: a valid value of a source that reports positions, while the unit runs. -/
theorem CadSt.reported_valid (c : CadSt) (limit v t per : Nat) (hs : c.state = .locked ∨ c.state = .coasting)
    (hr : c.reseeded = false) (hb : c.backSeen = false) (hf : c.fwdSeen = false) (hlo : c.track.lastPos ≤ v - c.base)
    (hhi : v - c.base ≤ c.pos + limit) : ∃ r n d mn md p, c.reported limit v t per false = { c with
      rangeSeen := r, state := .locked
      track := { c.track with lastPos := v - c.base, lastAt := t, num := n, den := d, meanNum := mn, meanDen := md, period := p } } := by
  obtain ⟨r, ha⟩ := c.accept_valid limit (v - c.base) t hr hlo hhi
  obtain ⟨n, d, mn, md, p, hrated⟩ := CadSt.rated_frame (c.accept limit (v - c.base) t false) (v - c.base - c.track.lastPos)
    (t - c.track.lastAt) (if per = 0 then t - c.track.lastAt else per) false
  refine ⟨r, n, d, mn, md, p, ?_⟩
  have rated : c.reported limit v t per false = (c.accept limit (v - c.base) t false).rated (v - c.base - c.track.lastPos)
      (t - c.track.lastAt) (if per = 0 then t - c.track.lastAt else per) false := by
    have clean : ((c.accept limit (v - c.base) t false).backSeen || (c.accept limit (v - c.base) t false).fwdSeen) = false := by
      simp [ha, hb, hf]
    rcases hs with hs | hs <;> simp [CadSt.reported, hs, clean]
  rw [rated, hrated, ha]

/-! ## Probes (R41, R324) -/

theorem State.sendMsg_sends (m : OutMsg) (hd : s.devid.isSome = true) (hm : s.muzzle.module.active = false) :
    (s.sendMsg m).cad = s.cad ∧ (s.sendMsg m).links.fabric.out = s.links.fabric.out ++ [m] := by
  have leaves : (s.devid.isSome && (!s.muzzle.module.active || m.type.inHold)) = true := by simp [hd, hm]
  rw [State.sendMsg, if_pos leaves]
  exact ⟨rfl, rfl⟩

/-- The unit as a probe leaves (R41). -/
def State.probing (s : State) (t : Nat) : State :=
  s.modCad fun c => { c with track := { c.track with probeAt := some t } }

theorem exec_latencyProbe_sends (t : Nat) (h : s.cadSource = 3) (hd : s.devid.isSome = true)
    (hn : s.devid ≠ some (s.regN 0x20114)) :
    exec (.latencyProbe t) s = .next ((s.probing t).sendMsg ⟨.probe, s.regN 0x20114, 0, t, 0⟩) := by
  have known : s.devid.isNone = false := by simpa using hd
  show Host.Outcome.next (if s.cadSource ≠ 3 then s else s.sendProbe t) = _
  simp [h, State.sendProbe, State.probing, known, hn]

theorem exec_probeEcho (t sent : Nat) (src : BitVec 14) : exec (.probeEcho t sent src) s =
    .next (if s.cad.track.probeAt = some sent then
        s.modCad fun c => { c with track := { c.track with probeAt := none, latency := (t - sent) / 2 } }
      else if bit (s.regN 0xF000C) 0 then s.sendMsg ⟨.probe, src.toNat, 0, sent, 0⟩
      else s) := rfl

/-- Settles O10: the branches of a frame, with `reported_valid` for the one that is taken; the two ends of a probe. -/
theorem timecodeAndProbesSetThePosition : Obligations.TimecodeAndProbesSetThePosition := by
  refine ⟨fun s t b ok => ⟨exec_timecodeFrame_otherSource s t b ok, fun h => exec_timecodeFrame_damaged s t b h ok,
    exec_timecodeFrame_reserved s t b, fun q h hc ht hq hs hr => ?_, fun q h hc ht hq hs hst hre hb hf hlo hhi => ?_⟩,
    fun s t sent src => ⟨fun h hd hn hm => ?_, fun h => ?_, fun h hl hd hm => ?_⟩⟩
  · rw [exec_timecodeFrame_outOfTurn s t b h hc q ht hq hs, State.modCad, CadSt.reported_stale]
    exact hr
  · obtain ⟨r, n, d, mn, md, p, hv⟩ := CadSt.reported_valid
      { s.cad with track := { s.cad.track with seq := some (q + 1) }, upstreamHold := b.getLsbD 4 }
      s.jumpLimit (framePos b) (t + s.tcDelay) s.tcInterval hst hre hb hf hlo hhi
    rw [exec_timecodeFrame_inTurn s t b h hc q ht hq hs, State.modCad, hv]
    exact ⟨_, rfl, rfl, rfl, rfl, rfl, rfl, rfl, rfl⟩
  · obtain ⟨hcad, hout⟩ := (s.probing t).sendMsg_sends ⟨.probe, s.regN 0x20114, 0, t, 0⟩ hd hm
    exact ⟨_, exec_latencyProbe_sends s t h hd hn, by rw [hcad]; rfl, hout, by rw [hcad]; rfl⟩
  · rw [exec_probeEcho, if_pos h]
    rfl
  · exact ⟨_, (exec_probeEcho s t sent src).trans (congrArg _ ((if_neg h).trans (if_pos hl))), s.sendMsg_sends _ hd hm⟩

end Sys2Proof.Machine
end

section
/-! SUPPORT. The end of a migration, said once: the remap entry, the two sites, the tile and its Pack (R266 to R268). -/
namespace Sys2Proof.Machine
open Sys2Proof

variable (s : State) (m : Move) (lost : Bool)

@[simp] theorem State.tile_modPack (p i : Nat) (f : PackSt → PackSt) : (s.modPack p f).tile i = s.tile i := rfl
@[simp] theorem State.tile_raise (c : TelClass) (code inst i : Nat) (b : List Byte) : (s.raise c code inst b).tile i = s.tile i :=
  rfl
@[simp] theorem State.pack_raise (c : TelClass) (code inst p : Nat) (b : List Byte) : (s.raise c code inst b).pack p = s.pack p :=
  rfl
@[simp] theorem State.site_modPack (p i : Nat) (f : PackSt → PackSt) : (s.modPack p f).site i = s.site i := rfl
@[simp] theorem State.site_modTile (k i : Nat) (f : TileSt → TileSt) : (s.modTile k f).site i = s.site i := rfl
@[simp] theorem State.site_raise (c : TelClass) (code inst i : Nat) (b : List Byte) : (s.raise c code inst b).site i = s.site i :=
  rfl

/-- R33, R57: the remap entry of the tile names its new site, and the tile's translation cache is empty. -/
def State.entrySwapped (s : State) (m : Move) : State :=
  (s.modKennel fun k => { k with
    moves := k.moves.filter fun x => x.tile != m.tile
    migrations := sat 16 (k.migrations + 1)
    remap := Table.set (dawnRow s.mod.grade m.tile.row.val) k.remap m.tile.ix m.to_.prow.val }).modTile m.tile.ix
      fun t => { t with tlb := [] }

/-- R266: the site that a move leaves. -/
def Move.leftSite (m : Move) (lost : Bool) (x : SiteSt) : SiteSt :=
  if m.why == .repair || lost then { x with st := .quarantine, lrow := 0, passed := 0, retest := false }
  else { x with st := .testing, lrow := 0 }

/-- R264, R266, R270: the new site serves the tile, and the old one leaves service. -/
def State.sitesSwapped (s : State) (m : Move) (lost : Bool) : State :=
  let s := s.entrySwapped m
  let s := s.modSite m.to_.ix fun x => { x with st := .inService, lrow := m.tile.row.val }
  let s := if m.why == .rotation && lost then s.setFaults m.from_.ix (sat 8 ((s.site m.from_.ix).faults + 1)) else s
  s.modSite m.from_.ix (m.leftSite lost)

theorem State.sitesSwapped_frame : ∃ sites nv, s.sitesSwapped m lost =
    { s.entrySwapped m with kennel := { (s.entrySwapped m).kennel with sites := sites }, nv := nv } := by
  unfold State.sitesSwapped
  simp only [State.setFaults, State.modSite, State.setSite]
  split
  · exact ⟨_, _, rfl⟩
  · exact ⟨_, _, rfl⟩

theorem State.packOf_sitesSwapped (t : TileId) : (s.sitesSwapped m lost).packOf t = s.packOf t := by
  obtain ⟨sites, nv, h⟩ := s.sitesSwapped_frame m lost
  rw [h]
  rfl

theorem State.site_setFaults_other (i k n : Nat) (h : k ≠ i) : (s.setFaults i n).site k = s.site k :=
  s.site_modSite_other i k (fun x => { x with faults := n }) h

theorem State.sitesSwapped_sites (h : m.from_.ix ≠ m.to_.ix) :
    ((s.sitesSwapped m lost).site m.to_.ix).st = .inService ∧
    ((s.sitesSwapped m lost).site m.to_.ix).lrow = m.tile.row.val ∧
    ((s.sitesSwapped m lost).site m.from_.ix).st = (if m.why == .repair || lost then .quarantine else .testing) := by
  have to_ (f : SiteSt → SiteSt) (u : State) : (u.modSite m.from_.ix f).site m.to_.ix = u.site m.to_.ix :=
    u.site_modSite_other m.from_.ix m.to_.ix f h.symm
  have left (x : SiteSt) : (m.leftSite lost x).st = if m.why == .repair || lost then .quarantine else .testing := by
    unfold Move.leftSite
    split <;> rfl
  unfold State.sitesSwapped
  dsimp only
  rw [to_, State.site_modSite_same, left]
  split
  · rw [State.site_setFaults_other _ _ _ _ h.symm, State.site_modSite_same]
    exact ⟨rfl, rfl, rfl⟩
  · rw [State.site_modSite_same]
    exact ⟨rfl, rfl, rfl⟩

/-- R267, R268: what a tile without a Pack, and one with a Pack, come to at the end of its migration. -/
theorem State.endMove_cases :
    (s.packOf m.tile = none ∧ s.endMove m lost =
      if lost then (s.sitesSwapped m lost).modTile m.tile.ix TileSt.zeroed else s.sitesSwapped m lost) ∨
    (∃ p b, s.packOf m.tile = some p ∧
      let u := (s.sitesSwapped m lost).modPack p fun k => { k with migrated := sat 16 (k.migrated + 1) }
      s.endMove m lost = if lost then
        ((u.modTile m.tile.ix TileSt.zeroed).modPack p fun k => { k with lost := true, lostFlag := true }).raise .log 0x010C
          m.to_.ix b
      else u) := by
  unfold State.endMove
  dsimp only
  split
  case h_1 e => exact .inl ⟨(s.packOf_sitesSwapped m lost m.tile).symm.trans e, rfl⟩
  case h_2 p e => exact .inr ⟨p, _, (s.packOf_sitesSwapped m lost m.tile).symm.trans e, rfl⟩

end Sys2Proof.Machine
end

section
/-! Migrations (R33, R57, R265 to R268). -/
namespace Sys2Proof.Machine
open Sys2Proof

variable (s : State) (m : Move)

/-! ## Start and copy (R265, R266) -/

theorem State.startWake_awake (d : Nat) (h : s.paging.asleep.contains d = false) : s.startWake d = s := by
  simp only [State.startWake, State.modPaging, h, Bool.false_and, Bool.false_eq_true, if_false]

theorem State.startMove_starts (hm : s.mayMove m = true) (ha : s.paging.asleep.contains (SiteId.domain m.to_) = false) :
    s.startMove m = s.modKennel fun k => { k with moves := k.moves.map fun x =>
      if x.tile == m.tile then { x with started := true, since := s.tick.count } else x } := by
  rw [State.startMove, if_pos hm]
  exact State.startWake_awake _ _ ha

section
variable (h : s.kennel.moves = [m])
include h

theorem exec_migrationStart_one : exec (.migrationStart m.tile) s = .next (s.startMove m) := by
  show Host.Outcome.next ((s.kennel.moves.filter fun x => x.tile == m.tile).foldl State.startMove s) = _
  simp [h]

theorem exec_migrationStart_starts (hm : s.mayMove m = true) (ha : s.paging.asleep.contains (SiteId.domain m.to_) = false) :
    exec (.migrationStart m.tile) s = .next { s with kennel := { s.kennel with
      moves := [{ m with started := true, since := s.tick.count }] } } := by
  rw [exec_migrationStart_one s m h, s.startMove_starts m hm ha]
  simp [State.modKennel, h]

theorem exec_migrationStart_waits (hm : s.mayMove m = false) : exec (.migrationStart m.tile) s = .next s := by
  rw [exec_migrationStart_one s m h, State.startMove, if_neg (ne_true_of_eq_false hm)]

theorem exec_migrationComplete_one (lost : Bool) : exec (.migrationComplete m.tile lost) s = .next { s with kennel :=
    { s.kennel with moves := [if s.copies m m.tile then { m with done := some lost } else m] } } := by
  show Host.Outcome.next (s.modKennel fun k => { k with
    moves := k.moves.map fun x => if s.copies x m.tile then { x with done := some lost } else x }) = _
  rw [State.modKennel, h]
  rfl

theorem State.finishMoves_one (lost : Bool) (hd : m.done = some lost) : s.finishMoves = s.endMove m lost := by
  simp [State.finishMoves, h, hd]

end

theorem State.copies_iff : s.copies m m.tile = true ↔
    m.started = true ∧ m.done = none ∧ s.paging.asleep.contains (SiteId.domain m.to_) = false := by
  simp [State.copies, and_assoc]

/-! ## The end (R267, R268) -/

theorem State.tile_sitesSwapped_same (lost : Bool) :
    (s.sitesSwapped m lost).tile m.tile.ix = { s.tile m.tile.ix with tlb := [] } := by
  obtain ⟨sites, nv, h⟩ := s.sitesSwapped_frame m lost
  rw [h]
  exact Table.get_put_same ..

theorem State.tile_sitesSwapped_other (lost : Bool) (j : Nat) (hj : j ≠ m.tile.ix) :
    (s.sitesSwapped m lost).tile j = s.tile j := by
  obtain ⟨sites, nv, h⟩ := s.sitesSwapped_frame m lost
  rw [h]
  exact Table.get_put_other _ _ _ _ _ hj

/-- R267: without a loss every tile is as the swap of the entry left it. -/
theorem State.tile_endMove_kept (i : Nat) : (s.endMove m false).tile i = (s.sitesSwapped m false).tile i := by
  rcases s.endMove_cases m false with ⟨-, h⟩ | ⟨p, b, -, h⟩ <;> simp [h]

theorem State.site_endMove (lost : Bool) (i : Nat) : (s.endMove m lost).site i = (s.sitesSwapped m lost).site i := by
  rcases s.endMove_cases m lost with ⟨-, h⟩ | ⟨p, b, -, h⟩ <;> cases lost <;> simp [h]

/-- What the end of a migration leaves alone, whatever becomes of the contents. -/
theorem State.endMove_frame (lost : Bool) : ∃ sites nv tl tel, s.endMove m lost = { s.entrySwapped m with
    kennel := { (s.entrySwapped m).kennel with sites := sites }, nv := nv, tiles := tl, tel := tel } := by
  obtain ⟨sites, nv, h⟩ := s.sitesSwapped_frame m lost
  rcases s.endMove_cases m lost with ⟨-, he⟩ | ⟨p, b, -, he⟩
  all_goals
    rw [he, h]
    simp only [State.modTile, State.setTile, State.modPack, State.setPack, State.raise]
    cases lost
    · exact ⟨_, _, _, _, rfl⟩
    · exact ⟨_, _, _, _, rfl⟩

theorem State.endMove_memories (lost : Bool) :
    (s.endMove m lost).host = s.host ∧ (s.endMove m lost).hbm = s.hbm ∧ (s.endMove m lost).regs = s.regs := by
  obtain ⟨sites, nv, tl, tel, h⟩ := s.endMove_frame m lost
  rw [h]
  exact ⟨rfl, rfl, rfl⟩

theorem State.moves_endMove (lost : Bool) :
    (s.endMove m lost).kennel.moves = s.kennel.moves.filter fun x => x.tile != m.tile := by
  obtain ⟨sites, nv, tl, tel, h⟩ := s.endMove_frame m lost
  rw [h]
  rfl

/-- R57, R265: the remap entry names the new site. -/
theorem State.siteOf_entrySwapped : (s.entrySwapped m).siteOf m.tile = ⟨m.to_.prow, m.tile.col⟩ := by
  have entry : Table.get (dawnRow s.mod.grade m.tile.row.val) (Table.set (dawnRow s.mod.grade m.tile.row.val)
    s.kennel.remap m.tile.ix m.to_.prow.val) m.tile.ix = m.to_.prow.val := Table.get_set_same ..
  refine (congrArg (fun n => (⟨Fin.ofNat 36 n, m.tile.col⟩ : SiteId)) entry).trans ?_
  simp [Fin.ofNat, Nat.mod_eq_of_lt m.to_.prow.isLt]

theorem State.siteOf_endMove (lost : Bool) : (s.endMove m lost).siteOf m.tile = ⟨m.to_.prow, m.tile.col⟩ := by
  obtain ⟨sites, nv, tl, tel, h⟩ := s.endMove_frame m lost
  rw [h]
  exact s.siteOf_entrySwapped m

/-- R268: the end of a migration whose copy lost the contents of a Pack's tile. -/
theorem State.endMove_lost (p : Nat) (hp : s.packOf m.tile = some p) : ∃ b, s.endMove m true =
    (((((s.sitesSwapped m true).modPack p fun k => { k with migrated := sat 16 (k.migrated + 1) }).modTile m.tile.ix
      TileSt.zeroed).modPack p fun k => { k with lost := true, lostFlag := true }).raise .log 0x010C m.to_.ix b) := by
  rcases s.endMove_cases m true with ⟨hn, -⟩ | ⟨p', b, hp', h⟩
  · cases hn.symm.trans hp
  · obtain rfl : p = p' := Option.some.inj (hp.symm.trans hp')
    exact ⟨b, h⟩

/-- Settles O19: start and copy by the one move that is scheduled; its end by `endMove_kept` and `endMove_lost`. -/
theorem migrationMovesTheTile : Obligations.MigrationMovesTheTile := by
  refine fun s m h => ⟨exec_migrationStart_starts s m h, exec_migrationStart_waits s m h, fun hs hd ha lost => ?_,
    fun hn lost => ?_, fun hd hx => ?_, fun p hd hx hp => ?_⟩
  · rw [exec_migrationComplete_one s m h, if_pos ((s.copies_iff m).mpr ⟨hs, hd, ha⟩)]
  · have still : ¬s.copies m m.tile = true := by
      rw [s.copies_iff]
      rintro ⟨hs, hd, ha⟩
      rcases hn with hn | hn | hn
      · cases hn.symm.trans hs
      · exact hn hd
      · cases hn.symm.trans ha
    rw [exec_migrationComplete_one s m h, if_neg still, ← h]
  · obtain ⟨hto, hrow, hfrom⟩ := s.sitesSwapped_sites m false hx
    simp only [s.finishMoves_one m h false hd, s.site_endMove, s.tile_endMove_kept]
    refine ⟨?_, s.siteOf_endMove m false, hto, hrow, hfrom.trans (by simp), s.tile_sitesSwapped_same m false,
      s.tile_sitesSwapped_other m false, ?_⟩
    · rw [s.moves_endMove, h]
      simp
    · exact s.endMove_memories m false
  · obtain ⟨b, hb⟩ := s.endMove_lost m p hp
    obtain ⟨-, -, hfrom⟩ := s.sitesSwapped_sites m true hx
    have zeroed : (s.endMove m true).tile m.tile.ix = { s.tile m.tile.ix with tlb := [], mem := {}, arr := {} } := by
      simp [hb, s.tile_sitesSwapped_same, TileSt.zeroed]
    simp only [s.finishMoves_one m h true hd, s.site_endMove]
    refine ⟨s.siteOf_endMove m true, hfrom.trans (by simp), zeroed, by simp [hb], by simp [hb], ?_, s.endMove_memories m true⟩
    rw [hb]
    exact ⟨_, _, rfl, rfl, rfl⟩

end Sys2Proof.Machine
end

section
/-! Page tables and page batches (R57, R243, R245, R246). -/
namespace Sys2Proof.Machine
open Sys2Proof

/-! ## Searches of a table -/

section
variable {α : Type} (t : Table α) (k : Nat)

theorem Table.find?_put_same (v : α) : (Table.put t k v).find? (fun e => e.1 == k) = some (k, v) := by
  induction t with
  | nil => simp [Table.put]
  | cons e t ih =>
    obtain ⟨i, w⟩ := e
    by_cases h1 : k < i
    · simp [Table.put, h1]
    · by_cases h2 : k = i
      · simp [Table.put, h2]
      · simp [Table.put, h1, h2, ih, beq_false_of_ne (Ne.symm h2)]

theorem Table.find?_put_other (a : Nat) (v : α) (h : a ≠ k) :
    (Table.put t k v).find? (fun e => e.1 == a) = t.find? fun e => e.1 == a := by
  have off : (k == a) = false := beq_false_of_ne h.symm
  induction t with
  | nil => simp [Table.put, off]
  | cons e t ih =>
    obtain ⟨i, w⟩ := e
    by_cases h1 : k < i
    · simp [Table.put, h1, off]
    · by_cases h2 : k = i
      · subst h2
        simp [Table.put, off]
      · simp [Table.put, h1, h2, List.find?_cons, ih]

theorem Table.find?_erase_same : (Table.erase t k).find? (fun e => e.1 == k) = none := by
  induction t with
  | nil => rfl
  | cons e t ih =>
    obtain ⟨i, w⟩ := e
    by_cases h : i = k
    · simp only [Table.erase, h, if_true, ih]
    · simp only [Table.erase, h, if_false, List.find?_cons, beq_false_of_ne h, ih]

/-- A function of the entries that keeps the default is a function of what is read. -/
theorem Table.get_map (d : α) (f : α → α) (hd : f d = d) :
    Table.get d (t.map fun e => (e.1, f e.2)) k = f (Table.get d t k) := by
  induction t with
  | nil => exact hd.symm
  | cons e t ih =>
    obtain ⟨i, w⟩ := e
    simp only [List.map_cons, Table.get_cons, ih]
    split <;> rfl

end

/-! ## What an entry maps (R243, R245) -/

section
variable (t : PageTable) (va a : Nat)

theorem PageTable.leaf_small (w : DWord) (h : t.small.find? (fun e => e.1 == a / 65536) = some (a / 65536, w)) :
    t.leaf a = some (w, 65536) := by
  simp [PageTable.leaf, h]

theorem PageTable.leaf_large (w : DWord) (hs : t.small.find? (fun e => e.1 == a / 65536) = none)
    (h : t.large.find? (fun e => e.1 == a / 2 ^ 21) = some (a / 2 ^ 21, w)) : t.leaf a = some (w, 2 ^ 21) := by
  simp only [PageTable.leaf, hs, h]

theorem PageTable.leaf_none (hs : t.small.find? (fun e => e.1 == a / 65536) = none)
    (h : t.large.find? (fun e => e.1 == a / 2 ^ 21) = none) : t.leaf a = none := by
  simp only [PageTable.leaf, hs, h]

theorem PageTable.split_none (h : t.large.find? (fun e => e.1 == va / 2 ^ 21) = none) : t.split va = t := by
  simp only [PageTable.split, h]

/-- R245: no large leaf is left over an address whose range has been split. -/
theorem PageTable.split_large : (t.split va).large.find? (fun e => e.1 == va / 2 ^ 21) = none := by
  cases h : t.large.find? fun e => e.1 == va / 2 ^ 21 with
  | none => rw [t.split_none va h, h]
  | some e =>
    have key : e.1 = va / 2 ^ 21 := by simpa using List.find?_some h
    simp only [PageTable.split, h, key]
    exact Table.find?_erase_same ..

theorem large_of_small (h : a / 65536 = va / 65536) : a / 2 ^ 21 = va / 2 ^ 21 := by omega

theorem PageTable.leaf_edit_small (w : DWord) (h : a / 65536 = va / 65536) :
    (t.edit va false (some w)).leaf a = some (w, 65536) := by
  refine PageTable.leaf_small _ a w ?_
  rw [h]
  exact Table.find?_put_same ..

theorem PageTable.leaf_edit_other (w : DWord) (h : a / 65536 ≠ va / 65536)
    (hl : t.large.find? (fun e => e.1 == va / 2 ^ 21) = none) : (t.edit va false (some w)).leaf a = t.leaf a := by
  have small : (t.edit va false (some w)).small.find? (fun e => e.1 == a / 65536) =
      t.small.find? fun e => e.1 == a / 65536 := by
    simp only [PageTable.edit, Bool.false_eq_true, if_false, t.split_none va hl]
    exact Table.find?_put_other _ _ _ _ h
  have large : (t.edit va false (some w)).large = t.large := by
    simp only [PageTable.edit, Bool.false_eq_true, if_false, t.split_none va hl]
  simp only [PageTable.leaf, small, large]

theorem PageTable.leaf_edit_large (w : DWord) (h : a / 2 ^ 21 = va / 2 ^ 21) :
    (t.edit va true (some w)).leaf a = some (w, 2 ^ 21) := by
  refine PageTable.leaf_large _ a w (List.find?_eq_none.mpr fun e he => ?_) (h ▸ Table.find?_put_same ..)
  have out : e.1 / 32 ≠ va / 2 ^ 21 := by simpa [PageTable.edit] using (List.mem_filter.mp he).2
  rw [beq_iff_eq]
  omega

theorem PageTable.leaf_edit_unmap (h : a / 65536 = va / 65536) : (t.edit va false none).leaf a = none := by
  refine PageTable.leaf_none _ a ?_ ?_
  · rw [h]
    exact Table.find?_erase_same ..
  · rw [large_of_small va a h]
    exact t.split_large va

end

/-! ## Batches (R245) -/

/-- The entries read are as many as the batch names. -/
theorem State.length_readEdits (s : State) (a i n : Nat) (l : List PageEdit) (h : s.readEdits a i n = .ok l) :
    l.length = n := by
  induction n generalizing i l with
  | zero => cases h; rfl
  | succ n ih =>
    simp only [State.readEdits] at h
    split at h
    · cases h
    · split at h
      · cases h
        exact congrArg (· + 1) (ih _ _ ‹_›)
      · cases h

/-- The first entry of a list that fails, with its index. -/
theorem find?_zip_range {α : Type} (l : List α) (p : α → Bool) (i : Nat) (x : α) (hx : l[i]? = some x)
    (hp : p x = true) (hlt : ∀ j y, j < i → l[j]? = some y → p y = false) :
    ((List.range l.length).zip l).find? (fun e => p e.2) = some (i, x) := by
  obtain ⟨hi, rfl⟩ := List.getElem?_eq_some_iff.mp hx
  refine List.find?_eq_some_iff_getElem.mpr ⟨hp, i, by simpa using hi, by simp, fun j hj => ?_⟩
  simpa using hlt j _ hj (List.getElem?_eq_getElem (Nat.lt_trans hj hi))

/-- Entries that are applied to the shadow touch the shadow. -/
theorem State.foldl_applyEdit_frame (s : State) (l : List PageEdit) :
    ∃ sh, l.foldl State.applyEdit s = { s with paging := { s.paging with shadow := sh } } := by
  refine List.foldlRecOn (motive := fun t : State => ∃ sh, t = { s with paging := { s.paging with shadow := sh } }) l _
    ⟨s.paging.shadow, rfl⟩ ?_
  rintro _ ⟨sh, rfl⟩ e -
  exact ⟨_, rfl⟩

section
variable (s : State)

theorem exec_pgBatchGo : exec .pgBatchGo s = .next s.pgBatchGo := rfl

theorem State.pgBatchGo_busy (h : s.paging.batch = 1) :
    s.pgBatchGo = { s with paging := { s.paging with busyWrite := true } } := by
  rw [State.pgBatchGo, if_pos h]
  rfl

variable (hb : s.paging.batch ≠ 1)
include hb

theorem State.pgBatchGo_empty (hn : s.regN 0x60108 = 0) :
    s.pgBatchGo = { s with paging := { s.paging with batch := 2, index := 0 } } := by
  simp only [State.pgBatchGo, hb, hn, if_true, if_false]
  rfl

variable (hn : s.regN 0x60108 ≠ 0)
include hn

theorem State.pgBatchGo_unreadable (i : Nat) (h : s.readEdits (s.reg64 0x60100) 0 (s.regN 0x60108) = .error i) :
    s.pgBatchGo = { s with paging := { s.paging with batch := 3, readError := true, index := i } } := by
  simp only [State.pgBatchGo, hb, hn, h, if_false]
  rfl

variable (l : List PageEdit) (h : s.readEdits (s.reg64 0x60100) 0 (s.regN 0x60108) = .ok l)
include h

theorem State.pgBatchGo_bad (i : Nat) (e : PageEdit) (he : l[i]? = some e) (hbad : e.ok s.devid = false)
    (hok : ∀ j e', j < i → l[j]? = some e' → e'.ok s.devid = true) :
    s.pgBatchGo = { s with paging := { s.paging with batch := 3, index := i } } := by
  have first := find?_zip_range l (fun e => !e.ok s.devid) i e he (by simp [hbad])
    fun j e' hj he' => by simp [hok j e' hj he']
  rw [s.length_readEdits _ _ _ l h] at first
  simp only [State.pgBatchGo, hb, hn, h, first, if_false]
  rfl

/-- R245: a batch that passes fills the shadow, and nothing in force changes. -/
theorem State.pgBatchGo_fills (hok : ∀ e ∈ l, e.ok s.devid = true) : ∃ sh, s.pgBatchGo = { s with paging := { s.paging with
    shadow := sh, batch := 1, index := 0, batchAt := s.tick.now + ceilDiv (s.regN 0x60108) 16 * 1000 } } := by
  have none_ : ((List.range (s.regN 0x60108)).zip l).find? (fun e => !e.2.ok s.devid) = none :=
    List.find?_eq_none.mpr fun e he => by simp [hok e.2 (List.of_mem_zip he).2]
  obtain ⟨sh, hsh⟩ := State.foldl_applyEdit_frame (s.modPaging fun p => { p with shadow := [] }) l
  refine ⟨sh, ?_⟩
  simp only [State.pgBatchGo, hb, hn, h, none_, if_false, hsh]
  rfl

end

/-! ## The swap (R57, R246) -/

section
variable (s : State) (f : Fn) (tab : PageTable) (h : s.paging.shadow = [(f.val, tab)])
include h

theorem exec_tableSwap_page : exec (.tableSwap (.page f)) s = .next s.swapPages := by
  show Host.Outcome.next (if s.paging.shadow.any fun e => e.1 == f.val then s.swapPages else s) = _
  simp [h]

theorem State.swapPages_due (hb : s.paging.batch = 1) (ht : s.paging.batchAt ≤ s.tick.now) : s.swapPages = { s with
    paging := { s.paging with tables := Table.put s.paging.tables f.val tab, shadow := [], batch := 2 }
    tiles := { s.tiles with tiles := s.tiles.tiles.map fun e => (e.1, e.2.tlbDrop [f.val]) } } := by
  rw [State.swapPages, if_pos ⟨hb, ht⟩, h]
  simp [State.modPaging, h]

end

/-- R246: a cache without the entries of one function. -/
theorem TileSt.tlbDrop_one (t : TileSt) (f : Nat) : t.tlbDrop [f] = { t with tlb := t.tlb.filter fun e => e.fn != f } := by
  have same : ∀ e : CachedLeaf, (!(List.contains [f] e.fn)) = (e.fn != f) := fun e => Bool.eq_iff_iff.mpr (by simp)
  simp only [TileSt.tlbDrop, same]

/-- Settles O36: a batch by the branches of `pgBatchGo`, the swap by `swapPages_due`, an entry by the searches of its table. -/
theorem pageBatchSwapsWholeOrNotAtAll : Obligations.PageBatchSwapsWholeOrNotAtAll := by
  refine ⟨fun s => ⟨fun hb => ?_, fun hb hn => ?_, fun i hb hn h => ?_,
      fun l hb hn h => ⟨fun i e he hbad hok => ?_, fun hok => ?_⟩⟩,
    fun s f tab h => ⟨fun hb ht => ?_, fun hn => ?_⟩, fun t va a w => ⟨t.leaf_edit_small va a w, t.leaf_edit_other va a w,
      t.leaf_edit_large va a w, t.leaf_edit_unmap va a⟩⟩
  · rw [exec_pgBatchGo, s.pgBatchGo_busy hb]
  · rw [exec_pgBatchGo, s.pgBatchGo_empty hb hn]
  · rw [exec_pgBatchGo, s.pgBatchGo_unreadable hb hn i h]
  · rw [exec_pgBatchGo, s.pgBatchGo_bad hb hn l h i e he hbad hok]
  · obtain ⟨sh, hs⟩ := s.pgBatchGo_fills hb hn l h hok
    rw [exec_pgBatchGo, hs]
    exact ⟨_, rfl, rfl, rfl, rfl, rfl, rfl, rfl⟩
  · rw [exec_tableSwap_page s f tab h, s.swapPages_due f tab h hb ht]
    refine ⟨_, rfl, Table.get_put_same .., rfl, fun g hg => Table.get_put_other _ _ _ _ _ hg, rfl, rfl, rfl, fun i => ?_⟩
    have dropped := Table.get_map s.tiles.tiles i {} (fun t : TileSt => t.tlbDrop [f.val]) rfl
    exact dropped.trans (TileSt.tlbDrop_one ..)
  · have idle : ¬(s.paging.batch = 1 ∧ s.paging.batchAt ≤ s.tick.now) := by
      rintro ⟨hb, ht⟩
      rcases hn with hn | hn
      · omega
      · exact hn hb
    rw [exec_tableSwap_page s f tab h, State.swapPages, if_neg idle]

end Sys2Proof.Machine
end

section
/-! SUPPORT. Fields of a number: what a field reads after a write of the same and of another. -/
namespace Sys2Proof.Machine
open Sys2Proof

theorem bits_testBit (x lo len j : Nat) : (bits x lo len).testBit j = (decide (j < len) && x.testBit (lo + j)) := by
  rw [bits, Nat.testBit_mod_two_pow, Nat.testBit_div_two_pow, Nat.add_comm]

/-- A number is its part above a field, the field, and its part below. -/
theorem setBits_eq (x lo len v : Nat) :
    setBits x lo len v = 2 ^ lo * (2 ^ len * (x / 2 ^ lo / 2 ^ len) + v % 2 ^ len) + x % 2 ^ lo := by
  have hx := Nat.div_add_mod x (2 ^ lo)
  have hy := Nat.div_add_mod (x / 2 ^ lo) (2 ^ len)
  have split : x = 2 ^ lo * (2 ^ len * (x / 2 ^ lo / 2 ^ len)) + bits x lo len * 2 ^ lo + x % 2 ^ lo := by
    conv_lhs => rw [← hx, ← hy]
    rw [bits]
    ring
  rw [setBits]
  calc x - bits x lo len * 2 ^ lo + v % 2 ^ len * 2 ^ lo
      = 2 ^ lo * (2 ^ len * (x / 2 ^ lo / 2 ^ len)) + x % 2 ^ lo + v % 2 ^ len * 2 ^ lo := by omega
    _ = _ := by ring

theorem setBits_testBit (x lo len v j : Nat) : (setBits x lo len v).testBit j =
    if j < lo then x.testBit j else if j < lo + len then v.testBit (j - lo) else x.testBit j := by
  rw [setBits_eq, Nat.testBit_two_pow_mul_add _ (Nat.mod_lt _ (Nat.two_pow_pos lo)),
    Nat.testBit_two_pow_mul_add _ (Nat.mod_lt _ (Nat.two_pow_pos len))]
  simp only [Nat.testBit_mod_two_pow, Nat.testBit_div_two_pow]
  split
  · simp [*]
  · split
    · rw [if_pos (by omega)]
      simp
      omega
    · rw [if_neg (by omega)]
      congr 1
      omega

/-- A field that is written holds what fits of the value. -/
theorem bits_setBits_same (x lo len v : Nat) : bits (setBits x lo len v) lo len = v % 2 ^ len := by
  refine Nat.eq_of_testBit_eq fun j => ?_
  rw [bits_testBit, setBits_testBit, Nat.testBit_mod_two_pow, if_neg (by omega)]
  by_cases h : j < len
  · simp [h]
  · simp [h]

/-- A field that does not meet the one written is as it was. -/
theorem bits_setBits_other (x lo len v lo' len' : Nat) (h : lo' + len' ≤ lo ∨ lo + len ≤ lo') :
    bits (setBits x lo len v) lo' len' = bits x lo' len' := by
  refine Nat.eq_of_testBit_eq fun j => ?_
  rw [bits_testBit, bits_testBit, setBits_testBit]
  by_cases hj : j < len'
  · congr 1
    split
    · rfl
    · rw [if_neg (by omega)]
  · simp [hj]

/-- What is cut off above a field is not of it. -/
theorem bits_mod (x n lo len : Nat) (h : lo + len ≤ n) : bits (x % 2 ^ n) lo len = bits x lo len := by
  refine Nat.eq_of_testBit_eq fun j => ?_
  rw [bits_testBit, bits_testBit, Nat.testBit_mod_two_pow]
  by_cases hj : j < len
  · simp [show lo + j < n by omega]
  · simp [hj]

end Sys2Proof.Machine
end

section
/-! SUPPORT. Routing entries (R317, R318): what a change of their weights leaves alone, and the weights of an entry that is
rebuilt. -/
namespace Sys2Proof.Machine
open Sys2Proof

/-- Egress `i` of an entry's word. -/
def egressAt (w i : Nat) : Egress := ⟨bits w (11 * i) 6, bits w (11 * i + 6) 4, bits w (11 * i + 10) 1 == 1⟩

theorem egressesOf_eq (w : DWord) : egressesOf w = (List.range 4).map (egressAt w.toNat) := by
  refine List.map_congr_left fun i _ => ?_
  simp only [egressAt, bits, bit, Nat.div_div_eq_div_mul, ← Nat.pow_add, Nat.add_zero, Nat.pow_one]

theorem getElem?_egressesOf (w : DWord) (i : Nat) (x : Egress) :
    (egressesOf w)[i]? = some x ↔ i < 4 ∧ egressAt w.toNat i = x := by
  rw [egressesOf_eq, List.getElem?_map]
  by_cases h : i < 4 <;> simp [h]

/-! ## Weights written -/

theorem egressAt_setWeight_same (w i v : Nat) :
    egressAt (setBits w (11 * i + 6) 4 v) i = { egressAt w i with weight := v % 2 ^ 4 } := by
  have link := bits_setBits_other w (11 * i + 6) 4 v (11 * i) 6 (.inl (Nat.le_refl _))
  have dateline := bits_setBits_other w (11 * i + 6) 4 v (11 * i + 10) 1 (.inr (Nat.le_refl _))
  simp only [egressAt, bits_setBits_same, link, dateline]

theorem egressAt_setWeight_other (w i k v : Nat) (h : i ≠ k) : egressAt (setBits w (11 * k + 6) 4 v) i = egressAt w i := by
  have off (o len : Nat) (ho : o + len ≤ 11) :
      bits (setBits w (11 * k + 6) 4 v) (11 * i + o) len = bits w (11 * i + o) len :=
    bits_setBits_other _ _ _ _ _ _ (by omega)
  simp only [egressAt, off 6 4 (by decide), off 10 1 (by decide)]
  rw [← Nat.add_zero (11 * i), off 0 6 (by decide)]

theorem egressAt_reweight_other (ws : List (Nat × Nat)) (w i : Nat) (h : i ∉ ws.map Prod.fst) :
    egressAt (reweight w ws) i = egressAt w i := by
  induction ws generalizing w with
  | nil => rfl
  | cons e ws ih =>
    simp only [List.map_cons, List.mem_cons, not_or] at h
    rw [reweight, ih _ h.2, egressAt_setWeight_other _ _ _ _ h.1]

/-- An egress whose weight is named takes it; its link and its dateline stay. -/
theorem egressAt_reweight_mem (ws : List (Nat × Nat)) (w i v : Nat) (hn : (ws.map Prod.fst).Nodup) (h : (i, v) ∈ ws) :
    egressAt (reweight w ws) i = { egressAt w i with weight := v % 2 ^ 4 } := by
  induction ws generalizing w with
  | nil => cases h
  | cons e ws ih =>
    obtain ⟨hout, hn⟩ := List.nodup_cons.mp hn
    rcases List.mem_cons.mp h with rfl | h
    · rw [reweight, egressAt_reweight_other _ _ _ hout, egressAt_setWeight_same]
    · have hi : i ≠ e.1 := fun hi => hout (hi ▸ List.mem_map_of_mem h)
      rw [reweight, ih _ hn h, egressAt_setWeight_other _ _ _ _ hi]

theorem egressAt_word (x i : Nat) (h : i < 4) : egressAt (BitVec.ofNat 64 x).toNat i = egressAt x i := by
  simp only [egressAt, BitVec.toNat_ofNat]
  rw [bits_mod _ _ _ _ (by omega), bits_mod _ _ _ _ (by omega), bits_mod _ _ _ _ (by omega)]

/-! ## An entry rebuilt (R318) -/

/-- The weight that the MC gives an egress: 0 to a lost one, a drawn one to any other (log entry 4). -/
def newWeight (acc : List (Nat × Nat) × State) (x : Nat × Egress) : List (Nat × Nat) × State :=
  if !acc.2.usable x.2 then (acc.1 ++ [(x.1, 0)], acc.2)
  else (acc.1 ++ [(x.1, acc.2.draw.1 % 15 + 1)], acc.2.draw.2)

/-- What the weights given to a list of egresses are. -/
structure WeightsOf (s : State) (xs : List (Nat × Egress)) (ws : List (Nat × Nat)) : Prop where
  keys : ws.map Prod.fst = xs.map Prod.fst
  weight : ∀ x ∈ xs, ∃ v, (x.1, v) ∈ ws ∧ v < 16 ∧ (v = 0 ↔ s.usable x.2 = false)

theorem newWeight_cases (acc : List (Nat × Nat)) (s : State) (x : Nat × Egress) : ∃ v n,
    newWeight (acc, s) x = (acc ++ [(x.1, v)], { s with fresh := n }) ∧ v < 16 ∧ (v = 0 ↔ s.usable x.2 = false) := by
  unfold newWeight
  cases h : s.usable x.2
  · exact ⟨0, s.fresh, by simp, by decide, by simp⟩
  · refine ⟨s.draw.1 % 15 + 1, s.fresh + 1, by simp [State.draw], ?_, by simp⟩
    have := Nat.mod_lt s.draw.1 (show 0 < 15 by decide)
    omega

theorem foldl_newWeight (xs : List (Nat × Egress)) (acc : List (Nat × Nat)) (s : State) : ∃ ws n,
    xs.foldl newWeight (acc, s) = (acc ++ ws, { s with fresh := n }) ∧ WeightsOf s xs ws := by
  induction xs generalizing acc s with
  | nil => exact ⟨[], s.fresh, by simp, rfl, by simp⟩
  | cons x xs ih =>
    obtain ⟨v, n, hx, hv, hz⟩ := newWeight_cases acc s x
    obtain ⟨ws, n', hxs, hkeys, hweight⟩ := ih (acc ++ [(x.1, v)]) { s with fresh := n }
    refine ⟨(x.1, v) :: ws, n', by rw [List.foldl_cons, hx, hxs]; simp, by simp [hkeys], fun y hy => ?_⟩
    rcases List.mem_cons.mp hy with rfl | hy
    · exact ⟨v, List.mem_cons_self, hv, hz⟩
    · obtain ⟨u, hu, hlt, huz⟩ := hweight y hy
      exact ⟨u, List.mem_cons_of_mem _ hu, hlt, huz⟩

variable (s : State) (e : Nat × DWord)

theorem State.rebuildRoute_whole (h : ∀ x ∈ egressesOf e.2, x.weight = 0 ∨ s.usable x = true) : s.rebuildRoute e = s := by
  have whole : ((egressesOf e.2).all fun x => x.weight == 0 || s.usable x) = true := by simpa using h
  rw [State.rebuildRoute, if_pos whole]

/-- An entry with a lost egress is rebuilt with the weights of `WeightsOf`. -/
theorem State.rebuildRoute_lost (y : Egress) (hy : y ∈ egressesOf e.2) (hw : y.weight ≠ 0) (hu : s.usable y = false) :
    ∃ ws, WeightsOf s ((List.range 4).zip (egressesOf e.2)) ws ∧ (s.rebuildRoute e).links.fabric.rerouted =
      Table.put s.links.fabric.rerouted e.1 (BitVec.ofNat 64 (reweight e.2.toNat ws)) := by
  have lost : ¬((egressesOf e.2).all fun x => x.weight == 0 || s.usable x) = true := by
    rw [List.all_eq_true]
    intro all
    simpa [hw, hu] using all y hy
  obtain ⟨ws, n, hf, hws⟩ := foldl_newWeight ((List.range 4).zip (egressesOf e.2)) [] s
  refine ⟨ws, hws, ?_⟩
  let given := ((List.range 4).zip (egressesOf e.2)).foldl newWeight ([], s)
  have rebuilt : s.rebuildRoute e = given.2.modLf fun f =>
      { f with rerouted := Table.put f.rerouted e.1 (BitVec.ofNat 64 (reweight e.2.toNat given.1)) } := by
    rw [State.rebuildRoute, if_neg lost]
    rfl
  rw [rebuilt, show given = _ from hf]
  rfl

/-- R318: in an entry that is rebuilt just the lost egresses have weight 0, and links and datelines stay. -/
theorem egresses_reweight (ws : List (Nat × Nat)) (h : WeightsOf s ((List.range 4).zip (egressesOf e.2)) ws) (i : Nat)
    (x : Egress) (hx : (egressesOf e.2)[i]? = some x) : ∃ x', (egressesOf (BitVec.ofNat 64 (reweight e.2.toNat ws)))[i]? = some x' ∧
      x'.link = x.link ∧ x'.dateline = x.dateline ∧ (x'.weight = 0 ↔ s.usable x = false) := by
  obtain ⟨hi, hxi⟩ := (getElem?_egressesOf e.2 i x).mp hx
  have length : (egressesOf e.2).length = 4 := by simp [egressesOf]
  have nodup : (ws.map Prod.fst).Nodup := by
    rw [h.keys, List.map_fst_zip (by simp [length])]
    exact List.nodup_range
  have mem : (i, x) ∈ (List.range 4).zip (egressesOf e.2) := by
    refine List.mem_iff_getElem?.mpr ⟨i, ?_⟩
    simp [List.getElem?_zip_eq_some, hx, hi]
  obtain ⟨v, hv, hlt, hz⟩ := h.weight _ mem
  refine ⟨_, (getElem?_egressesOf _ i _).mpr ⟨hi, rfl⟩, ?_⟩
  rw [egressAt_word _ _ hi, egressAt_reweight_mem ws _ i v nodup hv, hxi, Nat.mod_eq_of_lt (show v < 2 ^ 4 from hlt)]
  exact ⟨rfl, rfl, hz⟩

end Sys2Proof.Machine
end

section
/-! SUPPORT. The swap of a retired frame (R287): what is copied, and what memory then gives at the spare. -/
namespace Sys2Proof.Machine
open Sys2Proof

/-! ## Entries of a table -/

/-- What is read and is not the default is listed. -/
theorem Table.exists_of_get_ne {α : Type} (d : α) (t : Table α) (k : Nat) (h : Table.get d t k ≠ d) :
    ∃ e ∈ t, e.1 = k := by
  induction t with
  | nil => exact absurd rfl h
  | cons e t ih =>
    by_cases hk : e.1 = k
    · exact ⟨e, List.mem_cons_self, hk⟩
    · rw [Table.get_cons, if_neg hk] at h
      obtain ⟨e', he', hk'⟩ := ih h
      exact ⟨e', List.mem_cons_of_mem _ he', hk'⟩

theorem Table.map_put {α β : Type} (f : α → β) (t : Table α) (k : Nat) (v : α) :
    (Table.put t k v).map (fun e => (e.1, f e.2)) = Table.put (t.map fun e => (e.1, f e.2)) k (f v) := by
  induction t with
  | nil => rfl
  | cons e t ih =>
    obtain ⟨i, w⟩ := e
    simp only [Table.put, List.map_cons]
    split
    · rfl
    · split
      · rfl
      · simp only [List.map_cons, ih]

/-! ## What memory gives at a location (R283) -/

/-- Where the parity's difference for a location is kept. -/
def parAt (l : Nat) : Nat := l / 1280 * 256 + l % 1280 % 256

/-- A location's unit gives the byte, and what the other units give for it is the same. -/
structure Hbm.Gives (h : Hbm) (l : Nat) (v : Byte) : Prop where
  data : h.data.readByte l = v
  par : h.unitLost (unitOf l) = true → h.par.readByte (parAt l) = 0

variable (h : Hbm) (l : Nat) (v : Byte)

theorem Hbm.Gives.stored_eq (g : h.Gives l v) : h.stored l = v := by
  unfold Hbm.stored
  split
  · rw [g.data, show h.par.readByte (l / 1280 * 256 + l % 1280 % 256) = 0 from g.par ‹_›]
    simp
  · exact g.data

theorem Hbm.copyByte_data (e : Nat × Byte) : (h.copyByte e).data = h.data.writeByte e.1 e.2 := by
  unfold Hbm.copyByte
  dsimp only
  split <;> rfl

theorem Hbm.copyByte_unitLost (e : Nat × Byte) (u : UnitId) : (h.copyByte e).unitLost u = h.unitLost u := by
  unfold Hbm.copyByte
  dsimp only
  split <;> rfl

theorem Hbm.copyByte_par (e : Nat × Byte) : (h.copyByte e).par =
    if h.unitLost (unitOf e.1) then h.par.writeByte (parAt e.1) 0 else h.par := by
  unfold Hbm.copyByte
  dsimp only
  split <;> rfl

theorem Hbm.copyByte_same : (h.copyByte (l, v)).Gives l v where
  data := by rw [Hbm.copyByte_data, Memory.readByte_writeByte_same]
  par := fun lost => by
    rw [Hbm.copyByte_unitLost] at lost
    rw [Hbm.copyByte_par, if_pos lost, Memory.readByte_writeByte_same]

/-- A byte that is copied elsewhere at most sets a parity difference to zero. -/
theorem Hbm.copyByte_other (e : Nat × Byte) (he : e.1 ≠ l) (g : h.Gives l v) : (h.copyByte e).Gives l v where
  data := by rw [Hbm.copyByte_data, Memory.readByte_writeByte_other _ _ _ _ he.symm, g.data]
  par := fun lost => by
    rw [Hbm.copyByte_unitLost] at lost
    rw [Hbm.copyByte_par]
    split
    · by_cases hp : parAt l = parAt e.1
      · rw [hp, Memory.readByte_writeByte_same]
      · rw [Memory.readByte_writeByte_other _ _ _ _ hp, g.par lost]
    · exact g.par lost

theorem Hbm.foldl_copyByte (es : List (Nat × Byte)) (hv : ∀ e ∈ es, e.1 = l → e.2 = v)
    (g : h.Gives l v ∨ ∃ e ∈ es, e.1 = l) : (es.foldl Hbm.copyByte h).Gives l v := by
  induction es generalizing h with
  | nil => exact g.resolve_right (by simp)
  | cons e es ih =>
    refine ih (h.copyByte e) (fun e' he' => hv e' (List.mem_cons_of_mem _ he')) ?_
    by_cases he : e.1 = l
    · have : e = (l, v) := Prod.ext he (hv e List.mem_cons_self he)
      exact .inl (this ▸ h.copyByte_same l v)
    · rcases g with g | ⟨e', he', hl⟩
      · exact .inl (h.copyByte_other l v e he g)
      · rcases List.mem_cons.mp he' with rfl | he'
        · exact absurd hl he
        · exact .inr ⟨e', he', hl⟩

/-! ## What is copied -/

/-- A location lies in the frame that begins at `lo`. -/
def inFrame (lo l : Nat) : Bool := decide (lo ≤ l) && decide (l < lo + 65536)

theorem inFrame_iff (lo l : Nat) : inFrame lo l = true ↔ lo ≤ l ∧ l < lo + 65536 := by simp [inFrame]

/-- The locations on lost units whose parity differs from the data. -/
def Hbm.odd (h : Hbm) : List Nat :=
  (h.par.flatMap fun e => (List.range 5).map fun p => e.1 / 256 * 1280 + p * 256 + e.1 % 256).filter fun l =>
    h.unitLost (unitOf l)

/-- The locations whose bytes are copied from the frame at `old` to the one at `new`. -/
def Hbm.copied (h : Hbm) (old new : Nat) : List Nat :=
  (h.data.filter fun e => inFrame old e.1).map Prod.fst ++
    (h.odd.filter (inFrame old) ++ (h.odd.filter (inFrame new)).map fun l => old + (l - new))

theorem Hbm.mem_odd (hl : h.unitLost (unitOf l) = true) (hp : h.par.readByte (parAt l) ≠ 0) : l ∈ h.odd := by
  obtain ⟨e, he, hk⟩ := Table.exists_of_get_ne _ _ _ hp
  refine List.mem_filter.mpr ⟨List.mem_flatMap.mpr ⟨e, he, List.mem_map.mpr ⟨l % 1280 / 256, ?_, ?_⟩⟩, hl⟩
  · rw [List.mem_range]
    omega
  · rw [hk, parAt]
    omega

variable (old new o : Nat)

theorem Hbm.copied_inFrame (hl : l ∈ h.copied old new) : inFrame old l = true := by
  simp only [Hbm.copied, List.mem_append, List.mem_map, List.mem_filter] at hl
  rcases hl with ⟨e, ⟨-, he⟩, rfl⟩ | ⟨-, hl⟩ | ⟨x, ⟨-, hx⟩, rfl⟩
  · exact he
  · exact hl
  · obtain ⟨hlo, hhi⟩ := (inFrame_iff new x).mp hx
    exact (inFrame_iff old _).mpr ⟨by omega, by omega⟩

/-- R287: the frame's contents at the spare, once they are copied. -/
def Hbm.copiedTo (h : Hbm) (old new : Nat) : Hbm :=
  ((h.copied old new).map fun l => (new + (l - old), h.stored l)).foldl Hbm.copyByte
    { h with data := h.data.filter fun e => !inFrame new e.1 }

theorem Memory.readByte_filter_out (m : Memory) (p : Nat × Byte → Bool) (k : Nat)
    (hp : ∀ e ∈ m, e.1 = k → p e = false) :
    Memory.readByte (m.filter p) k = 0 := by
  by_contra hk
  obtain ⟨e, he, hek⟩ := Table.exists_of_get_ne _ _ _ hk
  obtain ⟨hm, hpe⟩ := List.mem_filter.mp he
  simp [hp e hm hek] at hpe

/-- R287: memory gives at the spare what it gave at the frame, whether or not the byte had to be copied. -/
theorem Hbm.stored_copiedTo (ho : o < 65536) : (h.copiedTo old new).stored (new + o) = h.stored (old + o) := by
  refine Hbm.Gives.stored_eq _ _ _ (Hbm.foldl_copyByte _ _ _ _ (fun e he hk => ?_) ?_)
  · obtain ⟨l, hl, rfl⟩ := List.mem_map.mp he
    obtain ⟨hlo, -⟩ := (inFrame_iff old l).mp (h.copied_inFrame l old new hl)
    have : l = old + o := by dsimp only at hk; omega
    rw [this]
  · by_cases hin : old + o ∈ h.copied old new
    · exact .inr ⟨_, List.mem_map_of_mem hin, by dsimp only; omega⟩
    · left
      have hold : inFrame old (old + o) = true := (inFrame_iff _ _).mpr ⟨by omega, by omega⟩
      have hnew : inFrame new (new + o) = true := (inFrame_iff _ _).mpr ⟨by omega, by omega⟩
      simp only [Hbm.copied, List.mem_append, not_or] at hin
      obtain ⟨hdata, hodd, hback⟩ := hin
      have zero : h.data.readByte (old + o) = 0 := by
        by_contra hk
        obtain ⟨e, he, hek⟩ := Table.exists_of_get_ne _ _ _ hk
        exact hdata (List.mem_map.mpr ⟨e, List.mem_filter.mpr ⟨he, hek ▸ hold⟩, hek⟩)
      have same : h.unitLost (unitOf (old + o)) = true → h.par.readByte (parAt (old + o)) = 0 := fun hl => by
        by_contra hp
        exact hodd (List.mem_filter.mpr ⟨h.mem_odd _ hl hp, hold⟩)
      have none_ : h.stored (old + o) = 0 := Hbm.Gives.stored_eq _ _ _ ⟨zero, same⟩
      rw [none_]
      refine ⟨Memory.readByte_filter_out _ _ _ fun e _ hk => by simp [hk, hnew], fun hl => ?_⟩
      by_contra hp
      exact hback (List.mem_map.mpr ⟨new + o, List.mem_filter.mpr ⟨h.mem_odd _ hl hp, hnew⟩, by omega⟩)

end Sys2Proof.Machine
end

section
/-! The other tables that swap at a tick (R57, R188, R265, R287, R318). -/
namespace Sys2Proof.Machine
open Sys2Proof

variable (s : State)

theorem exec_tableSwap_remap (c : Fin 32) (m : Move)
    (h : s.kennel.moves.filter (fun m => m.started && m.tile.col == c) = [m]) :
    exec (.tableSwap (.remap c)) s = .next (s.endMove m (m.done.getD false)) := by
  show Host.Outcome.next ((s.kennel.moves.filter fun m => m.started && m.tile.col == c).foldl
    (fun s m => s.endMove m (m.done.getD false)) s) = _
  rw [h]
  rfl

theorem exec_tableSwap_routing : exec (.tableSwap .routing) s = .next s.swapRouting := rfl
theorem exec_tableSwap_nonlinear (p : PackIx) : exec (.tableSwap (.nonlinear p)) s = .next (s.swapTablesLate p.val) := rfl
theorem exec_tableSwap_retirement : exec (.tableSwap .retirement) s = .next s.swapRetirements := rfl

/-! ## A nonlinear table (R188) -/

theorem State.tile_modTiles_other (l : List Nat) (f : TileSt → TileSt) (i : Nat) (h : i ∉ l) :
    (s.modTiles l f).tile i = s.tile i := by
  refine List.foldlRecOn (motive := fun t : State => t.tile i = s.tile i) l _ rfl fun t ht k hk => ?_
  have off : i ≠ k := fun e => h (e ▸ hk)
  exact (t.tile_modTile_other k i f off).trans ht

/-- A tile of the list is what the last change made of it. -/
theorem State.tile_modTiles_mem (l : List Nat) (f : TileSt → TileSt) (i : Nat) (h : i ∈ l) :
    ∃ t, (s.modTiles l f).tile i = f t := by
  induction l generalizing s with
  | nil => cases h
  | cons k l ih =>
    by_cases hl : i ∈ l
    · exact ih (s.modTile k f) hl
    · obtain rfl : i = k := (List.mem_cons.mp h).resolve_right hl
      exact ⟨_, (State.tile_modTiles_other _ l f i hl).trans (s.tile_modTile_same i f)⟩

theorem TileSt.swapTable_table (t : TileSt) (n : Nat) (b : List Byte) (h : b.length = 4096) :
    (t.swapTable n b).mem.nl.readBytes (4096 * n) 4096 = b := by
  have read := Memory.readBytes_writeBytes_same t.mem.nl (4096 * n) b
  rwa [h] at read

theorem State.tile_swapDue (w : TableDue) (i : Nat) : (s.swapDue w).tile i =
    (s.modTiles (s.shape w.pack).tiles fun t => t.swapTable w.table w.bytes).tile i := rfl

theorem State.swapTablesLate_one (p : Nat) (w : TableDue) (h : s.tablesDue p = [w]) :
    s.swapTablesLate p = (s.swapDue w).record w.desc := by
  simp [State.swapTablesLate, h]

/-! ## A retired frame (R287) -/

theorem hbmReservedEnd_frames : hbmReservedEnd = 5505024 * 65536 := rfl

/-- The map names the spare of a frame that has been put there. -/
theorem get_retired_put (t : Table Nat) (f n : Nat) :
    Table.get none ((Table.put t f n).map fun e => (e.1, some e.2)) f = some n := by
  rw [Table.map_put, Table.get_put_same]

theorem Hbm.loc_retired (h : Hbm) (f n o : Nat) (hf : f * 65536 < hbmReservedEnd) (ho : o < 65536)
    (hr : Table.get none (h.retired.map fun e => (e.1, some e.2)) f = some n) :
    h.loc (f * 65536 + o) = hbmReservedEnd + n * 65536 + o := by
  have below : ¬hbmReservedEnd ≤ f * 65536 + o := by
    rw [hbmReservedEnd_frames] at *
    omega
  have frame : (f * 65536 + o) / 65536 = f := by omega
  have offset : (f * 65536 + o) % 65536 = o := by omega
  rw [Hbm.loc, if_neg below]
  simp only [frame, hr, offset]

theorem Hbm.byteAt_unbuffered (h : Hbm) (l : Nat) (h0 : h.wc0 = []) (h1 : h.wc1 = []) : h.byteAt l = h.stored l := by
  simp [Hbm.byteAt, Hbm.buffered, h0, h1]

/-- The swap of a frame while nothing is buffered. -/
theorem State.swapRetired_eq (r : RetireSt) (h0 : s.hbm.wc0 = []) (h1 : s.hbm.wc1 = []) : ∃ u nv,
    s.swapRetired r = { s with hbm := u, nv := nv } ∧ u.retired = Table.put s.hbm.retired r.frame r.spare ∧
      u.wc0 = [] ∧ u.wc1 = [] ∧
      ∀ l, u.stored l = (s.hbm.copiedTo (s.hbm.loc (r.frame * 65536)) (hbmReservedEnd + r.spare * 65536)).stored l := by
  have late : s.hbm.wc0 ++ s.hbm.wc1 = [] := by rw [h0, h1, List.append_nil]
  unfold State.swapRetired
  simp only [late, List.append_nil, List.flatMap_nil]
  exact ⟨_, _, rfl, rfl, congrArg (List.map _) h0, congrArg (List.map _) h1, fun _ => rfl⟩

/-- Settles O37: `endMove` for a column, `rebuildRoute` for routes, `swapDue` for a table, `stored_copiedTo` for a frame. -/
theorem tablesSwapAtTheTick : Obligations.TablesSwapAtTheTick := by
  refine ⟨fun s c m h => ⟨exec_tableSwap_remap s c m h, by rw [s.siteOf_endMove]⟩,
    fun s => ⟨fun hd => ?_, fun hd => ?_, fun e he => s.rebuildRoute_whole e he, fun e y hy hw hu => ?_⟩,
    fun s p w h hlen => ⟨?_, fun i hi => ?_, fun i hi => ?_⟩, fun s r hr h0 h1 hf hne => ?_⟩
  · rw [exec_tableSwap_routing, State.swapRouting, if_neg (ne_true_of_eq_false hd)]
  · rw [exec_tableSwap_routing, State.swapRouting, if_pos hd]
    rfl
  · obtain ⟨ws, hws, hre⟩ := s.rebuildRoute_lost e y hy hw hu
    exact ⟨_, hre, egresses_reweight s e ws hws⟩
  · rw [exec_tableSwap_nonlinear, s.swapTablesLate_one p.val w h]
  · obtain ⟨t, ht⟩ := s.tile_modTiles_mem _ (fun t => t.swapTable w.table w.bytes) i hi
    rw [s.tile_swapDue, ht, t.swapTable_table _ _ hlen]
  · rw [s.tile_swapDue, s.tile_modTiles_other _ _ i hi]
  · obtain ⟨u, nv, hs, hret, hu0, hu1, hstored⟩ := s.swapRetired_eq r h0 h1
    have one : s.swapRetirements = s.swapRetired r := by simp [State.swapRetirements, hr]
    have spare : Table.get none (u.retired.map fun e => (e.1, some e.2)) r.frame = some r.spare :=
      hret ▸ get_retired_put s.hbm.retired r.frame r.spare
    refine ⟨_, (exec_tableSwap_retirement s).trans (congrArg _ (one.trans hs)), spare, fun o ho => ?_, rfl, rfl, rfl⟩
    have at_ := u.loc_retired r.frame r.spare o hf ho spare
    refine ⟨at_, ?_⟩
    calc u.byteAt (u.loc (r.frame * 65536 + o))
        = u.stored (hbmReservedEnd + r.spare * 65536 + o) := by rw [at_, u.byteAt_unbuffered _ hu0 hu1]
      _ = s.hbm.stored (s.hbm.loc (r.frame * 65536) + o) := by rw [hstored, Hbm.stored_copiedTo _ _ _ _ ho]
      _ = _ := (s.hbm.byteAt_unbuffered _ h0 h1).symm

end Sys2Proof.Machine
end

section
/-! SUPPORT. The canonical form of host memory and HBM (`State.memWf`): where a state, a fold and an outcome have it. -/
namespace Sys2Proof.Machine
open Sys2Proof

/-- A state is built with canonical memories when host memory and HBM are; no other part counts. -/
@[simp] theorem State.memWf_mk (pending mod tick cad cue commits shep muzzle regs host tiles hbm paging kennel links)
    (fabric config nv leash ltime energy tel cnt sec fresh) :
    (State.mk pending mod tick cad cue commits shep muzzle regs host tiles hbm paging kennel links fabric
      config nv leash ltime energy tel cnt sec fresh).memWf ↔ host.mem.wf = true ∧ hbm.data.wf = true := Iff.rfl

@[simp] theorem State.memWf_parts (s : State) : s.host.mem.wf = true ∧ s.hbm.data.wf = true ↔ s.memWf := Iff.rfl

@[simp] theorem State.memWf_ite (c : Prop) [Decidable c] (s t : State) :
    (if c then s else t).memWf ↔ if c then s.memWf else t.memWf := by
  split <;> rfl

@[simp] theorem State.memWf_foldl {α : Type} (f : State → α → State) (l : List α) (s : State)
    (h : ∀ s x, (f s x).memWf ↔ s.memWf) : (l.foldl f s).memWf ↔ s.memWf := by
  induction l generalizing s with
  | nil => rfl
  | cons x l ih => exact (ih _).trans (h s x)

@[simp] theorem State.memWf_foldl_snd {α β : Type} (f : β × State → α → β × State) (l : List α) (a : β × State)
    (h : ∀ a x, (f a x).2.memWf ↔ a.2.memWf) : (l.foldl f a).2.memWf ↔ a.2.memWf := by
  induction l generalizing a with
  | nil => rfl
  | cons x l ih => exact (ih _).trans (h a x)

@[simp] theorem State.memWf_foldl_fst {α β : Type} (f : State × β → α → State × β) (l : List α) (a : State × β)
    (h : ∀ a x, (f a x).1.memWf ↔ a.1.memWf) : (l.foldl f a).1.memWf ↔ a.1.memWf := by
  induction l generalizing a with
  | nil => rfl
  | cons x l ih => exact (ih _).trans (h a x)

theorem State.memWf_of_eq {α : Type} {r : α × State} {x : α} {t : State} (e : r = (x, t)) : t.memWf ↔ r.2.memWf := by
  subst e
  rfl

/-- What a command's outcome says of the memories: they are canonical in the state that it leaves. -/
def Result.memWf (r : Result) : Prop := ∀ t, r = .next t → t.memWf

@[simp] theorem Result.memWf_next (t : State) : Result.memWf (.next t) ↔ t.memWf :=
  ⟨fun h => h t rfl, fun h _ e => Host.Outcome.next.inj e ▸ h⟩

@[simp] theorem Result.memWf_fault (f : Fault) : Result.memWf (.fault f) := fun _ e => nomatch e

theorem Result.memWf.after {s : State} {r : Result} (hr : Result.memWf r) (h : s.memWf) : (Result.after r s).memWf := by
  cases r with
  | next t => exact hr t rfl
  | fault => exact h
  | refused => exact h

end Sys2Proof.Machine
end

section
/-! SUPPORT. The operations that leave host memory and HBM alone, one lemma for each that a step can reach, in the order of
the model's files. They are equivalences, so `simp` takes the operations off a state one by one. -/
namespace Sys2Proof.Machine
open Sys2Proof

variable (s : State)

/-! ### `Machine/Regs.lean` -/

@[simp] theorem State.memWf_setReg (a : Nat) (v : Word) : (s.setReg a v).memWf ↔ s.memWf := Iff.rfl
@[simp] theorem State.memWf_setStaged (a : Nat) (v : Word) : (s.setStaged a v).memWf ↔ s.memWf := Iff.rfl

/-! ### `Machine/Counters.lean` -/

@[simp] theorem State.memWf_modCnt (f : Counters → Counters) : (s.modCnt f).memWf ↔ s.memWf := Iff.rfl
@[simp] theorem State.memWf_setUnit (u : Nat) (v : CntUnit × Bool) : (s.setUnit u v).memWf ↔ s.memWf := Iff.rfl
@[simp] theorem State.memWf_countEv (unit ev n : Nat) : (s.countEv unit ev n).memWf ↔ s.memWf := by simp [State.countEv]
@[simp] theorem State.memWf_cntFreeze (mode : Nat) : (s.cntFreeze mode).memWf ↔ s.memWf := by
  unfold State.cntFreeze
  split <;> simp
@[simp] theorem State.memWf_reseed (seed : BitVec 24) : (s.reseed seed).memWf ↔ s.memWf := Iff.rfl
@[simp] theorem State.memWf_tagStep (x : Sample) : (s.tagStep x).memWf ↔ s.memWf := by
  simp only [State.tagStep]
  split <;> simp [↓State.memWf_ite]

/-! ### `Machine/Ops.lean` -/

@[simp] theorem State.memWf_draw : s.draw.2.memWf ↔ s.memWf := Iff.rfl
@[simp] theorem State.memWf_setTile (i : Nat) (t : TileSt) : (s.setTile i t).memWf ↔ s.memWf := Iff.rfl
@[simp] theorem State.memWf_modTile (i : Nat) (f : TileSt → TileSt) : (s.modTile i f).memWf ↔ s.memWf := Iff.rfl
@[simp] theorem State.memWf_modPack (p : Nat) (f : PackSt → PackSt) : (s.modPack p f).memWf ↔ s.memWf := Iff.rfl
@[simp] theorem State.memWf_modTiles (l : List Nat) (f : TileSt → TileSt) : (s.modTiles l f).memWf ↔ s.memWf := by
  simp [State.modTiles]
@[simp] theorem State.memWf_modRing (f r : Nat) (g : RingSt → RingSt) : (s.modRing f r g).memWf ↔ s.memWf := Iff.rfl
@[simp] theorem State.memWf_modFn (f : Nat) (g : FnSt → FnSt) : (s.modFn f g).memWf ↔ s.memWf := Iff.rfl
@[simp] theorem State.memWf_setDescs (l : List Desc) : (s.setDescs l).memWf ↔ s.memWf := Iff.rfl
@[simp] theorem State.memWf_modDesc (id : Nat) (f : Desc → Desc) : (s.modDesc id f).memWf ↔ s.memWf := Iff.rfl
@[simp] theorem State.memWf_raise (cls : TelClass) (code inst : Nat) (payload : List Byte) :
    (s.raise cls code inst payload).memWf ↔ s.memWf :=
  Iff.rfl
@[simp] theorem State.memWf_trigger (sc : Scope) (cause : Nat) : (s.trigger sc cause).memWf ↔ s.memWf := Iff.rfl
@[simp] theorem State.memWf_modSite (i : Nat) (f : SiteSt → SiteSt) : (s.modSite i f).memWf ↔ s.memWf := Iff.rfl
@[simp] theorem State.memWf_modLink (n : Nat) (f : LinkSt → LinkSt) : (s.modLink n f).memWf ↔ s.memWf := Iff.rfl
@[simp] theorem State.memWf_modMeas (n : Nat) (f : LinkMeas → LinkMeas) : (s.modMeas n f).memWf ↔ s.memWf := Iff.rfl
@[simp] theorem State.memWf_modLf (f : LinkFabric → LinkFabric) : (s.modLf f).memWf ↔ s.memWf := Iff.rfl
@[simp] theorem State.memWf_sendMsg (m : OutMsg) : (s.sendMsg m).memWf ↔ s.memWf := by simp [State.sendMsg]
@[simp] theorem State.memWf_modRegion (r : Nat) (f : RegionSt → RegionSt) : (s.modRegion r f).memWf ↔ s.memWf := Iff.rfl
@[simp] theorem State.memWf_modPort (p : Nat) (f : PortSt → PortSt) : (s.modPort p f).memWf ↔ s.memWf := Iff.rfl

/-! ### `Machine/Cues.lean` -/

@[simp] theorem State.memWf_cueLevel (c : CueIx) (v : Bool) : (s.cueLevel c v).memWf ↔ s.memWf := by
  simp [State.cueLevel]
@[simp] theorem State.memWf_cueSafe (c : CueIx) : (s.cueSafe c).memWf ↔ s.memWf := by simp [State.cueSafe]
@[simp] theorem State.memWf_cancelCues (p : CueAction → Bool) : (s.cancelCues p).memWf ↔ s.memWf := by
  simp [State.cancelCues]
@[simp] theorem State.memWf_scheduleCues (d : Desc) : (s.scheduleCues d).memWf ↔ s.memWf := Iff.rfl
@[simp] theorem State.memWf_cuePerform (a : CueAction) : (s.cuePerform a).memWf ↔ s.memWf := by
  unfold State.cuePerform
  (repeat' split) <;> simp
@[simp] theorem State.memWf_evalCue (c : CueIx) : (s.evalCue c).memWf ↔ s.memWf := by
  unfold State.evalCue
  split <;> simp
@[simp] theorem State.memWf_evalCues : s.evalCues.memWf ↔ s.memWf := by simp [State.evalCues]
@[simp] theorem State.memWf_newCueTick : s.newCueTick.memWf ↔ s.memWf := Iff.rfl
@[simp] theorem State.memWf_cuesAtRecord (d : Desc) (ok valid : Bool) :
    (s.cuesAtRecord d ok valid).memWf ↔ s.memWf := by
  simp [State.cuesAtRecord]

/-! ### `Machine/Descriptors.lean` -/

@[simp] theorem State.memWf_stopTiles (p : Nat) : (s.stopTiles p).memWf ↔ s.memWf := by simp [State.stopTiles]
@[simp] theorem State.memWf_stopPack (p id : Nat) : (s.stopPack p id).memWf ↔ s.memWf := by simp [State.stopPack]
@[simp] theorem State.memWf_endDesc (id st : Nat) : (s.endDesc id st).memWf ↔ s.memWf := by
  unfold State.endDesc
  (repeat' split) <;> simp
@[simp] theorem State.memWf_latchFault (id st : Nat) : (s.latchFault id st).memWf ↔ s.memWf := Iff.rfl
@[simp] theorem State.memWf_taint (t : TileId) (engine pc reason : Nat) (word : QWord) :
    (s.taint t engine pc reason word).memWf ↔ s.memWf := by
  unfold State.taint
  (repeat' split) <;> simp
@[simp] theorem State.memWf_setFlags (p : Nat) (ovf inv : Bool) : (s.setFlags p ovf inv).memWf ↔ s.memWf := by
  unfold State.setFlags
  split <;> simp

/-! ### `Machine/Cadence.lean` -/

@[simp] theorem State.memWf_modCad (f : CadSt → CadSt) : (s.modCad f).memWf ↔ s.memWf := Iff.rfl
@[simp] theorem State.memWf_cadLink (t pos rate : Nat) (hold : Bool) : (s.cadLink t pos rate hold).memWf ↔ s.memWf := by
  simp [State.cadLink]
@[simp] theorem State.memWf_coast : s.coast.memWf ↔ s.memWf := by simp [State.coast]
@[simp] theorem State.memWf_cadFault (f : CadFaults) : (s.cadFault f).memWf ↔ s.memWf := by simp [State.cadFault]
@[simp] theorem State.memWf_cadNear : s.cadNear.memWf ↔ s.memWf := by simp [State.cadNear]
@[simp] theorem State.memWf_cadLatch : s.cadLatch.memWf ↔ s.memWf := by simp [State.cadLatch]
@[simp] theorem State.memWf_cadSet (pos rate : Nat) : (s.cadSet pos rate).2.memWf ↔ s.memWf := by
  unfold State.cadSet
  (repeat' split) <;> simp
@[simp] theorem State.memWf_cadClear (w : Nat) : (s.cadClear w).memWf ↔ s.memWf := Iff.rfl
@[simp] theorem State.memWf_cadSourceChanged : s.cadSourceChanged.memWf ↔ s.memWf := Iff.rfl
@[simp] theorem State.memWf_sendProbe (t : Nat) : (s.sendProbe t).memWf ↔ s.memWf := by simp [State.sendProbe]
@[simp] theorem State.memWf_hardDeadline (id : Nat) : (s.hardDeadline id).memWf ↔ s.memWf := by
  unfold State.hardDeadline
  split <;> simp

/-! ### `Machine/Flags.lean` -/

@[simp] theorem State.memWf_numEvents (tile p pc : Nat) (d : Desc) (ev : NumEv) :
    (s.numEvents tile p pc d ev).memWf ↔ s.memWf := by
  unfold State.numEvents
  split <;> simp
@[simp] theorem State.memWf_sampleNans (p : Nat) : (s.sampleNans p).memWf ↔ s.memWf := by
  simp only [State.sampleNans]
  split <;> simp

/-! ### `Machine/LinkLayer.lean` -/

@[simp] theorem State.memWf_queueBytes (n vc : Nat) (b : List Byte) : (s.queueBytes n vc b).memWf ↔ s.memWf := Iff.rfl
@[simp] theorem State.memWf_wakeTx (n : Nat) : (s.wakeTx n).memWf ↔ s.memWf := by simp [State.wakeTx]
@[simp] theorem State.memWf_putFlit (n : Nat) (kind : FlitKind) (fseq : BitVec 10) (vc : Nat) (payload : List Byte) :
    (s.putFlit n kind fseq vc payload).memWf ↔ s.memWf :=
  Iff.rfl
@[simp] theorem State.memWf_flitStep (n vc : Nat) : (s.flitStep n vc).memWf ↔ s.memWf := by simp [State.flitStep]
@[simp] theorem State.memWf_flitSteps (n vc : Nat) : (s.flitSteps n vc).memWf ↔ s.memWf := by simp [State.flitSteps]
@[simp] theorem State.memWf_controlFlit (n : Nat) : (s.controlFlit n).memWf ↔ s.memWf := by simp [State.controlFlit]
@[simp] theorem State.memWf_flushLink (n : Nat) : (s.flushLink n).memWf ↔ s.memWf := by simp [State.flushLink]
@[simp] theorem State.memWf_flushLinks : s.flushLinks.memWf ↔ s.memWf := by simp [State.flushLinks]
@[simp] theorem State.memWf_resendFlits (n : Nat) : (s.resendFlits n).2.memWf ↔ s.memWf := by
  simp only [State.resendFlits]
  split <;> simp

/-! ### `Machine/Muzzle.lean` -/

@[simp] theorem State.memWf_restartSecond (cause : Nat) : (s.restartSecond cause).memWf ↔ s.memWf := Iff.rfl
@[simp] theorem State.memWf_cuesSafe (p : CueIx → Bool) : (s.cuesSafe p).memWf ↔ s.memWf := by simp [State.cuesSafe]
@[simp] theorem State.memWf_muzzleModule (cause : Nat) : (s.muzzleModule cause).memWf ↔ s.memWf := by
  simp [State.muzzleModule]
@[simp] theorem State.memWf_muzzlePack (p cause : Nat) (own : Option (Nat × Nat)) :
    (s.muzzlePack p cause own).memWf ↔ s.memWf := by
  unfold State.muzzlePack
  split <;> simp
@[simp] theorem State.memWf_muzzleRegion (r cause : Nat) : (s.muzzleRegion r cause).memWf ↔ s.memWf := by
  simp [State.muzzleRegion]
@[simp] theorem State.memWf_muzzle1 (t : Trigger) : (s.muzzle1 t).memWf ↔ s.memWf := by
  unfold State.muzzle1
  split <;> simp
@[simp] theorem State.memWf_evalCauseClear : s.evalCauseClear.memWf ↔ s.memWf := Iff.rfl
@[simp] theorem State.memWf_meetScope (t : Trigger) : (s.meetScope t).memWf ↔ s.memWf := by
  unfold State.meetScope
  split <;> simp
@[simp] theorem State.memWf_meet (t : Trigger) : (s.meet t).memWf ↔ s.memWf := by simp [State.meet]
@[simp] theorem State.memWf_meetModule (cause : Nat) : (s.meetModule cause).memWf ↔ s.memWf := by
  simp [State.meetModule]
@[simp] theorem State.memWf_meetRegion (r : RegionIx) (cause : Nat) : (s.meetRegion r cause).memWf ↔ s.memWf := by
  simp [State.meetRegion]
@[simp] theorem State.memWf_mzResult (fn : Nat) (r : BitVec 2) : (s.mzResult fn r).memWf ↔ s.memWf := Iff.rfl
@[simp] theorem State.memWf_mzEnter (fn : Nat) (scope : BitVec 2) (index : BitVec 6) :
    (s.mzEnter fn scope index).memWf ↔ s.memWf := by
  unfold State.mzEnter
  split <;> simp
@[simp] theorem State.memWf_mzRelease (fn : Fn) (scope : BitVec 2) (index : BitVec 6) :
    (s.mzRelease fn scope index).memWf ↔ s.memWf := by
  unfold State.mzRelease
  split <;> simp
@[simp] theorem State.memWf_unmuzzle (a1 : Scope) : (s.unmuzzle a1).memWf ↔ s.memWf := by
  unfold State.unmuzzle
  split <;> simp
@[simp] theorem State.memWf_applyRelease (hit : List Scope) (r : Scope × Fn) :
    (s.applyRelease hit r).memWf ↔ s.memWf := by
  simp [State.applyRelease]
@[simp] theorem State.memWf_class1 : s.class1.memWf ↔ s.memWf := by simp [State.class1]

/-! ### `Machine/Hbm.lean` -/

@[simp] theorem State.memWf_modHbm (f : Hbm → Hbm) (hf : ∀ h, (f h).data = h.data) : (s.modHbm f).memWf ↔ s.memWf := by
  simp only [State.memWf, State.modHbm, hf]
@[simp] theorem State.memWf_modStack (k : Nat) (f : StackSt → StackSt) : (s.modStack k f).memWf ↔ s.memWf := Iff.rfl
@[simp] theorem State.modStack_data (k : Nat) (f : StackSt → StackSt) : (s.modStack k f).hbm.data = s.hbm.data := rfl
@[simp] theorem State.memWf_cellFresh (c : CellId) : (s.cellFresh c).memWf ↔ s.memWf := Iff.rfl
@[simp] theorem State.memWf_unitHit (stripe : Nat) (errs : List UnitErr) : (s.unitHit stripe errs).memWf ↔ s.memWf := by
  simp [State.unitHit]

@[simp] theorem State.memWf_retire (frame : Nat) (row : Option Nat) : (s.retire frame row).memWf ↔ s.memWf := by
  unfold State.retire
  split
  · rfl
  split <;> simp [↓State.memWf_ite]

@[simp] theorem State.memWf_retireRow (u : UnitId) : (s.retireRow u).memWf ↔ s.memWf :=
  State.memWf_foldl _ _ _ fun s x => by split <;> simp
@[simp] theorem State.memWf_corrected (c : CellId) : (s.corrected c).memWf ↔ s.memWf := by
  simp [State.corrected, ↓State.memWf_ite]
@[simp] theorem State.memWf_codeFailed (c : CellId) : (s.codeFailed c).memWf ↔ s.memWf := by
  simp [State.codeFailed, ↓State.memWf_ite]
@[simp] theorem State.memWf_memoryDoubt (a : Nat) (owners : List Nat) : (s.memoryDoubt a owners).memWf ↔ s.memWf := by
  simp [State.memoryDoubt]
@[simp] theorem State.memWf_touchStack (k : Nat) : (s.touchStack k).memWf ↔ s.memWf := Iff.rfl
@[simp] theorem State.memWf_setBufs (g : Nat) (l : List WcBuf) : (s.setBufs g l).memWf ↔ s.memWf := by
  simp only [State.setBufs]
  split <;> simp
@[simp] theorem State.memWf_failStack (k : Nat) : (s.failStack k).memWf ↔ s.memWf := by
  simp [State.failStack, apply_ite Hbm.data]

@[simp] theorem State.memWf_declareFail (d : Nat × Option Nat) : (s.declareFail d).memWf ↔ s.memWf := by
  simp only [State.declareFail, State.memWf_raise]
  split
  · simp
  · split <;> simp

@[simp] theorem State.memWf_retireHeld (g : Nat) : (s.retireHeld g).memWf ↔ s.memWf := by simp [State.retireHeld]
@[simp] theorem State.memWf_checkLoss (g : Nat) : (s.checkLoss g).memWf ↔ s.memWf := by
  simp only [State.checkLoss]
  (repeat' split) <;> simp
@[simp] theorem State.memWf_applyFails : s.applyFails.memWf ↔ s.memWf := by
  simp [State.applyFails]
@[simp] theorem State.memWf_freqChange (op : BitVec 2) (shadow : Option (Table Word)) :
    (s.freqChange op shadow).memWf ↔ s.memWf := by
  simp [State.freqChange]
@[simp] theorem State.memWf_retireCmd (frame : Nat) : (s.retireCmd frame).memWf ↔ s.memWf := by
  simp [State.retireCmd, ↓State.memWf_ite]
@[simp] theorem State.memWf_abandon (r : RetireSt) : (s.abandon r).memWf ↔ s.memWf := Iff.rfl
@[simp] theorem State.memWf_failNext (k : Nat) (pc : Option Nat) : (s.failNext k pc).memWf ↔ s.memWf := Iff.rfl
@[simp] theorem State.memWf_sleepStack (k : Nat) : (s.sleepStack k).memWf ↔ s.memWf := by simp [State.sleepStack]
@[simp] theorem State.memWf_srTick : s.srTick.memWf ↔ s.memWf := by simp [State.srTick]

/-! ### `Machine/Paging.lean` -/

@[simp] theorem State.memWf_modPaging (f : Paging → Paging) : (s.modPaging f).memWf ↔ s.memWf := Iff.rfl
@[simp] theorem State.memWf_applyEdit (e : PageEdit) : (s.applyEdit e).memWf ↔ s.memWf := Iff.rfl
@[simp] theorem State.memWf_pgBatchGo : s.pgBatchGo.memWf ↔ s.memWf := by
  simp only [State.pgBatchGo]
  (repeat' split) <;> simp
@[simp] theorem State.memWf_swapPages : s.swapPages.memWf ↔ s.memWf := by simp [State.swapPages]
@[simp] theorem State.memWf_tileLeaf (ix fn va : Nat) : (s.tileLeaf ix fn va).2.memWf ↔ s.memWf := by
  unfold State.tileLeaf
  (repeat' split) <;> simp

@[simp] theorem State.memWf_xlateTile (ix fn : Nat) (write : Bool) (l : List (Nat × Nat)) :
    (s.xlateTile ix fn write l).2.memWf ↔ s.memWf := by
  induction l generalizing s with
  | nil => rfl
  | cons p ps ih =>
    simp only [State.xlateTile]
    split <;> simp [ih]

@[simp] theorem State.memWf_netOne (ini rd wr : Nat) : (s.netOne ini rd wr).memWf ↔ s.memWf := Iff.rfl
@[simp] theorem State.memWf_netReads (ini : Nat) (sizes : List Nat) : (s.netReads ini sizes).memWf ↔ s.memWf := by
  simp [State.netReads]
@[simp] theorem State.memWf_netWrites (ini : Nat) (sizes : List Nat) : (s.netWrites ini sizes).memWf ↔ s.memWf := by
  simp [State.netWrites]
@[simp] theorem State.memWf_wantPeer (q : PeerRead) : (s.wantPeer q).memWf ↔ s.memWf := by simp [State.wantPeer]
@[simp] theorem State.memWf_dropPeers (l : List PeerRead) : (s.dropPeers l).memWf ↔ s.memWf := Iff.rfl
@[simp] theorem State.memWf_sweepPeers : s.sweepPeers.memWf ↔ s.memWf := Iff.rfl
@[simp] theorem State.memWf_countFault (dropped : Bool) : (s.countFault dropped).memWf ↔ s.memWf := Iff.rfl
@[simp] theorem State.memWf_bar2Refuse : s.bar2Refuse.memWf ↔ s.memWf := Iff.rfl
@[simp] theorem State.memWf_modCrcUnit (u : Nat) (f : CrcUnit → CrcUnit) : (s.modCrcUnit u f).memWf ↔ s.memWf := Iff.rfl
@[simp] theorem State.memWf_crcWrite (u : Nat) (reg : CrcReg) (v : Word) : (s.crcWrite u reg v).memWf ↔ s.memWf := by
  unfold State.crcWrite
  split <;> simp
@[simp] theorem State.memWf_crcFeed (u : Nat) (b : List Byte) : (s.crcFeed u b).memWf ↔ s.memWf := by
  unfold State.crcFeed
  split <;> simp
@[simp] theorem State.memWf_wakeDomain (d : Nat) : (s.wakeDomain d).memWf ↔ s.memWf := Iff.rfl
@[simp] theorem State.memWf_startWake (d : Nat) : (s.startWake d).memWf ↔ s.memWf := Iff.rfl
@[simp] theorem State.memWf_gateDomain (busy : List Nat) (d : Nat) : (s.gateDomain busy d).memWf ↔ s.memWf := by
  simp [State.gateDomain]
@[simp] theorem State.memWf_netStatSel (sel : Nat) : (s.netStatSel sel).memWf ↔ s.memWf := Iff.rfl

/-! ### `Machine/Kennel.lean` -/

@[simp] theorem State.memWf_modKennel (f : Kennel → Kennel) : (s.modKennel f).memWf ↔ s.memWf := Iff.rfl
@[simp] theorem State.memWf_deferStep : s.deferStep.memWf ↔ s.memWf := Iff.rfl
@[simp] theorem State.memWf_stepYields (j : Nat) : (s.stepYields j).memWf ↔ s.memWf := by
  unfold State.stepYields
  (repeat' split) <;> simp
@[simp] theorem State.memWf_schedule (i : Nat) : (s.schedule i).2.memWf ↔ s.memWf := by
  simp only [State.schedule]
  split <;> simp
@[simp] theorem State.memWf_setFaults (i n : Nat) : (s.setFaults i n).memWf ↔ s.memWf := Iff.rfl
@[simp] theorem State.memWf_quarantine (i cause job : Nat) : (s.quarantine i cause job).memWf ↔ s.memWf := by
  simp only [State.quarantine]
  split <;> simp
@[simp] theorem State.memWf_quarantineTile (t : TileId) (cause job : Nat) :
    (s.quarantineTile t cause job).memWf ↔ s.memWf := by
  simp [State.quarantineTile]
@[simp] theorem State.memWf_serveSuspects (c : Nat) : (s.serveSuspects c).memWf ↔ s.memWf := by
  simp [State.serveSuspects]
@[simp] theorem State.memWf_startMove (m : Move) : (s.startMove m).memWf ↔ s.memWf := by simp [State.startMove]
@[simp] theorem State.memWf_startMoves : s.startMoves.memWf ↔ s.memWf := by simp [State.startMoves]
@[simp] theorem State.memWf_endMove (m : Move) (lost : Bool) : (s.endMove m lost).memWf ↔ s.memWf := by
  simp only [State.endMove]
  split <;> simp
@[simp] theorem State.memWf_finishMoves : s.finishMoves.memWf ↔ s.memWf := by simp [State.finishMoves]
@[simp] theorem State.memWf_knlApply (c : SiteId × Bool) : (s.knlApply c).memWf ↔ s.memWf := by simp [State.knlApply]
@[simp] theorem State.memWf_knlTick : s.knlTick.memWf ↔ s.memWf := by simp [State.knlTick]
@[simp] theorem State.memWf_retireSite (i : Nat) : (s.retireSite i).memWf ↔ s.memWf := Iff.rfl
@[simp] theorem State.memWf_spareSite (i : Nat) : (s.spareSite i).memWf ↔ s.memWf := by simp [State.spareSite]
@[simp] theorem State.memWf_selfTest (i : Nat) (pass : Bool) : (s.selfTest i pass).memWf ↔ s.memWf := by
  simp only [State.selfTest]
  (repeat' split) <;> simp
@[simp] theorem State.memWf_rotateHalf (l : List Nat) : (s.rotateHalf l).memWf ↔ s.memWf := by
  unfold State.rotateHalf
  (repeat' split) <;> simp
@[simp] theorem State.memWf_rotTick : s.rotTick.memWf ↔ s.memWf := by simp [State.rotTick]
@[simp] theorem State.memWf_rotRestart (old : State) : (State.rotRestart old s).memWf ↔ s.memWf := by
  simp [State.rotRestart, ↓State.memWf_ite]
@[simp] theorem State.memWf_afterG2 (old : State) : (State.afterG2 old s).memWf ↔ s.memWf := by
  simp [State.afterG2]
@[simp] theorem State.memWf_rowCorrected (i : Nat) (m : TileMem) (row : Nat) :
    (s.rowCorrected i m row).memWf ↔ s.memWf :=
  Iff.rfl
@[simp] theorem State.memWf_replaceRow (i : Nat) (mem : TileMem) (row : Nat) :
    (s.replaceRow i mem row).memWf ↔ s.memWf := by
  simp [State.replaceRow]
@[simp] theorem State.memWf_replaceRows (p : Nat) : (s.replaceRows p).memWf ↔ s.memWf := by simp [State.replaceRows]

/-! ### `Machine/Rings.lean` -/

@[simp] theorem State.memWf_ringLog (f r : Nat) : (s.ringLog f r).memWf ↔ s.memWf := Iff.rfl
@[simp] theorem State.memWf_fetchFails (f r : Nat) : (s.fetchFails f r).memWf ↔ s.memWf := Iff.rfl
@[simp] theorem State.memWf_summaryFails (f : Nat) : (s.summaryFails f).memWf ↔ s.memWf := Iff.rfl
@[simp] theorem State.memWf_readHead (f cq : Nat) : (s.readHead f cq).memWf ↔ s.memWf := by
  simp only [State.readHead]
  (repeat' split) <;> simp
@[simp] theorem State.memWf_findSlot (f cq : Nat) : (s.findSlot f cq).memWf ↔ s.memWf := by simp [State.findSlot]
@[simp] theorem State.memWf_claimSlot (f cq : Nat) : (s.claimSlot f cq).2.memWf ↔ s.memWf := by
  simp only [State.claimSlot]
  split <;> simp
@[simp] theorem State.memWf_freeSlot (f cq : Nat) : (s.freeSlot f cq).memWf ↔ s.memWf := Iff.rfl

@[simp] theorem State.memWf_fetchOne (f r : Nat) : (s.fetchOne f r).memWf ↔ s.memWf := by
  unfold State.fetchOne
  extract_lets k cfg cq
  split
  · rfl
  have hu := State.memWf_claimSlot s f cq
  generalize s.claimSlot f cq = c at hu ⊢
  obtain ⟨_ | _, u⟩ := c
  · exact hu
  · exact (State.memWf_modRing ..).trans ((State.memWf_countEv ..).trans hu)

@[simp] theorem State.memWf_fetchRing (f r : Nat) : (s.fetchRing f r).memWf ↔ s.memWf := by
  simp [State.fetchRing, ↓State.memWf_ite]
@[simp] theorem State.memWf_readDoorbell (f r : Nat) : (s.readDoorbell f r).memWf ↔ s.memWf := by
  simp only [State.readDoorbell]
  split <;> simp
@[simp] theorem State.memWf_addDesc (d : Desc) : (s.addDesc d).memWf ↔ s.memWf := Iff.rfl
@[simp] theorem State.memWf_reject (d : Desc) (st due : Nat) : (s.reject d st due).memWf ↔ s.memWf := Iff.rfl
@[simp] theorem State.memWf_admitBlock (d : Desc) (b : List Byte) (due : Nat) :
    (s.admitBlock d b due).memWf ↔ s.memWf := by
  simp only [State.admitBlock]
  (repeat' split) <;> simp
@[simp] theorem State.memWf_wantSpan (d : Desc) (va n : Nat) : (s.wantSpan d va n).memWf ↔ s.memWf := by
  unfold State.wantSpan
  split <;> simp

/-! ### `Machine/Flows.lean` -/

@[simp] theorem State.memWf_reopen (n : Nat) : (s.reopen n).memWf ↔ s.memWf := Iff.rfl
@[simp] theorem State.memWf_rerouteNow : s.rerouteNow.memWf ↔ s.memWf := Iff.rfl

@[simp] theorem State.memWf_rebuildRoute (e : Nat × DWord) : (s.rebuildRoute e).memWf ↔ s.memWf := by
  simp only [State.rebuildRoute]
  split
  · rfl
  · exact State.memWf_foldl_snd _ _ _ fun a x => by split <;> simp

@[simp] theorem State.memWf_repath : s.repath.memWf ↔ s.memWf := Iff.rfl
@[simp] theorem State.memWf_swapRouting : s.swapRouting.memWf ↔ s.memWf := by
  simp [State.swapRouting, ↓State.memWf_ite]
@[simp] theorem State.memWf_usedFlow (id flow token : Nat) : (s.usedFlow id flow token).memWf ↔ s.memWf := Iff.rfl
@[simp] theorem State.memWf_sentData (id flow token : Nat) : (s.sentData id flow token).memWf ↔ s.memWf := Iff.rfl
@[simp] theorem State.memWf_usedBy (q : LinkReq) : (s.usedBy q).memWf ↔ s.memWf := by
  unfold State.usedBy
  split <;> simp
@[simp] theorem State.memWf_putReq (q : LinkReq) (n vc : Nat) : (s.putReq q n vc).memWf ↔ s.memWf := by
  simp [State.putReq]
@[simp] theorem State.memWf_trySend (q : LinkReq) : (s.trySend q).memWf ↔ s.memWf := by
  unfold State.trySend
  (repeat' split) <;> simp
@[simp] theorem State.memWf_postMsg (m : OutMsg) : (s.postMsg m).memWf ↔ s.memWf := by
  unfold State.postMsg
  (repeat' split) <;> simp
@[simp] theorem State.memWf_postMsgs : s.postMsgs.memWf ↔ s.memWf := by simp [State.postMsgs]
@[simp] theorem State.memWf_postTransit (t : Transit) : (s.postTransit t).memWf ↔ s.memWf := by
  simp only [State.postTransit]
  split <;> simp
@[simp] theorem State.memWf_postTransits : s.postTransits.memWf ↔ s.memWf := by
  simp only [State.postTransits]
  split <;> simp [↓State.memWf_ite]
@[simp] theorem State.memWf_enqueue (q : LinkReq) : (s.enqueue q).memWf ↔ s.memWf := Iff.rfl
@[simp] theorem State.memWf_setPeer (id : Nat) (a : PeerAnswer) : (s.setPeer id a).memWf ↔ s.memWf := Iff.rfl
@[simp] theorem State.memWf_askPeer (q : PeerRead) : (s.askPeer q).memWf ↔ s.memWf := by
  unfold State.askPeer
  (repeat' split) <;> simp
@[simp] theorem State.memWf_pump : s.pump.memWf ↔ s.memWf := by simp [State.pump]
@[simp] theorem State.memWf_request (q : LinkReq) : (s.request q).memWf ↔ s.memWf := by simp [State.request]
@[simp] theorem State.memWf_dropReq (q : LinkReq) : (s.dropReq q).memWf ↔ s.memWf := Iff.rfl
@[simp] theorem State.memWf_park (t : Option TileId) (x : Inbound) : (s.park t x).memWf ↔ s.memWf := by
  unfold State.park
  split <;> simp
@[simp] theorem State.memWf_expose (device token pack : Nat) (group : Option Nat) (span : Option Nat × Nat × Nat) :
    (s.expose device token pack group span).memWf ↔ s.memWf :=
  Iff.rfl
@[simp] theorem State.memWf_exposeAtDispatch (pack id : Nat) : (s.exposeAtDispatch pack id).memWf ↔ s.memWf := Iff.rfl
@[simp] theorem State.memWf_exposuresAtRecord (d : Desc) : (s.exposuresAtRecord d).memWf ↔ s.memWf := Iff.rfl
@[simp] theorem State.memWf_clearToken (device token : Nat) : (s.clearToken device token).memWf ↔ s.memWf := Iff.rfl

/-! ### `Machine/Leash.lean` -/

@[simp] theorem State.memWf_modLeash (f : LeashSt → LeashSt) : (s.modLeash f).memWf ↔ s.memWf := Iff.rfl
@[simp] theorem State.memWf_modLtime (f : LeashTime → LeashTime) : (s.modLtime f).memWf ↔ s.memWf := Iff.rfl
@[simp] theorem State.memWf_modEnergy (f : EnergySt → EnergySt) : (s.modEnergy f).memWf ↔ s.memWf := Iff.rfl
@[simp] theorem State.memWf_leashAlarm (code : Nat) : (s.leashAlarm code).memWf ↔ s.memWf := Iff.rfl
@[simp] theorem State.memWf_leashLog : s.leashLog.memWf ↔ s.memWf := Iff.rfl
@[simp] theorem State.memWf_mismatchTick : s.mismatchTick.memWf ↔ s.memWf := by simp [State.mismatchTick]
@[simp] theorem State.memWf_suspectTick : s.suspectTick.memWf ↔ s.memWf := by simp [State.suspectTick]
@[simp] theorem State.memWf_disagree : s.disagree.memWf ↔ s.memWf := Iff.rfl
@[simp] theorem State.memWf_disagreeTick : s.disagreeTick.memWf ↔ s.memWf := by simp [State.disagreeTick]
@[simp] theorem State.memWf_holdAbort : s.holdAbort.memWf ↔ s.memWf := by simp [State.holdAbort]
@[simp] theorem State.memWf_leashLatch (estimate len : Nat) : (s.leashLatch estimate len).memWf ↔ s.memWf := by
  simp [State.leashLatch]
@[simp] theorem State.memWf_clampRung : s.clampRung.memWf ↔ s.memWf := by simp [State.clampRung]
@[simp] theorem State.memWf_capTick : s.capTick.memWf ↔ s.memWf := by simp [State.capTick]
@[simp] theorem State.memWf_ladder : s.ladder.memWf ↔ s.memWf := by simp [State.ladder]
@[simp] theorem State.memWf_peakStall : s.peakStall.memWf ↔ s.memWf := by simp [State.peakStall]
@[simp] theorem State.memWf_hbmOrder (hot cool : Bool) : (s.hbmOrder hot cool).memWf ↔ s.memWf := by
  simp [State.hbmOrder]
@[simp] theorem State.memWf_hbmStart : s.hbmStart.memWf ↔ s.memWf := by
  simp only [State.hbmStart]
  split <;> simp
@[simp] theorem State.memWf_class2 : s.class2.memWf ↔ s.memWf := by simp [State.class2]
@[simp] theorem State.memWf_occupy (len : Nat) : (s.occupy len).memWf ↔ s.memWf := by
  simp only [State.occupy]
  exact State.memWf_foldl _ _ _ fun s x => by split <;> simp [↓State.memWf_ite]
@[simp] theorem State.memWf_recordEnergy (d : Desc) : (s.recordEnergy d).2.memWf ↔ s.memWf := by
  unfold State.recordEnergy
  split <;> simp

/-! ### `Machine/Records.lean` -/

@[simp] theorem State.memWf_finish (p : Nat) : (s.finish p).memWf ↔ s.memWf := by
  unfold State.finish
  split <;> simp
@[simp] theorem State.memWf_endIfRetired (d : Desc) : (s.endIfRetired d).memWf ↔ s.memWf := by simp [State.endIfRetired]
@[simp] theorem State.memWf_idlePack (p id : Nat) : (s.idlePack p id).memWf ↔ s.memWf := by simp [State.idlePack]
@[simp] theorem State.memWf_recordSlot (d : Desc) : (s.recordSlot d).2.memWf ↔ s.memWf := by
  simp only [State.recordSlot]
  split <;> simp
@[simp] theorem State.memWf_cancelOne (d : Desc) : (s.cancelOne d).memWf ↔ s.memWf := by
  unfold State.cancelOne
  split <;> simp
@[simp] theorem State.memWf_cancel (c : Desc) : (s.cancel c).memWf ↔ s.memWf := by simp [State.cancel]
@[simp] theorem State.memWf_class4 : s.class4.memWf ↔ s.memWf := by simp [State.class4]
@[simp] theorem State.memWf_resetFn (f : Nat) : (s.resetFn f).memWf ↔ s.memWf := by simp [State.resetFn]

/-! ### `Machine/Issue.lean` -/

@[simp] theorem State.memWf_modEngine (ix : Nat) (e : Engine) (f : EngineSt → EngineSt) :
    (s.modEngine ix e f).memWf ↔ s.memWf :=
  Iff.rfl
@[simp] theorem State.memWf_advance (c : Issuing) : (s.advance c).memWf ↔ s.memWf := Iff.rfl
@[simp] theorem State.memWf_holdAt (c : Issuing) (h : Hold) : (s.holdAt c h).memWf ↔ s.memWf := Iff.rfl
@[simp] theorem State.memWf_skip (c : Issuing) (reason : Nat) : (s.skip c reason).memWf ↔ s.memWf := by
  simp [State.skip]
@[simp] theorem State.memWf_fetchFailed (p : Nat) (d : Desc) : (s.fetchFailed p d).memWf ↔ s.memWf := by
  simp [State.fetchFailed]
@[simp] theorem State.memWf_markIssued (p : Nat) : (s.markIssued p).memWf ↔ s.memWf := Iff.rfl
@[simp] theorem State.memWf_tagged (c : Issuing) : (s.tagged c).memWf ↔ s.memWf := by simp [State.tagged]
@[simp] theorem State.memWf_launch (c : Issuing) (reads writes : List Nat) (ctx : Option Nat) :
    (s.launch c reads writes ctx).memWf ↔ s.memWf := by
  simp [State.launch]
@[simp] theorem State.memWf_semAdd (ix n inc : Nat) : (s.semAdd ix n inc).memWf ↔ s.memWf := by simp [State.semAdd]
@[simp] theorem State.memWf_upset (tile : TileId) (d : Option Desc) (u : Upset) :
    (s.upset tile d u).2.memWf ↔ s.memWf := by
  unfold State.upset
  (repeat' split) <;> simp

/-! ### `Machine/Dsp.lean` -/

@[simp] theorem State.memWf_spDone (c : Issuing) (outs : List Int) (ovf : Bool) :
    (s.spDone c outs ovf).memWf ↔ s.memWf := by
  simp [State.spDone]

/-! ### `Machine/Groups.lean` -/

@[simp] theorem State.memWf_modGroup (g : Nat) (f : GroupRun → GroupRun) : (s.modGroup g f).memWf ↔ s.memWf := Iff.rfl
@[simp] theorem State.memWf_landInTile (device token pack : Nat) (group : Option Nat) (tile addr : Nat)
    (data : List Byte) : (s.landInTile device token pack group tile addr data).memWf ↔ s.memWf := by
  simp [State.landInTile]
@[simp] theorem State.memWf_deliverLocal (g device token addr : Nat) (data : List Byte) :
    (s.deliverLocal g device token addr data).memWf ↔ s.memWf := by
  simp [State.deliverLocal]
@[simp] theorem State.memWf_groupSignal (g sem : Nat) : (s.groupSignal g sem).memWf ↔ s.memWf := by
  simp [State.groupSignal]
@[simp] theorem State.memWf_groupSignals (g : Nat) : (s.groupSignals g).memWf ↔ s.memWf := by simp [State.groupSignals]
@[simp] theorem State.memWf_groupDone (g : Nat) : (s.groupDone g).memWf ↔ s.memWf := by
  simp only [State.groupDone]
  (repeat' split) <;> simp
@[simp] theorem State.memWf_groupStep (g : Nat) : (s.groupStep g).memWf ↔ s.memWf := by
  simp only [State.groupStep]
  (repeat' split) <;> simp
@[simp] theorem State.memWf_groupPump (g : Nat) : (s.groupPump g).memWf ↔ s.memWf := by simp [State.groupPump]
@[simp] theorem State.memWf_dropPieces (g off : Nat) : (s.dropPieces g off).memWf ↔ s.memWf := Iff.rfl
@[simp] theorem State.memWf_groupAck (g : Nat) (p : Nat → Bool) (off : Nat) : (s.groupAck g p off).memWf ↔ s.memWf := by
  simp [State.groupAck]
@[simp] theorem State.memWf_countPrune : s.countPrune.memWf ↔ s.memWf := Iff.rfl

@[simp] theorem State.memWf_pruneLocal (g ix : Nat) : (s.pruneLocal g ix).memWf ↔ s.memWf := by
  simp only [State.pruneLocal]
  split
  · simp
  exact State.memWf_foldl _ _ _ fun s x => by split <;> simp [↓State.memWf_ite]

@[simp] theorem State.memWf_pruneBranch (g ix : Nat) : (s.pruneBranch g ix).memWf ↔ s.memWf := by
  simp [State.pruneBranch]
@[simp] theorem State.memWf_groupTick (g : Nat) : (s.groupTick g).memWf ↔ s.memWf := by simp [State.groupTick]

/-! ### `Machine/Streams.lean` -/

@[simp] theorem State.memWf_convertChunk (ix : Nat) (r : StreamRec) (inward : Bool) (b : List Byte) :
    (s.convertChunk ix r inward b).2.2.memWf ↔ s.memWf := by
  unfold State.convertChunk
  split <;> simp
@[simp] theorem State.memWf_modCtx (ix c : Nat) (f : CtxSt → CtxSt) : (s.modCtx ix c f).memWf ↔ s.memWf := Iff.rfl
@[simp] theorem State.memWf_feed (ix c : Nat) (k : CtxSt) (b : List Byte) : (s.feed ix c k b).memWf ↔ s.memWf := by
  unfold State.feed
  split <;> simp

@[simp] theorem State.memWf_peerRequests (tile : TileId) (d : Desc) (ci : Nat) (k : CtxSt) (ch : ChunkSt) :
    (s.peerRequests tile d ci k ch).memWf ↔ s.memWf :=
  State.memWf_foldl_fst _ _ _ fun a x => by
    dsimp only
    split
    · split <;> simp
    · rfl

@[simp] theorem State.memWf_putChunk (tile : TileId) (d : Desc) (ci : Nat) (ch : ChunkSt) (f : Option PgFault) :
    (s.putChunk tile d ci ch f).memWf ↔ s.memWf := by
  simp only [State.putChunk]
  split <;> simp
@[simp] theorem State.memWf_requestGet (tile : TileId) (d : Desc) (ci : Nat) (k : CtxSt) :
    (s.requestGet tile d ci k).memWf ↔ s.memWf := by
  simp [State.requestGet]
@[simp] theorem State.memWf_requestPut (tile : TileId) (d : Desc) (ci : Nat) (k : CtxSt) :
    (s.requestPut tile d ci k).memWf ↔ s.memWf := by
  simp only [State.requestPut]
  split <;> simp [↓State.memWf_ite]
@[simp] theorem State.memWf_requestRow (tile : TileId) (d : Desc) (ci : Nat) (k : CtxSt) :
    (s.requestRow tile d ci k).memWf ↔ s.memWf := by
  simp [State.requestRow, ↓State.memWf_ite]
@[simp] theorem State.memWf_ctxStep (tile : TileId) (d : Desc) (ci : Nat) : (s.ctxStep tile d ci).memWf ↔ s.memWf := by
  simp only [State.ctxStep]
  (repeat' split) <;> simp

@[simp] theorem State.memWf_settle (tile : TileId) : (s.settle tile).memWf ↔ s.memWf := by
  simp only [State.settle]
  split
  · simp
  split
  · simp
  simp [↓State.memWf_ite]

@[simp] theorem State.memWf_signal (tile : TileId) (sem inc : Nat) : (s.signal tile sem inc).memWf ↔ s.memWf := by
  simp [State.signal, ↓State.memWf_ite]

@[simp] theorem State.memWf_sendPieces (q : LinkReq) (col row taddr n : Nat) (b : List Byte) :
    (s.sendPieces q col row taddr n b).memWf ↔ s.memWf := by
  induction n generalizing s taddr b with
  | zero => rfl
  | succ n ih => simp [State.sendPieces, ↓State.memWf_ite, ih]

@[simp] theorem State.memWf_sendEffect (c : Issuing) (f : Send) : (s.sendEffect c f).memWf ↔ s.memWf := by
  simp only [State.sendEffect]
  split
  · simp
  split
  · simp
  split <;> simp

@[simp] theorem State.memWf_mcastStart (c : Issuing) (f : Mcast) (ci : Nat) :
    (s.mcastStart c f ci).memWf ↔ s.memWf := by
  simp [State.mcastStart]
@[simp] theorem State.memWf_resumePage (p fn va : Nat) : (s.resumePage p fn va).2.memWf ↔ s.memWf := by
  simp [State.resumePage, ↓State.memWf_ite]

/-! ### `Machine/Prologue.lean` -/

@[simp] theorem State.memWf_hookFail (p : Nat) (h : HookSt) (row event : Nat) :
    (s.hookFail p h row event).memWf ↔ s.memWf :=
  Iff.rfl
@[simp] theorem State.memWf_startHook (p : Nat) (h : HookSt) : (s.startHook p h).memWf ↔ s.memWf := by
  simp [State.startHook]

/-! ### `Machine/Matrix.lean` -/

@[simp] theorem State.memWf_countUnchecked (n : Nat) : (s.countUnchecked n).memWf ↔ s.memWf := Iff.rfl

@[simp] theorem State.memWf_mxRows (c : Issuing) (f : MxRun) (pro : Option Pro) (start : Nat) (rest : List RowUpset) :
    (s.mxRows c f pro start rest).memWf ↔ s.memWf := by
  unfold State.mxRows
  extract_lets plan
  split
  next junk s1 e1 =>
  split
  next side s2 e2 =>
  extract_lets t ctl rows o s3 s4 s5 second s6
  have h1 : s1.memWf ↔ s.memWf := (State.memWf_of_eq e1).trans (by split <;> simp)
  have h2 : s2.memWf ↔ s1.memWf := (State.memWf_of_eq e2).trans (by dsimp only; (repeat' split) <;> rfl)
  have h5 : s5.memWf ↔ s.memWf := by
    simp only [s5, s4, s3, State.memWf_numEvents, State.memWf_countEv, State.memWf_countUnchecked,
      State.memWf_modTile, h2, h1]
  have h6 : s6.memWf ↔ s.memWf := by
    dsimp only [s6]
    split <;> simpa using h5
  clear_value o s5 s6
  split
  · exact h5
  · exact (State.memWf_modPack ..).trans h6

@[simp] theorem State.memWf_mxrunEffect (c : Issuing) (u : Upset) (f : MxRun) (pro : Option Pro) :
    (s.mxrunEffect c u f pro).memWf ↔ s.memWf := by
  unfold State.mxrunEffect
  extract_lets m s1
  have h1 : s1.memWf ↔ s.memWf := State.memWf_modTile ..
  split
  · exact h1
  split
  · exact (State.memWf_mxRows ..).trans h1
  next p s2 =>
  extract_lets s3 s4
  have h2 : s2.memWf ↔ s.memWf := (State.memWf_foldl _ _ _ fun s i => by split <;> simp).trans h1
  have h3 : s3.memWf ↔ s.memWf := by
    dsimp only [s3]
    split <;> simpa using h2
  have h4 : s4.memWf ↔ s.memWf := by
    dsimp only [s4]
    split <;> simpa using h3
  clear_value s4
  split
  · split
    next s5 e =>
    have h5 : s5.memWf ↔ s.memWf := ((State.memWf_of_eq e).trans (by split <;> rfl)).trans h4
    simpa using h5
  · exact (State.memWf_mxRows ..).trans h4

@[simp] theorem State.memWf_stagedHook (h : HookSt) : (s.stagedHook h).memWf ↔ s.memWf := by
  simp only [State.stagedHook]
  split <;> simp
@[simp] theorem State.memWf_recordMiss (p : Nat) (d : Desc) (m : Miss) (whole second : Bool) :
    (s.recordMiss p d m whole second).memWf ↔ s.memWf :=
  Iff.rfl
@[simp] theorem State.memWf_countReplay (half : Nat) : (s.countReplay half).memWf ↔ s.memWf := Iff.rfl
@[simp] theorem State.memWf_localReplay (p : Nat) (d : Desc) (m : Miss) : (s.localReplay p d m).memWf ↔ s.memWf := by
  simp only [State.localReplay]
  split <;> simp [↓State.memWf_ite]
@[simp] theorem State.memWf_recordMisses (p : Nat) (d : Desc) (l : List Miss) :
    (s.recordMisses p d l).memWf ↔ s.memWf := by
  simp [State.recordMisses]
@[simp] theorem State.memWf_secondMiss (p : Nat) (d : Desc) (m : Miss) (whole : Bool) (rest : List Miss) :
    (s.secondMiss p d m whole rest).memWf ↔ s.memWf := by
  simp [State.secondMiss]
@[simp] theorem State.memWf_sampleMisses (p : Nat) : (s.sampleMisses p).memWf ↔ s.memWf := by
  simp only [State.sampleMisses]
  split <;> simp [↓State.memWf_ite]

/-! ### `Machine/Drain.lean` -/

@[simp] theorem State.memWf_sendRows (c : Issuing) (e : Epi) (dstride : Nat) (rows : List (List Byte)) :
    (s.sendRows c e dstride rows).memWf ↔ s.memWf := by
  simp [State.sendRows]
@[simp] theorem State.memWf_sendDone (e : Epi) : (s.sendDone e).memWf ↔ s.memWf := by simp [State.sendDone]
@[simp] theorem State.memWf_finishDrain (c : Issuing) (f : MxDrain) (e : Option Epi) (statOn : Bool)
    (blocks : List DrainBlock) : (s.finishDrain c f e statOn blocks).memWf ↔ s.memWf := by
  simp only [State.finishDrain]
  (repeat' split) <;> simp
@[simp] theorem State.memWf_claimGroup (c : Issuing) (e : Epi) : (s.claimGroup c e).memWf ↔ s.memWf := by
  simp [State.claimGroup]
@[simp] theorem State.memWf_drainOut (c : Issuing) (f : MxDrain) (e : Option Epi) (statOn : Bool)
    (blocks : List DrainBlock) : (s.drainOut c f e statOn blocks).memWf ↔ s.memWf := by
  simp only [State.drainOut]
  split <;> simp [↓State.memWf_ite]
@[simp] theorem State.memWf_drainEffect (c : Issuing) (f : MxDrain) (e : Option Epi) :
    (s.drainEffect c f e).memWf ↔ s.memWf := by
  simp only [State.drainEffect]
  (repeat' split) <;> simp
@[simp] theorem State.memWf_drainedHook (h : HookSt) : (s.drainedHook h).memWf ↔ s.memWf := by
  simp only [State.drainedHook]
  split <;> simp

/-! ### `Machine/Copying.lean` -/

@[simp] theorem State.memWf_copyTaint (p : Nat) : (s.copyTaint p).memWf ↔ s.memWf := by simp [State.copyTaint]
@[simp] theorem State.memWf_copyStops (p : Nat) (e : PgFault) : (s.copyStops p e).memWf ↔ s.memWf := Iff.rfl
@[simp] theorem State.memWf_copyReq (p : Nat) (d : Desc) (t : TxType) (f seg a n : Nat) (data : List Byte) :
    (s.copyReq p d t f seg a n data).memWf ↔ s.memWf := by
  simp [State.copyReq]

/-! ### `Machine/LinkLanes.lean` -/

@[simp] theorem State.memWf_dropLink (n : Nat) : (s.dropLink n).memWf ↔ s.memWf := Iff.rfl
@[simp] theorem State.memWf_trainLink (n : Nat) : (s.trainLink n).memWf ↔ s.memWf := Iff.rfl
@[simp] theorem State.memWf_trainFails (n : Nat) : (s.trainFails n).memWf ↔ s.memWf := Iff.rfl
@[simp] theorem State.memWf_applyLnkCfg (n : Nat) : (s.applyLnkCfg n).memWf ↔ s.memWf := by
  simp only [State.applyLnkCfg]
  split <;> simp
@[simp] theorem State.memWf_downLink (n : Nat) : (s.downLink n).memWf ↔ s.memWf := by simp [State.downLink]
@[simp] theorem State.memWf_latchLref (present : Bool) : (s.latchLref present).memWf ↔ s.memWf := by
  simp [State.latchLref]
@[simp] theorem State.memWf_uncorrectable (n : Nat) : (s.uncorrectable n).memWf ↔ s.memWf := by
  simp [State.uncorrectable]
@[simp] theorem State.memWf_dataCodeword (n : Nat) (sent : List (BitVec 10)) (levels : List (List (Fin 4))) :
    (s.dataCodeword n sent levels).memWf ↔ s.memWf := by
  simp [State.dataCodeword]
@[simp] theorem State.memWf_laneMsg (n : Nat) (m : LaneMsg) : (s.laneMsg n m).memWf ↔ s.memWf := Iff.rfl
@[simp] theorem State.memWf_sendCodewords (n ns : Nat) : (s.sendCodewords n ns).memWf ↔ s.memWf := by
  simp [State.sendCodewords]
@[simp] theorem State.memWf_lanesTick (ns : Nat) : (s.lanesTick ns).memWf ↔ s.memWf := by simp [State.lanesTick]
@[simp] theorem State.memWf_startSwap (n phys : Nat) : (s.startSwap n phys).memWf ↔ s.memWf := by simp [State.startSwap]
@[simp] theorem State.memWf_applyForce (n : Nat) : (s.applyForce n).memWf ↔ s.memWf := by
  unfold State.applyForce
  split <;> simp

/-! ### `Machine/LinkFabric.lean` -/

@[simp] theorem State.memWf_flitAck (n : Nat) (f : Flit) : (s.flitAck n f).memWf ↔ s.memWf := by simp [State.flitAck]
@[simp] theorem State.memWf_markHeld (n : Nat) (held : Bool) : (s.markHeld n held).memWf ↔ s.memWf := by
  simp [State.markHeld]
@[simp] theorem State.memWf_refuseReserved (n : LinkIx) (vc : Fin 8) (b : List Byte) :
    (s.refuseReserved n vc b).memWf ↔ s.memWf := by
  simp [State.refuseReserved]
@[simp] theorem State.memWf_takePayload (n : LinkIx) (vc : Fin 8) (b : List Byte) :
    (s.takePayload n vc b).memWf ↔ s.memWf := by
  simp [State.takePayload]
@[simp] theorem State.memWf_holdLink (n : Nat) : (s.holdLink n).memWf ↔ s.memWf := by simp [State.holdLink]
@[simp] theorem State.memWf_holdTick : s.holdTick.memWf ↔ s.memWf := by simp [State.holdTick]
@[simp] theorem State.memWf_passOn (h : Header) (ty : TxType) (len : Nat) (data : List Byte) :
    (s.passOn h ty len data).memWf ↔ s.memWf := by
  simp [State.passOn]
@[simp] theorem State.memWf_parkTx (ty : TxType) (h : Header) (len : Nat) (data : List Byte) :
    (s.parkTx ty h len data).memWf ↔ s.memWf := by
  simp [State.parkTx]
@[simp] theorem State.memWf_forward (f : Flow) (h : Header) (tile : Nat) (data : List Byte) :
    (s.forward f h tile data).memWf ↔ s.memWf := by
  simp [State.forward]
@[simp] theorem State.memWf_relay (h : Header) (data : List Byte) (g off n : Nat) :
    (s.relay h data g off n).memWf ↔ s.memWf := by
  simp [State.relay]
@[simp] theorem State.memWf_mcastTx (h : Header) (data : List Byte) : (s.mcastTx h data).memWf ↔ s.memWf := by
  simp only [State.mcastTx]
  (repeat' split) <;> simp
@[simp] theorem State.memWf_portPart (p ask seg : Nat) (b : Option (List Byte)) :
    (s.portPart p ask seg b).memWf ↔ s.memWf :=
  Iff.rfl

@[simp] theorem State.memWf_sendEnds (q : LinkReq) : (s.sendEnds q).memWf ↔ s.memWf := by
  unfold State.sendEnds
  split
  · rfl
  split <;> simp [↓State.memWf_ite]

@[simp] theorem State.memWf_sentCount (q : LinkReq) : (s.sentCount q).memWf ↔ s.memWf := by simp [State.sentCount]
@[simp] theorem State.memWf_loseLink (id : Nat) : (s.loseLink id).memWf ↔ s.memWf := by
  unfold State.loseLink
  split <;> simp
@[simp] theorem State.memWf_reqLost (q : LinkReq) : (s.reqLost q).memWf ↔ s.memWf := by
  simp only [State.reqLost]
  (repeat' split) <;> simp
@[simp] theorem State.memWf_flowTimeouts (which : LinkReq → Bool) : (s.flowTimeouts which).memWf ↔ s.memWf := by
  simp [State.flowTimeouts]
@[simp] theorem State.memWf_exposureTick (p : Nat) : (s.exposureTick p).memWf ↔ s.memWf := by
  unfold State.exposureTick
  (repeat' split) <;> simp
@[simp] theorem State.memWf_lfBatch : s.lfBatch.memWf ↔ s.memWf := by
  simp only [State.lfBatch]
  (repeat' split) <;> simp

/-! ### `Machine/Fabric.lean` -/

@[simp] theorem State.memWf_modFab (f : FabricSt → FabricSt) : (s.modFab f).memWf ↔ s.memWf := Iff.rfl
@[simp] theorem State.memWf_setHook (p : Nat) (h : HookSt) : (s.setHook p h).memWf ↔ s.memWf := Iff.rfl
@[simp] theorem State.memWf_endHook (p : Nat) (h : HookSt) : (s.endHook p h).memWf ↔ s.memWf := Iff.rfl
@[simp] theorem State.memWf_hookRetry (h : HookSt) : (s.hookRetry h).memWf ↔ s.memWf := Iff.rfl
@[simp] theorem State.memWf_rowBack (p : Nat) (h : HookSt) (row : List Byte) : (s.rowBack p h row).memWf ↔ s.memWf := by
  simp [State.rowBack]
@[simp] theorem State.memWf_portAnswer (p : Nat) (b : Option (List Byte)) : (s.portAnswer p b).memWf ↔ s.memWf :=
  Iff.rfl

theorem State.memWf_of_portSignal {s t : State} {p : Nat} {k : PackIx} {c rw : Fin 32} {sem : Fin 64}
    {inc : BitVec 16} (h : s.portSignal p k c rw sem inc = some t) : t.memWf ↔ s.memWf := by
  simp only [State.portSignal] at h
  split at h
  · cases h
  split at h
  all_goals
    cases h
    simp

@[simp] theorem State.memWf_stopHooks (p : Nat) : (s.stopHooks p).memWf ↔ s.memWf := by simp [State.stopHooks]
@[simp] theorem State.memWf_latchGpio (g : BitVec 96) : (s.latchGpio g).memWf ↔ s.memWf := Iff.rfl
@[simp] theorem State.memWf_applyIsolate (r : Nat) : (s.applyIsolate r).memWf ↔ s.memWf := by
  unfold State.applyIsolate
  split <;> simp

/-! ### `Machine/Logic.lean` -/

@[simp] theorem State.memWf_cellClock (cell : Nat) (second ce reset d : Bool) :
    (s.cellClock cell second ce reset d).memWf ↔ s.memWf := by
  simp [State.cellClock]
@[simp] theorem State.memWf_cellCarry (cell : Nat) (c : Bool) : (s.cellCarry cell c).memWf ↔ s.memWf := by
  simp [State.cellCarry]
@[simp] theorem State.memWf_ramStore (block w : Nat) (x flips : BitVec 72) :
    (s.ramStore block w x flips).memWf ↔ s.memWf :=
  Iff.rfl
@[simp] theorem State.memWf_ramWrite (block : Nat) (second : Bool) (a d : Nat) :
    (s.ramWrite block second a d).memWf ↔ s.memWf := by
  simp [State.ramWrite]
@[simp] theorem State.memWf_ramRead (block : Nat) (second : Bool) (a : Nat) :
    (s.ramRead block second a).memWf ↔ s.memWf := by
  simp only [State.ramRead]
  (repeat' split) <;> simp
@[simp] theorem State.memWf_ramUpset (block w : Nat) (x : BitVec 72) : (s.ramUpset block w x).memWf ↔ s.memWf := Iff.rfl
@[simp] theorem State.memWf_seamClock (src dst : Nat) (wires : BitVec 1024) :
    (s.seamClock src dst wires).memWf ↔ s.memWf := by
  unfold State.seamClock
  split <;> rfl
@[simp] theorem State.memWf_userEvent (e : UserEvent) : (s.userEvent e).memWf ↔ s.memWf := by
  simp only [State.userEvent]
  split <;> simp
@[simp] theorem State.memWf_cfgWrite (c : CfgWrite) : (s.cfgWrite c).memWf ↔ s.memWf := by
  unfold State.cfgWrite
  split <;> simp

/-! ### `Machine/Dawn.lean` -/

@[simp] theorem State.memWf_modConfig (f : ConfigSt → ConfigSt) : (s.modConfig f).memWf ↔ s.memWf := Iff.rfl
@[simp] theorem State.memWf_modSec (f : SecSt → SecSt) : (s.modSec f).memWf ↔ s.memWf := Iff.rfl
@[simp] theorem State.memWf_fixMeas : s.fixMeas.memWf ↔ s.memWf := Iff.rfl
@[simp] theorem State.memWf_runtimeExtend (c : List Byte) : (s.runtimeExtend c).memWf ↔ s.memWf := Iff.rfl
@[simp] theorem State.memWf_loadImage : s.loadImage.memWf ↔ s.memWf := by simp [State.loadImage]
@[simp] theorem State.memWf_dawnMuzzle : s.dawnMuzzle.memWf ↔ s.memWf := by simp [State.dawnMuzzle]
@[simp] theorem State.memWf_dawnBanks : s.dawnBanks.memWf ↔ s.memWf := Iff.rfl
@[simp] theorem State.memWf_mcStarts : s.mcStarts.memWf ↔ s.memWf := Iff.rfl
@[simp] theorem State.memWf_frameLost (f : FrameAt) : (s.frameLost f).memWf ↔ s.memWf := by
  unfold State.frameLost
  split <;> simp
@[simp] theorem State.memWf_nwPass : s.nwPass.memWf ↔ s.memWf := Iff.rfl
@[simp] theorem State.memWf_plFails (result : BitVec 4) : (s.plFails result).memWf ↔ s.memWf := Iff.rfl
@[simp] theorem State.memWf_plTick : s.plTick.memWf ↔ s.memWf := by
  simp only [State.plTick]
  (repeat' split) <;> simp
@[simp] theorem State.memWf_stagingLost (l : PartialLoad) : (s.stagingLost l).memWf ↔ s.memWf := by
  simp [State.stagingLost]
@[simp] theorem State.memWf_stalledRegion (r : RegionIx) : (s.stalledRegion r).memWf ↔ s.memWf := by
  simp only [State.stalledRegion]
  split <;> simp [↓State.memWf_ite]
@[simp] theorem State.memWf_dusk (grace : Nat) (thenReset : Bool) : (s.dusk grace thenReset).memWf ↔ s.memWf := by
  simp [State.dusk]
@[simp] theorem State.memWf_duskStop : s.duskStop.memWf ↔ s.memWf := by simp [State.duskStop]

/-! ### `Machine/Security.lean` -/

@[simp] theorem State.memWf_modUpd (f : UpdSt → UpdSt) : (s.modUpd f).memWf ↔ s.memWf := Iff.rfl
@[simp] theorem State.memWf_modRcv (f : UpdSt → UpdSt) : (s.modRcv f).memWf ↔ s.memWf := Iff.rfl
@[simp] theorem State.memWf_nvBroken (kind : Nat) : (s.nvBroken kind).memWf ↔ s.memWf := Iff.rfl
@[simp] theorem execSecUpdGo_memWf (kind : BitVec 2) : Result.memWf (execSecUpdGo kind s) ↔ s.memWf := by
  simp only [execSecUpdGo, Result.memWf_next]
  (repeat' split) <;> simp
@[simp] theorem State.memWf_nvStore (kind : Nat) (b : List Byte) : (s.nvStore kind b).memWf ↔ s.memWf := Iff.rfl
@[simp] theorem State.memWf_updTick : s.updTick.memWf ↔ s.memWf := by
  unfold State.updTick
  split <;> simp
@[simp] theorem execSecSvnCommit_memWf : Result.memWf (execSecSvnCommit s) ↔ s.memWf := by simp [execSecSvnCommit]
@[simp] theorem State.memWf_debugNew : s.debugNew.memWf ↔ s.memWf := Iff.rfl
@[simp] theorem State.memWf_debugSubmit : s.debugSubmit.memWf ↔ s.memWf := by simp [State.debugSubmit]
@[simp] theorem State.memWf_spdm (a : SpdmAnswer) : (s.spdm a).memWf ↔ s.memWf := Iff.rfl
@[simp] theorem State.memWf_drainMctp : s.drainMctp.memWf ↔ s.memWf := Iff.rfl
@[simp] theorem State.memWf_jtag (i : JtagInstr) (out : BitVec 96) : (s.jtag i out).memWf ↔ s.memWf := Iff.rfl
@[simp] theorem State.memWf_extest (i : JtagInstr) : (s.extest i).memWf ↔ s.memWf := by simp [State.extest]

/-! ### `Machine/Telemetry.lean` -/

@[simp] theorem State.memWf_modTel (f : Telemetry → Telemetry) : (s.modTel f).memWf ↔ s.memWf := Iff.rfl
@[simp] theorem State.memWf_modPath (p : Path) (f : PathSt → PathSt) : (s.modPath p f).memWf ↔ s.memWf := Iff.rfl
@[simp] theorem State.memWf_fill (p : Path) : (s.fill p).memWf ↔ s.memWf := Iff.rfl
@[simp] theorem State.memWf_useToken (p : Path) : (s.useToken p).memWf ↔ s.memWf := Iff.rfl
@[simp] theorem State.memWf_sampleRecord (x : Sample) : (s.sampleRecord x).2.memWf ↔ s.memWf := Iff.rfl
@[simp] theorem State.memWf_coalesceNow (p : Path) (l : List TelEvent) : (s.coalesceNow p l).memWf ↔ s.memWf := by
  simp [State.coalesceNow]
@[simp] theorem State.memWf_cntTick : s.cntTick.memWf ↔ s.memWf := by simp [State.cntTick]

/-! ### `Machine/Commit.lean` -/

@[simp] theorem State.memWf_modCommits (f : Commits → Commits) : (s.modCommits f).memWf ↔ s.memWf := Iff.rfl
@[simp] theorem State.memWf_commitAsk (mask : Word) : (s.commitAsk mask).memWf ↔ s.memWf := by simp [State.commitAsk]
@[simp] theorem State.memWf_discardAsk (mask : Word) : (s.discardAsk mask).memWf ↔ s.memWf := Iff.rfl
@[simp] theorem State.memWf_vfCommitAsk (f : Nat) : (s.vfCommitAsk f).memWf ↔ s.memWf := Iff.rfl
@[simp] theorem State.memWf_vfDiscardAsk (f : Nat) : (s.vfDiscardAsk f).memWf ↔ s.memWf := Iff.rfl
@[simp] theorem State.memWf_viewed (gs : List Nat) (f : Nat) : (s.viewed gs f).memWf ↔ s.memWf := by simp [State.viewed]
@[simp] theorem State.memWf_sqStart (f r : Nat) : (s.sqStart f r).memWf ↔ s.memWf := Iff.rfl
@[simp] theorem State.memWf_cqStart (f r : Nat) : (s.cqStart f r).memWf ↔ s.memWf := Iff.rfl
@[simp] theorem State.memWf_afterG1 (old : State) (f : Nat) : (State.afterG1 old s f).memWf ↔ s.memWf := by
  simp [State.afterG1, ↓State.memWf_ite]
@[simp] theorem State.memWf_cueChanged (c : CueIx) : (s.cueChanged c).memWf ↔ s.memWf := by simp [State.cueChanged]
@[simp] theorem State.memWf_afterG0 (old : State) : (State.afterG0 old s).memWf ↔ s.memWf := by
  simp [State.afterG0, ↓State.memWf_ite]
@[simp] theorem State.memWf_afterG4 (old : State) : (State.afterG4 old s).memWf ↔ s.memWf := by
  simp [State.afterG4, ↓State.memWf_ite]
@[simp] theorem State.memWf_afterG6 (old : State) : (State.afterG6 old s).memWf ↔ s.memWf := by
  simp [State.afterG6]
@[simp] theorem State.memWf_applyGroups (gs : List Nat) (f : Nat) : (s.applyGroups gs f).memWf ↔ s.memWf := by
  simp [State.applyGroups, ↓State.memWf_ite]
@[simp] theorem State.memWf_noteApplied : s.noteApplied.memWf ↔ s.memWf := Iff.rfl
@[simp] theorem State.memWf_noteRefused : s.noteRefused.memWf ↔ s.memWf := Iff.rfl
@[simp] theorem State.memWf_takeG5 : s.takeG5.memWf ↔ s.memWf := by simp [State.takeG5]

@[simp] theorem State.memWf_takePf : s.takePf.memWf ↔ s.memWf := by
  simp only [State.takePf]
  split
  · rfl
  split <;> simp [↓State.memWf_ite]

@[simp] theorem State.memWf_takeVf (f : Nat) : (s.takeVf f).memWf ↔ s.memWf := by
  simp only [State.takeVf]
  split
  · rfl
  split <;> simp

@[simp] theorem State.memWf_discardGroup (g f : Nat) : (s.discardGroup g f).memWf ↔ s.memWf := by
  simp [State.discardGroup]
@[simp] theorem State.memWf_discards : s.discards.memWf ↔ s.memWf := by simp [State.discards]
@[simp] theorem State.memWf_commits1 : s.commits1.memWf ↔ s.memWf := by
  simp [State.commits1, ↓State.memWf_ite]
@[simp] theorem State.memWf_commits2 : s.commits2.memWf ↔ s.memWf := by
  simp [State.commits2, ↓State.memWf_ite]
@[simp] theorem State.memWf_dropCommits (f : Nat) : (s.dropCommits f).memWf ↔ s.memWf := by simp [State.dropCommits]

/-! ### `Machine/Dispatching.lean` -/

@[simp] theorem State.memWf_seedTiles (p : Nat) (d : Desc) : (s.seedTiles p d).memWf ↔ s.memWf := by
  simp [State.seedTiles]
@[simp] theorem State.memWf_wakePack (p : Nat) : (s.wakePack p).memWf ↔ s.memWf := by simp [State.wakePack]
@[simp] theorem State.memWf_setLoading (p : Nat) (l : Option Loading) : (s.setLoading p l).memWf ↔ s.memWf := Iff.rfl
@[simp] theorem State.memWf_imageFails (p : Nat) (d : Desc) : (s.imageFails p d).memWf ↔ s.memWf := Iff.rfl
@[simp] theorem State.memWf_semsDone (p : Nat) (d : Desc) (l : Loading) : (s.semsDone p d l).memWf ↔ s.memWf := by
  simp [State.semsDone]
@[simp] theorem State.memWf_swapDue (w : TableDue) : (s.swapDue w).memWf ↔ s.memWf := by simp [State.swapDue]
@[simp] theorem State.memWf_swapTables (p : Nat) : (s.swapTables p).memWf ↔ s.memWf := by simp [State.swapTables]

/-! ### `Machine/Sync.lean` -/

@[simp] theorem State.memWf_sigx (c : Issuing) (sem : Nat) (via : Bool) (inc col row flow : Nat) :
    (s.sigx c sem via inc col row flow).memWf ↔ s.memWf := by
  simp [State.sigx]
@[simp] theorem State.memWf_barrier (c : Issuing) (num mask : Nat) : (s.barrier c num mask).memWf ↔ s.memWf := by
  simp [State.barrier]
@[simp] theorem State.memWf_logTimeout (ix : Nat) : (s.logTimeout ix).memWf ↔ s.memWf := Iff.rfl

/-! ### `Machine/Network.lean` -/

@[simp] theorem State.memWf_waitOn (x : Inbound) : (s.waitOn x).memWf ↔ s.memWf := Iff.rfl
@[simp] theorem State.memWf_losePiece (tile : TileId) (ci n : Nat) : (s.losePiece tile ci n).memWf ↔ s.memWf := Iff.rfl
@[simp] theorem State.memWf_packetEnds (owner : Option Nat) : (s.packetEnds owner).memWf ↔ s.memWf := by
  unfold State.packetEnds
  split <;> simp
@[simp] theorem State.memWf_dropPacket (load : NetLoad) : (s.dropPacket load).memWf ↔ s.memWf := by
  unfold State.dropPacket
  (repeat' split) <;> simp
@[simp] theorem State.memWf_countRetries (stop : NetStop) (n : Nat) : (s.countRetries stop n).memWf ↔ s.memWf := by
  unfold State.countRetries
  split <;> simp
@[simp] theorem State.memWf_packWakes (p : Nat) : (s.packWakes p).memWf ↔ s.memWf := by simp [State.packWakes]

/-! ### `Machine/Registers.lean` -/

@[simp] theorem State.memWf_read32 (a : Nat) : (s.read32 a).2.memWf ↔ s.memWf := by
  unfold State.read32
  (repeat' split) <;> simp
@[simp] theorem State.memWf_readAt (fn : Fn) (off : Nat) : (s.readAt fn off).2.memWf ↔ s.memWf := by
  unfold State.readAt
  (repeat' split) <;> simp
@[simp] theorem State.memWf_readBar (fn : Fn) (off width : Nat) : (s.readBar fn off width).memWf ↔ s.memWf := by
  simp [State.readBar]
@[simp] theorem State.memWf_writeMzCtrl (fn : Fn) (x : Nat) : (s.writeMzCtrl fn x).memWf ↔ s.memWf := by
  unfold State.writeMzCtrl
  split <;> simp
@[simp] theorem State.memWf_writeCommit (o : Nat) (w : Wr) : (s.writeCommit o w).memWf ↔ s.memWf := by
  simp [State.writeCommit]
@[simp] theorem State.memWf_writeTick (o : Nat) (w : Wr) : (s.writeTick o w).memWf ↔ s.memWf := by
  simp [State.writeTick]
@[simp] theorem State.memWf_writeWindow (fn : Fn) (o : Nat) (w : Wr) : (s.writeWindow fn o w).memWf ↔ s.memWf := by
  simp [State.writeWindow]
@[simp] theorem State.memWf_writeKnlCmd (x : Nat) : (s.writeKnlCmd x).memWf ↔ s.memWf := by
  unfold State.writeKnlCmd
  split <;> simp
@[simp] theorem State.memWf_modFaultRegs (f : FaultRegs → FaultRegs) : (s.modFaultRegs f).memWf ↔ s.memWf := Iff.rfl
@[simp] theorem State.memWf_writePack (o : Nat) (w : Wr) : (s.writePack o w).memWf ↔ s.memWf := by
  simp [State.writePack]
@[simp] theorem State.memWf_writeNum (o : Nat) (w : Wr) : (s.writeNum o w).memWf ↔ s.memWf := by simp [State.writeNum]
@[simp] theorem State.memWf_writeRtv (o : Nat) (w : Wr) : (s.writeRtv o w).memWf ↔ s.memWf := by simp [State.writeRtv]
@[simp] theorem State.memWf_writeHbm (o : Nat) (w : Wr) : (s.writeHbm o w).memWf ↔ s.memWf := by
  simp [State.writeHbm, ↓State.memWf_ite]
@[simp] theorem State.memWf_writeLink (n : LinkIx) (o : Nat) (w : Wr) : (s.writeLink n o w).memWf ↔ s.memWf := by
  simp [State.writeLink, Result.after, execLnkCfgWrite, execForce, ↓State.memWf_ite]
@[simp] theorem State.memWf_writeLf (o : Nat) (w : Wr) : (s.writeLf o w).memWf ↔ s.memWf := by simp [State.writeLf]
@[simp] theorem State.memWf_writeFab (o : Nat) (w : Wr) : (s.writeFab o w).memWf ↔ s.memWf := by simp [State.writeFab]
@[simp] theorem State.memWf_writeDusk (x : Nat) : (s.writeDusk x).memWf ↔ s.memWf := by
  unfold State.writeDusk
  split <;> simp
@[simp] theorem State.memWf_writeNwCtrl (w : Wr) : (s.writeNwCtrl w).memWf ↔ s.memWf := by simp [State.writeNwCtrl]
@[simp] theorem State.memWf_writeCfg (o : Nat) (w : Wr) : (s.writeCfg o w).memWf ↔ s.memWf := by
  simp [State.writeCfg, Result.after, execPartialLoadGo, ↓State.memWf_ite]
@[simp] theorem State.memWf_writeLeash (o : Nat) (w : Wr) : (s.writeLeash o w).memWf ↔ s.memWf := by
  simp [State.writeLeash]
@[simp] theorem State.memWf_writeTelReg (o : Nat) (w : Wr) : (s.writeTelReg o w).memWf ↔ s.memWf := by
  simp [State.writeTelReg]
@[simp] theorem State.memWf_modCounter (i : Nat) (f : Counter → Counter) : (s.modCounter i f).memWf ↔ s.memWf := Iff.rfl
@[simp] theorem State.memWf_writeCnt (o : Nat) (w : Wr) : (s.writeCnt o w).memWf ↔ s.memWf := by simp [State.writeCnt]
@[simp] theorem State.memWf_writeCrc (o : Nat) (w : Wr) : (s.writeCrc o w).memWf ↔ s.memWf := by simp [State.writeCrc]
@[simp] theorem State.memWf_writeStaged (g a : Nat) (w : Wr) : (s.writeStaged g a w).memWf ↔ s.memWf := by
  simp [State.writeStaged]

/-! ### `Machine/Tick.lean` -/

@[simp] theorem State.memWf_newEdge : s.newEdge.memWf ↔ s.memWf := Iff.rfl
@[simp] theorem State.memWf_applyWrites : s.applyWrites.memWf ↔ s.memWf := by simp [State.applyWrites]
@[simp] theorem State.memWf_cadenceSet (d : Desc) : (s.cadenceSet d).memWf ↔ s.memWf := by simp [State.cadenceSet]
@[simp] theorem State.memWf_class3 : s.class3.memWf ↔ s.memWf := by simp [State.class3]
@[simp] theorem State.memWf_retire1 (id : Nat) : (s.retire1 id).memWf ↔ s.memWf := by
  unfold State.retire1
  split <;> simp
@[simp] theorem State.memWf_sampleEnd (p : Nat) (f : FaultEv) : (s.sampleEnd p f).memWf ↔ s.memWf := by
  simp [State.sampleEnd]
@[simp] theorem State.memWf_atQuiescent (p : Nat) : (s.atQuiescent p).memWf ↔ s.memWf := by simp [State.atQuiescent]
@[simp] theorem State.memWf_sendPosition : s.sendPosition.memWf ↔ s.memWf := by simp [State.sendPosition]

end Sys2Proof.Machine
end

section
/-! SUPPORT. What writes to a memory keeps: tables and memories first, then HBM's own updates. -/
namespace Sys2Proof.Machine
open Sys2Proof

/-- A filter leaves the rest of a rising table rising. -/
theorem Table.rising_filter {α : Type} (p : Nat × α → Bool) (t : Table α) (m : Option Nat)
    (h : Table.rising m t = true) : Table.rising m (t.filter p) = true := by
  induction t generalizing m with
  | nil => exact h
  | cons e t ih =>
    have hr : Table.rising (some e.1) t = true := by
      cases m <;> simp only [Table.rising, Bool.and_eq_true] at h
      · exact h
      · exact h.2
    rw [List.filter_cons]
    split
    · have := ih _ hr
      cases m <;> simp only [Table.rising, Bool.and_eq_true, this, and_true] at h ⊢
      exact h.1
    · refine ih m (Table.rising_of_lt _ _ _ (fun x hx => ?_) hr)
      subst hx
      simp only [Table.rising, Bool.and_eq_true, decide_eq_true_eq] at h
      exact h.1.le

theorem Memory.wf_filter (p : Nat × Byte → Bool) (m : Memory) (h : m.wf = true) : Memory.wf (m.filter p) = true := by
  simp only [Table.wf, Bool.and_eq_true, List.all_eq_true] at h ⊢
  exact ⟨Table.rising_filter p m none h.1, fun e he => h.2 e (List.mem_of_mem_filter he)⟩

/-- Single writes, one after another. -/
theorem Memory.wf_foldl {α : Type} (f : Memory → α → Memory) (l : List α) (m : Memory)
    (hf : ∀ m x, m.wf = true → (f m x).wf = true) (h : m.wf = true) : (l.foldl f m).wf = true := by
  induction l generalizing m with
  | nil => exact h
  | cons x l ih => exact ih _ (hf m x h)

theorem State.memWf.foldl {s : State} {α : Type} {f : State → α → State} (h : s.memWf) (l : List α)
    (hf : ∀ s x, s.memWf → (f s x).memWf) : (l.foldl f s).memWf := by
  induction l generalizing s with
  | nil => exact h
  | cons x l ih => exact ih (hf s x h)

theorem State.memWf.foldl_snd {α β : Type} {f : β × State → α → β × State} {a : β × State} (h : a.2.memWf)
    (l : List α) (hf : ∀ a x, a.2.memWf → (f a x).2.memWf) : (l.foldl f a).2.memWf := by
  induction l generalizing a with
  | nil => exact h
  | cons x l ih => exact ih (hf a x h)

theorem State.memWf.foldl_fst {α β : Type} {f : State × β → α → State × β} {a : State × β} (h : a.1.memWf)
    (l : List α) (hf : ∀ a x, a.1.memWf → (f a x).1.memWf) : (l.foldl f a).1.memWf := by
  induction l generalizing a with
  | nil => exact h
  | cons x l ih => exact ih (hf a x h)

/-- The state in a pair that a reading operation answers. -/
theorem State.memWf.of_eq {α : Type} {r : α × State} {x : α} {t : State} (h : r.2.memWf) (e : r = (x, t)) :
    t.memWf := by
  subst e; exact h

theorem Hbm.parExact_data (h : Hbm) (c : CellId) : (h.parExact c).data = h.data := rfl

theorem Hbm.foldl_parExact_data (h : Hbm) (l : List CellId) : (l.foldl Hbm.parExact h).data = h.data := by
  induction l generalizing h with
  | nil => rfl
  | cons c l ih => exact ih (h.parExact c)

theorem Hbm.rebuilt_wf (h : Hbm) (c : CellId) (hw : h.data.wf = true) : (h.rebuilt c).data.wf = true := by
  unfold Hbm.rebuilt
  rw [Hbm.parExact_data]
  dsimp only
  split
  · exact hw
  · exact Memory.wf_foldl _ _ _ (fun m e => Memory.wf_writeByte m _ _) hw

theorem Hbm.escaped_wf (h : Hbm) (c : CellId) (y : Nat) (hw : h.data.wf = true) : (h.escaped c y).data.wf = true := by
  unfold Hbm.escaped
  induction List.range 32 generalizing h with
  | nil => exact hw
  | cons i l ih =>
    refine ih _ ?_
    dsimp only
    split
    · exact hw
    · exact Memory.wf_writeByte _ _ _ hw

theorem Memory.wf_nil : Memory.wf [] = true := rfl

end Sys2Proof.Machine
end

section
/-! SUPPORT. The operations that may write to host memory or HBM keep both canonical, and so does every command: in the
order of the model's files. -/
namespace Sys2Proof.Machine
open Sys2Proof

section
variable {s : State} (h : s.memWf)
include h

/-! ### `Machine/Ops.lean` -/

@[simp] theorem State.memWf.hostWrite (a : Nat) (b : List Byte) : (s.hostWrite a b).memWf :=
  ⟨Memory.wf_writeBytes _ _ _ h.1, h.2⟩
@[simp] theorem State.memWf.hostWriteAs (fn a : Nat) (b : List Byte) : (s.hostWriteAs fn a b).memWf := h.hostWrite a b
@[simp] theorem State.memWf.msixWrite (f v : Nat) : (s.msixWrite f v).memWf := by simp [State.msixWrite, h]
@[simp] theorem State.memWf.msixSend (f v : Nat) : (s.msixSend f v).memWf := by simp [State.msixSend, h]

/-! ### `Machine/Cues.lean` -/

@[simp] theorem execCueAction_memWf (c : CueIx) : Result.memWf (execCueAction c s) := by
  simp only [execCueAction]
  split <;> simp [↓State.memWf_ite, h]
@[simp] theorem execCuePulseEnd_memWf (c : CueIx) : Result.memWf (execCuePulseEnd c s) := by
  simp only [execCuePulseEnd]
  split <;> simp [↓State.memWf_ite, h]

/-! ### `Machine/Cadence.lean` -/

@[simp] theorem execTimecodeFrame_memWf (t : Nat) (bits : BitVec 96) (preambleOk : Bool) :
    Result.memWf (execTimecodeFrame t bits preambleOk s) := by
  simp [execTimecodeFrame, h]
@[simp] theorem execEncoderTransition_memWf (t : Nat) (aLeads : Bool) :
    Result.memWf (execEncoderTransition t aLeads s) := by
  simp [execEncoderTransition, h]
@[simp] theorem execEncoderIndex_memWf (t : Nat) : Result.memWf (execEncoderIndex t s) := by simp [execEncoderIndex, h]
@[simp] theorem execCycInEdge_memWf (t : Nat) (rising : Bool) (width : Nat) :
    Result.memWf (execCycInEdge t rising width s) := by
  simp [execCycInEdge, h]
@[simp] theorem execCoasting_memWf : Result.memWf (execCoasting s) := by simp [execCoasting, h]
@[simp] theorem execLoss_memWf : Result.memWf (execLoss s) := by simp [execLoss, h]
@[simp] theorem execJumpBack_memWf : Result.memWf (execJumpBack s) := by simp [execJumpBack, h]
@[simp] theorem execJumpFwd_memWf : Result.memWf (execJumpFwd s) := by simp [execJumpFwd, h]
@[simp] theorem execCadStatusClear_memWf (w : Word) : Result.memWf (execCadStatusClear w s) := by
  simp [execCadStatusClear, h]
@[simp] theorem execLatencyProbe_memWf (t : Nat) : Result.memWf (execLatencyProbe t s) := by simp [execLatencyProbe, h]
@[simp] theorem execProbeEcho_memWf (t sent : Nat) (src : BitVec 14) : Result.memWf (execProbeEcho t sent src s) := by
  simp [execProbeEcho, h]
@[simp] theorem execHardDeadline_memWf (id : Nat) : Result.memWf (execHardDeadline id s) := by
  simp [execHardDeadline, h]

/-! ### `Machine/Muzzle.lean` -/

@[simp] theorem execMuzzleEnter_memWf (fn : Fn) (scope : BitVec 2) (index : BitVec 6) :
    Result.memWf (execMuzzleEnter fn scope index s) := by
  simp [execMuzzleEnter, h]
@[simp] theorem execMuzzleRelease_memWf (fn : Fn) (scope : BitVec 2) (index : BitVec 6) :
    Result.memWf (execMuzzleRelease fn scope index s) := by
  simp [execMuzzleRelease, h]
@[simp] theorem execMuzzleReleaseApply_memWf (scope : BitVec 2) (index : BitVec 6) :
    Result.memWf (execMuzzleReleaseApply scope index s) := by
  simp only [execMuzzleReleaseApply, Result.memWf_next]
  split <;> simp [h]
@[simp] theorem execHubParityError_memWf : Result.memWf (execHubParityError s) := by simp [execHubParityError, h]
@[simp] theorem execReservedStructureReinit_memWf : Result.memWf (execReservedStructureReinit s) := by
  simp [execReservedStructureReinit, h]

/-! ### `Machine/Hbm.lean` -/

theorem State.memWf.modHbm {f : Hbm → Hbm} (hf : ∀ m : Hbm, m.data.wf = true → (f m).data.wf = true) :
    (s.modHbm f).memWf :=
  ⟨h.1, hf _ h.2⟩

@[simp] theorem State.memWf.decodeCell (c : CellId) : (s.decodeCell c).2.memWf := by
  unfold State.decodeCell
  split
  · exact h
  extract_lets s1
  have h1 : s1.memWf := (State.memWf_countEv ..).mpr h
  split
  · exact h1
  · simpa using h1
  · simpa using h1
  · have h2 : (s1.draw.2).memWf := by simpa using h1
    split
    next x s2 e =>
    have h3 : s2.memWf := h2.of_eq e
    split
    · simpa using h3
    · exact State.memWf.modHbm (by simpa using h3) fun m => Hbm.escaped_wf m c _

@[simp] theorem State.memWf.rebuild (c : CellId) : (s.rebuild c).2.memWf := by
  unfold State.rebuild
  extract_lets u others
  split
  next ok s1 e =>
  have h1 : s1.memWf := by
    refine State.memWf.of_eq (State.memWf.foldl_snd (a := (true, s)) h others fun a p ha => ?_) e
    exact ha.decodeCell _
  split
  · extract_lets s2 s3
    have h2 : s2.memWf := (State.memWf_countEv ..).mpr h1
    split
    · exact h2
    · have h3 : s3.memWf := (State.memWf_modStack ..).mpr
        (State.memWf.modHbm (by simpa using h2) fun m => Hbm.rebuilt_wf m c)
      simpa using h3
  · simpa using h1

@[simp] theorem State.memWf.readCell (c : CellId) : (s.readCell c).2.memWf := by
  unfold State.readCell
  split
  · exact h.rebuild c
  split
  next e => exact (h.decodeCell c).of_eq e
  next e => exact ((h.decodeCell c).of_eq e).rebuild c

@[simp] theorem State.memWf.readCells (l : List CellId) : (s.readCells l).2.memWf :=
  State.memWf.foldl_snd (a := (true, s)) h l fun _ c ha => ha.readCell c

@[simp] theorem State.memWf.checkSpan (a n : Nat) : (s.checkSpan a n).2.memWf :=
  State.memWf.foldl_snd (a := (true, s)) h _ fun acc b ha => by
    extract_lets lo l c s1
    have h1 : s1.memWf := (State.memWf_touchStack ..).mpr ha
    split
    · exact h1
    · split
      · exact h1
      · exact h1.readCell c

@[simp] theorem State.memWf.flushBuf (b : WcBuf) : (s.flushBuf b).memWf := by
  unfold State.flushBuf
  extract_lets lost cols cell anew put
  split
  next ok s1 e =>
  have h1 : s1.memWf := (h.readCells _).of_eq e
  split
  · extract_lets s2 s3
    have h2 : s2.memWf := h1.modHbm fun m hm => by
      rw [← List.foldl_map (f := fun col => cell col 5) (g := Hbm.parExact), Hbm.foldl_parExact_data]
      exact Memory.wf_foldl _ _ _ (fun m x => Memory.wf_writeByte m _ _) hm
    have h3 : s3.memWf := (State.memWf_countEv ..).mpr h2
    refine h3.foldl _ fun s p hs => ?_
    simpa [put, ↓State.memWf_ite] using hs
  · extract_lets addrs
    split <;> simpa using h1

@[simp] theorem State.memWf.flushOldest (g : Nat) : (s.flushOldest g).memWf := by
  unfold State.flushOldest
  split
  · exact h
  · exact State.memWf.flushBuf ((State.memWf_setBufs ..).mpr h) _

@[simp] theorem State.memWf.bufferSpan (l : Nat) (data : List Byte) (writers : List Nat) :
    (s.bufferSpan l data writers).memWf := by
  unfold State.bufferSpan
  extract_lets st g add room s1 s2
  have hr : room.memWf := by
    dsimp only [room]
    split
    · exact h.flushOldest g
    · exact h
  have h1 : s1.memWf := by
    dsimp only [s1]
    split
    · exact h
    · exact (State.memWf_setBufs ..).mpr hr
  have h2 : s2.memWf := (State.memWf_setBufs ..).mpr h1
  split
  · exact State.memWf.flushBuf ((State.memWf_setBufs ..).mpr h2) _
  · exact h2

@[simp] theorem State.memWf.hbmWrite (writers : List Nat) (a : Nat) (data : List Byte) :
    (s.hbmWrite writers a data).memWf :=
  h.foldl _ fun _ _ hs => State.memWf.bufferSpan ((State.memWf_touchStack ..).mpr hs) _ _ _

@[simp] theorem State.memWf.hbmRead (owners : List Nat) (a n : Nat) : (s.hbmRead owners a n).2.memWf := by
  unfold State.hbmRead
  split
  · exact h
  split
  next e => exact (h.checkSpan a n).of_eq e
  next e => simpa using (h.checkSpan a n).of_eq e

@[simp] theorem State.memWf.swapRetired (r : RetireSt) : (s.swapRetired r).memWf := by
  unfold State.swapRetired
  extract_lets old new inside odd differs kept late clear fresh s1
  have copied (es : List (Nat × Byte)) (m : Hbm) (hm : m.data.wf = true) :
      (es.foldl Hbm.copyByte m).data.wf = true := by
    induction es generalizing m with
    | nil => exact hm
    | cons e es ih => exact ih _ (by rw [Hbm.copyByte_data]; exact Memory.wf_writeByte _ _ _ hm)
  exact h.modHbm (f := fun _ => _) fun m hm => copied _ _ (Memory.wf_filter _ _ h.2)

@[simp] theorem State.memWf.swapRetirements : s.swapRetirements.memWf := h.foldl _ fun _ r hs => hs.swapRetired r
@[simp] theorem State.memWf.flushAll : s.flushAll.memWf :=
  State.memWf.foldl (by simpa using h) _ fun _ b hs => hs.flushBuf b

@[simp] theorem State.memWf.flushExpired : s.flushExpired.memWf := by
  unfold State.flushExpired
  split
  · exact h
  · exact State.memWf.foldl (by simpa using h) _ fun _ b hs => hs.flushBuf b

@[simp] theorem State.memWf.serveHbm (q : HbmReq) : (s.serveHbm q).memWf := by
  unfold State.serveHbm
  split
  · exact h.hbmRead ..
  · exact h.hbmWrite ..

@[simp] theorem State.memWf.askHbm (q : HbmReq) : (s.askHbm q).memWf := by
  unfold State.askHbm
  split
  · simpa using h
  · exact h.serveHbm q

@[simp] theorem execHbmRead_memWf (a : BitVec 40) (reader : Option Nat) (errs : List UnitErr) :
    Result.memWf (execHbmRead a reader errs s) := by
  simp only [execHbmRead]
  split <;> simp [h]
@[simp] theorem execHbmWrite_memWf (a : BitVec 40) (data : List Byte) (writer : Option Nat) (errs : List UnitErr) :
    Result.memWf (execHbmWrite a data writer errs s) := by
  simp only [execHbmWrite]
  split <;> simp [h]
@[simp] theorem execWcBufferFlush_memWf (grp : Fin 2) (errs : List UnitErr) :
    Result.memWf (execWcBufferFlush grp errs s) := by
  simp only [execWcBufferFlush, Result.memWf_next]
  split <;> simp [h]

@[simp] theorem State.memWf.patrolUnit (u : UnitId) : (s.patrolUnit u).2.memWf := by
  unfold State.patrolUnit
  split
  · exact h
  refine State.memWf.foldl_snd (a := (true, s)) h _ fun acc c ha => ?_
  have hd := ha.decodeCell c
  split
  next e => exact hd.of_eq e
  next u e =>
    have hr := (hd.of_eq e).rebuild c
    dsimp only
    split
    · exact hr
    · simpa using hr

@[simp] theorem execPatrolRead_memWf (grp : Fin 2) (stripe : Nat) (errs : List UnitErr) :
    Result.memWf (execPatrolRead grp stripe errs s) := by
  rw [execPatrolRead, Result.memWf_next]
  extract_lets six st s1 s2
  split
  · exact h
  split
  next all u e =>
  have hu : u.memWf := by
    have h2 : s2.memWf := by simpa [s2, s1] using h
    refine State.memWf.of_eq (State.memWf.foldl_snd (a := (true, s2)) h2 _ fun acc p ha => ?_) e
    exact ha.patrolUnit _
  simp [↓State.memWf_ite, hu]

@[simp] theorem execHbmRetireCmd_memWf (frame : BitVec 23) : Result.memWf (execHbmRetireCmd frame s) := by
  simp [execHbmRetireCmd, h]
@[simp] theorem execRetirementCopyDone_memWf : Result.memWf (execRetirementCopyDone s) := by
  simp only [execRetirementCopyDone, Result.memWf_next]
  split <;> simp [↓State.memWf_ite, h]
@[simp] theorem execPseudoChannelFailed_memWf (stack : StackIx) (pc : Fin 32) :
    Result.memWf (execPseudoChannelFailed stack pc s) := by
  simp [execPseudoChannelFailed, h]
@[simp] theorem execStackFailed_memWf (stack : StackIx) : Result.memWf (execStackFailed stack s) := by
  simp [execStackFailed, h]
@[simp] theorem execSelfRefreshEntry_memWf (stack : StackIx) : Result.memWf (execSelfRefreshEntry stack s) := by
  simp [execSelfRefreshEntry, h]
@[simp] theorem execFreqChangeDrained_memWf : Result.memWf (execFreqChangeDrained s) := by
  simp only [execFreqChangeDrained, Result.memWf_next]
  (repeat' split) <;> simp [h]
@[simp] theorem execFreqChangeLocked_memWf : Result.memWf (execFreqChangeLocked s) := by simp [execFreqChangeLocked, h]
@[simp] theorem State.memWf.releaseHbm : s.releaseHbm.memWf :=
  State.memWf.foldl (by simpa using h) _ fun _ q hs => hs.serveHbm q
@[simp] theorem execHbmTransactionTimeout_memWf (a : BitVec 40) (owner : Option Nat) :
    Result.memWf (execHbmTransactionTimeout a owner s) := by
  simp only [execHbmTransactionTimeout]
  split <;> simp [h]

/-! ### `Machine/Paging.lean` -/

@[simp] theorem execPgBatchGo_memWf : Result.memWf (execPgBatchGo s) := by simp [execPgBatchGo, h]

@[simp] theorem State.memWf.readSegs (owners : List Nat) (peer : List Byte) (l : List Seg) :
    (s.readSegs owners peer l).2.memWf := by
  induction l generalizing s peer with
  | nil => exact h
  | cons g gs ih =>
    unfold State.readSegs
    split
    next r rest u e =>
    have hu : u.memWf := by
      split at e
      · have hr := h.hbmRead owners
        split at e <;> (cases e; next e1 => exact (hr _ _).of_eq e1)
      · split at e <;> (cases e; exact h)
      · cases e; exact h
    split
    · split
      next e => exact (ih hu rest).of_eq e
      · exact ih hu rest
    · exact hu

@[simp] theorem State.memWf.readVa (d : Desc) (va n : Nat) : (s.readVa d va n).2.memWf := by
  unfold State.readVa
  split
  · exact h
  · extract_lets l s1 peer
    have h1 : s1.memWf := by simpa [s1] using h
    split
    · simpa using h1
    split
    · exact h1
    · exact State.memWf.readSegs (by simpa using h1) _ _ _

@[simp] theorem State.memWf.faultRecord (d : Desc) (t : TileId) (ctx : Nat) (f : PgFault) (chunk : Nat) :
    (s.faultRecord d t ctx f chunk).memWf := by
  simp [State.faultRecord, h]

@[simp] theorem State.memWf.bar2Serve (write : Bool) (data : List Byte) (len : Nat) (gs : List Seg) :
    (s.bar2Serve write data len gs).memWf := by
  unfold State.bar2Serve
  split
  · refine (State.memWf_netWrites ..).mpr (State.memWf.foldl_fst (a := (s, data)) h gs fun acc g ha => ?_)
    split
    · exact ha.hbmWrite ..
    · exact ha
  · split
    next r u e =>
    have hu : u.memWf := (h.readSegs [] [] gs).of_eq e
    simp only [State.memWf_modPaging, State.memWf_netReads]
    split
    · exact hu
    · simpa using hu

@[simp] theorem execBar2Access_memWf (off : BitVec 40) (write : Bool) (data : List Byte) (len : Nat) :
    Result.memWf (execBar2Access off write data len s) := by
  simp only [execBar2Access, Result.memWf_next]
  (repeat' split) <;> simp [h]
@[simp] theorem State.memWf.bar2Release : s.bar2Release.memWf :=
  State.memWf.foldl (by simpa using h) _ fun _ b hs => hs.bar2Serve ..

@[simp] theorem execFreqChangeRetrained_memWf (failed : List (StackIx × Option (Fin 32))) :
    Result.memWf (execFreqChangeRetrained failed s) := by
  rw [execFreqChangeRetrained, Result.memWf_next]
  split
  · exact h
  · exact State.memWf.bar2Release (State.memWf.releaseHbm (by simpa using h))

@[simp] theorem execCrcHubValueWrite_memWf (u : Fin 8) (reg : CrcReg) (v : Word) :
    Result.memWf (execCrcHubValueWrite u reg v s) := by
  simp [execCrcHubValueWrite, h]
@[simp] theorem State.memWf.crcEnd (u : Nat) (cont : Bool) : (s.crcEnd u cont).memWf := by
  simp only [State.crcEnd]
  (repeat' split) <;> simp [h]
@[simp] theorem execDomainGate_memWf (row : Fin 36) (right : Bool) : Result.memWf (execDomainGate row right s) := by
  simp [execDomainGate, h]
@[simp] theorem execNetStatSel_memWf (sel : BitVec 11) : Result.memWf (execNetStatSel sel s) := by
  simp [execNetStatSel, h]

/-! ### `Machine/Kennel.lean` -/

@[simp] theorem execMigrationStart_memWf (tile : TileId) : Result.memWf (execMigrationStart tile s) := by
  simp [execMigrationStart, h]
@[simp] theorem execMigrationComplete_memWf (tile : TileId) (lost : Bool) :
    Result.memWf (execMigrationComplete tile lost s) := by
  simp [execMigrationComplete, h]
@[simp] theorem execKnlQuarantine_memWf (site : SiteId) : Result.memWf (execKnlQuarantine site s) := by
  simp [execKnlQuarantine, h]
@[simp] theorem execKnlRetest_memWf (site : SiteId) : Result.memWf (execKnlRetest site s) := by simp [execKnlRetest, h]
@[simp] theorem execSelfTestDone_memWf (site : SiteId) (pass : Bool) : Result.memWf (execSelfTestDone site pass s) := by
  simp [execSelfTestDone, h]
@[simp] theorem execRotationStep_memWf : Result.memWf (execRotationStep s) := by simp [execRotationStep, h]
@[simp] theorem execRowSpareReplace_memWf (tile : TileId) (mem : TileMem) (row : Nat) :
    Result.memWf (execRowSpareReplace tile mem row s) := by
  simp [execRowSpareReplace, h]

/-! ### `Machine/Rings.lean` -/

@[simp] theorem State.memWf.headWriteBack (f r : Nat) : (s.headWriteBack f r).memWf := by simp [State.headWriteBack, h]

@[simp] theorem State.memWf.readSummary (f w n : Nat) : (s.readSummary f w n).2.memWf := by
  induction n generalizing s w with
  | zero => exact h
  | succ n ih =>
    unfold State.readSummary
    extract_lets a x s1 s2
    have h1 : s1.memWf := (State.memWf_countEv ..).mpr h
    have h2 : s2.memWf := by
      dsimp only [s2, x]
      split
      · split
        · exact h1
        · exact h1.hostWriteAs ..
      · exact h1
    exact ih h2 (w + 1)

@[simp] theorem State.memWf.flagged (f : Nat) (on : List Nat) : (s.flagged f on).2.memWf := by
  unfold State.flagged
  split
  · simpa using h
  · extract_lets atomic
    split
    next words u e =>
    have hu : u.memWf := (h.readSummary f 0 _).of_eq e
    dsimp only
    split
    · simpa using hu
    · exact hu

@[simp] theorem State.memWf.sampleFn (f : Nat) : (s.sampleFn f).memWf := by
  unfold State.sampleFn
  extract_lets on
  split
  · exact h
  split
  next hit u e =>
  have hu : u.memWf := (h.flagged f on).of_eq e
  exact State.memWf.foldl (by simpa using hu) _ fun _ r hs => hs.headWriteBack f r

@[simp] theorem State.memWf.sampleDoorbells : s.sampleDoorbells.memWf := by
  unfold State.sampleDoorbells
  split
  · exact h
  · exact h.foldl _ fun _ f hs => hs.sampleFn f

@[simp] theorem State.memWf.readBlock (d : Desc) (due : Nat) : (s.readBlock d due).memWf := by
  have hr := h.readVa d d.f.param.toNat (16 * d.f.paramSize)
  unfold State.readBlock
  split <;> next e => simpa using hr.of_eq e

@[simp] theorem State.memWf.arriveDesc (d : Desc) : (s.arriveDesc d).memWf := by
  unfold State.arriveDesc
  split
  · simpa using h
  split
  · simpa using h
  split
  · simpa using h
  · exact h.readBlock ..

@[simp] theorem State.memWf.arrive (fn : Fn) (ring : RingIx) (pick : Fields → Bool) :
    (s.arrive fn ring pick).memWf := by
  unfold State.arrive
  split
  · exact h
  split
  · exact h
  extract_lets f
  split
  · exact State.memWf.arriveDesc (by simpa using h) _
  · exact h

@[simp] theorem execRingReadError_memWf (fn : Fn) (ring : RingIx) (kind : RingRead) :
    Result.memWf (execRingReadError fn ring kind s) := by
  simp only [execRingReadError, Result.memWf_next]
  (repeat' split) <;> simp [h]
@[simp] theorem execRun_memWf (fn : Fn) (ring : RingIx) : Result.memWf (execRun fn ring s) := by simp [execRun, h]
@[simp] theorem execCopy_memWf (fn : Fn) (ring : RingIx) : Result.memWf (execCopy fn ring s) := by simp [execCopy, h]
@[simp] theorem execFence_memWf (fn : Fn) (ring : RingIx) : Result.memWf (execFence fn ring s) := by simp [execFence, h]
@[simp] theorem execLoopDescriptor_memWf (fn : Fn) (ring : RingIx) : Result.memWf (execLoopDescriptor fn ring s) := by
  simp [execLoopDescriptor, h]
@[simp] theorem execCadenceSet_memWf (fn : Fn) (ring : RingIx) : Result.memWf (execCadenceSet fn ring s) := by
  simp [execCadenceSet, h]
@[simp] theorem execTableLoad_memWf (fn : Fn) (ring : RingIx) : Result.memWf (execTableLoad fn ring s) := by
  simp [execTableLoad, h]
@[simp] theorem execPageReady_memWf (fn : Fn) (ring : RingIx) : Result.memWf (execPageReady fn ring s) := by
  simp [execPageReady, h]
@[simp] theorem execCancel_memWf (fn : Fn) (ring : RingIx) : Result.memWf (execCancel fn ring s) := by
  simp [execCancel, h]
@[simp] theorem execReservedClass_memWf (fn : Fn) (ring : RingIx) : Result.memWf (execReservedClass fn ring s) := by
  simp [execReservedClass, h]
@[simp] theorem execParamBlockRead_memWf (d : Nat) (ok : Bool) : Result.memWf (execParamBlockRead d ok s) := by
  simp only [execParamBlockRead, Result.memWf_next]
  split <;> simp [↓State.memWf_ite, h]

/-! ### `Machine/Flows.lean` -/

@[simp] theorem State.memWf.zeroSpan (sp : Option Nat × Nat × Nat) : (s.zeroSpan sp).memWf := by
  unfold State.zeroSpan
  split
  · simpa using h
  · exact h.hbmWrite ..

@[simp] theorem State.memWf.withdrawFrom (e : Exposure) : (s.withdrawFrom e).memWf := by
  unfold State.withdrawFrom
  split
  · split
    · simpa using h
    · exact h
  · simpa using h
  · exact h.foldl _ fun _ sp hs => hs.zeroSpan sp

@[simp] theorem State.memWf.withdrawToken (device token : Nat) : (s.withdrawToken device token).memWf :=
  (State.memWf_modLf ..).mpr (h.foldl _ fun _ e hs => hs.withdrawFrom e)

@[simp] theorem State.memWf.sendOutcome (d : Desc) (t : TxType) : (s.sendOutcome d t).memWf :=
  h.foldl _ fun s e hs => by
    extract_lets s1
    have h1 : s1.memWf := (State.memWf_sendMsg ..).mpr hs
    split
    · exact h1
    split
    · simpa using h1
    · exact h1.withdrawToken ..

/-! ### `Machine/Rails.lean` -/

@[simp] theorem State.memWf.railsDown (p : Power) : (s.railsDown p).memWf := ⟨h.1, Memory.wf_nil⟩

/-! ### `Machine/Leash.lean` -/

@[simp] theorem execSupplyTrip_memWf (p : Supply) : Result.memWf (execSupplyTrip p s) := by
  simp only [execSupplyTrip, Result.memWf_next]
  split <;> simp [h]
@[simp] theorem execOpChangeDone_memWf : Result.memWf (execOpChangeDone s) := by simp [execOpChangeDone, h]
@[simp] theorem execCapUnmet_memWf : Result.memWf (execCapUnmet s) := by simp [execCapUnmet, h]
@[simp] theorem execPowerHoldAbort_memWf : Result.memWf (execPowerHoldAbort s) := by simp [execPowerHoldAbort, h]
@[simp] theorem execDroop_memWf (die : Fin 4) : Result.memWf (execDroop die s) := by simp [execDroop, h]
@[simp] theorem execDroopRecovered_memWf (die : Fin 4) : Result.memWf (execDroopRecovered die s) := by
  simp [execDroopRecovered, h]
@[simp] theorem execPowerSensorSample_memWf (sample input : Int) (a2 : Nat) :
    Result.memWf (execPowerSensorSample sample input a2 s) := by
  simp [execPowerSensorSample, h]
@[simp] theorem execModelMismatch_memWf : Result.memWf (execModelMismatch s) := by simp [execModelMismatch, h]
@[simp] theorem execSensorDisagreement_memWf : Result.memWf (execSensorDisagreement s) := by
  simp [execSensorDisagreement, h]
@[simp] theorem execSensorSelfCheck_memWf (ok : Bool) : Result.memWf (execSensorSelfCheck ok s) := by
  simp [execSensorSelfCheck, h]
@[simp] theorem execThermalSample_memWf (r : Thermal) : Result.memWf (execThermalSample r s) := by
  simp [execThermalSample, h]
@[simp] theorem execHbmThrottle_memWf : Result.memWf (execHbmThrottle s) := by simp [execHbmThrottle, h]
@[simp] theorem execEnergyIntervalClose_memWf (r : EnergyIn) : Result.memWf (execEnergyIntervalClose r s) := by
  simp only [execEnergyIntervalClose, Result.memWf_next, State.memWf_modEnergy]
  exact State.memWf.foldl (by simpa using h) _ fun s p hs => by split <;> simpa using hs

/-! ### `Machine/Records.lean` -/

@[simp] theorem execProgramComplete_memWf (p : PackIx) : Result.memWf (execProgramComplete p s) := by
  simp [execProgramComplete, h]

@[simp] theorem State.memWf.sampleCompletion (d : Desc) : (s.sampleCompletion d).memWf := by
  unfold State.sampleCompletion
  split
  · exact h
  extract_lets s1 since st
  have h1 : s1.memWf := by
    dsimp only [s1]
    split
    · exact h
    · exact (State.memWf_modDesc ..).mpr (h.sendOutcome ..)
  split
  · split
    · simpa using h1
    · exact h1
  · simpa using h1

@[simp] theorem execDescriptorRetired_memWf (d : Nat) : Result.memWf (execDescriptorRetired d s) := by
  simp only [execDescriptorRetired, Result.memWf_next]
  split <;> simp [h]
@[simp] theorem State.memWf.putRecord (d : Desc) : (s.putRecord d).memWf := by simp [State.putRecord, h]

@[simp] theorem State.memWf.afterRecord (d : Desc) (more : Bool) : (s.afterRecord d more).memWf := by
  unfold State.afterRecord
  extract_lets ok s1 s2 s3
  have h1 : s1.memWf := by
    dsimp only [s1]
    split
    · exact h
    · exact h.sendOutcome ..
  have h2 : s2.memWf := (State.memWf_cuesAtRecord ..).mpr h1
  split <;> simpa [s3] using h2

@[simp] theorem State.memWf.record1 (id : Nat) : (s.record1 id).memWf := by
  unfold State.record1
  split
  · exact h
  next d _ =>
    split
    · exact h
    split
    · refine State.memWf.afterRecord ?_ d false
      split
      · simpa using h
      · exact h
    · have hr : (s.recordSlot d).2.memWf := (State.memWf_recordSlot ..).mpr h
      split
      next e => exact hr.of_eq e
      next e => exact ((hr.of_eq e).putRecord _).afterRecord _ _

@[simp] theorem State.memWf.record (id : Nat) : (s.record id).memWf :=
  (h.record1 id).foldl _ fun _ c hs => State.memWf.record1 (by simpa using hs) c

@[simp] theorem State.memWf.recordOther (id : Nat) : (s.recordOther id).memWf := by
  unfold State.recordOther
  split
  · exact h
  split
  · exact State.memWf.record (by simpa using h) id
  · exact h.record id

@[simp] theorem State.memWf.writePackRecords : s.writePackRecords.memWf := h.foldl _ fun _ id hs => hs.record id
@[simp] theorem State.memWf.writeOtherRecords : s.writeOtherRecords.memWf :=
  h.foldl _ fun _ _ hs => hs.foldl _ fun _ id ht => ht.recordOther id
@[simp] theorem State.memWf.moderate (f r : Nat) : (s.moderate f r).memWf := by simp [State.moderate, h]
@[simp] theorem State.memWf.moderateAll : s.moderateAll.memWf := by
  unfold State.moderateAll
  exact h.foldl _ fun s x hs => by simp [hs]
@[simp] theorem execFenceComplete_memWf (fn : Fn) (ring : RingIx) : Result.memWf (execFenceComplete fn ring s) := by
  simp only [execFenceComplete, Result.memWf_next]
  split <;> simp [h]

@[simp] theorem execCompletionRecord_memWf (d : Nat) : Result.memWf (execCompletionRecord d s) := by
  rw [execCompletionRecord, Result.memWf_next]
  split
  · split
    · exact ((h.record d).headWriteBack ..).moderate ..
    · exact h
  · exact h

@[simp] theorem execModTimeExpiry_memWf (fn : Fn) (ring : RingIx) : Result.memWf (execModTimeExpiry fn ring s) := by
  simp [execModTimeExpiry, h]
@[simp] theorem State.memWf.unmask (f v : Nat) : (s.unmask f v).memWf := by simp [State.unmask, h]
@[simp] theorem execMsixUnmask_memWf (fn : Fn) (vec : Fin 2048) : Result.memWf (execMsixUnmask fn vec s) := by
  simp [execMsixUnmask, h]

@[simp] theorem State.memWf.dropSilent : s.dropSilent.memWf :=
  h.foldl _ fun s id hs => by
    split
    · exact State.memWf.record1 (by simpa using hs) id
    · exact hs

/-! ### `Machine/Issue.lean` -/

@[simp] theorem State.memWf.refill (d : Desc) (ix : Nat) (e : Engine) (n : Nat) : (s.refill d ix e n).2.memWf := by
  unfold State.refill
  extract_lets g
  have hr := h.readVa d (g.base + 16 * g.pc) (16 * n)
  split <;> next e => simpa using hr.of_eq e

@[simp] theorem State.memWf.fetchWord (d : Desc) (ix : Nat) (e : Engine) : (s.fetchWord d ix e).2.memWf := by
  unfold State.fetchWord
  extract_lets g n
  have hr := h.refill d ix e n
  split
  · exact h
  split
  next e1 => split <;> [exact hr.of_eq e1; exact (hr.of_eq e1).refill ..]
  next e1 => split <;> [exact hr.of_eq e1; exact (hr.of_eq e1).refill ..]
  · exact hr

theorem State.memWf.issue (tile : TileId) (e : Engine) (pick : Nat → Bool) {body : Issuing → TileWord → State → State}
    (hf : ∀ c i s, s.memWf → (body c i s).memWf) : (s.issue tile e pick body).memWf := by
  unfold State.issue
  split
  · exact h
  next p d _ =>
    extract_lets g
    split
    · exact h
    have hw := h.fetchWord d tile.ix e
    split
    next e1 => exact hw.of_eq e1
    next e1 => exact hw.of_eq e1
    next e1 => simpa using hw.of_eq e1
    next e1 =>
      have hs := hw.of_eq e1
      extract_lets c
      split
      · exact h
      split
      · simpa using hs
      split
      · simpa using hs
      split
      · simpa using hs
      · exact hf _ _ _ hs

theorem State.memWf.issueOp (tile : TileId) (e : Engine) (op : Nat) {body : Issuing → TileWord → State → State}
    (hf : ∀ c i s, s.memWf → (body c i s).memWf) : (s.issueOp tile e op body).memWf :=
  h.issue _ _ _ hf

/-- A command that issues a word of one opcode, and acts only where its decoded form is the instruction's. -/
theorem State.memWf.issueOp_next (tile : TileId) (e : Engine) (op : Nat) {body : Issuing → TileWord → State → State}
    (hf : ∀ c i s, s.memWf → (body c i s).memWf) : Result.memWf (.next (s.issueOp tile e op body)) :=
  (Result.memWf_next _).mpr (h.issueOp tile e op hf)

theorem State.memWf.dispatchOp (c : Issuing) (decode : Option Nat) (reads writes : List Nat) (issue : Option Nat)
    {effect : State → State} (hf : ∀ s, s.memWf → (effect s).memWf) :
    (s.dispatchOp c decode reads writes issue effect).memWf := by
  rcases s.dispatchOp_cases c decode reads writes issue effect with ⟨r, _, e⟩ | ⟨r, e⟩ | ⟨_, _, _, _, e⟩ <;> rw [e]
  · simpa using h
  · simpa using h
  · exact hf _ (by simpa using h)

theorem State.memWf.controlOp (c : Issuing) (decode : Option Nat) {effect : State → State}
    (hf : ∀ s, s.memWf → (effect s).memWf) : (s.controlOp c decode effect).memWf := by
  rcases s.controlOp_cases c decode effect with ⟨r, _, e⟩ | ⟨_, e⟩ | ⟨_, _, e⟩ <;> rw [e]
  · simpa using h
  · simpa using h
  · exact hf _ (by simpa using h)

theorem State.memWf.tileUnder (tile : TileId) (u : Upset) {effect : State → State}
    (hf : ∀ s, s.memWf → (effect s).memWf) : (s.tileUnder tile u effect).memWf := by
  have hu := (State.memWf_upset s tile (s.owner tile) u).mpr h
  unfold State.tileUnder
  split
  next e => exact hf _ (hu.of_eq e)
  next e => exact hu.of_eq e

theorem State.memWf.underUpset (c : Issuing) (u : Upset) {effect : State → State}
    (hf : ∀ s, s.memWf → (effect s).memWf) : (s.underUpset c u effect).memWf := by
  have hu := (State.memWf_upset s c.tile (some c.d) u).mpr h
  unfold State.underUpset
  split
  next e => exact hf _ (hu.of_eq e)
  next e => exact hu.of_eq e

/-- An instruction with scoreboard resources whose effect an upset may prevent. -/
theorem State.memWf.dispatchUnder {c : Issuing} {u : Upset} {decode : Option Nat} {reads writes : List Nat}
    {issue : Option Nat} {effect : State → State} (hf : ∀ s, s.memWf → (effect s).memWf) :
    (s.dispatchOp c decode reads writes issue fun s => s.underUpset c u effect).memWf :=
  h.dispatchOp _ _ _ _ _ fun _ hs => hs.underUpset _ _ hf

theorem State.memWf.controlUnder (c : Issuing) (u : Upset) (decode : Option Nat) {effect : State → State}
    (hf : ∀ s, s.memWf → (effect s).memWf) : (s.controlUnder c u decode effect).memWf :=
  h.controlOp c decode fun _ hs => hs.underUpset c u hf

/-! ### `Machine/Dsp.lean` -/

@[simp] theorem State.memWf.spfft4 (c : Issuing) (u : Upset) (f : Fft) : (s.spfft4 c u f).memWf := by
  unfold State.spfft4
  exact h.dispatchUnder fun s hs => by simp [hs]
@[simp] theorem State.memWf.spmac (c : Issuing) (u : Upset) (f : Mac) : (s.spmac c u f).memWf := by
  unfold State.spmac
  exact h.dispatchUnder fun s hs => by simp [hs]
@[simp] theorem State.memWf.spbexp (c : Issuing) (u : Upset) (f : Blk) : (s.spbexp c u f).memWf := by
  unfold State.spbexp
  exact h.dispatchUnder fun s hs => by simp [hs]
@[simp] theorem State.memWf.spnorm (c : Issuing) (u : Upset) (f : Blk) (amt : BitVec 6) (useHead : Bool) :
    (s.spnorm c u f amt useHead).memWf := by
  unfold State.spnorm
  exact h.dispatchUnder fun s hs => by simp [hs]
@[simp] theorem State.memWf.spexp (c : Issuing) (u : Upset) (f : Blk) (dmem : BitVec 2) (daddr : BitVec 14)
    (beout : Bool) : (s.spexp c u f dmem daddr beout).memWf := by
  unfold State.spexp
  exact h.dispatchUnder fun s hs => by simp [hs]
@[simp] theorem execSpfft4_memWf (tile : TileId) (e : Engine) (u : Upset) :
    Result.memWf (execSpfft4 tile e u s) :=
  h.issueOp_next _ _ _ fun c i s hs => by split <;> simp [hs]
@[simp] theorem execSpmac_memWf (tile : TileId) (e : Engine) (u : Upset) :
    Result.memWf (execSpmac tile e u s) :=
  h.issueOp_next _ _ _ fun c i s hs => by split <;> simp [hs]
@[simp] theorem execSpbexp_memWf (tile : TileId) (e : Engine) (u : Upset) :
    Result.memWf (execSpbexp tile e u s) :=
  h.issueOp_next _ _ _ fun c i s hs => by split <;> simp [hs]
@[simp] theorem execSpnorm_memWf (tile : TileId) (e : Engine) (u : Upset) :
    Result.memWf (execSpnorm tile e u s) :=
  h.issueOp_next _ _ _ fun c i s hs => by split <;> simp [hs]
@[simp] theorem execSpexp_memWf (tile : TileId) (e : Engine) (u : Upset) :
    Result.memWf (execSpexp tile e u s) :=
  h.issueOp_next _ _ _ fun c i s hs => by split <;> simp [hs]

/-! ### `Machine/Vector.lean` -/

@[simp] theorem State.memWf.velem (c : Issuing) (u : Upset) (op : ElemOp) (f : Elem) : (s.velem c u op f).memWf := by
  unfold State.velem
  exact h.dispatchUnder fun s hs => by simp [hs]
@[simp] theorem State.memWf.vred (c : Issuing) (u : Upset) (f : Row) : (s.vred c u f).memWf := by
  unfold State.vred
  exact h.dispatchUnder fun s hs => by simp [hs]
@[simp] theorem State.memWf.vtopk (c : Issuing) (u : Upset) (f : Row) : (s.vtopk c u f).memWf := by
  unfold State.vtopk
  exact h.dispatchUnder fun s hs => by simp [hs]
@[simp] theorem State.memWf.vsample (c : Issuing) (u : Upset) (f : Samp) : (s.vsample c u f).memWf := by
  unfold State.vsample
  exact h.dispatchUnder fun s hs => by
    dsimp only
    split <;> simpa using hs

@[simp] theorem State.memWf.issueElem (tile : TileId) (e : Engine) (u : Upset) (op : ElemOp) :
    (s.issueElem tile e u op).memWf :=
  h.issueOp _ _ _ fun c i s hs => by
    split
    · exact hs.velem ..
    · exact hs

@[simp] theorem execVadd_memWf (tile : TileId) (e : Engine) (u : Upset) : Result.memWf (execVadd tile e u s) := by
  simp [execVadd, h]
@[simp] theorem execVmul_memWf (tile : TileId) (e : Engine) (u : Upset) : Result.memWf (execVmul tile e u s) := by
  simp [execVmul, h]
@[simp] theorem execVfma_memWf (tile : TileId) (e : Engine) (u : Upset) : Result.memWf (execVfma tile e u s) := by
  simp [execVfma, h]
@[simp] theorem execVmax_memWf (tile : TileId) (e : Engine) (u : Upset) : Result.memWf (execVmax tile e u s) := by
  simp [execVmax, h]
@[simp] theorem execVmin_memWf (tile : TileId) (e : Engine) (u : Upset) : Result.memWf (execVmin tile e u s) := by
  simp [execVmin, h]
@[simp] theorem execVtab_memWf (tile : TileId) (e : Engine) (u : Upset) : Result.memWf (execVtab tile e u s) := by
  simp [execVtab, h]
@[simp] theorem execVcvt_memWf (tile : TileId) (e : Engine) (u : Upset) : Result.memWf (execVcvt tile e u s) := by
  simp [execVcvt, h]
@[simp] theorem execVred_memWf (tile : TileId) (e : Engine) (u : Upset) :
    Result.memWf (execVred tile e u s) :=
  h.issueOp_next _ _ _ fun c i s hs => by split <;> simp [hs]
@[simp] theorem execVtopk_memWf (tile : TileId) (e : Engine) (u : Upset) :
    Result.memWf (execVtopk tile e u s) :=
  h.issueOp_next _ _ _ fun c i s hs => by split <;> simp [hs]
@[simp] theorem execVsample_memWf (tile : TileId) (e : Engine) (u : Upset) :
    Result.memWf (execVsample tile e u s) :=
  h.issueOp_next _ _ _ fun c i s hs => by split <;> simp [hs]

/-! ### `Machine/Streams.lean` -/

@[simp] theorem State.memWf.ctxRetire (tile : TileId) (ci : Nat) (k : CtxSt) : (s.ctxRetire tile ci k).memWf := by
  simp [State.ctxRetire, h]
@[simp] theorem State.memWf.ctxEnd (tile : TileId) (ci : Nat) : (s.ctxEnd tile ci).memWf := by
  unfold State.ctxEnd
  split <;> simp [↓State.memWf_ite, h]

@[simp] theorem State.memWf.chunkLands (tile : TileId) (d : Desc) (ci : Nat) (k : CtxSt) (ch : ChunkSt) :
    (s.chunkLands tile d ci k ch).memWf := by
  unfold State.chunkLands
  extract_lets ix
  split
  next r u e =>
  have hu : u.memWf := (h.readSegs _ _ _).of_eq e
  split
  · simp [↓State.memWf_ite, hu]
  · simpa using hu
  · exact hu
  · exact hu

@[simp] theorem execChunkResident_memWf (tile : TileId) (u : Upset) (ctx : Fin 16) :
    Result.memWf (execChunkResident tile ctx u s) := by
  rw [execChunkResident, Result.memWf_next]
  extract_lets ix
  split
  · exact h
  split
  · exact h
  extract_lets s1 s2 s3
  have h2 : s2.memWf := by simpa [s2, s1] using h
  have h3 : s3.memWf := by
    dsimp only [s3]
    split
    · split
      · exact h2
      · exact h2.tileUnder _ _ fun s hs => hs.chunkLands ..
    · exact h2
  split
  · exact h
  · exact State.memWf.ctxEnd (by simpa using h3) _ _

theorem State.memWf.writeSegs (owners : List Nat) (l : List Seg) (b : List Byte) : (s.writeSegs owners l b).memWf := by
  induction l generalizing s b with
  | nil => exact h
  | cons g gs ih =>
    refine ih ?_ _
    split
    · exact h.hbmWrite ..
    · exact h.hostWriteAs ..
    · exact h

@[simp] theorem execWriteAcknowledged_memWf (tile : TileId) (u : Upset) (ctx : Fin 16) :
    Result.memWf (execWriteAcknowledged tile ctx u s) := by
  rw [execWriteAcknowledged, Result.memWf_next]
  extract_lets ix
  split
  · exact h
  split
  · exact h
  extract_lets n s1 s2
  split
  · exact h
  have h1 : s1.memWf := h.tileUnder _ _ fun s hs => by simpa using hs.writeSegs ..
  have h2 : s2.memWf := by simpa [s2] using h1
  exact State.memWf.ctxEnd (by simpa using h2) _ _

theorem State.memWf.withRecord (c : Issuing) (addr : Nat) {body : Nat → State} (hf : ∀ n, (body n).memWf) :
    (s.withRecord c addr body).memWf := by
  simp only [State.withRecord]
  split
  · simpa using h
  · exact hf _

@[simp] theorem State.memWf.issueCtx (c : Issuing) (reads : List Nat) (ci hub : Nat) (k : CtxSt) :
    (s.issueCtx c reads ci hub k).memWf := by
  simp only [State.issueCtx]
  (repeat' split) <;> simp [h]

@[simp] theorem State.memWf.stream (c : Issuing) (u : Upset) (get : Bool) (f : Stream) :
    (s.stream c u get f).memWf := by
  unfold State.stream
  split
  · simpa using h
  refine h.withRecord _ _ fun x => ?_
  extract_lets r n
  split
  · simpa using h
  split
  · simpa using h
  exact h.underUpset _ _ fun s hs => hs.issueCtx ..

@[simp] theorem execRget_memWf (tile : TileId) (e : Engine) (u : Upset) :
    Result.memWf (execRget tile e u s) :=
  h.issueOp_next _ _ _ fun c i s hs => by split <;> simp [hs]
@[simp] theorem execRput_memWf (tile : TileId) (e : Engine) (u : Upset) :
    Result.memWf (execRput tile e u s) :=
  h.issueOp_next _ _ _ fun c i s hs => by split <;> simp [hs]

@[simp] theorem State.memWf.gather (c : Issuing) (u : Upset) (f : Gather) : (s.gather c u f).memWf := by
  unfold State.gather
  split
  · simpa using h
  refine h.withRecord _ _ fun x => ?_
  extract_lets tmem rowb
  split
  · simpa using h
  split
  · simpa using h
  exact h.underUpset _ _ fun s hs => hs.issueCtx ..

@[simp] theorem execRgather_memWf (tile : TileId) (e : Engine) (u : Upset) :
    Result.memWf (execRgather tile e u s) :=
  h.issueOp_next _ _ _ fun c i s hs => by split <;> simp [hs]

@[simp] theorem State.memWf.send (c : Issuing) (u : Upset) (f : Send) : (s.send c u f).memWf := by
  unfold State.send
  extract_lets n sh la ra own gradeB bad
  clear_value bad
  split
  · simpa using h
  refine h.underUpset _ _ fun s hs => ?_
  dsimp only
  split
  · simpa using hs
  split
  · simpa using hs
  · split <;> simpa using hs

@[simp] theorem execRsend_memWf (tile : TileId) (e : Engine) (u : Upset) :
    Result.memWf (execRsend tile e u s) :=
  h.issueOp_next _ _ _ fun c i s hs => by split <;> simp [hs]

@[simp] theorem State.memWf.mcast (c : Issuing) (u : Upset) (f : Mcast) : (s.mcast c u f).memWf := by
  unfold State.mcast
  extract_lets n la bad
  clear_value bad
  split
  · simpa using h
  refine h.underUpset _ _ fun s hs => ?_
  dsimp only
  (repeat' split) <;> simpa using hs

@[simp] theorem execRmcast_memWf (tile : TileId) (e : Engine) (u : Upset) :
    Result.memWf (execRmcast tile e u s) :=
  h.issueOp_next _ _ _ fun c i s hs => by split <;> simp [hs]
@[simp] theorem State.memWf.sampleFault (tile : TileId) (d : Desc) (ci : Nat) : (s.sampleFault tile d ci).memWf := by
  unfold State.sampleFault
  (repeat' split) <;> simp [↓State.memWf_ite, h]
@[simp] theorem execPageFault_memWf (tile : TileId) (ctx : Fin 16) : Result.memWf (execPageFault tile ctx s) := by
  simp only [execPageFault, Result.memWf_next]
  split <;> simp [↓State.memWf_ite, h]
@[simp] theorem execPageFaultTimeout_memWf (tile : TileId) (ctx : Fin 16) :
    Result.memWf (execPageFaultTimeout tile ctx s) := by
  simp only [execPageFaultTimeout, Result.memWf_next]
  (repeat' split) <;> simp [h]

/-! ### `Machine/Matrix.lean` -/

@[simp] theorem State.memWf.mxload (c : Issuing) (u : Upset) (f : MxLoad) : (s.mxload c u f).memWf := by
  unfold State.mxload
  extract_lets bad held
  split
  · exact h
  exact h.dispatchUnder fun s hs => by simpa using hs

@[simp] theorem execMxload_memWf (tile : TileId) (e : Engine) (u : Upset) :
    Result.memWf (execMxload tile e u s) :=
  h.issueOp_next _ _ _ fun c i s hs => by split <;> simp [hs]

@[simp] theorem execMxswap_memWf (tile : TileId) (e : Engine) (u : Upset) :
    Result.memWf (execMxswap tile e u s) :=
  h.issueOp_next _ _ _ fun c _ s hs => by
    split
    · exact hs
    · exact hs.controlUnder _ _ _ fun s hs => by simpa using hs

@[simp] theorem State.memWf.mxrunWith (c : Issuing) (u : Upset) (f : MxRun) (pro : Option Pro) :
    (s.mxrunWith c u f pro).memWf := by
  unfold State.mxrunWith
  exact h.dispatchUnder fun s hs => by simp [hs]
@[simp] theorem State.memWf.mxrun (c : Issuing) (u : Upset) (f : MxRun) : (s.mxrun c u f).memWf := by
  simp only [State.mxrun]
  (repeat' split) <;> simp [h]
@[simp] theorem execMxrun_memWf (tile : TileId) (e : Engine) (u : Upset) :
    Result.memWf (execMxrun tile e u s) :=
  h.issueOp_next _ _ _ fun c i s hs => by split <;> simp [hs]

/-! ### `Machine/Drain.lean` -/

@[simp] theorem State.memWf.drainWith (c : Issuing) (u : Upset) (f : MxDrain) (e : Option Epi) :
    (s.drainWith c u f e).memWf := by
  unfold State.drainWith
  extract_lets t slot
  split
  dsimp only
  split
  · simpa using h
  exact h.dispatchUnder fun s hs => by simpa using hs

@[simp] theorem State.memWf.drain (c : Issuing) (u : Upset) (f : MxDrain) : (s.drain c u f).memWf := by
  unfold State.drain
  split
  · simpa using h
  split
  · exact h.drainWith ..
  extract_lets a
  split
  · simpa using h
  split
  · simpa using h
  · exact h.drainWith ..

@[simp] theorem execMxdrain_memWf (tile : TileId) (e : Engine) (u : Upset) :
    Result.memWf (execMxdrain tile e u s) :=
  h.issueOp_next _ _ _ fun c i s hs => by split <;> simp [hs]

/-! ### `Machine/Copying.lean` -/

@[simp] theorem State.memWf.copyRead (p : Nat) (d : Desc) (src : List Seg) : (s.copyRead p d src).2.memWf := by
  unfold State.copyRead
  extract_lets step
  split
  next ok l u e =>
  have step_keeps (acc : Bool × List (Option (List Byte)) × State) (g : Seg) (ha : acc.2.2.memWf) :
      (step acc g).2.2.memWf := by
    obtain ⟨ok, l, s⟩ := acc
    dsimp only at ha
    dsimp only [step]
    split
    · exact ha
    split
    · split
      next e => exact (ha.hbmRead ..).of_eq e
      next e => exact (ha.hbmRead ..).of_eq e
    · split
      · exact ha
      · simpa using ha
    · split
      · simpa using ha
      · simpa using ha
  have all_keep (l : List Seg) (acc : Bool × List (Option (List Byte)) × State) (ha : acc.2.2.memWf) :
      (l.foldl step acc).2.2.memWf := by
    induction l generalizing acc with
    | nil => exact ha
    | cons g l ih => exact ih _ (step_keeps acc g ha)
  have hu := all_keep src (true, [], s) h
  rw [e] at hu
  simpa using hu

@[simp] theorem State.memWf.copyWrite (p : Nat) (d : Desc) (dst : List Seg) : (s.copyWrite p d dst).memWf := by
  unfold State.copyWrite
  extract_lets data step
  refine (State.memWf_netWrites ..).mpr (State.memWf.foldl_fst (a := (s, data)) h dst fun acc g ha => ?_)
  obtain ⟨s, b⟩ := acc
  dsimp only at ha
  dsimp only [step]
  split
  · exact ha.hbmWrite ..
  · exact ha.hostWriteAs ..
  · split <;> simpa using ha

@[simp] theorem State.memWf.copyStart (p : Nat) (d : Desc) : (s.copyStart p d).2.memWf := by
  unfold State.copyStart
  split
  split
  split
  · exact h
  split
  next ok u e =>
  have hu : u.memWf := (h.copyRead p d _).of_eq e
  split
  · dsimp only
    split
    · simpa using hu
    · exact hu
  · exact hu

@[simp] theorem State.memWf.copyEnd (p : Nat) (d : Desc) : (s.copyEnd p d).2.memWf := by
  unfold State.copyEnd
  split
  split
  split
  · exact h
  extract_lets s1
  have h1 : s1.memWf := h.copyWrite ..
  split <;> simpa using h1

@[simp] theorem State.memWf.copyGo (p : Nat) (d : Desc) (n : Nat) : (s.copyGo p d n).memWf := by
  induction n generalizing s with
  | zero => exact h
  | succ n ih =>
    unfold State.copyGo
    split
    · exact h
    split
    next ok u e =>
    have hu : u.memWf := by
      split at e
      · exact (h.copyStart p d).of_eq e
      · cases e
        exact h
    split
    · exact hu
    split
    next e => exact ih ((hu.copyEnd p d).of_eq e)
    next e => exact (hu.copyEnd p d).of_eq e

@[simp] theorem State.memWf.copyPump (p : Nat) : (s.copyPump p).memWf := by
  unfold State.copyPump
  split
  · split
    · exact h.copyGo ..
    · exact h
  · exact h

@[simp] theorem State.memWf.copyPart (p seg : Nat) (b : List Byte) : (s.copyPart p seg b).memWf :=
  State.memWf.copyPump (by simpa using h) p
@[simp] theorem State.memWf.sampleCopy (p : Nat) (d : Desc) : (s.sampleCopy p d).memWf := by
  unfold State.sampleCopy
  split <;> simp [↓State.memWf_ite, h]
@[simp] theorem State.memWf.copyPumps : s.copyPumps.memWf := h.foldl _ fun _ p hs => hs.copyPump p
@[simp] theorem State.memWf.pageReady (p fn va : Nat) : (s.pageReady p fn va).2.memWf := by
  unfold State.pageReady
  exact State.memWf.copyPump ((State.memWf_resumePage ..).mpr h) p

/-! ### `Machine/LinkLanes.lean` -/

@[simp] theorem execLinkTraining_memWf (n : LinkIx) (badRx badTx : List (Fin 5)) (farMode : Bool) (t : Nat) :
    Result.memWf (execLinkTraining n badRx badTx farMode t s) := by
  simp [execLinkTraining, h]
@[simp] theorem execTrainingStepTimeout_memWf (n : LinkIx) : Result.memWf (execTrainingStepTimeout n s) := by
  simp [execTrainingStepTimeout, h]
@[simp] theorem execRetrainTimer_memWf (n : LinkIx) : Result.memWf (execRetrainTimer n s) := by
  simp [execRetrainTimer, h]
@[simp] theorem execLnkCfgWrite_memWf (n : LinkIx) (v : Word) : Result.memWf (execLnkCfgWrite n v s) := by
  simp [execLnkCfgWrite, h]
@[simp] theorem execSymbolLockLoss_memWf (n : LinkIx) (lane : Fin 5) : Result.memWf (execSymbolLockLoss n lane s) := by
  simp [execSymbolLockLoss, h]
@[simp] theorem execCodewordReceive_memWf (n : LinkIx) (c : Codeword) : Result.memWf (execCodewordReceive n c s) := by
  simp only [execCodewordReceive, Result.memWf_next]
  split <;> simp [↓State.memWf_ite, h]
@[simp] theorem execLaneWindowClose_memWf (n : LinkIx) (monitorErrs : Nat) :
    Result.memWf (execLaneWindowClose n monitorErrs s) := by
  simp only [execLaneWindowClose, Result.memWf_next]
  (repeat' split) <;> simp [h]
@[simp] theorem execSwapRequest_memWf (n : LinkIx) (lane : Fin 5) : Result.memWf (execSwapRequest n lane s) := by
  simp [execSwapRequest, h]
@[simp] theorem execSwapMarker_memWf (n : LinkIx) : Result.memWf (execSwapMarker n s) := by
  simp only [execSwapMarker, Result.memWf_next]
  split <;> simp [h]
@[simp] theorem execSwapDone_memWf (n : LinkIx) : Result.memWf (execSwapDone n s) := by simp [execSwapDone, h]
@[simp] theorem execSwapTimeout_memWf (n : LinkIx) (t : Nat) : Result.memWf (execSwapTimeout n t s) := by
  simp [execSwapTimeout, h]
@[simp] theorem execForce_memWf (n : LinkIx) (lane : BitVec 3) : Result.memWf (execForce n lane s) := by
  simp [execForce, h]
@[simp] theorem execLinkSleep_memWf (n : LinkIx) (dir : LinkDir) : Result.memWf (execLinkSleep n dir s) := by
  simp only [execLinkSleep, Result.memWf_next]
  split <;> simp [↓State.memWf_ite, h]
@[simp] theorem execLinkWake_memWf (n : LinkIx) (dir : LinkDir) : Result.memWf (execLinkWake n dir s) := by
  simp only [execLinkWake, Result.memWf_next]
  split <;> simp [↓State.memWf_ite, h]

/-! ### `Machine/LinkFabric.lean` -/

@[simp] theorem execFlitReceive_memWf (n : LinkIx) (vc : Fin 8) (bytes : List Byte) :
    Result.memWf (execFlitReceive n vc bytes s) := by
  simp only [execFlitReceive, Result.memWf_next]
  (repeat' split) <;> simp [h]
@[simp] theorem execLinkAckTimeout_memWf (n : LinkIx) : Result.memWf (execLinkAckTimeout n s) := by
  simp [execLinkAckTimeout, h]

theorem State.memWf.serve (hd : Header) {body : Flow → State → State × Nat} (hf : ∀ f s, s.memWf → (body f s).1.memWf) :
    (s.serve hd body).memWf := by
  unfold State.serve
  extract_lets f i
  split
  · exact h
  split
  · simpa using h
  split
  · exact h
  · simpa using h
  · simpa using hf f s h

theorem State.memWf.arriveTx (hd : Header) (ty : TxType) (len : Nat) (data : List Byte) {body : State → State}
    (hf : (body s).memWf) : (s.arriveTx hd ty len data body).memWf := by
  unfold State.arriveTx
  split
  · simpa using h
  split
  · simpa using h
  · simpa using hf

@[simp] theorem State.memWf.peerRead (f : Flow) (a n : Nat) : (s.peerRead f a n).2.memWf := by
  unfold State.peerRead
  split
  · exact h
  split
  · split
    next e => exact (h.hbmRead ..).of_eq e
    next e => simpa using (h.hbmRead ..).of_eq e
  · split <;> exact h

@[simp] theorem State.memWf.rreadTx (hd : Header) (len : Nat) : (s.rreadTx hd len).memWf :=
  h.serve _ fun f s hs => by
    have hr := hs.peerRead f (bits hd.target.toNat 0 48) len
    split
    next e => exact hr.of_eq e
    next e => simpa using hr.of_eq e

@[simp] theorem execRread_memWf (hd : Header) (len : Fin 4097) : Result.memWf (execRread hd len s) :=
  (Result.memWf_next _).mpr (h.arriveTx _ _ _ _ (h.rreadTx ..))

@[simp] theorem State.memWf.rwriteTx (hd : Header) (data : List Byte) : (s.rwriteTx hd data).memWf :=
  h.serve _ fun f s hs => by
    dsimp only
    split
    · exact hs
    split
    · exact hs
    · exact (State.memWf_expose ..).mpr (hs.hbmWrite ..)

@[simp] theorem execRwrite_memWf (hd : Header) (data : List Byte) : Result.memWf (execRwrite hd data s) :=
  (Result.memWf_next _).mpr (h.arriveTx _ _ _ _ (h.rwriteTx ..))

@[simp] theorem State.memWf.rsignalTx (hd : Header) : (s.rsignalTx hd).memWf := by
  unfold State.rsignalTx
  extract_lets t
  split
  · split
    · simpa using h
    · exact h
  · refine h.serve _ fun f s hs => ?_
    split
    · exact hs
    · split
      · exact hs
      · simpa using hs

@[simp] theorem execRsignal_memWf (hd : Header) : Result.memWf (execRsignal hd s) :=
  (Result.memWf_next _).mpr (h.arriveTx _ _ _ _ (h.rsignalTx ..))

@[simp] theorem State.memWf.tsendTx (hd : Header) (data : List Byte) : (s.tsendTx hd data).memWf :=
  h.serve _ fun f s hs => by
    extract_lets a absent s1
    split
    · exact hs
    split
    · exact hs
    split
    · exact hs
    · have h1 : s1.memWf := by simpa [s1, ↓State.memWf_ite] using hs
      simpa using h1

@[simp] theorem execTsend_memWf (hd : Header) (data : List Byte) : Result.memWf (execTsend hd data s) :=
  (Result.memWf_next _).mpr (h.arriveTx _ _ _ _ (h.tsendTx ..))
@[simp] theorem execMcast_memWf (hd : Header) (data : List Byte) : Result.memWf (execMcast hd data s) :=
  (Result.memWf_next _).mpr (h.arriveTx _ _ _ _ (by simpa using h))
@[simp] theorem execPrune_memWf (hd : Header) : Result.memWf (execPrune hd s) := by
  simp [execPrune, ↓State.memWf_ite, h]

@[simp] theorem State.memWf.dataArrives (q : LinkReq) (b : List Byte) : (s.dataArrives q b).memWf := by
  unfold State.dataArrives
  extract_lets s1
  have h1 : s1.memWf := (State.memWf_dropReq ..).mpr h
  split
  · simpa using h1
  split
  · exact h1.copyPart ..
  split
  · simpa using h1
  split <;> simpa using h1

@[simp] theorem execReadData_memWf (hd : Header) (data : List Byte) : Result.memWf (execReadData hd data s) := by
  refine (Result.memWf_next _).mpr (h.arriveTx _ _ _ _ ?_)
  (repeat' split) <;> simp [h]

@[simp] theorem State.memWf.refused (q : LinkReq) : (s.refused q).memWf := by
  unfold State.refused
  extract_lets s1 pick
  split
  · simpa using h
  split
  · have h1 : s1.memWf := (State.memWf_copyTaint ..).mpr h
    split
    · exact State.memWf.copyPart (by simpa using h1) ..
    · exact h1
  split
  · simpa using h
  split
  next reason u e =>
  have hu : u.memWf := by
    refine State.memWf.of_eq (r := pick s) ?_ e
    dsimp only [pick]
    (repeat' split) <;> simpa using h
  dsimp only
  split
  · exact State.memWf.dataArrives (by simpa using hu) ..
  · simpa using hu

@[simp] theorem execAck_memWf (hd : Header) : Result.memWf (execAck hd s) := by
  refine (Result.memWf_next _).mpr (h.arriveTx _ _ _ _ ?_)
  dsimp only
  split
  · exact h
  split
  · simpa using h
  split
  · exact h
  · have lost (q : LinkReq) (s : State) (hs : s.memWf) : ((s.dropReq q).refused q).memWf :=
      State.memWf.refused (by simpa using hs) q
    simp [↓State.memWf_ite, h, lost]

@[simp] theorem execClear_memWf (hd : Header) : Result.memWf (execClear hd s) :=
  (Result.memWf_next _).mpr (h.arriveTx _ _ _ _ (by simp [↓State.memWf_ite, h]))
@[simp] theorem execWithdraw_memWf (hd : Header) : Result.memWf (execWithdraw hd s) :=
  (Result.memWf_next _).mpr (h.arriveTx _ _ _ _ (by simp [↓State.memWf_ite, h]))
@[simp] theorem execPosition_memWf (hd : Header) (t : Nat) (rate : Word) (hold : Bool) :
    Result.memWf (execPosition hd t rate hold s) := by
  simp [execPosition, ↓State.memWf_ite, h]
@[simp] theorem execFlowTimeout_memWf (flow : BitVec 16) : Result.memWf (execFlowTimeout flow s) := by
  simp [execFlowTimeout, h]
@[simp] theorem execExposureTimeout_memWf (p : PackIx) : Result.memWf (execExposureTimeout p s) := by
  simp [execExposureTimeout, h]
@[simp] theorem execPruneTimeout_memWf (group : BitVec 8) (branch : Nat) :
    Result.memWf (execPruneTimeout group branch s) := by
  simp only [execPruneTimeout, Result.memWf_next]
  split <;> simp [↓State.memWf_ite, h]
@[simp] theorem execLfBatchGo_memWf : Result.memWf (execLfBatchGo s) := by simp [execLfBatchGo, h]

/-! ### `Machine/Fabric.lean` -/

@[simp] theorem execHookRowAccepted_memWf (port : PortIx) : Result.memWf (execHookRowAccepted port s) := by
  simp only [execHookRowAccepted, Result.memWf_next]
  split <;> simp [↓State.memWf_ite, h]
@[simp] theorem execHookReturnBeat_memWf (port : PortIx) (b : Beat) : Result.memWf (execHookReturnBeat port b s) := by
  simp only [execHookReturnBeat, Result.memWf_next]
  (repeat' split) <;> simp [h]
@[simp] theorem execHookError_memWf (port : PortIx) (why : HookFail) : Result.memWf (execHookError port why s) := by
  simp only [execHookError, Result.memWf_next]
  (repeat' split) <;> simp [h]
end

theorem PortPass.memWf_place {a : PortPass} (ha : a.s.memWf) (p ask fn : Nat) (write : Bool) (g : Seg) :
    (a.place p ask fn write g).s.memWf := by
  unfold PortPass.place
  split
  · exact ha
  extract_lets data a1 done
  have hdone (b : List Byte) (s : State) (hs : s.memWf) : (done b s).s.memWf := by
    dsimp only [done]
    split <;> simpa using hs
  split
  · split
    · exact hdone _ _ (ha.hbmWrite ..)
    split
    next e => exact hdone _ _ ((ha.hbmRead ..).of_eq e)
    next e => exact (ha.hbmRead ..).of_eq e
  · split
    · exact hdone _ _ (ha.hostWriteAs ..)
    split
    · exact hdone _ _ ha
    · exact ha
  · split
    · exact ha
    · simpa using ha

section
variable {s : State} (h : s.memWf)
include h

theorem State.memWf.portAccess (p : Nat) (write : Bool) (va n : Nat) (data : List Byte) (t : State)
    (e : s.portAccess p write va n data = some t) : t.memWf := by
  unfold State.portAccess at e
  extract_lets fn ask s1 at e
  split at e
  · cases e
    simpa using h
  next gs _ =>
  split at e
  · cases e
  extract_lets a at e
  have ha : a.s.memWf := by
    have place_all (l : List Seg) (a : PortPass) (ha : a.s.memWf) :
        (l.foldl (fun a g => PortPass.place a p ask fn write g) a).s.memWf := by
      induction l generalizing a with
      | nil => exact ha
      | cons g l ih => exact ih _ (PortPass.memWf_place ha ..)
    exact place_all gs ⟨s1, [], data, true⟩ ((State.memWf_modPort ..).mpr h)
  cases e
  (repeat' split) <;> simpa using ha

theorem State.memWf.portTry (p : Nat) (r : PortRequest) (t : State) (e : s.portTry p r = some t) : t.memWf := by
  unfold State.portTry at e
  split at e
  · exact h.portAccess _ _ _ _ _ _ e
  · exact h.portAccess _ _ _ _ _ _ e
  · exact (State.memWf_of_portSignal e).mpr h

@[simp] theorem State.memWf.portServe (p : Nat) (l : List PortRequest) : (s.portServe p l).memWf := by
  induction l generalizing s with
  | nil => simpa [State.portServe] using h
  | cons r rs ih =>
    unfold State.portServe
    split
    next e => exact ih (h.portTry p r _ e)
    · simpa using h

@[simp] theorem State.memWf.portRetry (p : Nat) : (s.portRetry p).memWf := by
  unfold State.portRetry
  dsimp only
  split
  · exact h
  · exact h.portServe ..

@[simp] theorem State.memWf.portsRetry : s.portsRetry.memWf := h.foldl _ fun _ p hs => hs.portRetry p
@[simp] theorem execPortInitiatorRequest_memWf (port : PortIx) (r : PortRequest) :
    Result.memWf (execPortInitiatorRequest port r s) := by
  simp [execPortInitiatorRequest, h]
@[simp] theorem execPllLockLoss_memWf (pll : Fin 32) : Result.memWf (execPllLockLoss pll s) := by
  simp [execPllLockLoss, h]
@[simp] theorem execPllRelock_memWf (pll : Fin 32) : Result.memWf (execPllRelock pll s) := by simp [execPllRelock, h]
@[simp] theorem execBankSupplyLost_memWf (bank : Fin 4) : Result.memWf (execBankSupplyLost bank s) := by
  simp [execBankSupplyLost, h]
@[simp] theorem execBankSupplyReturn_memWf (bank level : Fin 4) : Result.memWf (execBankSupplyReturn bank level s) := by
  simp [execBankSupplyReturn, h]
@[simp] theorem execIsolate_memWf (region : RegionIx) : Result.memWf (execIsolate region s) := by simp [execIsolate, h]
@[simp] theorem execIsolateRelease_memWf (region : RegionIx) : Result.memWf (execIsolateRelease region s) := by
  simp [execIsolateRelease, h]
@[simp] theorem State.memWf.irqTick (levels : BitVec 64) : (s.irqTick levels).memWf := by
  unfold State.irqTick
  exact h.foldl _ fun s x hs => by simp [↓State.memWf_ite, hs]

/-! ### `Machine/Dawn.lean` -/

@[simp] theorem State.memWf.enterRecovery (n : Nat) : (s.enterRecovery n).memWf := by
  simp [State.enterRecovery, h]
@[simp] theorem State.memWf.dawnHbm : s.dawnHbm.memWf := by
  simp only [State.dawnHbm, State.memWf_checkLoss]
  simp only [State.memWf_foldl, State.memWf_declareFail, State.memWf_failStack, State.memWf_modStack, implies_true]
  exact ⟨h.1, Memory.wf_nil⟩
@[simp] theorem State.memWf.dawnOpen : s.dawnOpen.memWf := by
  simp only [State.dawnOpen, State.memWf_fixMeas, State.memWf_modSec, State.memWf_dawnBanks, State.memWf_dawnMuzzle,
    State.memWf_loadImage]
  exact State.memWf.dawnHbm ⟨h.1, Memory.wf_nil⟩

@[simp] theorem State.memWf.dawn : s.dawn.memWf := by
  unfold State.dawn
  split
  · exact h.railsDown _
  split
  · exact h.railsDown _
  split
  · exact h.enterRecovery _
  extract_lets s1
  have h1 : s1.memWf := by simpa [s1, ↓State.memWf_ite] using h
  split
  · exact h1.railsDown _
  split
  · exact h1.dawnOpen
  · exact h1.enterRecovery _

@[simp] theorem execVauxInRange_memWf : Result.memWf (execVauxInRange s) := by simp [execVauxInRange, h]
@[simp] theorem execVin48InRange_memWf : Result.memWf (execVin48InRange s) := by simp [execVin48InRange, h]
@[simp] theorem execFundamentalReset_memWf : Result.memWf (execFundamentalReset s) := by
  simp only [execFundamentalReset, Result.memWf_next]
  split <;> simp [h]
@[simp] theorem execPerstNRelease_memWf : Result.memWf (execPerstNRelease s) := by simp [execPerstNRelease, h]
@[simp] theorem execModuleReset_memWf : Result.memWf (execModuleReset s) := by
  simp only [execModuleReset, Result.memWf_next]
  split <;> simp [h]
@[simp] theorem execNightwatchFrame_memWf (e : FrameError) : Result.memWf (execNightwatchFrame e s) := by
  simp only [execNightwatchFrame, Result.memWf_next]
  (repeat' split) <;> simp [h]
@[simp] theorem execNightwatchPassEnd_memWf : Result.memWf (execNightwatchPassEnd s) := by
  simp [execNightwatchPassEnd, h]
@[simp] theorem execNightwatchStall_memWf : Result.memWf (execNightwatchStall s) := by simp [execNightwatchStall, h]
@[simp] theorem execPartialLoadGo_memWf (region : RegionIx) (source : Bool) :
    Result.memWf (execPartialLoadGo region source s) := by
  simp [execPartialLoadGo, h]
@[simp] theorem execPartialLoadStaged_memWf (readOk : Bool) : Result.memWf (execPartialLoadStaged readOk s) := by
  simp only [execPartialLoadStaged, Result.memWf_next]
  (repeat' split) <;> simp [h]
@[simp] theorem execPartialLoadWritten_memWf (readOk : Bool) : Result.memWf (execPartialLoadWritten readOk s) := by
  simp only [execPartialLoadWritten, Result.memWf_next]
  (repeat' split) <;> simp [h]
@[simp] theorem execDuskStandby_memWf (grace : BitVec 16) : Result.memWf (execDuskStandby grace s) := by
  simp [execDuskStandby, h]
@[simp] theorem execDuskReset_memWf (grace : BitVec 16) : Result.memWf (execDuskReset grace s) := by
  simp [execDuskReset, h]

@[simp] theorem State.memWf.duskEnd : s.duskEnd.memWf := by
  unfold State.duskEnd
  extract_lets again s1 s2
  have h2 : s2.memWf := State.memWf.railsDown ((State.memWf_cuesSafe ..).mpr h) _
  split
  · exact h2.dawn
  · exact h2

@[simp] theorem State.memWf.duskDrain : s.duskDrain.memWf := by
  simp [State.duskDrain, ↓State.memWf_ite, h]
@[simp] theorem execDuskGraceExpiry_memWf : Result.memWf (execDuskGraceExpiry s) := by simp [execDuskGraceExpiry, h]
@[simp] theorem State.memWf.supplyFalls : s.supplyFalls.memWf := by
  simp [State.supplyFalls, ↓State.memWf_ite, h]

/-! ### `Machine/Security.lean` -/

@[simp] theorem execRecoveryGo_memWf (kind : BitVec 2) (changed : Bool) :
    Result.memWf (execRecoveryGo kind changed s) := by
  simp only [execRecoveryGo, Result.memWf_next]
  (repeat' split) <;> simp [h]
@[simp] theorem execDebugNew_memWf : Result.memWf (execDebugNew s) := by simp [execDebugNew, h]
@[simp] theorem execDebugSubmit_memWf : Result.memWf (execDebugSubmit s) := by simp [execDebugSubmit, h]
@[simp] theorem execGetVersion_memWf : Result.memWf (execGetVersion s) := by simp [execGetVersion, h]
@[simp] theorem execGetCapabilities_memWf (v : SpdmVersion) : Result.memWf (execGetCapabilities v s) := by
  simp [execGetCapabilities, h]
@[simp] theorem execNegotiateAlgorithms_memWf (v : SpdmVersion) : Result.memWf (execNegotiateAlgorithms v s) := by
  simp [execNegotiateAlgorithms, h]
@[simp] theorem execGetDigests_memWf : Result.memWf (execGetDigests s) := by simp [execGetDigests, h]
@[simp] theorem execGetCertificate_memWf (slot off len : Nat) : Result.memWf (execGetCertificate slot off len s) := by
  simp [execGetCertificate, h]
@[simp] theorem execChallenge_memWf (v : SpdmVersion) (nonce : BitVec 256) :
    Result.memWf (execChallenge v nonce s) := by
  simp [execChallenge, h]
@[simp] theorem execGetMeasurements_memWf (v : SpdmVersion) (index : Nat) (signed : Bool) (nonce : BitVec 256) :
    Result.memWf (execGetMeasurements v index signed nonce s) := by
  simp [execGetMeasurements, h]
@[simp] theorem execMctpWake_memWf : Result.memWf (execMctpWake s) := by simp [execMctpWake, h]
@[simp] theorem execMctpStandby_memWf : Result.memWf (execMctpStandby s) := by simp [execMctpStandby, h]
@[simp] theorem execMcWatchdogExpiry_memWf : Result.memWf (execMcWatchdogExpiry s) := by simp [execMcWatchdogExpiry, h]
@[simp] theorem execMcRestart_memWf : Result.memWf (execMcRestart s) := by simp [execMcRestart, h]
@[simp] theorem execBypass_memWf : Result.memWf (execBypass s) := by simp [execBypass, h]
@[simp] theorem execIdcode_memWf : Result.memWf (execIdcode s) := by simp [execIdcode, h]
@[simp] theorem execSamplePreload_memWf (preload : BitVec 96) : Result.memWf (execSamplePreload preload s) := by
  simp [execSamplePreload, h]
@[simp] theorem execExtest_memWf : Result.memWf (execExtest s) := by simp [execExtest, h]
@[simp] theorem execExtestPulse_memWf : Result.memWf (execExtestPulse s) := by simp [execExtestPulse, h]
@[simp] theorem execExtestTrain_memWf : Result.memWf (execExtestTrain s) := by simp [execExtestTrain, h]

/-! ### `Machine/Telemetry.lean` -/

@[simp] theorem State.memWf.writeTel (p : Path) (e : TelEvent) : (s.writeTel p e).memWf := by
  unfold State.writeTel
  split <;> simp [↓State.memWf_ite, h]
@[simp] theorem State.memWf.flushAlarms (p : Path) : (s.flushAlarms p).memWf := by
  unfold State.flushAlarms
  exact h.foldl _ fun s x hs => by simp [↓State.memWf_ite, hs]
@[simp] theorem State.memWf.pathAlarm (e : TelEvent) (p : Path) : (s.pathAlarm e p).memWf := by
  simp [State.pathAlarm, h]
@[simp] theorem State.memWf.pathLog (e : TelEvent) (p : Path) : (s.pathLog e p).memWf := by simp [State.pathLog, h]
@[simp] theorem State.memWf.putTrace (e : TelEvent) : (s.putTrace e).memWf := by simp [State.putTrace, h]
@[simp] theorem State.memWf.trace (e : TelEvent) : (s.trace e).memWf := by simp [State.trace, h]
@[simp] theorem State.memWf.drainSamples : s.drainSamples.memWf := by
  unfold State.drainSamples
  exact State.memWf.foldl (by simp [h]) _ fun s x hs => by simp [hs]
@[simp] theorem State.memWf.pathMetric (e : TelEvent) (p : Path) : (s.pathMetric e p).memWf := by
  simp [State.pathMetric, h]
@[simp] theorem State.memWf.flushMetrics (p : Path) : (s.flushMetrics p).memWf := by
  unfold State.flushMetrics
  exact h.foldl _ fun s x hs => by simp [↓State.memWf_ite, hs]

@[simp] theorem State.memWf.emit (e : TelEvent) : (s.emit e).memWf := by
  unfold State.emit
  split
  · exact State.memWf.foldl (by simpa using h) _ fun _ p hs => hs.pathAlarm ..
  · exact State.memWf.foldl (by simpa using h) _ fun _ p hs => hs.pathLog ..
  · exact h.trace e
  · exact State.memWf.foldl (by simpa using h) _ fun _ p hs => hs.pathMetric ..

@[simp] theorem State.memWf.metricPeriod : s.metricPeriod.memWf := by
  unfold State.metricPeriod
  extract_lets w period s1
  split
  · exact h
  have h1 : s1.memWf := (State.memWf_modTel ..).mpr h
  exact h1.foldl _ fun s i hs => by simp [↓State.memWf_ite, hs]

@[simp] theorem execMetricPeriod_memWf : Result.memWf (execMetricPeriod s) := by simp [execMetricPeriod, h]
@[simp] theorem State.memWf.emitAlarm (tables : List (Path × List TelEvent)) (e : TelEvent) :
    (s.emitAlarm tables e).memWf := by
  unfold State.emitAlarm
  exact State.memWf.foldl (by simp [h]) _ fun s x hs => by simp [↓State.memWf_ite, hs]
@[simp] theorem State.memWf.telModerate : s.telModerate.memWf := by simp [State.telModerate, h]

@[simp] theorem State.memWf.telTick : s.telTick.memWf := by
  unfold State.telTick
  extract_lets s1 l s2 tables s3 s4 s5
  have h2 : s2.memWf := by simpa [s2, s1] using h
  have h3 : s3.memWf := h2.foldl _ fun s p hs => State.memWf.flushAlarms (by simpa using hs) p
  have h4 : s4.memWf := h3.foldl _ fun s p hs => hs.flushMetrics p
  have h5 : s5.memWf := h4.foldl _ fun s e hs => by simp [↓State.memWf_ite, hs]
  exact h5.metricPeriod.drainSamples.telModerate

@[simp] theorem State.memWf.counterTick : s.counterTick.memWf := by simp [State.counterTick, h]
@[simp] theorem execCntFreeze_memWf (mode : BitVec 2) : Result.memWf (execCntFreeze mode s) := by
  simp [execCntFreeze, h]
@[simp] theorem execCntTagSeed_memWf (seed : BitVec 24) : Result.memWf (execCntTagSeed seed s) := by
  simp [execCntTagSeed, h]

/-! ### `Machine/Commit.lean` -/

@[simp] theorem execCommitGroups_memWf (mask : Word) : Result.memWf (execCommitGroups mask s) := by
  simp [execCommitGroups, h]
@[simp] theorem execCommitDiscard_memWf (mask : Word) : Result.memWf (execCommitDiscard mask s) := by
  simp [execCommitDiscard, h]
@[simp] theorem execVfCommit_memWf (fn : Fn) : Result.memWf (execVfCommit fn s) := by simp [execVfCommit, h]
@[simp] theorem execVfDiscard_memWf (fn : Fn) : Result.memWf (execVfDiscard fn s) := by simp [execVfDiscard, h]
@[simp] theorem execCommit_memWf : Result.memWf (execCommit s) := by simp [execCommit, h]
@[simp] theorem execFunctionLevelReset_memWf (fn : Fn) : Result.memWf (execFunctionLevelReset fn s) := by
  simp [execFunctionLevelReset, h]

/-! ### `Machine/Dispatching.lean` -/

@[simp] theorem State.memWf.semsLoad (p : Nat) (d : Desc) (l : Loading) (is : List Nat) :
    (s.semsLoad p d l is).memWf := by
  induction is generalizing s l with
  | nil => simpa [State.semsLoad] using h
  | cons i rest ih =>
    unfold State.semsLoad
    extract_lets next a
    have hnext (s : State) (sems : Table (BitVec 16)) (hs : s.memWf) : (next s sems).memWf :=
      ih ((State.memWf_modTile ..).mpr hs) _
    split
    · exact hnext s [] h
    have hr := h.readVa d a 128
    split <;> next e => simp [hnext, hr.of_eq e]

@[simp] theorem State.memWf.startProgram (p : Nat) (d : Desc) (cues : Bool) : (s.startProgram p d cues).memWf :=
  State.memWf.semsLoad (by simpa using h) _ _ _ _

@[simp] theorem State.memWf.tableRead (p : Nat) (d : Desc) (x : Nat) (b : List Byte) : (s.tableRead p d x b).memWf := by
  unfold State.tableRead
  extract_lets sh l s1
  split
  · simpa using h
  · exact State.memWf.startProgram (by simpa [s1] using h) _ _ _

@[simp] theorem State.memWf.headRead (p : Nat) (d : Desc) (x : Nat) : (s.headRead p d x).memWf := by
  unfold State.headRead
  extract_lets sh va s1
  split
  · simpa using h
  have h1 : s1.memWf := (State.memWf_setLoading ..).mpr h
  have hr := h1.readVa d (va + imgTable x) (64 * (sh.width * sh.height))
  split <;> next e => simp [hr.of_eq e]

@[simp] theorem State.memWf.loadProgram (p : Nat) (d : Desc) : (s.loadProgram p d).memWf := by
  unfold State.loadProgram
  extract_lets s1
  have h1 : s1.memWf := (State.memWf_setLoading ..).mpr h
  have hr := h1.readVa d d.f.program.toNat 64
  split <;> next e => simp [hr.of_eq e]

@[simp] theorem State.memWf.loadStep (p : Nat) : (s.loadStep p).memWf := by
  unfold State.loadStep
  split
  · split
    · exact h
    split
    · exact h.semsLoad ..
    split
    · exact h.headRead ..
    · exact h.loadProgram ..
  · exact h

@[simp] theorem State.memWf.startCopy (p : Nat) (d : Desc) : (s.startCopy p d).memWf :=
  State.memWf.copyPump (by simpa using h) p
@[simp] theorem State.memWf.contentsLost (p : Nat) (d : Desc) : (s.contentsLost p d).memWf :=
  State.memWf.record (by simpa using h) _
@[simp] theorem State.memWf.lostAgain (p : Nat) (d : Desc) : (s.lostAgain p d).memWf :=
  State.memWf.record (by simpa using h) _

@[simp] theorem State.memWf.dispatchDesc (p : Nat) (d : Desc) : (s.dispatchDesc p d).memWf := by
  unfold State.dispatchDesc
  split
  · exact h.contentsLost ..
  extract_lets s1 s2 s3 d1
  have h3 : s3.memWf := by simpa [s3, s2, s1] using h
  split
  · exact h3.startCopy ..
  · exact h3.loadProgram ..

@[simp] theorem State.memWf.lostDispatch (p : Nat) : (s.lostDispatch p).memWf := by
  unfold State.lostDispatch
  (repeat' split) <;> simp [h]

@[simp] theorem State.memWf.dispatchPack (p : Nat) : (s.dispatchPack p).memWf := by
  unfold State.dispatchPack
  split
  · split
    · exact h.dispatchDesc ..
    · exact h
  · exact h

@[simp] theorem execDispatch_memWf (p : PackIx) : Result.memWf (execDispatch p s) := by simp [execDispatch, h]

@[simp] theorem State.memWf.nextIteration (p : Nat) : (s.nextIteration p).memWf := by
  unfold State.nextIteration
  split
  · exact h
  next d _ =>
  split
  · exact h
  split
  · exact h.lostAgain ..
  have hc : (s.claimSlot d.fn.val d.cq).2.memWf := (State.memWf_claimSlot ..).mpr h
  split
  next e => exact hc.of_eq e
  next e => exact State.memWf.startProgram (by simpa using hc.of_eq e) _ _ _

@[simp] theorem execLoopResume_memWf (p : PackIx) : Result.memWf (execLoopResume p s) := by simp [execLoopResume, h]

@[simp] theorem State.memWf.replayStep (p : Nat) : (s.replayStep p).memWf := by
  unfold State.replayStep
  split
  · split
    · exact h
    split
    · simp [↓State.memWf_ite, h]
    split
    · exact h
    split
    · exact h.lostAgain ..
    · exact State.memWf.startProgram (by simpa using h) _ _ _
  · exact h

@[simp] theorem execWholeReplay_memWf (p : PackIx) : Result.memWf (execWholeReplay p s) := by simp [execWholeReplay, h]

@[simp] theorem State.memWf.tableLoad (d : Desc) : (s.tableLoad d).memWf := by
  unfold State.tableLoad
  extract_lets begun fails
  have hr := h.readVa d d.f.program.toNat tableBytes
  split
  next e => exact hr.of_eq e
  next e => simpa [fails] using hr.of_eq e
  next e => simpa [begun] using hr.of_eq e
  next u e =>
    have hu : u.memWf := hr.of_eq e
    have hb : (begun u).memWf := (State.memWf_modDesc ..).mpr hu
    split
    · exact hb
    · exact (State.memWf_modDesc ..).mpr hu

@[simp] theorem State.memWf.swapTablesLate (p : Nat) : (s.swapTablesLate p).memWf :=
  State.memWf.foldl (by simpa using h) _ fun _ id hs => hs.record id
@[simp] theorem State.memWf.writeRecords : s.writeRecords.memWf :=
  State.memWf.writeOtherRecords <|
    State.memWf.foldl (by simpa using h.writePackRecords) _ fun _ p hs => hs.lostDispatch p
@[simp] theorem execTableSwap_memWf (w : SwapTable) : Result.memWf (execTableSwap w s) := by
  simp only [execTableSwap, Result.memWf_next]
  split <;> simp [↓State.memWf_ite, h]

/-! ### `Machine/Sync.lean` -/

@[simp] theorem execNop_memWf (tile : TileId) (e : Engine) (u : Upset) :
    Result.memWf (execNop tile e u s) :=
  h.issueOp_next _ _ _ fun c _ s hs => hs.controlUnder _ _ _ fun s hs => by simpa using hs
@[simp] theorem execHalt_memWf (tile : TileId) (e : Engine) (u : Upset) :
    Result.memWf (execHalt tile e u s) :=
  h.issueOp_next _ _ _ fun c _ s hs => hs.controlUnder _ _ _ fun s hs => by simpa using hs
@[simp] theorem execStreamEnd_memWf (tile : TileId) (e : Engine) : Result.memWf (execStreamEnd tile e s) := by
  simp only [execStreamEnd, Result.memWf_next]
  split <;> simp [↓State.memWf_ite, h]

@[simp] theorem execJmp_memWf (tile : TileId) (e : Engine) (u : Upset) :
    Result.memWf (execJmp tile e u s) :=
  h.issueOp_next _ _ _ fun c i s hs => by
    split
    · exact hs.controlUnder _ _ _ fun s hs => by simpa using hs
    · exact hs

@[simp] theorem execBrc_memWf (tile : TileId) (e : Engine) (u : Upset) :
    Result.memWf (execBrc tile e u s) :=
  h.issueOp_next _ _ _ fun c i s hs => by
    split
    · exact hs.controlUnder _ _ _ fun s hs => by split <;> simpa using hs
    · exact hs

@[simp] theorem execLoopInstruction_memWf (tile : TileId) (e : Engine) (u : Upset) :
    Result.memWf (execLoopInstruction tile e u s) :=
  h.issueOp_next _ _ _ fun c i s hs => by
    split
    · exact hs.controlUnder _ _ _ fun s hs => by simpa using hs
    · exact hs

@[simp] theorem execUndefinedOpcode_memWf (tile : TileId) (e : Engine) :
    Result.memWf (execUndefinedOpcode tile e s) := by
  rw [execUndefinedOpcode, Result.memWf_next]
  exact h.issue _ _ _ fun _ _ _ hs => hs

@[simp] theorem execSig_memWf (tile : TileId) (e : Engine) (u : Upset) :
    Result.memWf (execSig tile e u s) :=
  h.issueOp_next _ _ _ fun c i s hs => by
    split
    · exact hs.controlUnder _ _ _ fun s hs => by simpa using hs
    · exact hs

@[simp] theorem execSigx_memWf (tile : TileId) (e : Engine) (u : Upset) :
    Result.memWf (execSigx tile e u s) :=
  h.issueOp_next _ _ _ fun c i s hs => by
    split
    · exact hs.controlUnder _ _ _ fun s hs => by simpa using hs
    · exact hs

@[simp] theorem execSignalArrival_memWf (tile : TileId) (u : Upset) : Result.memWf (execSignalArrival tile u s) := by
  rw [execSignalArrival, Result.memWf_next]
  split
  · exact h
  · dsimp only
    split
    · simpa using h
    · refine State.memWf.tileUnder ?_ tile u fun s hs => by simpa using hs
      exact h

@[simp] theorem execWait_memWf (tile : TileId) (e : Engine) (u : Upset) :
    Result.memWf (execWait tile e u s) :=
  h.issueOp_next _ _ _ fun c i s hs => by
    split
    · exact hs.controlUnder _ _ _ fun s hs => by simpa using hs
    · exact hs

@[simp] theorem execBarrier_memWf (tile : TileId) (e : Engine) (u : Upset) :
    Result.memWf (execBarrier tile e u s) :=
  h.issueOp_next _ _ _ fun c i s hs => by
    split
    · exact hs.controlUnder _ _ _ fun s hs => by split <;> simpa using hs
    · exact hs

@[simp] theorem execInstructionRetire_memWf (tile : TileId) (e : Engine) :
    Result.memWf (execInstructionRetire tile e s) := by
  simp only [execInstructionRetire, Result.memWf_next]
  (repeat' split) <;> simp [h]
@[simp] theorem State.memWf.snapshot (p : Nat) (d : Desc) (cause : Nat) : (s.snapshot p d cause).memWf := by
  simp [State.snapshot, h]
@[simp] theorem State.memWf.waitTimeouts (p : Nat) : (s.waitTimeouts p).memWf := by
  unfold State.waitTimeouts
  split <;> simp [↓State.memWf_ite, h]
@[simp] theorem execWaitTimeout_memWf (tile : TileId) (e : Engine) : Result.memWf (execWaitTimeout tile e s) := by
  simp only [execWaitTimeout, Result.memWf_next]
  split <;> simp [↓State.memWf_ite, h]
@[simp] theorem State.memWf.deadlock (p : Nat) (d : Desc) : (s.deadlock p d).memWf := by simp [State.deadlock, h]
@[simp] theorem State.memWf.deadTick (p : Nat) : (s.deadTick p).memWf := by
  unfold State.deadTick
  split <;> simp [↓State.memWf_ite, h]
@[simp] theorem execSyncDeadlock_memWf (p : PackIx) : Result.memWf (execSyncDeadlock p s) := by
  simp only [execSyncDeadlock, Result.memWf_next]
  split <;> simp [↓State.memWf_ite, h]

/-! ### `Machine/Network.lean` -/

@[simp] theorem State.memWf.bodyTx (ty : TxType) (hd : Header) (len : Nat) (data : List Byte) :
    (bodyTx ty hd len data s).memWf := by
  unfold Machine.bodyTx
  split <;> simp [h]
@[simp] theorem State.memWf.runInbound (x : Inbound) : (s.runInbound x).memWf := by
  unfold State.runInbound
  (repeat' split) <;> simp [h]

@[simp] theorem State.memWf.releaseInbound : s.releaseInbound.memWf := by
  unfold State.releaseInbound
  extract_lets l
  split
  · exact h
  · exact (State.memWf_pump ..).mpr (State.memWf.foldl (by simpa using h) _ fun _ x hs => hs.runInbound x)

@[simp] theorem State.memWf.retryTick : s.retryTick.memWf := by
  unfold State.retryTick
  extract_lets s1 live s2 runs s3
  have h1 : s1.memWf := State.memWf.foldl (by simpa using h) _ fun _ p hs => hs.loadStep p
  have h3 : s3.memWf := by simpa [s3, s2] using h1
  exact h3.copyPumps.portsRetry

@[simp] theorem execNetworkPacket_memWf (src dest stop : NetStop) (fails : Nat) (load : NetLoad) :
    Result.memWf (execNetworkPacket src dest stop fails load s) := by
  simp [execNetworkPacket, h]
@[simp] theorem State.memWf.wakeDone (d : Nat) : (s.wakeDone d).memWf := State.memWf.releaseInbound (by simpa using h)
@[simp] theorem execDomainWakeComplete_memWf (row : Fin 36) (right : Bool) :
    Result.memWf (execDomainWakeComplete row right s) := by
  simp [execDomainWakeComplete, h]

@[simp] theorem State.memWf.domainTick : s.domainTick.memWf := by
  unfold State.domainTick
  extract_lets due s1 busy s2
  have h1 : s1.memWf := h.foldl _ fun _ e hs => hs.wakeDone e.1
  simpa [s2] using h1

/-! ### `Machine/Registers.lean` -/

@[simp] theorem execLowWordRead_memWf (fn : Fn) (off : BitVec 24) (width : Nat) :
    Result.memWf (execLowWordRead fn off width s) := by
  simp [execLowWordRead, h]

@[simp] theorem State.memWf.writeSec (o : Nat) (w : Wr) : (s.writeSec o w).memWf := by
  have hu := ((execSecUpdGo_memWf s (BitVec.ofNat 2 w.ones)).mpr h).after h
  have hc := ((execSecSvnCommit_memWf s).mpr h).after h
  have hr := (execRecoveryGo_memWf h (BitVec.ofNat 2 w.ones) false).after h
  simp [State.writeSec, ↓State.memWf_ite, h, hu, hc, hr]

@[simp] theorem State.memWf.writeFormed (a : Nat) (w : Wr) : (s.writeFormed a w).memWf := by
  unfold State.writeFormed
  split
  · simp [↓State.memWf_ite, h]
  extract_lets o
  split <;> simp [↓State.memWf_ite, h]

@[simp] theorem State.memWf.writePlain (i : RegInfo) (a : Nat) (w : Wr) : (s.writePlain i a w).memWf := by
  simp only [State.writePlain, execIsolate, execIsolateRelease, Result.after]
  (repeat' split) <;> simp [h]

@[simp] theorem State.memWf.write32 (a : Nat) (en : BitVec 4) (data : Word) : (s.write32 a en data).memWf := by
  unfold State.write32
  split
  · exact h
  split
  · dsimp only
    split
    · simpa using h
    · exact h.writePlain ..
  · exact h.writeFormed ..

@[simp] theorem State.memWf.writeAt (fn : Fn) (off : Nat) (en : BitVec 4) (data : Word) :
    (s.writeAt fn off en data).memWf := by
  unfold State.writeAt
  split
  · split
    · exact h.write32 ..
    · exact h
  · exact h

@[simp] theorem State.memWf.writeBar (fn : Fn) (off width : Nat) (en : BitVec 8) (data : DWord) :
    (s.writeBar fn off width en data).memWf := by
  unfold State.writeBar
  split
  · exact h.writeAt ..
  split
  · exact (h.writeAt ..).writeAt ..
  · exact h

@[simp] theorem execRegisterWrite_memWf (fn : Fn) (off : BitVec 24) (width : Nat) (en : BitVec 8) (data : DWord) :
    Result.memWf (execRegisterWrite fn off width en data s) := by
  simp [execRegisterWrite, h]
@[simp] theorem execHifEarlySample_memWf (fn : Fn) (t : Nat) : Result.memWf (execHifEarlySample fn t s) := by
  simp [execHifEarlySample, h]

/-! ### `Machine/Tick.lean` -/

@[simp] theorem State.memWf.latchInputs (i : TickIn) : (s.latchInputs i).memWf := by
  have hm : (i.stores.foldl (fun m e => m.writeByte e.1 e.2) s.host.mem).wf = true :=
    Memory.wf_foldl _ _ _ (fun m e => Memory.wf_writeByte m _ _) h.1
  simp [State.latchInputs, ↓State.memWf_ite, hm, h.2]

@[simp] theorem State.memWf.swapsDue : s.swapsDue.memWf := by
  unfold State.swapsDue
  extract_lets s1
  have h1 : s1.memWf := State.memWf.releaseInbound (by
    have : s.swapPages.swapRetirements.memWf := State.memWf.swapRetirements (by simpa using h)
    simpa using this)
  simpa using h1

@[simp] theorem State.memWf.packFaults (p : Nat) : (s.packFaults p).memWf := by
  unfold State.packFaults
  split
  · exact h
  split
  · exact h
  split
  · simp [h]
  · exact h.foldl _ fun s i hs => hs.foldl _ fun s c ht => ht.sampleFault ..

@[simp] theorem State.memWf.complete (id : Nat) : (s.complete id).memWf := by
  unfold State.complete
  split
  · exact h
  next d _ =>
  extract_lets s1
  have h1 : s1.memWf := h.sampleCompletion d
  split
  · split
    · simpa using h1
    · exact h1
  · exact h1

@[simp] theorem State.memWf.class5Pack (l : List FaultEv) (p : Nat) : (State.class5Pack l s p).memWf := by
  unfold State.class5Pack
  extract_lets s1 s2 s3 ids
  have h2 : s2.memWf := by
    have h1 : ((s1.sampleNans p).sampleMisses p).memWf := by simpa [s1] using h
    exact ((h1.packFaults p).waitTimeouts p).deadTick p
  have h3 : s3.memWf := (State.memWf_flowTimeouts ..).mpr h2
  simpa using h3.foldl ids fun _ id hs => hs.complete id

@[simp] theorem State.memWf.class5 : s.class5.memWf := by
  have h1 : ({ s with tiles := { s.tiles with faults := [] } } : State).memWf := h
  simpa [State.class5] using h1.foldl (List.range 64) fun _ p hs => hs.class5Pack s.tiles.faults p

@[simp] theorem State.memWf.submit (d : Desc) : (s.submit d).memWf := by
  unfold State.submit
  split
  · split
    next e => simpa using (h.pageReady ..).of_eq e
  split
  · split
    · exact h
    · exact h.tableLoad d
  split <;> simpa using h

@[simp] theorem State.memWf.class6 : s.class6.memWf := h.foldl _ fun _ d hs => hs.submit d
@[simp] theorem State.memWf.class7 (irq : BitVec 64) : (s.class7 irq).memWf := ((h.irqTick irq).telTick).counterTick

@[simp] theorem State.memWf.dispatches : s.dispatches.memWf := by
  unfold State.dispatches
  extract_lets s1 s2 s3
  have h1 : s1.memWf := State.memWf.retryTick (by simpa using h)
  have h2 : s2.memWf := h1.foldl _ fun _ p hs => hs.replayStep p
  have h3 : s3.memWf := by simpa [s3, ↓State.memWf_ite] using h2
  exact (State.memWf_evalCues ..).mpr (h3.foldl _ fun _ p hs => (hs.nextIteration p).dispatchPack p)

@[simp] theorem State.memWf.tickRest (i : TickIn) : (s.tickRest i).memWf := by
  unfold State.tickRest
  extract_lets s1 s2
  have h1 : (s1.class7 i.irq).memWf := h.class5.class6.writeRecords.class7 _
  have h2 : s2.memWf := State.memWf.dispatches (by simpa using h1)
  have h3 := h2.sampleDoorbells.moderateAll.flushExpired
  simpa using h3

@[simp] theorem State.memWf.tickHead (i : TickIn) (len : Nat) : (s.tickHead i len).memWf := by
  unfold State.tickHead
  extract_lets s1 s2 s3 s4
  have h1 : s1.memWf := State.memWf.swapsDue (by simpa using h)
  have h4 : s4.memWf := by
    have : (s3.class1.commits1.class2).domainTick.memWf := State.memWf.domainTick (by simpa [s3, s2] using h1)
    simpa [s4] using this
  exact State.memWf.duskDrain (by simpa using h4)

@[simp] theorem State.memWf.oneTick (i : TickIn) : (s.oneTick i).memWf := by
  unfold State.oneTick
  extract_lets len s1 n s2
  have h1 : s1.memWf := by
    have : (((s.latchInputs i).newEdge.occupy len).cntTick.supplyFalls).memWf :=
      State.memWf.supplyFalls (by simpa using h.latchInputs i)
    simpa [s1] using this
  have h2 : s2.memWf := h1.tickHead i len
  split
  · exact h1
  split
  · exact h2
  · exact h2.tickRest i

@[simp] theorem execTick_memWf (inp : TickIn) : Result.memWf (execTick inp s) := by simp [execTick, h]

/-! ### Every command -/

theorem exec_memWf (c : Instr) : Result.memWf (exec c s) := by
  cases c <;> simp [exec, h]
end

/-- Settles O3: a step idles, or runs the command at the front of the queue, and every command keeps the memories
canonical (`exec_memWf`). -/
theorem everyStepKeepsTheMemoriesCanonical : Obligations.EveryStepKeepsTheMemoriesCanonical := by
  intro s t h e
  cases hq : s.pending with
  | nil =>
    rw [step_idle s hq] at e
    cases e
    exact h
  | cons c cs =>
    rw [step_front s c cs hq] at e
    exact exec_memWf (s := { s with pending := cs }) h c t e

end Sys2Proof.Machine
end

section
/-! SUPPORT. Completions and records (R81 to R90): the bytes of a record and what it leaves alone. -/
namespace Sys2Proof.Machine
open Sys2Proof

variable (s : State)

theorem length_leBytes (n x : Nat) : (leBytes n x).length = n := by
  induction n generalizing x with
  | zero => rfl
  | succ n ih => simp [leBytes, ih]

/-- An event counted changes the counters alone (R391). -/
theorem State.countEv_eq (u ev n : Nat) : s.countEv u ev n = { s with cnt := (s.countEv u ev n).cnt } := by
  have fold (l : List Nat) : ∀ t : State, t = { s with cnt := t.cnt } →
      l.foldl (fun s i => s.setUnit u ((s.cntUnit u).add i n)) t =
        { s with cnt := (l.foldl (fun s i => s.setUnit u ((s.cntUnit u).add i n)) t).cnt } := by
    induction l with
    | nil => exact fun _ h => h
    | cons i l ih => exact fun t h => ih _ (by rw [h]; rfl)
  unfold State.countEv
  split
  · rfl
  · exact fold _ s rfl

/-- The charge of a record draws Leash's estimates and changes the energy account, and nothing else (R379, R380). -/
theorem State.recordEnergy_eq (d : Desc) :
    (s.recordEnergy d).2 = { s with fresh := (s.recordEnergy d).2.fresh, energy := (s.recordEnergy d).2.energy } := by
  unfold State.recordEnergy
  split <;> rfl

@[simp] theorem State.ring_modRing_same (f r : Nat) (g : RingSt → RingSt) : (s.modRing f r g).ring f r = g (s.ring f r) :=
  Table.get_put_same ..

/-- The 32 bytes of a record whose charge is `energy` (R81, R82). -/
def State.recordBytes (s : State) (d : Desc) (energy : Nat) : List Byte :=
  let k := s.ring d.fn.val d.cq
  leBytes 2 d.status ++ leBytes 2 (d.recordFlags (decide (2 ^ 32 ≤ energy)) +
    32768 * (if k.tail / s.cqSize d.fn.val d.cq % 2 = 0 then 1 else 0)) ++ leBytes 4 d.f.job.toNat ++ leBytes 2 d.slot ++
    leBytes 2 d.ring.val ++ leBytes 4 (min energy (2 ^ 32 - 1)) ++
    leBytes 8 (if d.undispatched || !d.occupies then s.cad.pos else d.run.startPos) ++ leBytes 8 s.cad.pos

theorem State.length_recordBytes (d : Desc) (energy : Nat) : (s.recordBytes d energy).length = 32 := by
  simp [State.recordBytes, length_leBytes]

/-- Where a ring's next record goes (R81). -/
def State.recordAddr (s : State) (f cq : Nat) : Nat := s.ringAddr f cq 0x20 + 32 * ((s.ring f cq).tail % s.cqSize f cq)

/-- A record without a tag writes its bytes, counts once in its ring, and keeps HBM, the registers, the tiles and the
position: what else it does is the charge (R379) and the event (R391). -/
theorem State.putRecord_untagged (d : Desc) (h : d.f.tag = 0) :
    (s.putRecord d).host.mem =
      s.host.mem.writeBytes (s.recordAddr d.fn.val d.cq) (s.recordBytes d (s.recordEnergy d).1) ∧
    ((s.putRecord d).ring d.fn.val d.cq).tail = ((s.ring d.fn.val d.cq).tail + 1) % 2 ^ 32 ∧
    ((s.putRecord d).ring d.fn.val d.cq).reserved = (s.ring d.fn.val d.cq).reserved - 1 ∧
    ((s.putRecord d).ring d.fn.val d.cq).pend = (s.ring d.fn.val d.cq).pend + 1 ∧
    (s.putRecord d).hbm = s.hbm ∧ (s.putRecord d).regs = s.regs ∧ (s.putRecord d).tiles = s.tiles ∧
    (s.putRecord d).cad = s.cad := by
  unfold State.putRecord
  simp only [h, if_true]
  rw [State.countEv_eq, s.recordEnergy_eq d]
  refine ⟨rfl, ?_⟩
  simp only [State.ring_modRing_same]
  simp [State.ring, State.modRing, State.hostWriteAs]

/-- A program is complete when every engine has halted and nothing is outstanding (R152). -/
theorem exec_programComplete (p : PackIx) : exec (.programComplete p) s = .next (s.finish p.val) := rfl

theorem exec_descriptorRetired (id : Nat) (d : Desc) (h : s.desc? id = some d) :
    exec (.descriptorRetired id) s = .next (s.endIfRetired d) := by
  simp only [exec, execDescriptorRetired, h]

theorem State.finish_complete (p : Nat) (d : Desc) (hd : s.running p = some d) (hp : d.phase = .running)
    (hc : s.programDone d = true) : s.finish p = s.modDesc d.id fun x =>
      { x with phase := .finished, run := { x.run with matched := x.run.matched || x.run.whole } } := by
  simp [State.finish, hd, hp, hc]

theorem State.finish_incomplete (p : Nat) (d : Desc) (hd : s.running p = some d) (hc : s.programDone d = false) :
    s.finish p = s := by
  simp [State.finish, hd, hc]

theorem State.endIfRetired_retired (d : Desc) (hp : d.phase = .ending) (hr : s.retired d.pack d.id = true) :
    s.endIfRetired d = s.modDesc d.id fun d => { d with phase := .ended } := by
  simp [State.endIfRetired, hp, hr]

theorem State.endIfRetired_outstanding (d : Desc) (hr : s.retired d.pack d.id = false) : s.endIfRetired d = s := by
  simp [State.endIfRetired, hr]

theorem State.desc?_id (id : Nat) (d : Desc) (h : s.desc? id = some d) : d.id = id := by
  simpa using List.find?_some h

/-- Settles O15: `State.finish` and `State.endIfRetired` by their guards, and a record by `State.putRecord_untagged`. -/
theorem completionsAreRecorded : Obligations.CompletionsAreRecorded := by
  refine ⟨fun s p id d => ⟨fun hd hp hc => ?_, fun hd hc => ?_, fun hd hp hr => ?_, fun hd hr => ?_⟩,
    fun s d htag => ?_⟩
  · rw [exec_programComplete, s.finish_complete p.val d hd hp hc]
  · rw [exec_programComplete, s.finish_incomplete p.val d hd hc]
  · rw [exec_descriptorRetired s id d hd, s.endIfRetired_retired d hp hr, s.desc?_id id d hd]
  · rw [exec_descriptorRetired s id d hd, s.endIfRetired_outstanding d hr]
  · intro k a t
    obtain ⟨hmem, hframe⟩ := s.putRecord_untagged d htag
    have hlen := s.length_recordBytes d (s.recordEnergy d).1
    refine ⟨⟨(s.recordEnergy d).1, ?_⟩, fun b hb => ?_, hframe⟩
    · rw [hmem]
      have read := Memory.readBytes_writeBytes_same s.host.mem a (s.recordBytes d (s.recordEnergy d).1)
      rw [hlen] at read
      exact read
    · rw [hmem]
      exact Memory.readByte_writeBytes_other _ _ _ _ (by rwa [hlen])

end Sys2Proof.Machine
end

section
/-! SUPPORT. Fences, interrupt moderation and the masks of vectors (R79, R85 to R87). -/
namespace Sys2Proof.Machine
open Sys2Proof

variable (s : State)

theorem exec_completionRecord (id : Nat) (d : Desc) (hd : s.desc? id = some d) (hp : d.phase = .ended) :
    exec (.completionRecord id) s = .next (((s.record id).headWriteBack d.fn.val d.ring.val).moderate d.fn.val d.cq) := by
  simp only [exec, execCompletionRecord, hd, State.recordDue, hp, beq_self_eq_true, Bool.true_or, if_true]

/-! ### A FENCE (R79) -/

/-- A FENCE is ready when nothing of its ring comes before it. -/
theorem State.fenceReady_of_first (d : Desc) (hc : d.f.cls = 3) (hp : d.phase = .waiting) (hone : s.shep.descs = [d])
    (hr : (s.ring d.fn.val d.ring.val).reads = []) : s.fenceReady d = true := by
  simp [State.fenceReady, hc, hp, hone, hr]

theorem State.recordOther_fence (id : Nat) (d : Desc) (hd : s.desc? id = some d) (hf : s.fenceReady d = true) :
    s.recordOther id = (s.modDesc id fun x => { x with phase := .ended, undispatched := false }).record id := by
  simp only [State.recordOther, hd, hf, if_true]

theorem exec_fenceComplete (fn : Fn) (ring : RingIx) (d : Desc)
    (hd : (s.shep.descs.find? fun d => d.fn == fn && d.ring == ring && s.fenceReady d) = some d) :
    exec (.fenceComplete fn ring) s = .next ((s.recordOther d.id).moderate fn.val d.cq) := by
  simp only [exec, execFenceComplete, hd]

/-! ### Messages (R85 to R87) -/

/-- A message sent is one more entry of the list of messages and a write to host memory: registers, rings and functions
keep what they hold. -/
theorem State.msixWrite_frame (f v : Nat) :
    (s.msixWrite f v).host.msix = s.host.msix ++ [(f, v)] ∧ (s.msixWrite f v).shep = s.shep ∧
    (s.msixWrite f v).regs = s.regs ∧ (s.msixWrite f v).mod = s.mod := by
  unfold State.msixWrite
  rw [State.countEv_eq]
  simp [State.hostWriteAs, State.hostWrite]

@[simp] theorem State.fn_modFn_same (f : Nat) (g : FnSt → FnSt) : (s.modFn f g).fn f = g (s.fn f) := Table.get_put_same ..

@[simp] theorem State.reg_setReg_same (a : Nat) (v : Word) : (s.setReg a v).reg a = v := Table.get_set_same ..

theorem State.modDue_of_time (f r : Nat) (ht : bits (s.ringRegN f r 0x34) 16 16 ≠ 0) (hp : (s.ring f r).pend ≠ 0)
    (hn : bits (s.ringRegN f r 0x34) 16 16 ≤ s.tick.count - (s.ring f r).pendAt) : s.modDue f r = true := by
  simp [State.modDue, ht, hp, hn]

theorem exec_modTimeExpiry (fn : Fn) (ring : RingIx) (ht : bits (s.ringRegN fn.val ring.val 0x34) 16 16 ≠ 0)
    (hp : (s.ring fn.val ring.val).pend ≠ 0)
    (hn : bits (s.ringRegN fn.val ring.val 0x34) 16 16 ≤ s.tick.count - (s.ring fn.val ring.val).pendAt) :
    exec (.modTimeExpiry fn ring) s = .next (s.moderate fn.val ring.val) := by
  simp only [exec, execModTimeExpiry, ne_eq, ht, hp, hn, not_false_eq_true, and_self, if_true]

/-- Moderation that is due sends the ring's vector and clears the ring's counts. -/
theorem State.moderate_due (f r : Nat) (h : s.modDue f r = true) :
    s.moderate f r =
      ((s.msixSend f (bits (s.ringRegN f r 0x30) 7 11)).modRing f r fun k => { k with pend := 0 }).modRing f r
        fun k => { k with errNow := false } := by
  simp only [State.moderate, h, if_true]

theorem State.msixSend_unmasked (f v : Nat) (hv : v < s.vecCount f) (hs : s.host.msix.contains (f, v) = false)
    (hm : (s.reg (msixEntry f v + 12)).getLsbD 0 = false) : s.msixSend f v = s.msixWrite f v := by
  simp only [State.msixSend, Nat.not_le.mpr hv, hs, hm, if_false, Bool.false_eq_true]

theorem State.msixSend_masked (f v : Nat) (hv : v < s.vecCount f) (hs : s.host.msix.contains (f, v) = false)
    (hm : (s.reg (msixEntry f v + 12)).getLsbD 0 = true) : s.msixSend f v = s.modFn f fun x =>
      if x.msixPending.contains v then x else { x with msixPending := x.msixPending ++ [v] } := by
  simp only [State.msixSend, Nat.not_le.mpr hv, hs, hm, if_false, if_true, Bool.false_eq_true]

/-- A masked vector's pending bit is set (R87). -/
theorem State.msixSend_pending (f v : Nat) (hv : v < s.vecCount f) (hs : s.host.msix.contains (f, v) = false)
    (hm : (s.reg (msixEntry f v + 12)).getLsbD 0 = true) :
    (s.msixSend f v).host = s.host ∧ ((s.msixSend f v).fn f).msixPending.contains v = true := by
  rw [s.msixSend_masked f v hv hs hm, State.fn_modFn_same]
  refine ⟨rfl, ?_⟩
  split
  case isTrue h => exact h
  case isFalse => simp

/-- Unmasking a vector whose message waits clears both bits and sends it (R87). -/
theorem State.unmask_pending (f v : Nat) (hp : (s.fn f).msixPending.contains v = true) :
    (s.unmask f v).host.msix = s.host.msix ++ [(f, v)] ∧ ((s.unmask f v).fn f).msixPending.contains v = false ∧
    ((s.unmask f v).reg (msixEntry f v + 12)).getLsbD 0 = false := by
  let u := s.setReg (msixEntry f v + 12) (s.reg (msixEntry f v + 12) &&& 0xFFFFFFFE)
  let w := u.modFn f fun x => { x with msixPending := x.msixPending.filter (· != v) }
  have hu : s.unmask f v = w.msixWrite f v := by
    have hp' : (u.fn f).msixPending.contains v = true := hp
    simp only [State.unmask]
    rw [if_pos hp']
  obtain ⟨hmsix, hshep, hregs, hmod⟩ := w.msixWrite_frame f v
  rw [hu]
  refine ⟨hmsix, ?_, ?_⟩
  · have hfn : (w.msixWrite f v).fn f = w.fn f := by simp only [State.fn, hshep]
    rw [hfn, State.fn_modFn_same]
    simp
  · have hreg (a : Nat) : (w.msixWrite f v).reg a = u.reg a := by simp only [State.reg, hregs, hmod]; rfl
    rw [hreg, State.reg_setReg_same]
    simp

/-- Settles O16: the effects of the four commands where they are due; what a message leaves alone is
`State.msixWrite_frame`. -/
theorem recordsThenHeadsThenMessages : Obligations.RecordsThenHeadsThenMessages := by
  refine ⟨fun s id d fn ring => ⟨exec_completionRecord s id d, ?_⟩, fun s fn ring v => ⟨?_, ?_⟩⟩
  · rintro hone rfl rfl hc hp hr
    have hf := s.fenceReady_of_first d hc hp hone hr
    have hd : s.desc? d.id = some d := by simp [State.desc?, hone]
    rw [exec_fenceComplete s d.fn d.ring d (by simp [hone, hf]), s.recordOther_fence d.id d hd hf]
  · intro ht hp hn hv hs
    refine ⟨_, exec_modTimeExpiry s fn ring ht hp hn, ?_⟩
    rw [s.moderate_due _ _ (s.modDue_of_time _ _ ht hp hn)]
    refine ⟨by simp, fun hm => ?_, fun hm => ?_⟩
    · rw [s.msixSend_unmasked _ _ hv hs hm]
      exact (s.msixWrite_frame _ _).1
    · exact s.msixSend_pending _ _ hv hs hm
  · intro hv hp
    refine ⟨s.unmask fn.val v.val, ?_, s.unmask_pending _ _ hp⟩
    simp only [exec, execMsixUnmask, hv, if_true]

end Sys2Proof.Machine
end

section
/-! SUPPORT. A function-level reset that changes HBM: the record that is left out still withdraws what the descriptor
sent (R26, R323). -/
namespace Sys2Proof.Machine
open Sys2Proof

/-- A descriptor of function 1 that runs and has sent data on the multicast group 0 with token 7. -/
def groupSender : Desc :=
  { id := 0, fn := 1, ring := 0, slot := 0, cq := 0, tick := 0, f := fieldsOf [], phase := .running
    run := { flows := [(65536, 7)] } }

/-- One byte of HBM that this device's token 7 has brought by the group 0, and that no descriptor has met yet. -/
def groupData : Exposure :=
  { device := 0, token := 7, pack := 0, desc := none, spans := [(none, 0, 1)], cleared := false, group := some 0 }

/-- The module, as device 0 of a fabric, is a receiver of the group on which its own descriptor sends. -/
def groupSenderState : State :=
  { State.reset with
    shep := { State.reset.shep with descs := [groupSender] }
    regs := { State.reset.regs with active := [(0xF0000, 0x4000)] }
    hbm := { State.reset.hbm with data := [(0, 0x5A)] }
    links := { State.reset.links with fabric := { State.reset.links.fabric with exposures := [groupData] } } }

theorem exec_functionLevelReset_vf (s : State) (f : Fn) (h : f.val ≠ 0) :
    exec (.functionLevelReset f) s = .next ((s.resetFn f.val).dropCommits f.val).dropSilent := by
  simp only [exec, execFunctionLevelReset, h, if_false]

/-- The withdrawal writes a zero over the byte: the write-combining buffer of HBM takes it. -/
theorem groupSenderState_reset_hbm :
    (((groupSenderState.resetFn 1).dropCommits 1).dropSilent.hbm.wc0.map WcBuf.bytes,
      groupSenderState.hbm.wc0.map WcBuf.bytes) = ([[(0, 0)]], []) := by
  decide

/-- Refutes O17: the reset of a VF changes HBM. Function 1 runs a descriptor that has sent data on a multicast group, and
the module is itself a receiver of that group. The reset ends the descriptor with no record, but its end withdraws the token
(R26, R323), and a withdrawal writes zeros over the group data that no descriptor has met: here over one byte of HBM. -/
theorem not_ringsStopOnErrorAndClearOnReset : ¬ Obligations.RingsStopOnErrorAndClearOnReset := by
  intro h
  obtain ⟨t, ht, -, -, -, -, -, hhbm, -⟩ := (h.2 groupSenderState 1).1 (by decide)
  rw [exec_functionLevelReset_vf _ _ (by decide)] at ht
  cases ht
  have hbytes := groupSenderState_reset_hbm
  rw [show ((groupSenderState.resetFn 1).dropCommits 1).dropSilent.hbm = groupSenderState.hbm from hhbm] at hbytes
  exact absurd hbytes (by decide)

end Sys2Proof.Machine
end

section
/-! SUPPORT. The issue of an instruction, said once: its opcode, the checks it has passed, what tagging it and putting it on the
scoreboard leave alone (R151, R153, R155, R174 to R176, R393). -/
namespace Sys2Proof.Machine
open Sys2Proof

/-! ## Opcodes (R175) -/

theorem fld_opcode (w : QWord) : (fld w 0 8).toNat = w.toNat % 256 := by
  simp [fld]

theorem TileWord.opcode_of_fields (w : QWord) (i : TileWord) (h : TileWord.fields w = some i) : w.toNat % 256 = i.opcode := by
  rw [← fld_opcode]
  unfold TileWord.fields at h
  split at h
  all_goals cases h
  all_goals assumption

theorem TileWord.fields_of_decode (w : QWord) (i : TileWord) (h : TileWord.decode w = some i) :
    TileWord.fields w = some i ∧ i.encode = w := by
  unfold TileWord.decode at h
  split at h
  next j hj =>
    split at h
    · cases h
      exact ⟨hj, by assumption⟩
    · cases h
  next => cases h

/-- R175: whether an opcode is defined depends on the opcode alone. -/
theorem TileWord.fields_none_iff (w v : QWord) (h : fld w 0 8 = fld v 0 8) : TileWord.fields w = none ↔ TileWord.fields v = none := by
  unfold TileWord.fields
  rw [h]
  generalize (fld v 0 8).toNat = n
  split <;> simp

/-! ## Issue (R151, R176) -/

section
variable {s u : State} {tile : TileId} {e : Engine} {i : TileWord} {c : Issuing}

theorem names_of_issuesTo (h : issuesTo s tile e i c u) : c.tile = tile ∧ c.ix = tile.ix ∧ c.e = e := by
  obtain ⟨-, hc, -⟩ := h
  rw [hc]
  exact ⟨rfl, rfl, rfl⟩

theorem slot_of_issuesTo (h : issuesTo s tile e i c u) : (u.tile c.ix).slotsFull c.e = false := by
  obtain ⟨-, -, he⟩ := names_of_issuesTo h
  obtain ⟨-, -, -, -, -, -, hs⟩ := h
  rw [he]
  exact hs

/-- A word that issues goes to the body of its opcode's command. -/
theorem issueOp_of_issuesTo (h : issuesTo s tile e i c u) (body : Issuing → TileWord → State → State) :
    s.issueOp tile e i.opcode body = body c i u := by
  obtain ⟨hi, hc, hl, hf, hd, ho, -⟩ := h
  obtain ⟨hw, he⟩ := TileWord.fields_of_decode _ _ hd
  have hop := TileWord.opcode_of_fields _ _ hw
  simp only [State.issueOp, State.issue, hi, Nat.not_le.mpr hl, if_false, hf, hop, beq_self_eq_true, Bool.not_true,
    Bool.false_eq_true, hw, ho, he, ne_eq, not_true]
  rw [← hc]

end

variable (s : State) (c : Issuing)

theorem State.underUpset_none (effect : State → State) : s.underUpset c {} effect = effect s := rfl

/-- A control instruction that passes its checks and has a slot takes effect. -/
theorem State.controlUnder_passes (u : Upset) (effect : State → State) (hs : (s.tile c.ix).slotsFull c.e = false) :
    s.controlUnder c u none effect = (s.tagged c).underUpset c u effect := by
  simp only [State.controlUnder, State.controlOp, hs, Bool.false_eq_true, if_false]

theorem State.controlUnder_skips (u : Upset) (r : Nat) (effect : State → State) :
    s.controlUnder c u (some r) effect = s.skip c r := rfl

section
variable (reads writes : List Nat) (effect : State → State)

theorem State.dispatchOp_skips (r : Nat) (issue : Option Nat) : s.dispatchOp c (some r) reads writes issue effect = s.skip c r := rfl

variable (hs : (s.tile c.ix).slotsFull c.e = false) (hb : (s.tile c.ix).blocked none reads writes = none)
include hs hb

theorem State.dispatchOp_launches : s.dispatchOp c none reads writes none effect = effect (s.launch c reads writes none) := by
  simp only [State.dispatchOp, hs, hb, Bool.false_eq_true, if_false]

theorem State.dispatchOp_refuses (r : Nat) : s.dispatchOp c none reads writes (some r) effect = s.skip c r := by
  simp only [State.dispatchOp, hs, hb, Bool.false_eq_true, if_false]

end

/-! ## What the issue leaves alone -/

theorem State.tagStep_frame (x : Sample) : ∃ k, s.tagStep x = { s with cnt := k } := by
  unfold State.tagStep
  dsimp only
  split
  · exact ⟨_, rfl⟩
  · split
    · exact ⟨_, rfl⟩
    · split
      · exact ⟨_, rfl⟩
      · exact ⟨_, rfl⟩

/-- R393: an instruction that issues is noted by its Pack and by the counters, and nowhere else. -/
theorem State.tagged_frame : ∃ k, s.tagged c = { s.markIssued c.p with cnt := k } := State.tagStep_frame _ _

@[simp] theorem State.tile_tagged (j : Nat) : (s.tagged c).tile j = s.tile j := by
  obtain ⟨k, h⟩ := s.tagged_frame c
  rw [h]
  rfl

/-! ## Engines of a tile -/

@[simp] theorem TileSt.engine_setEngine_same (t : TileSt) (e : Engine) (g : EngineSt) : (t.setEngine e g).engine e = g := by
  cases e <;> rfl

theorem TileSt.engine_setEngine_other (t : TileSt) (e k : Engine) (g : EngineSt) (h : k ≠ e) :
    (t.setEngine e g).engine k = t.engine k := by
  cases e <;> cases k <;> simp [TileSt.engine, TileSt.setEngine] at h ⊢

@[simp] theorem TileSt.setEngine_mem (t : TileSt) (e : Engine) (g : EngineSt) : (t.setEngine e g).mem = t.mem := by cases e <;> rfl
@[simp] theorem TileSt.setEngine_arr (t : TileSt) (e : Engine) (g : EngineSt) : (t.setEngine e g).arr = t.arr := by cases e <;> rfl
@[simp] theorem TileSt.setEngine_sems (t : TileSt) (e : Engine) (g : EngineSt) : (t.setEngine e g).sems = t.sems := by cases e <;> rfl
@[simp] theorem TileSt.setEngine_ctxs (t : TileSt) (e : Engine) (g : EngineSt) : (t.setEngine e g).ctxs = t.ctxs := by cases e <;> rfl
@[simp] theorem TileSt.setEngine_genMx (t : TileSt) (e : Engine) (g : EngineSt) : (t.setEngine e g).genMx = t.genMx := by
  cases e <;> rfl
@[simp] theorem TileSt.setEngine_flights (t : TileSt) (e : Engine) (g : EngineSt) : (t.setEngine e g).flights = t.flights := by
  cases e <;> rfl

/-! ## The frame of a control instruction -/

/-- The issuing tile alone changes after the issue. -/
theorem tileOnly_modTile (f : TileSt → TileSt) : tileOnly s ((s.tagged c).modTile c.ix f) c (f (s.tile c.ix)) := by
  obtain ⟨k, h⟩ := s.tagged_frame c
  rw [h]
  exact ⟨rfl, State.tile_modTile_same .., fun j hj => State.tile_modTile_other _ _ _ _ hj⟩

theorem engineOnly_modEngine (f : EngineSt → EngineSt) :
    engineOnly s ((s.tagged c).modEngine c.ix c.e f) c (f ((s.tile c.ix).engine c.e)) :=
  tileOnly_modTile s c fun t => t.setEngine c.e (f (t.engine c.e))

theorem engineOnly_advance : engineOnly s ((s.tagged c).advance c) c ((s.tile c.ix).engine c.e).advance :=
  engineOnly_modEngine s c EngineSt.advance


/-! ## A tainted descriptor (R163 to R165, R173) -/

/-- What a taint does, where a descriptor runs on the tile's Pack: a LOG entry, the Pack's registers of illegal instructions, and
the descriptor's mark. -/
theorem State.taint_cases (t : TileId) (engine pc reason : Nat) (word : QWord) :
    ((s.packOf t = none ∨ ∃ p, s.packOf t = some p ∧ s.running p = none) ∧ s.taint t engine pc reason word = s) ∨
    ∃ p d tel ill, s.packOf t = some p ∧ s.running p = some d ∧ s.taint t engine pc reason word =
      ({ ({ s with tel := tel } : State).modDesc d.id (fun d => { d with run := { d.run with tainted := true } }) with
        tiles := { s.tiles with regs := { s.tiles.regs with ill := ill } } } : State).modPack p
          fun k => { k with illSeen := true } := by
  unfold State.taint
  split
  next hp => exact .inl ⟨.inl hp, rfl⟩
  next p hp =>
    split
    next hd => exact .inl ⟨.inr ⟨p, hp, hd⟩, rfl⟩
    next d hd => exact .inr ⟨p, d, _, _, hp, hd, rfl⟩

/-- R163, R164: a taint leaves the memories, the registers, the cadence and every tile alone. -/
theorem State.taint_frame (t : TileId) (engine pc reason : Nat) (word : QWord) :
    let v := s.taint t engine pc reason word
    v.hbm = s.hbm ∧ v.host = s.host ∧ v.regs = s.regs ∧ v.cad = s.cad ∧ ∀ j, v.tile j = s.tile j := by
  rcases s.taint_cases t engine pc reason word with ⟨-, h⟩ | ⟨p, d, tel, ill, -, -, h⟩ <;> rw [h] <;>
    exact ⟨rfl, rfl, rfl, rfl, fun _ => rfl⟩

/-- R163: the descriptor that runs on the tile's Pack is tainted. -/
theorem State.taint_taints (t : TileId) (engine pc reason : Nat) (word : QWord) (p : Nat) (d : Desc) (hp : s.packOf t = some p)
    (hr : s.running p = some d) (hd : s.desc? d.id = some d) :
    ∃ d', (s.taint t engine pc reason word).desc? d.id = some d' ∧ d'.run.tainted = true := by
  rcases s.taint_cases t engine pc reason word with ⟨hn | ⟨q, hq, hn⟩, -⟩ | ⟨q, d', tel, ill, hq, hd', h⟩
  · cases hn.symm.trans hp
  · obtain rfl : p = q := Option.some.inj (hp.symm.trans hq)
    cases hn.symm.trans hr
  · obtain rfl : p = q := Option.some.inj (hp.symm.trans hq)
    obtain rfl : d = d' := Option.some.inj (hr.symm.trans hd')
    rw [h]
    exact ⟨_, State.desc?_modDesc_same { s with tel := tel } d.id _ d hd fun _ => rfl, rfl⟩

/-! ## Errors of a tile's memory at issue (R96) -/

/-- R96: a double-bit or a parity error latches the descriptor's end and brings the site to quarantine, and the instruction has
no effect. -/
theorem State.underUpset_fails (u : Upset) (effect : State → State) (hc : u.corrected = [])
    (hu : u.doubleBit = true ∨ u.parity = true) :
    s.underUpset c u effect = (s.latchFault c.d.id stMemory).quarantineTile c.tile 1 c.d.f.job.toNat := by
  have bad : (u.doubleBit || u.parity) = true := by simpa using hu
  simp only [State.underUpset, State.upset, hc, List.foldl_nil, bad, if_true]
  rfl

end Sys2Proof.Machine
end

section
/-! Control and illegal instructions (R96, R149, R150, R152, R175, R179). -/
namespace Sys2Proof.Machine
open Sys2Proof

/-! ## The commands, as their meanings -/

section
variable {s u : State} {tile : TileId} {e : Engine} {c : Issuing}

theorem exec_nop (n : BitVec 16) (h : issuesTo s tile e (.nop n) c u) (up : Upset) :
    exec (.nop tile e up) s = .next ((u.tagged c).underUpset c up fun s => s.advance c) := by
  have issues := issueOp_of_issuesTo h fun c _ s => s.controlUnder c up none fun s => s.advance c
  exact congrArg Host.Outcome.next (issues.trans (u.controlUnder_passes c up _ (slot_of_issuesTo h)))

theorem exec_halt (h : issuesTo s tile e .halt c u) (up : Upset) :
    exec (.halt tile e up) s = .next ((u.tagged c).underUpset c up fun s =>
      s.modEngine c.ix c.e fun g => { g with halted := true, hold := .none }) := by
  obtain ⟨-, -, he⟩ := names_of_issuesTo h
  rw [he]
  have issues := issueOp_of_issuesTo h fun c _ s => s.controlUnder c up none fun s =>
      s.modEngine c.ix e fun g => { g with halted := true, hold := .none }
  exact congrArg Host.Outcome.next (issues.trans (u.controlUnder_passes c up _ (slot_of_issuesTo h)))

/-- R179: a JMP takes effect where its target lies in the stream. -/
theorem exec_jmp (a : BitVec 24) (h : issuesTo s tile e (.jmp a) c u) :
    exec (.jmp tile e {}) s = .next (u.controlUnder c {} (firstFail [(decide (a.toNat < u.streamLen c), rsBranch)]) fun s =>
      s.modEngine c.ix c.e fun g => g.jump a.toNat) := by
  obtain ⟨-, -, he⟩ := names_of_issuesTo h
  rw [he]
  exact congrArg Host.Outcome.next (issueOp_of_issuesTo h fun c i s => match i with
    | .jmp target => s.controlUnder c {} (firstFail [(decide (target.toNat < s.streamLen c), rsBranch)]) fun s =>
        s.modEngine c.ix e fun g => g.jump target.toNat
    | _ => s)

/-- R177, R179: a BRC branches where its condition holds. -/
theorem exec_brc (n : BitVec 6) (cond : BitVec 2) (imm : BitVec 16) (a : BitVec 24) (h : issuesTo s tile e (.brc n cond imm a) c u) :
    exec (.brc tile e {}) s = .next (u.controlUnder c {} (firstFail [(decide (a.toNat < u.streamLen c), rsBranch)]) fun s =>
      if condHolds cond ((s.tile c.ix).sem n.toNat) imm.toNat then s.modEngine c.ix c.e fun g => g.jump a.toNat
      else s.advance c) := by
  obtain ⟨-, -, he⟩ := names_of_issuesTo h
  rw [he]
  exact congrArg Host.Outcome.next (issueOp_of_issuesTo h fun c i s => match i with
    | .brc sem cond imm target =>
      s.controlUnder c {} (firstFail [(decide (target.toNat < s.streamLen c), rsBranch)]) fun s =>
        if condHolds cond ((s.tile c.ix).sem sem.toNat) imm.toNat then s.modEngine c.ix e fun g => g.jump target.toNat
        else s.advance c
    | _ => s)

/-- R179: a LOOP that fits its stream and the loops around it starts its body. -/
theorem exec_loopInstruction (count last : BitVec 24) (h : issuesTo s tile e (.loop count last) c u)
    (hf : c.pc < last.toNat) (hl : last.toNat < ((u.tile c.ix).engine e).len) (hd : ((u.tile c.ix).engine e).loops.length < 4)
    (hn : ∀ l ∈ ((u.tile c.ix).engine e).loops.head?, last.toNat ≤ l.last) :
    exec (.loopInstruction tile e {}) s = .next ((u.tagged c).modEngine c.ix c.e fun g => g.loop count.toNat last.toNat) := by
  obtain ⟨-, -, he⟩ := names_of_issuesTo h
  have passes (nested : Bool) (hb : nested = true) :
      firstFail [(decide (c.pc < last.toNat) && decide (last.toNat < ((u.tile c.ix).engine e).len) && nested, rsBranch),
        (decide (((u.tile c.ix).engine e).loops.length < 4), rsLoopDepth)] = none := by
    simp [firstFail, hf, hl, hd, hb]
  refine congrArg Host.Outcome.next ((issueOp_of_issuesTo h _).trans ?_)
  dsimp only
  rw [passes, u.controlUnder_passes c _ _ (slot_of_issuesTo h), he]
  · rfl
  · cases hg : ((u.tile c.ix).engine e).loops with
    | nil => rfl
    | cons l rest => exact decide_eq_true (hn l (by simp [hg]))

/-- R150: a word that the queue holds is fetched without an effect. -/
theorem State.fetchWord_queued (s : State) (d : Desc) (ix : Nat) (e : Engine) (w : QWord)
    (h : ((s.tile ix).engine e).queued = some w) : s.fetchWord d ix e = (.word w, s) := by
  simp only [State.fetchWord, h]

/-- R175: a word whose opcode is not defined is skipped. -/
theorem exec_undefinedOpcode (s v : State) (tile : TileId) (e : Engine) (p : Nat) (d : Desc) (w : QWord)
    (hi : s.issuer tile e = some (p, d)) (hl : ((s.tile tile.ix).engine e).pc < ((s.tile tile.ix).engine e).len)
    (hf : s.fetchWord d tile.ix e = (.word w, v)) (hw : TileWord.fields w = none) :
    exec (.undefinedOpcode tile e) s = .next (v.skip ⟨tile, tile.ix, e, p, d, ((s.tile tile.ix).engine e).pc, w⟩ rsUndefined) := by
  have picked : (TileWord.fields (BitVec.ofNat 128 (w.toNat % 256))).isNone = true := by
    rw [Option.isNone_iff_eq_none]
    refine (TileWord.fields_none_iff _ w (BitVec.eq_of_toNat_eq ?_)).mpr hw
    rw [fld_opcode, fld_opcode, BitVec.toNat_ofNat]
    omega
  refine congrArg Host.Outcome.next ?_
  simp only [State.issue, hi, Nat.not_le.mpr hl, if_false, hf, picked, Bool.not_true, Bool.false_eq_true, hw]

end

/-! ## Where an instruction leaves its engine (R179) -/

theorem EngineSt.advance_noLoop (g : EngineSt) (h : g.loops = []) : g.advance = { g with pc := g.pc + 1, hold := .none } := by
  simp [EngineSt.advance, loopAdvance, h]

section
variable (g : EngineSt) (l : LoopSt) (rest : List LoopSt) (h : g.loops = l :: rest)
include h

theorem EngineSt.advance_inside (hl : l.last ≠ g.pc) : g.advance = { g with pc := g.pc + 1, hold := .none } := by
  simp [EngineSt.advance, loopAdvance, h, hl]

theorem EngineSt.advance_again (hl : l.last = g.pc) (hn : 1 < l.left) :
    g.advance = { g with pc := l.first, hold := .none, loops := { l with left := l.left - 1 } :: rest } := by
  simp [EngineSt.advance, loopAdvance, h, hl, hn]

/-- The innermost loop ends, and what encloses it decides. -/
theorem EngineSt.advance_leaves (hl : l.last = g.pc) (hn : l.left ≤ 1) : g.advance = { g with loops := rest }.advance := by
  simp [EngineSt.advance, loopAdvance, h, hl, Nat.not_lt.mpr hn]

end

theorem EngineSt.loop_eq (g : EngineSt) (count last : BitVec 24) : g.loop count.toNat last.toNat =
    if count = 0 then { g with pc := last.toNat }.advance
    else { g with pc := g.pc + 1, hold := .none, loops := ⟨g.pc + 1, last.toNat, count.toNat⟩ :: g.loops } := by
  have zero : count.toNat = 0 ↔ count = 0 := by rw [← BitVec.toNat_inj]; rfl
  simp only [EngineSt.loop, zero]

/-! ## A branch outside its stream, and the skip (R163, R179) -/

theorem branch_passes (s : State) (c : Issuing) (a : BitVec 24) (h : a.toNat < ((s.tile c.ix).engine c.e).len) :
    firstFail [(decide (a.toNat < s.streamLen c), rsBranch)] = none := by
  simp [firstFail, State.streamLen, h]

theorem branch_fails (s : State) (c : Issuing) (a : BitVec 24) (h : ((s.tile c.ix).engine c.e).len ≤ a.toNat) :
    firstFail [(decide (a.toNat < s.streamLen c), rsBranch)] = some rsBranch := by
  simp [firstFail, State.streamLen, Nat.not_lt.mpr h]

/-- R163, R164: a skipped instruction has no effect but the taint, and its engine goes on. -/
theorem State.skip_frame (s : State) (c : Issuing) (r : Nat) :
    let t := s.skip c r
    t.hbm = s.hbm ∧ t.host = s.host ∧ t.regs = s.regs ∧ t.cad = s.cad ∧
      t.tile c.ix = (s.tile c.ix).setEngine c.e ((s.tile c.ix).engine c.e).advance ∧ ∀ j, j ≠ c.ix → t.tile j = s.tile j := by
  obtain ⟨hhbm, hhost, hregs, hcad, htile⟩ := s.taint_frame c.tile c.e.num c.pc r c.word
  refine ⟨hhbm, hhost, hregs, hcad, ?_, fun j hj => ?_⟩
  · rw [← htile]
    exact State.tile_modTile_same ..
  · rw [← htile]
    exact State.tile_modTile_other _ _ _ _ hj

/-- R152: where the PC has passed the end of the stream the engine halts, with a taint. -/
theorem exec_streamEnd (s : State) (tile : TileId) (e : Engine) (hi : (s.issuer tile e).isSome = true)
    (hl : ((s.tile tile.ix).engine e).len ≤ ((s.tile tile.ix).engine e).pc) :
    exec (.streamEnd tile e) s = .next ((s.taint tile e.num ((s.tile tile.ix).engine e).len rsStreamEnd 0).modEngine tile.ix e
      fun g => { g with halted := true, hold := .none }) := by
  obtain ⟨x, hx⟩ := Option.isSome_iff_exists.mp hi
  refine congrArg Host.Outcome.next ?_
  simp only [hx, hl, if_true]

/-- Settles O22: each instruction by its command's lemma and the frame of an issue; a skip by the frame of a taint. -/
theorem controlAndIllegalInstructions : Obligations.ControlAndIllegalInstructions := by
  refine ⟨⟨fun s u tile e i c h => ?_, State.fetchWord_queued, fun s tile e hi hl => ?_, EngineSt.advance_noLoop,
    fun g l rest hg => ⟨g.advance_inside l rest hg, g.advance_again l rest hg, g.advance_leaves l rest hg⟩⟩,
    fun s u tile e c => ⟨fun i a h hl => ?_, fun v hi hc hl hf hw => ?_, fun r => ?_⟩⟩
  · obtain ⟨ht, -, he⟩ := names_of_issuesTo h
    have slot := slot_of_issuesTo h
    subst he
    refine ⟨?_, ?_, ?_, ?_, ?_, fun up hc hu => ⟨?_, ?_⟩⟩
    · rintro n rfl
      exact ⟨_, exec_nop n h {}, engineOnly_advance u c⟩
    · rintro rfl
      exact ⟨_, exec_halt h {}, engineOnly_modEngine u c fun g => { g with halted := true, hold := .none }⟩
    · rintro a rfl ha
      refine ⟨_, (exec_jmp a h).trans ?_, engineOnly_modEngine u c fun g => g.jump a.toNat⟩
      rw [branch_passes u c a ha, u.controlUnder_passes c _ _ slot]
      rfl
    · rintro n cond imm a rfl ha
      refine ⟨_, (exec_brc n cond imm a h).trans ?_, engineOnly_modEngine u c fun g =>
        if condHolds cond ((u.tile c.ix).sem n.toNat) imm.toNat then g.jump a.toNat else g.advance⟩
      rw [branch_passes u c a ha, u.controlUnder_passes c _ _ slot, State.underUpset_none, State.tile_tagged]
      by_cases hh : condHolds cond ((u.tile c.ix).sem n.toNat) imm.toNat = true
      · simp only [hh, if_true]
      · simp only [hh, Bool.false_eq_true, if_false]
        rfl
    · rintro count last rfl hf hl hp hd hn
      rw [← EngineSt.loop_eq]
      exact ⟨_, exec_loopInstruction count last h (hp ▸ hf) hl hd hn, engineOnly_modEngine u c _⟩
    · rintro n rfl
      rw [exec_nop n h up, State.underUpset_fails _ c up _ hc hu, ht]
      rfl
    · rintro rfl
      rw [exec_halt h up, State.underUpset_fails _ c up _ hc hu, ht]
      rfl
  · obtain ⟨hhbm, hhost, hregs, -, htile⟩ := s.taint_frame tile e.num ((s.tile tile.ix).engine e).len rsStreamEnd 0
    refine ⟨_, exec_streamEnd s tile e hi hl, ?_, ?_, ?_, fun j hj => ?_, hhbm, hhost, hregs⟩
    all_goals generalize s.taint tile e.num ((s.tile tile.ix).engine e).len rsStreamEnd 0 = v at htile ⊢
    · simp [State.modEngine]
    · simp [State.modEngine, htile]
    · simp [State.modEngine, htile]
    · exact (v.tile_modTile_other _ _ _ hj).trans (htile j)
  · obtain ⟨-, -, he⟩ := names_of_issuesTo h
    subst he
    refine ⟨?_, ?_⟩
    · rintro rfl
      rw [exec_jmp a h, branch_fails u c a hl, State.controlUnder_skips]
      rfl
    · rintro n k m rfl
      rw [exec_brc n k m a h, branch_fails u c a hl, State.controlUnder_skips]
      rfl
  · rw [exec_undefinedOpcode s v tile e c.p c.d c.word hi (by rw [hc] at hl; exact hl) hf hw, ← hc]
    rfl
  · obtain ⟨hhbm, hhost, hregs, hcad, htile, hother⟩ := u.skip_frame c r
    refine ⟨_, rfl, hhbm, hhost, hregs, hcad, htile, hother, fun d hd hph hp hr => ?_⟩
    have hid : (d.id == c.d.id) = true := List.find?_some (p := fun x : Desc => x.id == c.d.id) hd
    rw [← beq_iff_eq.mp hid] at hd ⊢
    exact u.taint_taints c.tile c.e.num c.pc r c.word c.p d hp hr hd

end Sys2Proof.Machine
end

section
/-! SUPPORT. What the work of an instruction in its tile leaves alone, said once for each operation that it is made of: the frame
`elsewhere` is closed under sequence, and the flags, events and counters of an instruction change no tile. -/
namespace Sys2Proof.Machine
open Sys2Proof

/-! ## The frame of the work in a tile -/

theorem elsewhere_refl (u : State) (ix : Nat) : elsewhere u u ix := by simp [elsewhere]

theorem elsewhere_trans {u v w : State} {ix : Nat} (h : elsewhere u v ix) (k : elsewhere v w ix) : elsewhere u w ix := by
  simp only [elsewhere] at *
  grind

variable (s : State) (c : Issuing)

theorem elsewhere_modTile (i : Nat) (f : TileSt → TileSt) : elsewhere s (s.modTile i f) i := by
  have others : ∀ j, j ≠ i → (s.modTile i f).tile j = s.tile j := fun j => s.tile_modTile_other i j f
  have signals : (s.modTile i f).tiles.signals = s.tiles.signals := rfl
  simpa [elsewhere, State.desc?, signals] using others

/-- An update of a descriptor that keeps its name, its phase and its status. -/
theorem elsewhere_modDesc (ix id : Nat) (f : Desc → Desc)
    (hf : ∀ d, (f d).id = d.id ∧ (f d).phase = d.phase ∧ (f d).status = d.status) :
    elsewhere s (s.modDesc id f) ix := by
  have kept (d : Desc) : (if d.id == id then f d else d).id = d.id ∧ ((if d.id == id then f d else d).phase,
      (if d.id == id then f d else d).status) = (d.phase, d.status) := by
    obtain ⟨hid, hph, hst⟩ := hf d
    split
    · exact ⟨hid, by rw [hph, hst]⟩
    · exact ⟨rfl, rfl⟩
  have descs (k : Nat) : ((s.modDesc id f).desc? k).map (fun d => (d.phase, d.status)) =
      (s.desc? k).map fun d => (d.phase, d.status) := by
    simp only [State.desc?, State.modDesc, State.setDescs, List.find?_map, Option.map_map, Function.comp_def, (kept _).1, (kept _).2]
  simp only [elsewhere, descs, implies_true, true_and]
  simp [State.modDesc, State.setDescs, State.tile]

/-! ## Flags, events and counters -/

/-- What notes the work of an instruction, apart from its tile: no tile changes, and no Pack changes what it has latched or the
mismatches that it holds. -/
def accounts (s t : State) : Prop :=
  (∀ ix, elsewhere s t ix) ∧ (∀ j, t.tile j = s.tile j) ∧
    ∀ p, (t.pack p).lat = (s.pack p).lat ∧ (t.pack p).misses = (s.pack p).misses

theorem accounts_refl : accounts s s := ⟨elsewhere_refl s, fun _ => rfl, fun _ => ⟨rfl, rfl⟩⟩

theorem accounts_trans {s t v : State} (h : accounts s t) (k : accounts t v) : accounts s v := by
  obtain ⟨he, ht, hp⟩ := h
  obtain ⟨ke, kt, kp⟩ := k
  exact ⟨fun ix => elsewhere_trans (he ix) (ke ix), fun j => (kt j).trans (ht j),
    fun p => ⟨(kp p).1.trans (hp p).1, (kp p).2.trans (hp p).2⟩⟩

theorem accounts_foldl {α : Type} (f : State → α → State) (hf : ∀ t x, accounts t (f t x)) (l : List α) :
    accounts s (l.foldl f s) :=
  List.foldlRecOn l f (accounts_refl s) fun _ ht x _ => accounts_trans ht (hf _ x)

theorem accounts_cnt (k : Counters) : accounts s { s with cnt := k } :=
  ⟨fun ix => by simp [elsewhere, State.desc?, State.tile], fun _ => rfl, fun _ => ⟨rfl, rfl⟩⟩

theorem accounts_modDesc (id : Nat) (f : Desc → Desc)
    (hf : ∀ d, (f d).id = d.id ∧ (f d).phase = d.phase ∧ (f d).status = d.status) :
    accounts s (s.modDesc id f) := ⟨fun ix => elsewhere_modDesc s ix id f hf, fun _ => rfl, fun _ => ⟨rfl, rfl⟩⟩

theorem accounts_latchFault (id st : Nat) : accounts s (s.latchFault id st) :=
  ⟨fun ix => by simp [elsewhere, State.latchFault, State.desc?, State.tile], fun _ => rfl, fun _ => ⟨rfl, rfl⟩⟩

theorem elsewhere_modPack (ix p : Nat) (f : PackSt → PackSt) : elsewhere s (s.modPack p f) ix := by
  simp [elsewhere, State.modPack, State.setPack, State.desc?, State.tile]

theorem accounts_modPack (p : Nat) (f : PackSt → PackSt) (hf : ∀ k, (f k).lat = k.lat ∧ (f k).misses = k.misses) :
    accounts s (s.modPack p f) := by
  refine ⟨fun ix => elsewhere_modPack s ix p f, fun _ => rfl, fun q => ?_⟩
  by_cases h : q = p
  · rw [h, State.pack_modPack_same]
    exact hf _
  · rw [State.pack_modPack_other _ _ _ _ h]
    exact ⟨rfl, rfl⟩

/-- R393: a tagged instruction is noted by its Pack and by the counters. -/
theorem accounts_tagged : accounts s (s.tagged c) := by
  obtain ⟨k, h⟩ := s.tagged_frame c
  rw [h]
  exact accounts_trans (accounts_modPack s c.p (fun k => { k with issued := true }) fun _ => ⟨rfl, rfl⟩) (accounts_cnt _ k)

theorem accounts_setUnit (u : Nat) (v : CntUnit × Bool) : accounts s (s.setUnit u v) := accounts_cnt s _

theorem accounts_countEv (unit ev n : Nat) : accounts s (s.countEv unit ev n) := by
  unfold State.countEv
  split
  · exact accounts_refl s
  · exact accounts_foldl s _ (fun t i => accounts_setUnit t unit _) _

theorem accounts_countUnchecked (n : Nat) : accounts s (s.countUnchecked n) :=
  ⟨fun ix => by simp [elsewhere, State.countUnchecked, State.desc?, State.tile], fun _ => rfl, fun _ => ⟨rfl, rfl⟩⟩

theorem accounts_setFlags (p : Nat) (ovf inv : Bool) : accounts s (s.setFlags p ovf inv) := by
  unfold State.setFlags
  split
  · exact accounts_refl s
  · exact accounts_modDesc s _ _ fun _ => ⟨rfl, rfl, rfl⟩

/-- R142 to R145: the flags and the NaN events of an instruction. -/
theorem accounts_numEvents (tile p pc : Nat) (d : Desc) (ev : NumEv) : accounts s (s.numEvents tile p pc d ev) := by
  have flags := accounts_setFlags s p ev.ovf ev.inv
  unfold State.numEvents
  dsimp only
  split
  · exact flags
  · split
    · exact flags
    · refine accounts_trans (accounts_trans flags ?_) (accounts_modPack _ p _ fun _ => ⟨rfl, rfl⟩)
      split
      · exact accounts_latchFault _ _ _
      · exact accounts_refl _

/-! ## What a tile's Pack has latched -/

theorem State.packOf_congr {s t : State} (hr : t.regs = s.regs) (hm : t.mod = s.mod) (x : TileId) : t.packOf x = s.packOf x := by
  simp only [State.packOf, State.shape, State.reg, hr, hm]

theorem State.latched_congr {s t : State} (hr : t.regs = s.regs) (hm : t.mod = s.mod)
    (hl : ∀ p, (t.pack p).lat = (s.pack p).lat) (ix : Nat) : t.latched ix = s.latched ix := by
  simp only [State.latched, State.packOf_congr hr hm, hl]

/-! ## An instruction on the scoreboard (R153, R155) -/

/-- A tile whose engine has put an instruction on the scoreboard and goes on. -/
def TileSt.launched (t : TileSt) (c : Issuing) (reads writes : List Nat) : TileSt :=
  ({ t with flights := t.flights ++ [(⟨c.e, c.pc, c.word, reads, writes, none⟩ : Flight)] } : TileSt).setEngine c.e
    (t.engine c.e).advance

section
variable (t : TileSt) (reads writes : List Nat)

@[simp] theorem TileSt.launched_mem : (t.launched c reads writes).mem = t.mem := TileSt.setEngine_mem ..
@[simp] theorem TileSt.launched_arr : (t.launched c reads writes).arr = t.arr := TileSt.setEngine_arr ..
@[simp] theorem TileSt.launched_sems : (t.launched c reads writes).sems = t.sems := TileSt.setEngine_sems ..
@[simp] theorem TileSt.launched_genMx : (t.launched c reads writes).genMx = t.genMx := TileSt.setEngine_genMx ..
@[simp] theorem TileSt.launched_engine : (t.launched c reads writes).engine c.e = (t.engine c.e).advance :=
  TileSt.engine_setEngine_same ..

@[simp] theorem State.tile_launch : (s.launch c reads writes none).tile c.ix = (s.tile c.ix).launched c reads writes := by
  have engine (f : List Flight) : ({ s.tile c.ix with flights := f } : TileSt).engine c.e = (s.tile c.ix).engine c.e := by
    cases c.e <;> rfl
  simp [State.launch, State.advance, State.modEngine, TileSt.launched, engine]

@[simp] theorem State.pack_modTile (i p : Nat) (f : TileSt → TileSt) : (s.modTile i f).pack p = s.pack p := rfl

/-- R153, R155: putting an instruction on the scoreboard changes its tile. -/
theorem elsewhere_launch : elsewhere s (s.launch c reads writes none) c.ix :=
  elsewhere_trans ((accounts_tagged s c).1 c.ix) (elsewhere_trans (elsewhere_modTile _ c.ix _) (elsewhere_modTile _ c.ix _))

theorem State.pack_launch (p : Nat) : ((s.launch c reads writes none).pack p).lat = (s.pack p).lat ∧
    ((s.launch c reads writes none).pack p).misses = (s.pack p).misses := by
  obtain ⟨-, -, h⟩ := accounts_tagged s c
  exact h p

end

end Sys2Proof.Machine
end

section
/-! SUPPORT. The waiting engines and the streams of a tile, said once: a release or a settling that finds nothing to do
(R155, R157, R159, R161). -/
namespace Sys2Proof.Machine
open Sys2Proof

/-- An engine that tries again: it no longer waits at issue. -/
def EngineSt.retried (g : EngineSt) : EngineSt :=
  match g.hold with
  | .issue _ => { g with hold := .none }
  | _ => g

@[simp] theorem EngineSt.retried_advance (g : EngineSt) : g.retried.advance = g.advance := by
  unfold EngineSt.retried
  split <;> rfl

theorem EngineSt.retried_noWait (g : EngineSt) (h : ∀ a b k x, g.hold ≠ .wait a b k x) (a b : Nat) (k : Bool)
    (x : Option (Nat × Nat)) : g.retried.hold ≠ .wait a b k x := by
  unfold EngineSt.retried
  split
  · simp
  · exact h a b k x

variable (t : TileSt)

@[simp] theorem TileSt.setEngine_engine (e : Engine) : t.setEngine e (t.engine e) = t := by cases e <;> rfl

theorem TileSt.retry_eq : t.retry = engines.foldl (fun t e => t.setEngine e (t.engine e).retried) t := by
  unfold TileSt.retry
  congr 1
  funext t e
  unfold EngineSt.retried
  cases (t.engine e).hold with
  | issue r => rfl
  | none => exact (t.setEngine_engine e).symm
  | wait => exact (t.setEngine_engine e).symm
  | barrier => exact (t.setEngine_engine e).symm

@[simp] theorem TileSt.retry_engine (e : Engine) : t.retry.engine e = (t.engine e).retried := by
  rw [TileSt.retry_eq]
  cases e <;> rfl

theorem TileSt.retry_frame : t.retry.mem = t.mem ∧ t.retry.arr = t.arr ∧ t.retry.sems = t.sems ∧ t.retry.ctxs = t.ctxs ∧
    t.retry.flights = t.flights := by
  rw [TileSt.retry_eq]
  exact ⟨rfl, rfl, rfl, rfl, rfl⟩

/-- R159: where no engine is at a WAIT, the test of the waiting engines changes nothing. -/
theorem TileSt.releaseWaits_quiet (h : quiet t) : t.releaseWaits = t := by
  have keeps (e : Engine) : t.releaseWait e = t := by
    unfold TileSt.releaseWait
    split
    · exact absurd ‹_› (h.1 e _ _ _ _)
    · rfl
  simp [TileSt.releaseWaits, engines, keeps]

/-- R161: in a tile where no engine waits and no stream is open, nothing settles. -/
theorem State.settle_quiet (s : State) (x : TileId) (h : quiet (s.tile x.ix)) :
    elsewhere s (s.settle x) x.ix ∧ (s.settle x).tile x.ix = s.tile x.ix := by
  have once (v : State) (hv : elsewhere s v x.ix ∧ v.tile x.ix = s.tile x.ix) :
      elsewhere s (v.modTile x.ix TileSt.releaseWaits) x.ix ∧ (v.modTile x.ix TileSt.releaseWaits).tile x.ix = s.tile x.ix := by
    refine ⟨elsewhere_trans hv.1 (elsewhere_modTile v x.ix _), ?_⟩
    rw [State.tile_modTile_same, hv.2, TileSt.releaseWaits_quiet _ h]
  have settled := once s ⟨elsewhere_refl s x.ix, rfl⟩
  unfold State.settle
  dsimp only
  split
  · exact settled
  · split
    · exact settled
    · split
      · exact settled
      · refine List.foldlRecOn (motive := fun v => elsewhere s v x.ix ∧ v.tile x.ix = s.tile x.ix) (List.range 18) _ settled
          fun v hv _ _ => ?_
        simp only [hv.2, h.2, List.map_nil, List.foldl_nil]
        exact once v hv

end Sys2Proof.Machine
end

section
/-! The stationary sets: MXLOAD and MXSWAP (R99, R100, R107, R183). -/
namespace Sys2Proof.Machine
open Sys2Proof

/-! ## What an MXLOAD loads -/

/-- A table of the values, other than the default, that a list of indexes takes. -/
theorem Table.get_map_filter {α : Type} [DecidableEq α] (d : α) (v : Nat → α) (ks : List Nat) (k : Nat) :
    Table.get d ((ks.filter fun k => v k != d).map fun k => (k, v k)) k = if k ∈ ks then v k else d := by
  induction ks with
  | nil => rfl
  | cons i ks ih =>
    by_cases hi : v i = d
    · rw [List.filter_cons_of_neg (by simp [hi]), ih]
      by_cases hk : k = i
      · simp [hk, hi]
      · simp [hk]
    · rw [List.filter_cons_of_pos (by simp [hi]), List.map_cons, Table.get_cons, ih]
      by_cases hk : i = k
      · simp [hk]
      · simp [hk, Ne.symm hk]

/-- What a cell loads depends on the tile's memories alone. -/
theorem TileSt.loadCell_congr (t v : TileSt) (h : v.mem = t.mem) (f : MxLoad) : v.loadCell f = t.loadCell f := by
  funext i n
  simp only [TileSt.loadCell, TileSt.elem, TileSt.readN, h]

/-- The indexes of the cells that an MXLOAD fills. -/
def MxLoad.cellKeys (f : MxLoad) : List Nat := (List.range f.cellRows).flatMap fun i => (List.range 64).map fun n => i * 64 + n

theorem MxLoad.mem_cellKeys (f : MxLoad) (i n : Nat) (hn : n < 64) : i * 64 + n ∈ f.cellKeys ↔ i < f.cellRows := by
  simp only [MxLoad.cellKeys, List.mem_flatMap, List.mem_map, List.mem_range]
  constructor
  · rintro ⟨j, hj, m, hm, he⟩
    omega
  · exact fun hi => ⟨i, hi, n, hn, rfl⟩

/-- R183: each cell of the rows below KROWS has its row's value, and every other cell is zero. -/
theorem TileSt.get_loadCells (t : TileSt) (f : MxLoad) (i n : Nat) (hn : n < 64) :
    Table.get 0 (t.loadCells f).1 (i * 64 + n) = if i < f.cellRows then (t.loadCell f i n).1 else 0 := by
  have cells : (t.loadCells f).1 = (f.cellKeys.filter fun k => (t.loadCell f (k / 64) (k % 64)).1 != 0).map fun k =>
      (k, (t.loadCell f (k / 64) (k % 64)).1) := by
    have whole : ((List.range f.cellRows).flatMap fun i => (List.range 64).map fun n => (i * 64 + n, t.loadCell f i n)) =
        f.cellKeys.map fun k => (k, t.loadCell f (k / 64) (k % 64)) := by
      simp only [MxLoad.cellKeys, List.map_flatMap, List.map_map]
      refine List.flatMap_congr fun i _ => List.map_congr_left fun n hn => ?_
      have hn := List.mem_range.mp hn
      have hd : (i * 64 + n) / 64 = i := by omega
      have hm : (i * 64 + n) % 64 = n := by omega
      simp only [Function.comp, hd, hm]
    simp only [TileSt.loadCells, whole, List.filter_map, List.map_map]
    rfl
  have hd : (i * 64 + n) / 64 = i := by omega
  have hm : (i * 64 + n) % 64 = n := by omega
  rw [cells, Table.get_map_filter 0 fun k => (t.loadCell f (k / 64) (k % 64)).1, hd, hm]
  simp only [f.mem_cellKeys i n hn]

/-! ## The commands -/

section
variable {s u : State} {tile : TileId} {e : Engine} {c : Issuing}

theorem exec_mxload (f : MxLoad) (h : issuesTo s tile e (.mxload f) c u) : exec (.mxload tile e {}) s = .next (u.mxload c {} f) :=
  congrArg Host.Outcome.next (issueOp_of_issuesTo h fun c i s => match i with
    | .mxload f => s.mxload c {} f
    | _ => s)

/-- R99, R183: an MXSWAP waits for the MXLOAD under way. -/
theorem exec_mxswap_waits (h : issuesTo s tile e .mxswap c u) (hl : (u.tile c.ix).loading = true) :
    exec (.mxswap tile e {}) s = .next u := by
  refine congrArg Host.Outcome.next ((issueOp_of_issuesTo h _).trans ?_)
  rw [if_pos hl]

theorem exec_mxswap_swaps (h : issuesTo s tile e .mxswap c u) (hl : (u.tile c.ix).loading = false) :
    exec (.mxswap tile e {}) s =
      .next ((((u.tagged c).modTile c.ix fun t => (t.modArr ArraySt.swap).retry).advance c).settle tile) := by
  obtain ⟨ht, -, -⟩ := names_of_issuesTo h
  refine congrArg Host.Outcome.next ((issueOp_of_issuesTo h _).trans ?_)
  rw [if_neg (ne_true_of_eq_false hl), u.controlUnder_passes c _ _ (slot_of_issuesTo h), State.underUpset_none, ht]

end

/-- The last instruction in flight holds further regions until it retires. -/
def holdOn (held : List Nat) (l : List Flight) : List Flight :=
  match l.reverse with
  | x :: r => ({ x with reads := dedup (x.reads ++ held) } :: r).reverse
  | [] => []

/-- A tile whose shadow set an MXLOAD has filled; the instruction holds the regions of the set that it replaces. -/
def TileSt.filled (t : TileSt) (f : MxLoad) (word : QWord) (held : List Nat) : TileSt :=
  { t.loadShadow f word with flights := holdOn held t.flights }

theorem TileSt.filled_engine (t : TileSt) (f : MxLoad) (word : QWord) (held : List Nat) (k : Engine) :
    (t.filled f word held).engine k = t.engine k := by cases k <;> rfl

section
variable (s : State) (c : Issuing) (f : MxLoad) (hf : loadFieldsOk f = true) (ho : operandsOk [f.opnd] [] = true)
include hf ho

theorem State.mxload_waits (hl : (s.tile c.ix).loading = true) : s.mxload c {} f = s := by
  simp [State.mxload, firstFail, hf, ho, hl]

/-- R183: an MXLOAD that passes its checks fills the shadow set. -/
theorem State.mxload_fills (hl : (s.tile c.ix).loading = false) (hs : (s.tile c.ix).slotsFull c.e = false)
    (hb : (s.tile c.ix).blocked none (resOf [f.opnd]) [] = none) :
    s.mxload c {} f = (s.launch c (resOf [f.opnd]) [] none).modTile c.ix fun t =>
      t.filled f c.word (s.tile c.ix).arr.shadow.held := by
  have passes : firstFail [(loadFieldsOk f, rsReserved), (operandsOk [f.opnd] [], rsAddress)] = none := by
    simp [firstFail, hf, ho]
  simp only [State.mxload, passes, hl, Bool.and_false, Bool.false_eq_true, if_false,
    State.dispatchOp_launches _ c _ _ _ hs hb, State.underUpset_none]
  rfl

end

/-! ## A tile after an MXSWAP -/

/-- A tile whose engine has exchanged the stationary sets and goes on. -/
def TileSt.swapped (t : TileSt) (e : Engine) : TileSt :=
  let v := (t.modArr ArraySt.swap).retry
  v.setEngine e (v.engine e).advance

theorem TileSt.swapped_engine (t : TileSt) (e : Engine) : (t.swapped e).engine e = (t.engine e).advance := by
  rw [TileSt.swapped, TileSt.engine_setEngine_same, TileSt.retry_engine, EngineSt.retried_advance]
  cases e <;> rfl

theorem TileSt.swapped_frame (t : TileSt) (e : Engine) : (t.swapped e).mem = t.mem ∧ (t.swapped e).sems = t.sems ∧
    (t.swapped e).ctxs = t.ctxs ∧ (t.swapped e).flights = t.flights ∧ (t.swapped e).arr = t.arr.swap := by
  obtain ⟨hmem, harr, hsems, hctxs, hfl⟩ := (t.modArr ArraySt.swap).retry_frame
  simp only [TileSt.swapped, TileSt.setEngine_mem, TileSt.setEngine_sems, TileSt.setEngine_ctxs, TileSt.setEngine_flights,
    TileSt.setEngine_arr, hmem, harr, hsems, hctxs, hfl]
  exact ⟨rfl, rfl, rfl, rfl, rfl⟩

theorem TileSt.swapped_quiet (t : TileSt) (e : Engine) (h : quiet t) : quiet (t.swapped e) := by
  obtain ⟨hwait, hctxs⟩ := h
  obtain ⟨-, -, same, -⟩ := t.swapped_frame e
  refine ⟨fun k a b use x => ?_, same.trans hctxs⟩
  by_cases hk : k = e
  · rw [hk, t.swapped_engine e]
    simp [EngineSt.advance]
  · rw [TileSt.swapped, TileSt.engine_setEngine_other _ _ _ _ hk, TileSt.retry_engine]
    have same : (t.modArr ArraySt.swap).engine k = t.engine k := by cases k <;> rfl
    rw [same]
    exact EngineSt.retried_noWait _ (hwait k) a b use x

/-- Settles O26: MXLOAD by `mxload_fills` and `get_loadCells`; MXSWAP by the swapped tile, in which nothing settles. -/
theorem mxloadFillsTheShadowSetAndMxswapExchanges : Obligations.MxloadFillsTheShadowSetAndMxswapExchanges := by
  refine fun s u tile e c => ⟨fun f h hf ho => ⟨fun hl => ?_, fun hl hb => ?_⟩,
    fun h => ⟨exec_mxswap_waits h, exec_mxswap_swaps h, fun hl hq => ?_⟩⟩
  · rw [exec_mxload f h, u.mxload_waits c f hf ho hl]
  · intro x
    obtain ⟨-, -, he⟩ := names_of_issuesTo h
    have fills := u.mxload_fills c f hf ho hl (slot_of_issuesTo h) hb
    refine ⟨_, (x.launched c (resOf [f.opnd]) []).filled f c.word x.arr.shadow.held, (exec_mxload f h).trans (congrArg _ fills),
      ?_, elsewhere_trans (elsewhere_launch u c _ _) (elsewhere_modTile _ _ _), ?_⟩
    · rw [State.tile_modTile_same, State.tile_launch]
    · have cells := (x.launched c (resOf [f.opnd]) []).get_loadCells f
      rw [TileSt.loadCell_congr x _ (TileSt.launched_mem ..)] at cells
      refine ⟨TileSt.launched_mem .., TileSt.launched_sems .., ?_, ?_, rfl, rfl, rfl, rfl, rfl, ?_, rfl, rfl, cells⟩
      · rw [TileSt.filled_engine, ← he, TileSt.launched_engine]
      · simp [TileSt.filled, TileSt.loadShadow, TileSt.modArr]
      · simp [TileSt.filled, TileSt.loadShadow, TileSt.modArr]
  · intro x
    obtain ⟨-, hix, he⟩ := names_of_issuesTo h
    let v := ((u.tagged c).modTile c.ix fun t => (t.modArr ArraySt.swap).retry).advance c
    have hv : v.tile tile.ix = x.swapped c.e := by
      rw [← hix]
      simp [v, State.advance, State.modEngine, TileSt.swapped, x]
    have frame : elsewhere u v c.ix := elsewhere_trans ((accounts_tagged u c).1 c.ix)
      (elsewhere_trans (elsewhere_modTile _ c.ix _) (elsewhere_modTile _ c.ix _))
    obtain ⟨hs, ht⟩ := v.settle_quiet tile (by rw [hv]; exact x.swapped_quiet c.e hq)
    obtain ⟨hmem, hsems, -, hfl, harr⟩ := x.swapped_frame c.e
    rw [← hix] at hs ht
    rw [hix, hv] at ht
    refine ⟨_, _, exec_mxswap_swaps h hl, (congrArg (v.settle tile).tile hix).trans ht, elsewhere_trans frame hs,
      hmem, hsems, ?_, hfl, harr⟩
    rw [← he]
    exact x.swapped_engine c.e

end Sys2Proof.Machine
end

section
/-! SUPPORT. The rows of an MXRUN, said once: what delivering a product row leaves in its slot, and what running the rows of a
program does, up to the first mismatch (R102, R112, R129, R132, R184). -/
namespace Sys2Proof.Machine
open Sys2Proof

/-! ## One entry, one row -/

section
variable (p : MxPlan) (cycle row : Nat) (first : Bool)

/-- What an entry becomes when a product is delivered to it (R184). -/
def MxPlan.entryAfter (old new : QWord) : QWord :=
  if first && !p.acc then new else (combineEntries p.fe p.mode old new).1

/-- Deliver the product of one column. -/
def MxPlan.deliverOne (o : MxOut) (n : Nat) (new : QWord) : MxOut :=
  let k := row * 64 + n
  if first && !p.acc then { o with slot := { o.slot with entries := Table.set 0 o.slot.entries k new } }
  else
    let old := Table.get 0 o.slot.entries k
    let (y, ev) := combineEntries p.fe p.mode old new
    let pos : NanPos := ⟨0, 8, row, n, p.kbase⟩
    let ev := { (if entryNan old then mxNan cycle pos else {}).and (mxInvalid ev.inv cycle pos) with ovf := ev.ovf }
    { o with slot := { o.slot with entries := Table.set 0 o.slot.entries k y }, ev := o.ev.and ev }

/-- What the rows of an MXRUN do not change before a mismatch: the kind and the count of the slot, the faults to come. -/
def MxOut.sameBut (o v : MxOut) : Prop :=
  v.slot.kind = o.slot.kind ∧ v.slot.krows = o.slot.krows ∧ v.rest = o.rest ∧ v.miss = o.miss

theorem MxOut.sameBut.trans {o v w : MxOut} (h : o.sameBut v) (k : v.sameBut w) : o.sameBut w := by
  obtain ⟨hk, hn, hr, hm⟩ := h
  obtain ⟨kk, kn, kr, km⟩ := k
  exact ⟨kk.trans hk, kn.trans hn, kr.trans hr, km.trans hm⟩

theorem MxPlan.deliverOne_slot (o : MxOut) (n : Nat) (new : QWord) : o.sameBut (p.deliverOne cycle row first o n new) ∧
    ∀ k, Table.get 0 (p.deliverOne cycle row first o n new).slot.entries k =
      if k = row * 64 + n then p.entryAfter first (Table.get 0 o.slot.entries k) new else Table.get 0 o.slot.entries k := by
  have written (v : QWord) (k : Nat) : Table.get 0 (Table.set 0 o.slot.entries (row * 64 + n) v) k =
      if k = row * 64 + n then v else Table.get 0 o.slot.entries k := by
    by_cases hk : k = row * 64 + n
    · rw [hk, Table.get_set_same, if_pos rfl]
    · rw [Table.get_set_other _ _ _ _ _ hk, if_neg hk]
  by_cases hf : (first && !p.acc) = true
  · simp only [MxPlan.deliverOne, MxPlan.entryAfter, hf, if_true]
    exact ⟨⟨rfl, rfl, rfl, rfl⟩, written new⟩
  · simp only [MxPlan.deliverOne, MxPlan.entryAfter, hf, Bool.false_eq_true, if_false]
    refine ⟨⟨rfl, rfl, rfl, rfl⟩, fun k => (written _ k).trans ?_⟩
    split
    · rw [‹k = _›]
    · rfl

theorem MxPlan.deliver_eq (o : MxOut) (g : Nat → QWord) :
    p.deliver o cycle row first ((List.range 64).map g) =
      (List.range 64).foldl (fun o n => p.deliverOne cycle row first o n (g n)) o := by
  have zipped : List.zip (List.range 64) ((List.range 64).map g) = (List.range 64).map fun n => (n, g n) := by
    rw [List.zip_eq_zipWith, List.zipWith_map_right, List.zipWith_self]
  rw [MxPlan.deliver, zipped, List.foldl_map]
  rfl

theorem MxPlan.foldl_deliverOne_slot (o : MxOut) (g : Nat → QWord) (m : Nat) :
    let v := (List.range m).foldl (fun o n => p.deliverOne cycle row first o n (g n)) o
    o.sameBut v ∧ ∀ k, Table.get 0 v.slot.entries k = if row * 64 ≤ k ∧ k < row * 64 + m then
      p.entryAfter first (Table.get 0 o.slot.entries k) (g (k - row * 64)) else Table.get 0 o.slot.entries k := by
  induction m with
  | zero => exact ⟨⟨rfl, rfl, rfl, rfl⟩, fun k => (if_neg (by omega)).symm⟩
  | succ m ih =>
    rw [List.range_succ, List.foldl_append, List.foldl_cons, List.foldl_nil]
    obtain ⟨hs, he⟩ := ih
    obtain ⟨hs', he'⟩ := p.deliverOne_slot cycle row first
      ((List.range m).foldl (fun o n => p.deliverOne cycle row first o n (g n)) o) m (g m)
    refine ⟨hs.trans hs', fun k => ?_⟩
    rw [he', he]
    by_cases hk : k = row * 64 + m
    · rw [if_pos hk, if_neg (by omega), if_pos (by omega), hk, Nat.add_sub_cancel_left]
    · rw [if_neg hk]
      by_cases hin : row * 64 ≤ k ∧ k < row * 64 + m
      · rw [if_pos hin, if_pos (by omega)]
      · rw [if_neg hin, if_neg (by omega)]

/-- R184: a product row is delivered to the 64 entries of its row, and to no other. -/
theorem MxPlan.deliver_slot (o : MxOut) (g : Nat → QWord) :
    let v := p.deliver o cycle row first ((List.range 64).map g)
    o.sameBut v ∧ ∀ k, Table.get 0 v.slot.entries k = if row * 64 ≤ k ∧ k < row * 64 + 64 then
      p.entryAfter first (Table.get 0 o.slot.entries k) (g (k - row * 64)) else Table.get 0 o.slot.entries k := by
  rw [MxPlan.deliver_eq]
  exact p.foldl_deliverOne_slot cycle row first o g 64

end

/-! ## Running rows -/

section
variable (p : MxPlan) (rows : List (List Nat × MxEv))

/-- The values that product row `i` streams. -/
def MxPlan.streamed (i : Nat) : List (Option Num) :=
  p.stream (p.parts.getD (i % p.parts.length) 0) (rows.getD (i / p.parts.length) ([], {})).1

/-- The product of column `n` in product row `i`. -/
def MxPlan.productAt (i n : Nat) : QWord :=
  (p.column ((if p.fe then 2 else 1) * i) (i / p.parts.length) n (p.streamed rows i) (p.col n)).1

/-- Product row `i` has been delivered: its 64 entries have met its products. -/
def MxPlan.delivered (i : Nat) (o v : MxOut) : Prop :=
  v.slot.kind = o.slot.kind ∧ v.slot.krows = o.slot.krows ∧ v.rest = [] ∧ v.miss = none ∧
  ∀ k, Table.get 0 v.slot.entries k =
    if i / p.parts.length * 64 ≤ k ∧ k < i / p.parts.length * 64 + 64 then
      p.entryAfter (i % p.parts.length == 0) (Table.get 0 o.slot.entries k) (p.productAt rows i (k - i / p.parts.length * 64))
    else Table.get 0 o.slot.entries k

theorem MxPlan.delivered_deliver (i cycle : Nat) (o v : MxOut) (hs : v.slot = o.slot) (hr : v.rest = []) (hm : v.miss = none) :
    p.delivered rows i o (p.deliver v cycle (i / p.parts.length) (i % p.parts.length == 0)
      ((List.range 64).map (p.productAt rows i))) := by
  obtain ⟨⟨hk, hn, hr', hm'⟩, he⟩ := p.deliver_slot cycle (i / p.parts.length) (i % p.parts.length == 0) v (p.productAt rows i)
  rw [hs] at hk hn he
  exact ⟨hk, hn, hr'.trans hr, hm'.trans hm, he⟩

/-- The check store is beside the entries (R95). -/
theorem MxPlan.delivered_check (i : Nat) (o v : MxOut) (t : Table (Nat × Nat)) (h : p.delivered rows i o v) :
    p.delivered rows i o { v with slot := { v.slot with check := t } } := h

/-- R112, R184: where no fault is to come, a product row is delivered, or mismatches and leaves the slot. -/
theorem MxPlan.runRow_cases (o : MxOut) (i : Nat) (hr : o.rest = []) :
    let v := p.runRow rows o i
    (v.miss ≠ none ∧ v.slot = o.slot ∧ v.rest = []) ∨ (o.miss = none ∧ p.delivered rows i o v) := by
  intro v
  cases hm : o.miss with
  | some x =>
    have stays : v = o := by simp only [v, MxPlan.runRow, hm]
    rw [stays]
    exact .inl ⟨by simp [hm], rfl, hr⟩
  | none =>
    have out : (p.product ((if p.fe then 2 else 1) * i) (i / p.parts.length) (p.streamed rows i)).map Prod.fst =
        (List.range 64).map (p.productAt rows i) := by
      rw [MxPlan.product, List.map_map]
      rfl
    simp only [MxPlan.streamed] at out
    simp only [v, MxPlan.runRow, hm, hr, takeUpset, out]
    split
    · exact .inr ⟨trivial, p.delivered_deliver rows i _ o _ rfl rfl rfl⟩
    · split
      · exact .inl ⟨by simp, rfl, rfl⟩
      · exact .inr ⟨trivial, p.delivered_check rows i o _ _ (p.delivered_deliver rows i _ o _ rfl rfl rfl)⟩

/-- The product rows below `n` have run: the rows of the slot at or above M are as they were. -/
theorem MxPlan.run_frame (slot : SlotSt) (n : Nat) :
    let v := (List.range n).foldl (p.runRow rows) { slot := slot, rest := [] }
    v.slot.kind = slot.kind ∧ v.slot.krows = slot.krows ∧ v.rest = [] ∧
    ∀ k, (∀ i, i < n → i / p.parts.length * 64 + 64 ≤ k) → Table.get 0 v.slot.entries k = Table.get 0 slot.entries k := by
  induction n with
  | zero => exact ⟨rfl, rfl, rfl, fun _ _ => rfl⟩
  | succ n ih =>
    obtain ⟨hk, hn, hr, he⟩ := ih
    rw [List.range_succ, List.foldl_append, List.foldl_cons, List.foldl_nil]
    rcases p.runRow_cases rows _ n hr with ⟨-, hs, hr'⟩ | ⟨-, hk', hn', hr', -, he'⟩
    · dsimp only
      rw [hs]
      exact ⟨hk, hn, hr', fun k h => he k fun i hi => h i (by omega)⟩
    · refine ⟨hk'.trans hk, hn'.trans hn, hr', fun k h => ?_⟩
      have past := h n (by omega)
      rw [he', if_neg (by omega), he k fun i hi => h i (by omega)]

/-- R102, R184: one product group runs without a mismatch: each of its rows has met its products. -/
theorem MxPlan.run_group (slot : SlotSt) (hg : p.parts.length = 1) (n : Nat) :
    let v := (List.range n).foldl (p.runRow rows) { slot := slot, rest := [] }
    v.miss = none → ∀ k, Table.get 0 v.slot.entries k =
      if k < n * 64 then p.entryAfter true (Table.get 0 slot.entries k) (p.productAt rows (k / 64) (k % 64))
      else Table.get 0 slot.entries k := by
  induction n with
  | zero => exact fun _ k => (if_neg (by omega : ¬k < 0 * 64)).symm
  | succ n ih =>
    obtain ⟨-, -, hr, -⟩ := p.run_frame rows slot n
    rw [List.range_succ, List.foldl_append, List.foldl_cons, List.foldl_nil]
    intro v hm k
    rcases p.runRow_cases rows _ n hr with ⟨hm', -⟩ | ⟨hm', -, -, -, -, he⟩
    · exact absurd hm hm'
    · rw [he, ih hm', hg, Nat.div_one, Nat.mod_one, beq_self_eq_true]
      by_cases hk : n * 64 ≤ k ∧ k < n * 64 + 64
      · have hd : k / 64 = n := by omega
        have hm : k - n * 64 = k % 64 := by omega
        rw [if_pos hk, if_neg (by omega), if_pos (by omega), hd, hm]
      · rw [if_neg hk]
        by_cases hl : k < n * 64
        · rw [if_pos hl, if_pos (by omega)]
        · rw [if_neg hl, if_neg (by omega)]

end

end Sys2Proof.Machine
end

section
/-! The command MXRUN (R101, R102, R124, R130, R163, R184). -/
namespace Sys2Proof.Machine
open Sys2Proof

/-! ## Slots -/

theorem ArraySt.slot_cases (n : Nat) : n % 4 = 0 ∨ n % 4 = 1 ∨ n % 4 = 2 ∨ n % 4 = 3 := by omega

@[simp] theorem ArraySt.slot_setSlot_same (a : ArraySt) (n : Nat) (v : SlotSt) : (a.setSlot n v).slot n = v := by
  rcases ArraySt.slot_cases n with h | h | h | h <;> simp [ArraySt.setSlot, ArraySt.slot, h]

@[simp] theorem ArraySt.setSlot_setSlot (a : ArraySt) (n : Nat) (v w : SlotSt) : (a.setSlot n v).setSlot n w = a.setSlot n w := by
  rcases ArraySt.slot_cases n with h | h | h | h <;> simp [ArraySt.setSlot, h]

@[simp] theorem ArraySt.setSlot_active (a : ArraySt) (n : Nat) (v : SlotSt) : (a.setSlot n v).active = a.active := by
  rcases ArraySt.slot_cases n with h | h | h | h <;> simp [ArraySt.setSlot, h]

/-- The kind that an MXRUN gives its slot (R184). -/
def MxRun.kind (f : MxRun) : SlotKind := if f.fe then .fp32e else .exact

section
variable (sl : SlotSt) (f : MxRun) (grow : Nat)

theorem SlotSt.start_kind : (sl.start f grow).kind = f.kind := by
  cases h : f.acc
  · simp [SlotSt.start, MxRun.kind, h]
  · simp [SlotSt.start, MxRun.kind, h]

theorem SlotSt.start_krows : (sl.start f grow).krows = (if f.acc then sl.krows else 0) + grow := by
  cases h : f.acc
  · simp [SlotSt.start, h]
  · simp [SlotSt.start, h]

theorem SlotSt.start_acc (h : f.acc = true) : (sl.start f grow).entries = sl.entries := by
  simp [SlotSt.start, h]

theorem Table.get_filter_key {α : Type} (d : α) (q : Nat → Bool) (t : Table α) (k : Nat) :
    Table.get d (t.filter fun e => q e.1) k = if q k then Table.get d t k else d := by
  induction t with
  | nil => simp
  | cons e t ih =>
    obtain ⟨i, v⟩ := e
    cases hq : q i
    · rw [List.filter_cons_of_neg (by simp [hq]), ih, Table.get_cons]
      by_cases hk : i = k
      · simp [← hk, hq]
      · rw [if_neg hk]
    · rw [List.filter_cons_of_pos (by simp [hq]), Table.get_cons, Table.get_cons, ih]
      by_cases hk : i = k
      · simp [← hk, hq]
      · simp [hk]

/-- R184: the rows at or above M stay, or are zero where a new kind begins. -/
theorem SlotSt.get_start (k : Nat) (hk : f.m.toNat * 64 ≤ k) : Table.get 0 (sl.start f grow).entries k =
    if f.acc = true ∨ sl.kind = f.kind then Table.get 0 sl.entries k else 0 := by
  cases h : f.acc
  · by_cases he : sl.kind = f.kind
    · have he' : sl.kind = if f.fe = true then .fp32e else .exact := he
      simp [SlotSt.start, h, he, ← he']
    · have he' : ¬sl.kind = if f.fe = true then .fp32e else .exact := he
      simp only [SlotSt.start, h, Bool.false_eq_true, if_false, he', he, or_self]
      rw [Table.get_filter_key 0 fun i => decide (i < f.m.toNat * 64), if_neg (by simpa using hk)]
  · simp [SlotSt.start_acc, h]

end

/-! ## The rows of an MXRUN without a prologue -/

section
variable (s : State) (c : Issuing) (f : MxRun)

/-- The codes that the rows of an MXRUN without a prologue stream. -/
def TileSt.plainCodes (t : TileSt) (f : MxRun) : List (List Nat × MxEv) :=
  (List.range f.m.toNat).map fun m => (t.entryRow f none 0 m, {})

/-- What the rows of an MXRUN without a prologue do. -/
def State.runOut : MxOut :=
  (s.mxPlan c.ix f).run ((s.tile c.ix).plainCodes f) ((s.tile c.ix).arr.slot f.slot.toNat) 0 []

theorem accounts_latchFault_if (b : Bool) (id st : Nat) : accounts s (if b = true then s.latchFault id st else s) := by
  split
  · exact accounts_latchFault _ _ _
  · exact accounts_refl _

/-- R112, R118, R142: the rows leave their slot, and what notes them; a mismatch waits at the Pack. -/
theorem State.mxRows_cases : ∃ v,
    accounts (s.modTile c.ix fun t => t.modArr fun a => a.setSlot f.slot.toNat (s.runOut c f).slot) v ∧
    (((s.runOut c f).miss = none ∧ s.mxRows c f none 0 [] = v) ∨
      ∃ x, s.mxRows c f none 0 [] = v.modPack c.p fun k => { k with misses := k.misses ++ [x] }) := by
  unfold State.mxRows
  simp only [Option.map_none, Option.getD_none, Bool.false_eq_true, if_false]
  split
  · next hm =>
    refine ⟨_, ?_, .inl ⟨hm, rfl⟩⟩
    exact accounts_trans (accounts_countUnchecked _ _) <| accounts_trans (accounts_countEv _ _ _ _) <|
      accounts_trans (accounts_countEv _ _ _ _) <| accounts_trans (accounts_countEv _ _ _ _) (accounts_numEvents _ _ _ _ _ _)
  · refine ⟨_, ?_, .inr ⟨_, rfl⟩⟩
    exact accounts_trans (accounts_countUnchecked _ _) <| accounts_trans (accounts_countEv _ _ _ _) <|
      accounts_trans (accounts_countEv _ _ _ _) <| accounts_trans (accounts_countEv _ _ _ _) <|
      accounts_trans (accounts_numEvents _ _ _ _ _ _) (accounts_latchFault_if _ _ _ _)

end

/-! ## The effect of an MXRUN without a prologue -/

theorem State.latched_elsewhere {s t : State} {ix : Nat} (he : elsewhere s t ix)
    (hl : ∀ p, (t.pack p).lat = (s.pack p).lat) (j : Nat) : t.latched j = s.latched j := by
  obtain ⟨-, -, hr, -, -, -, -, -, -, -, -, hm, -⟩ := he
  exact State.latched_congr hr hm hl j

/-- The array when an MXRUN has started its slot (R184). -/
def ArraySt.started (a : ArraySt) (f : MxRun) : ArraySt :=
  a.setSlot f.slot.toNat ((a.slot f.slot.toNat).start f (a.active.running.grow f.fmt.toNat))

/-- The state when an MXRUN has started its slot. -/
def State.mxStarted (s : State) (ix : Nat) (f : MxRun) : State := s.modTile ix fun t => t.modArr fun a => a.started f

/-- `t` is `s` after the rows of an MXRUN, which left the slot as `o` says. -/
def State.ranTo (s : State) (c : Issuing) (f : MxRun) (o : MxOut) (t : State) : Prop :=
  elsewhere s t c.ix ∧ t.tile c.ix = (s.tile c.ix).modArr (fun a => a.setSlot f.slot.toNat o.slot) ∧
  (∀ p, (t.pack p).lat = (s.pack p).lat) ∧ ((t.pack c.p).misses = (s.pack c.p).misses → o.miss = none)

section
variable (s : State) (c : Issuing) (f : MxRun)

@[simp] theorem State.tile_mxStarted : (s.mxStarted c.ix f).tile c.ix = (s.tile c.ix).modArr fun a => a.started f :=
  State.tile_modTile_same ..

theorem State.mxRows_ranTo : s.ranTo c f (s.runOut c f) (s.mxRows c f none 0 []) := by
  have moved := elsewhere_modTile s c.ix fun t => t.modArr fun a => a.setSlot f.slot.toNat (s.runOut c f).slot
  obtain ⟨v, ⟨he, ht, hp⟩, ⟨hm, hv⟩ | ⟨x, hv⟩⟩ := s.mxRows_cases c f
  · rw [hv]
    exact ⟨elsewhere_trans moved (he c.ix), (ht c.ix).trans (State.tile_modTile_same ..), fun p => (hp p).1, fun _ => hm⟩
  · rw [hv]
    refine ⟨elsewhere_trans moved (elsewhere_trans (he c.ix) (elsewhere_modPack ..)),
      (ht c.ix).trans (State.tile_modTile_same ..), fun p => ?_, ?_⟩
    · by_cases h : p = c.p
      · rw [h, State.pack_modPack_same]
        exact (hp _).1
      · rw [State.pack_modPack_other _ _ _ _ h]
        exact (hp _).1
    · intro h
      rw [State.pack_modPack_same, (hp c.p).2] at h
      simp at h

/-- M = 0 streams nothing. -/
theorem State.runOut_zero (h : f.m.toNat = 0) : s.runOut c f = { slot := (s.tile c.ix).arr.slot f.slot.toNat, rest := [] } := by
  have rows : (s.mxPlan c.ix f).m * (s.mxPlan c.ix f).parts.length = 0 := by
    rw [show (s.mxPlan c.ix f).m = 0 from h, Nat.zero_mul]
  rw [State.runOut, MxPlan.run, rows]
  rfl

@[simp] theorem TileSt.modArr_engine (t : TileSt) (g : ArraySt → ArraySt) (e : Engine) : (t.modArr g).engine e = t.engine e := by
  cases e <;> rfl

theorem State.mxrunEffect_ranTo :
    (s.mxStarted c.ix f).ranTo c f ((s.mxStarted c.ix f).runOut c f) (s.mxrunEffect c {} f none) := by
  by_cases hm : f.m.toNat = 0
  · have stays : s.mxrunEffect c {} f none = s.mxStarted c.ix f := by
      simp only [State.mxrunEffect, hm, if_true]
      rfl
    rw [stays, State.runOut_zero _ c f hm]
    refine ⟨elsewhere_refl _ _, ?_, fun _ => rfl, fun _ => rfl⟩
    simp [TileSt.modArr, ArraySt.started]
  · have streams : s.mxrunEffect c {} f none = (s.mxStarted c.ix f).mxRows c f none 0 [] := by
      simp only [State.mxrunEffect, hm, if_false]
      rfl
    rw [streams]
    exact State.mxRows_ranTo _ c f

/-- R102, R124, R184: what the rows of an MXRUN leave in its slot. -/
theorem State.runOut_slot : let o := s.runOut c f
    let sl := (s.tile c.ix).arr.slot f.slot.toNat
    let p := s.mxPlan c.ix f
    o.slot.kind = sl.kind ∧ o.slot.krows = sl.krows ∧
    (∀ k, f.m.toNat * 64 ≤ k → Table.get 0 o.slot.entries k = Table.get 0 sl.entries k) ∧
    (o.miss = none → p.parts.length = 1 → ∀ m n, m < f.m.toNat → n < 64 →
      Table.get 0 o.slot.entries (m * 64 + n) = p.entryAfter true (Table.get 0 sl.entries (m * 64 + n))
        (p.column ((if p.fe then 2 else 1) * m) m n (p.stream (p.parts.getD 0 0) ((s.tile c.ix).entryRow f none 0 m)) (p.col n)).1) := by
  intro o sl p
  let rows := (s.tile c.ix).plainCodes f
  have ran : o = (List.range (f.m.toNat * p.parts.length)).foldl (p.runRow rows) { slot := sl, rest := [] } := rfl
  rw [ran]
  obtain ⟨hk, hn, -, he⟩ := p.run_frame rows sl (f.m.toNat * p.parts.length)
  refine ⟨hk, hn, fun k h => he k fun i hi => ?_, fun hm hg m n hlt hn => ?_⟩
  · have below := Nat.div_lt_of_lt_mul (Nat.mul_comm _ _ ▸ hi)
    omega
  · have hd : (m * 64 + n) / 64 = m := by omega
    have hr : (m * 64 + n) % 64 = n := by omega
    have codes : (rows.getD m ([], {})).1 = (s.tile c.ix).entryRow f none 0 m := by
      simp [rows, TileSt.plainCodes, hlt]
    rw [p.run_group rows sl hg _ hm, hg, if_pos (by omega), hd, hr]
    simp only [MxPlan.productAt, MxPlan.streamed, hg, Nat.div_one, Nat.mod_one, codes]

end

/-! ## The checks of an MXRUN -/

/-- The checks of a prologue record (R184). -/
def State.proPasses (s : State) (f : MxRun) : Option Pro → Bool
  | some p => p.ok f.fmt.toNat && (!p.hook || s.portEnabled p.port)
  | none => true

theorem State.proPasses_some (s : State) (f : MxRun) (p : Pro) : s.proPasses f (some p) = true ↔
    p.ok f.fmt.toNat = true ∧ (p.hook = false ∨ s.portEnabled p.port = true) := by
  simp [State.proPasses]

/-- The pair and the kind of its slot that an MXRUN needs (R101, R124). -/
def TileSt.pairPasses (t : TileSt) (f : MxRun) : Bool :=
  pairOk f.fmt.toNat f.mode.toNat t.arr.active &&
    (!f.acc || (t.arr.slot f.slot.toNat).kind == .none || (t.arr.slot f.slot.toNat).kind == f.kind)

theorem TileSt.pairPasses_iff (t : TileSt) (f : MxRun) : t.pairPasses f = true ↔
    pairOk f.fmt.toNat f.mode.toNat t.arr.active = true ∧
    (f.acc = false ∨ (t.arr.slot f.slot.toNat).kind = .none ∨ (t.arr.slot f.slot.toNat).kind = f.kind) := by
  simp [TileSt.pairPasses, or_assoc]

/-- The k-rows of the slot after an MXRUN (R124). -/
def TileSt.runCount (t : TileSt) (f : MxRun) : Nat :=
  (if f.acc then (t.arr.slot f.slot.toNat).krows else 0) + t.arr.active.running.grow f.fmt.toNat

/-- The regions that operands of an MXRUN use: none when it streams nothing. -/
def MxRun.used (f : MxRun) (l : List Opnd) : List Nat := if f.m = 0 then [] else resOf l

/-- The regions that an MXRUN reads. -/
def TileSt.runReads (t : TileSt) (f : MxRun) (pro : Option Pro) : List Nat :=
  dedup (f.used (t.runOpnds f pro).1 ++ if f.proEn then regionsOf (f.proRec.toNat * 64) 64 else [])

theorem TileSt.runReads_plain (t : TileSt) (f : MxRun) (he : f.proEn = false) :
    t.runReads f none = dedup (f.used (t.runOpnds f none).1 ++ []) := by
  simp [TileSt.runReads, he]

/-- The regions that an MXRUN writes. -/
def TileSt.runWrites (t : TileSt) (f : MxRun) (pro : Option Pro) : List Nat := resAcc f.slot.toNat :: f.used (t.runOpnds f pro).2

section
variable (s : State) (c : Issuing) (f : MxRun) (pro : Option Pro)

theorem State.mxrunWith_eq : s.mxrunWith c {} f pro =
    s.dispatchOp c
      (firstFail [(s.proPasses f pro, 0x02), ((s.tile c.ix).pairPasses f, 0x05),
        (operandsOk ((s.tile c.ix).runOpnds f pro).1 ((s.tile c.ix).runOpnds f pro).2, 0x08)])
      ((s.tile c.ix).runReads f pro) ((s.tile c.ix).runWrites f pro)
      (firstFail [(decide ((s.tile c.ix).runCount f ≤ 2 ^ 24), 0x06), (!(c.d.exact && f.fe), 0x07)])
      fun s => s.mxrunEffect c {} f pro := by
  cases pro <;> rfl

section
variable (hpro : s.proPasses f pro = true)
include hpro

theorem State.mxrunWith_pair (hp : (s.tile c.ix).pairPasses f = false) : s.mxrunWith c {} f pro = s.skip c 0x05 := by
  rw [State.mxrunWith_eq, hpro, hp]
  rfl

variable (hp : (s.tile c.ix).pairPasses f = true)
include hp

theorem State.mxrunWith_address (ho : operandsOk ((s.tile c.ix).runOpnds f pro).1 ((s.tile c.ix).runOpnds f pro).2 = false) :
    s.mxrunWith c {} f pro = s.skip c 0x08 := by
  rw [State.mxrunWith_eq, hpro, hp, ho]
  rfl

variable (ho : operandsOk ((s.tile c.ix).runOpnds f pro).1 ((s.tile c.ix).runOpnds f pro).2 = true)
  (hs : (s.tile c.ix).slotsFull c.e = false)
  (hb : (s.tile c.ix).blocked none ((s.tile c.ix).runReads f pro) ((s.tile c.ix).runWrites f pro) = none)
include ho hs hb

theorem State.mxrunWith_count (hk : 2 ^ 24 < (s.tile c.ix).runCount f) : s.mxrunWith c {} f pro = s.skip c 0x06 := by
  rw [State.mxrunWith_eq, hpro, hp, ho, decide_eq_false (Nat.not_le.mpr hk)]
  exact s.dispatchOp_refuses c _ _ _ hs hb _

variable (hk : (s.tile c.ix).runCount f ≤ 2 ^ 24)
include hk

theorem State.mxrunWith_exact (hd : c.d.exact = true) (hf : f.fe = true) : s.mxrunWith c {} f pro = s.skip c 0x07 := by
  rw [State.mxrunWith_eq, hpro, hp, ho, decide_eq_true hk, hd, hf]
  exact s.dispatchOp_refuses c _ _ _ hs hb _

theorem State.mxrunWith_launches (hx : c.d.exact = false ∨ f.fe = false) : s.mxrunWith c {} f pro =
    (s.launch c ((s.tile c.ix).runReads f pro) ((s.tile c.ix).runWrites f pro) none).mxrunEffect c {} f pro := by
  have allowed : (!(c.d.exact && f.fe)) = true := by simpa [← Bool.not_eq_true, imp_iff_not_or] using hx
  rw [State.mxrunWith_eq, hpro, hp, ho, decide_eq_true hk, allowed]
  exact s.dispatchOp_launches c _ _ _ hs hb

end

/-! ## The command -/

theorem exec_mxrun {s u : State} {tile : TileId} {e : Engine} {c : Issuing} {f : MxRun} (h : issuesTo s tile e (.mxrun f) c u) :
    exec (.mxrun tile e {}) s = .next (u.mxrun c {} f) :=
  congrArg Host.Outcome.next (issueOp_of_issuesTo h fun c i s => match i with
    | .mxrun f => s.mxrun c {} f
    | _ => s)

theorem State.mxrun_reserved (hf : runFieldsOk f = false) : s.mxrun c {} f = s.skip c 0x02 := by
  simp [State.mxrun, hf, rsReserved]

theorem State.mxrun_plain (hf : runFieldsOk f = true) (he : f.proEn = false) : s.mxrun c {} f = s.mxrunWith c {} f none := by
  simp [State.mxrun, hf, he]

theorem State.mxrun_record (hf : runFieldsOk f = true) (he : f.proEn = true) (hr : s.recordReady c (f.proRec.toNat * 64) 64 = none) :
    s.mxrun c {} f = s.mxrunWith c {} f (some (proOf ((s.tile c.ix).readN .store (f.proRec.toNat * 64) 64))) := by
  simp [State.mxrun, hf, he, hr]

end

/-! ## An MXRUN without a prologue -/

/-- The codes of a row depend on the tile's memories alone. -/
theorem TileSt.entryRow_congr {t v : TileSt} (h : v.mem = t.mem) (f : MxRun) (m : Nat) :
    v.entryRow f none 0 m = t.entryRow f none 0 m := by
  simp only [TileSt.entryRow, TileSt.rowBytes, TileSt.rowAddr, TileSt.read, h]

/-- What an MXRUN runs depends on the active set, the count of its slot and what its Pack latched. -/
theorem State.mxPlan_congr {s t : State} {ix : Nat} {f : MxRun} (ha : (t.tile ix).arr.active = (s.tile ix).arr.active)
    (hk : ((t.tile ix).arr.slot f.slot.toNat).krows = ((s.tile ix).arr.slot f.slot.toNat).krows) (hl : t.latched ix = s.latched ix) :
    t.mxPlan ix f = s.mxPlan ix f := by
  simp only [State.mxPlan, ha, hk, hl]

section
variable (s : State) (c : Issuing) (f : MxRun)

theorem State.entryAfter_first (ix : Nat) (old new : QWord) : (s.mxPlan ix f).entryAfter true old new =
    if f.acc then (combineEntries (s.mxPlan ix f).fe (s.mxPlan ix f).mode old new).1 else new := by
  have acc : (s.mxPlan ix f).acc = f.acc := rfl
  cases h : f.acc
  · simp [MxPlan.entryAfter, acc, h]
  · simp [MxPlan.entryAfter, acc, h]

/-- R184: a first product meets what the slot held before the MXRUN started it. -/
theorem State.entryAfter_start (sl : SlotSt) (grow k : Nat) (new : QWord) :
    (s.mxPlan c.ix f).entryAfter true (Table.get 0 (sl.start f grow).entries k) new =
      (s.mxPlan c.ix f).entryAfter true (Table.get 0 sl.entries k) new := by
  rw [State.entryAfter_first, State.entryAfter_first]
  cases h : f.acc
  · simp
  · rw [SlotSt.start_acc _ _ _ h]

/-- R102, R124, R184: the effect of an MXRUN without a prologue: its frame, its slot, and the rows of one product group. -/
theorem State.mxrunEffect_plain : let t := s.mxrunEffect c {} f none
    let x := s.tile c.ix
    let y := t.tile c.ix
    let old := x.arr.slot f.slot.toNat
    let new := y.arr.slot f.slot.toNat
    elsewhere s t c.ix ∧ y = x.modArr (fun a => a.setSlot f.slot.toNat new) ∧
    new.kind = f.kind ∧ new.krows = x.runCount f ∧
    (∀ k, f.m.toNat * 64 ≤ k → Table.get 0 new.entries k =
      if f.acc = true ∨ old.kind = f.kind then Table.get 0 old.entries k else 0) ∧
    ((t.pack c.p).misses = (s.pack c.p).misses → (t.mxPlan c.ix f).parts.length = 1 → ∀ m n, m < f.m.toNat → n < 64 →
      let p := t.mxPlan c.ix f
      Table.get 0 new.entries (m * 64 + n) = p.entryAfter true (Table.get 0 old.entries (m * 64 + n))
        (p.column ((if p.fe then 2 else 1) * m) m n (p.stream (p.parts.getD 0 0) (x.entryRow f none 0 m)) (p.col n)).1) := by
  intro t x y old new
  let v := s.mxStarted c.ix f
  let o := v.runOut c f
  obtain ⟨he, ht, hl, hm⟩ := s.mxrunEffect_ranTo c f
  have tile : v.tile c.ix = x.modArr fun a => a.started f := s.tile_mxStarted c f
  have arr : (v.tile c.ix).arr = x.arr.started f := by rw [tile]; rfl
  have start : (v.tile c.ix).arr.slot f.slot.toNat = old.start f (x.arr.active.running.grow f.fmt.toNat) := by
    rw [arr, ArraySt.started, ArraySt.slot_setSlot_same]
  have hy : y = x.modArr fun a => a.setSlot f.slot.toNat o.slot := by
    refine ht.trans ?_
    rw [tile]
    simp [TileSt.modArr, ArraySt.started, o, v]
  have slot : new = o.slot := by
    simp only [new, hy, TileSt.modArr, ArraySt.slot_setSlot_same]
  obtain ⟨hkind, hkrows, hrest, hrows⟩ := v.runOut_slot c f
  have plan : t.mxPlan c.ix f = v.mxPlan c.ix f := by
    refine State.mxPlan_congr ?_ ?_ (State.latched_elsewhere he hl _)
    · rw [show t.tile c.ix = _ from hy, arr]
      simp [TileSt.modArr, ArraySt.started]
    · exact (congrArg SlotSt.krows slot).trans hkrows
  rw [start] at hkind hkrows hrest hrows
  refine ⟨elsewhere_trans (elsewhere_modTile s c.ix _) he, slot ▸ hy, ?_, ?_, fun k hk => ?_, fun hmiss hg m n hlt hn => ?_⟩
  · rw [slot, hkind, SlotSt.start_kind]
  · rw [slot, hkrows, SlotSt.start_krows]
    rfl
  · rw [slot, hrest k hk, SlotSt.get_start _ _ _ _ hk]
  · rw [plan] at hg ⊢
    rw [slot, hrows (hm hmiss) hg m n hlt hn, TileSt.entryRow_congr (t := x) (by rw [tile]; rfl), State.entryAfter_start]

end

/-- Settles O27: the effect by `mxrunEffect_plain`, through `run_frame` and `run_group`; the checks by the `mxrunWith` lemmas. -/
theorem mxrunDeliversItsProductRowsOrIsSkipped : Obligations.MxrunDeliversItsProductRowsOrIsSkipped := by
  refine ⟨?_, ?_⟩
  · intro s u tile e c f h hf x kind old grow used hpair hacc hk hx
    have hp : x.pairPasses f = true := (x.pairPasses_iff f).mpr ⟨hpair, hacc⟩
    have hs := slot_of_issuesTo h
    refine ⟨?_, fun he ho hb => ?_⟩
    · intro pro he hr hpro o reads writes hok hport ho hb
      have passes := (u.proPasses_some f pro).mpr ⟨hok, hport⟩
      have record : x.runReads f (some pro) = reads := by simp [TileSt.runReads, he, reads, used, MxRun.used, o]
      rw [exec_mxrun h, State.mxrun_record _ _ _ hf he hr, ← hpro,
        State.mxrunWith_launches _ _ _ _ passes hp ho hs (record ▸ hb) hk hx, record]
      rfl
    · have record : x.runReads f none = dedup (used (x.runOpnds f none).1 ++ []) := x.runReads_plain f he
      let l := x.launched c (x.runReads f none) (x.runWrites f none)
      let v := u.launch c (x.runReads f none) (x.runWrites f none) none
      have runs : exec (.mxrun tile e {}) s = .next (v.mxrunEffect c {} f none) := by
        rw [exec_mxrun h, State.mxrun_plain _ _ _ hf he, State.mxrunWith_launches _ _ _ none rfl hp ho hs (record ▸ hb) hk hx]
      obtain ⟨-, -, hce⟩ := names_of_issuesTo h
      obtain ⟨frame, hy, hkind, hkrows, hrest, hrows⟩ := v.mxrunEffect_plain c f
      have launched : v.tile c.ix = l := State.tile_launch ..
      have arr : l.arr = x.arr := TileSt.launched_arr ..
      have mem : l.mem = x.mem := TileSt.launched_mem ..
      have noMiss : (v.pack c.p).misses = (u.pack c.p).misses := (u.pack_launch c _ _ _).2
      rw [launched] at hy hkrows hrest hrows
      rw [arr] at hrest hrows
      rw [noMiss] at hrows
      refine ⟨_, _, runs, rfl, elsewhere_trans (elsewhere_launch u c _ _) frame, ?_, ?_, ?_, ?_, hkind, ?_, hrest, ?_⟩
      · rw [hy]; exact mem
      · rw [hy]; exact TileSt.launched_sems ..
      · rw [hy, TileSt.modArr_engine, ← hce]; exact TileSt.launched_engine ..
      · exact (congrArg TileSt.arr hy).trans (by simp only [TileSt.modArr, arr])
      · rw [hkrows, TileSt.runCount, arr]
      · intro hm hg m n hlt hn
        rw [← TileSt.entryRow_congr mem]
        exact (hrows hm hg m n hlt hn).trans (State.entryAfter_first ..)
  · intro s u tile e c f h he x kind old used pair
    have hs := slot_of_issuesTo h
    have hp : x.pairPasses f = true ↔ pair := x.pairPasses_iff f
    have record : x.runReads f none = dedup (used (x.runOpnds f none).1 ++ []) := x.runReads_plain f he
    rw [exec_mxrun h]
    refine ⟨fun hf => ?_, fun hf hn => ?_, fun hf hy ho => ?_, fun hf hy ho hb => ⟨fun hk => ?_, fun hk hd hfe => ?_⟩⟩
    · rw [State.mxrun_reserved _ _ _ hf]
    · rw [State.mxrun_plain _ _ _ hf he, State.mxrunWith_pair _ _ _ none rfl (Bool.eq_false_iff.mpr (hp.not.mpr hn))]
    · rw [State.mxrun_plain _ _ _ hf he, State.mxrunWith_address _ _ _ none rfl (hp.mpr hy) ho]
    · rw [State.mxrun_plain _ _ _ hf he, State.mxrunWith_count _ _ _ none rfl (hp.mpr hy) ho hs (record ▸ hb) hk]
    · rw [State.mxrun_plain _ _ _ hf he, State.mxrunWith_exact _ _ _ none rfl (hp.mpr hy) ho hs (record ▸ hb) hk hd hfe]

end Sys2Proof.Machine
end

section
/-! SUPPORT. The rows of a drain, said once: how long they are, what writing them leaves in the store (R185, R202, R212). -/
namespace Sys2Proof.Machine
open Sys2Proof

/-! ## Rows of bytes -/

theorem Memory.readBytes_congr {m v : Memory} {a n : Nat} (h : ∀ k, a ≤ k → k < a + n → v.readByte k = m.readByte k) :
    v.readBytes a n = m.readBytes a n := by
  induction n generalizing a with
  | zero => rfl
  | succ n ih =>
    rw [Memory.readBytes, Memory.readBytes, h a (Nat.le_refl a) (by omega), ih fun k hk hl => h k (by omega) (by omega)]

/-- The memory after rows of bytes have been written from `dst` on, `stride` apart. -/
def Memory.writeRows (m : Memory) (dst stride : Nat) (rows : List (List Byte)) : Memory :=
  (List.zip (List.range rows.length) rows).foldl (fun m r => m.writeBytes (dst + r.1 * stride) r.2) m

section
variable (m : Memory) (dst stride n : Nat)

theorem Memory.writeRows_append (rows : List (List Byte)) (r : List Byte) : m.writeRows dst stride (rows ++ [r]) =
    (m.writeRows dst stride rows).writeBytes (dst + rows.length * stride) r := by
  simp [Memory.writeRows, List.range_succ, List.zip_append]

theorem Memory.readByte_writeRows_outside (rows : List (List Byte)) (hn : ∀ r ∈ rows, r.length = n) (a : Nat)
    (h : ∀ i, i < rows.length → a < dst + i * stride ∨ dst + i * stride + n ≤ a) :
    (m.writeRows dst stride rows).readByte a = m.readByte a := by
  induction rows using List.reverseRecOn with
  | nil => rfl
  | append_singleton rows r ih =>
    have last : r.length = n := hn r (by simp)
    have past := h rows.length (by simp)
    rw [Memory.writeRows_append, Memory.readByte_writeBytes_other _ _ _ _ (last ▸ past)]
    exact ih (fun x hx => hn x (by simp [hx])) fun i hi => h i (by simp; omega)

/-- R185: rows that do not overlap are all in the memory when the last has been written. -/
theorem Memory.readBytes_writeRows (rows : List (List Byte)) (hn : ∀ r ∈ rows, r.length = n) (hs : n ≤ stride) (i : Nat)
    (b : List Byte) (hb : rows[i]? = some b) : (m.writeRows dst stride rows).readBytes (dst + i * stride) b.length = b := by
  induction rows using List.reverseRecOn with
  | nil => simp at hb
  | append_singleton rows r ih =>
    rw [Memory.writeRows_append]
    rcases Nat.lt_trichotomy i rows.length with hi | hi | hi
    · rw [List.getElem?_append_left hi] at hb
      have short : b.length = n := hn b (by simp [List.mem_of_getElem? hb])
      have below : (i + 1) * stride ≤ rows.length * stride := Nat.mul_le_mul_right _ hi
      rw [Nat.add_one_mul] at below
      rw [Memory.readBytes_congr fun k _ hk => Memory.readByte_writeBytes_other _ _ _ _ (by omega)]
      exact ih (fun x hx => hn x (by simp [hx])) hb
    · subst hi
      rw [List.getElem?_concat_length, Option.some.injEq] at hb
      rw [hb, Memory.readBytes_writeBytes_same]
    · rw [List.getElem?_eq_none (by simp; omega)] at hb
      cases hb

end

theorem TileSt.writeRows_eq (t : TileSt) (dst stride : Nat) (rows : List (List Byte)) :
    t.writeRows ⟨dst, stride, rows⟩ = { t with mem := { t.mem with store := t.mem.store.writeRows dst stride rows } } := by
  unfold TileSt.writeRows Memory.writeRows
  dsimp only
  generalize List.zip (List.range rows.length) rows = l
  induction l generalizing t with
  | nil => rfl
  | cons r l ih =>
    rw [List.foldl_cons, ih]
    rfl

/-! ## The length of a row -/

theorem packElems_length_nibbles : ∀ l : List Nat, (packElems 4 l).length = (l.length + 1) / 2
  | [] => rfl
  | [x] => by simp [packElems]
  | x :: y :: l => by
    have rest := packElems_length_nibbles l
    simp only [packElems, if_true, List.length_cons, rest]
    omega

theorem packElems_length_bytes (b : Nat) (hb : b ≠ 4) : ∀ l : List Nat, (packElems b l).length = l.length * (b / 8)
  | [] => by simp [packElems]
  | [x] => by simp [packElems, hb, length_leBytes]
  | x :: y :: l => by
    have rest := packElems_length_bytes b hb (y :: l)
    rw [packElems, if_neg hb, List.length_append, length_leBytes, rest, List.length_cons (a := x), Nat.add_one_mul, Nat.add_comm]

/-- R121: packed elements take the bytes of their span. -/
theorem packElems_length (f : Fmt) (l : List Nat) : (packElems f.bits l).length = f.span l.length := by
  have widths : f.bits = 4 ∨ f.bits ≠ 4 ∧ f.bits = 8 * (f.bits / 8) := by cases f <;> decide
  rcases widths with h | ⟨h, hb⟩
  · rw [h, packElems_length_nibbles, Fmt.span, h, ceilDiv]
    omega
  · rw [packElems_length_bytes _ h, Fmt.span, ceilDiv]
    generalize f.bits / 8 = b at hb ⊢
    rw [hb, Nat.mul_left_comm]
    omega

theorem Acc.round_length (a : Acc) (f : Fmt) (m : RndMode) (ieee : Bool) (row : Nat) (l : List Num) :
    (a.round f m ieee row l).1.length = l.length := by
  have grows (z : List (Nat × Num)) (r : Rounded) :
      (z.foldl (fun (r : Rounded) x => r.push f m ieee x.2 {} (drainPos 4 row x.1)) r).codes.length = r.codes.length + z.length := by
    induction z generalizing r with
    | nil => rfl
    | cons x z ih =>
      rw [List.foldl_cons, ih, List.length_cons]
      simp only [Rounded.push, List.length_cons]
      omega
  simp [Acc.round, grows]

section
variable (t : TileSt) (d : DrainCtl) (f : MxDrain)

theorem TileSt.frontSteps_length (r : Num) (m : Nat) (a : Acc) : (t.frontSteps d f none r m a).1.length = 64 := by
  simp [TileSt.frontSteps, scaleRow, mapRow]

/-- Every row of a drain without an epilogue has the bytes of its format. -/
theorem TileSt.plainRows_length (r : Nat → Num) (a : Acc) : ∀ b ∈ (t.plainRows d f none r a).1, b.length = d.fmt.span 64 := by
  unfold TileSt.plainRows
  refine List.foldlRecOn (motive := fun v : List (List Byte) × Acc => ∀ b ∈ v.1, b.length = d.fmt.span 64) _ _ (by simp)
    fun v hv m _ b hb => ?_
  rcases List.mem_append.mp hb with hb | hb
  · exact hv b hb
  · rw [List.mem_singleton.mp hb, DrainCtl.convert, packElems_length, Acc.round_length, TileSt.frontSteps_length]

theorem TileSt.rawRows_length : ∀ b ∈ t.rawRows f, b.length = Fmt.acc.span 64 := by
  intro b hb
  obtain ⟨m, -, rfl⟩ := List.mem_map.mp hb
  simp [List.length_flatMap, length_leBytes]
  decide

theorem TileSt.plainRows_count (r : Nat → Num) (a : Acc) : (t.plainRows d f none r a).1.length = f.m.toNat := by
  have one (l : List Nat) (v : List (List Byte) × Acc) : (l.foldl (fun (acc : List (List Byte) × Acc) m =>
      let (l, a) := t.frontSteps d f none (r m) m acc.2
      let (b, a) := d.convert m l a
      (acc.1 ++ [b], a)) v).1.length = v.1.length + l.length := by
    induction l generalizing v with
    | nil => rfl
    | cons m l ih =>
      rw [List.foldl_cons, ih, List.length_cons, List.length_append, List.length_singleton]
      omega
  rw [TileSt.plainRows, one, List.length_range]
  exact Nat.zero_add _

theorem TileSt.rawRows_count : (t.rawRows f).length = f.m.toNat := by simp [TileSt.rawRows]

/-- The rows of a drain without an epilogue depend on the tile's memories and its array. -/
theorem TileSt.plainRows_congr {t v : TileSt} (hm : v.mem = t.mem) (ha : v.arr = t.arr) (d : DrainCtl) (f : MxDrain)
    (r : Nat → Num) (a : Acc) : v.plainRows d f none r a = t.plainRows d f none r a := by
  simp only [TileSt.plainRows, TileSt.frontSteps, TileSt.readN, hm, ha]

theorem TileSt.rawRows_congr {t v : TileSt} (ha : v.arr = t.arr) (f : MxDrain) : v.rawRows f = t.rawRows f := by
  simp only [TileSt.rawRows, ha]

end

end Sys2Proof.Machine
end

section
/-! The command MXDRAIN (R98, R185, R202). -/
namespace Sys2Proof.Machine
open Sys2Proof

/-! ## The effect of a drain without an epilogue -/

/-- The control of a drain without an epilogue. -/
def State.plainCtl (s : State) (ix : Nat) (f : MxDrain) : DrainCtl :=
  { strict := false, ctl := s.numCtl ix, fmt := (fmtOf f.fmt.toNat).getD .fp32, ifmt := .fp32, rnd := f.rnd.toNat, ovf := f.ovf.toNat }

/-- The rows that a drain without an epilogue writes. -/
def State.drainRows (s : State) (ix : Nat) (f : MxDrain) : List (List Byte) :=
  if f.fmt = 8 then (s.tile ix).rawRows f
  else ((s.tile ix).plainRows (s.plainCtl ix f) f none (fun _ => .fin false 1 0) { gen := (s.tile ix).genMx }).1

/-- A tile after a drain: its rows are in the store, and its generator has gone on. -/
def TileSt.drained (t : TileSt) (f : MxDrain) (rows : List (List Byte)) (gen : DWord) : TileSt :=
  { t with mem := { t.mem with store := t.mem.store.writeRows (f.dst.toNat * 64) (f.dstride.toNat * 64) rows }, genMx := gen }

@[simp] theorem TileSt.drained_engine (t : TileSt) (f : MxDrain) (rows : List (List Byte)) (gen : DWord) (e : Engine) :
    (t.drained f rows gen).engine e = t.engine e := by cases e <;> rfl

section
variable (s : State) (c : Issuing) (f : MxDrain)

theorem State.drainRows_count (ix : Nat) : (s.drainRows ix f).length = f.m.toNat := by
  unfold State.drainRows
  split
  · exact TileSt.rawRows_count _ _
  · exact TileSt.plainRows_count _ _ _ _ _

theorem State.drainRows_length (ix : Nat) : ∀ b ∈ s.drainRows ix f, b.length = f.rowBytes := by
  unfold State.drainRows
  split
  · next h =>
    have acc : f.rowBytes = Fmt.acc.span 64 := by rw [MxDrain.rowBytes, h]; rfl
    rw [acc]
    exact TileSt.rawRows_length _ _
  · exact TileSt.plainRows_length _ _ _ _ _

/-- R185: a drain without an epilogue writes its rows, and notes what they raised. -/
theorem State.drainEffect_plain : let t := s.drainEffect c f none
    elsewhere s t c.ix ∧ ∃ g, t.tile c.ix = (s.tile c.ix).drained f (s.drainRows c.ix f) g := by
  by_cases hm : f.m.toNat = 0
  · have empty : s.drainRows c.ix f = [] := List.eq_nil_of_length_eq_zero ((s.drainRows_count f c.ix).trans hm)
    rw [empty]
    simp only [State.drainEffect, hm, if_true]
    exact ⟨elsewhere_refl _ _, _, rfl⟩
  · by_cases h8 : f.fmt = 8
    · simp only [State.drainEffect, hm, h8, State.drainRows, if_true, if_false]
      obtain ⟨he, ht, -⟩ := accounts_numEvents
        (s.modTile c.ix fun t => t.writeRows ⟨f.dst.toNat * 64, f.dstride.toNat * 64, t.rawRows f⟩) c.ix c.p c.pc
        c.d ((s.tile c.ix).rawNans f)
      refine ⟨elsewhere_trans (elsewhere_modTile ..) (he c.ix), (s.tile c.ix).genMx, ?_⟩
      rw [ht, State.tile_modTile_same, TileSt.writeRows_eq]
      rfl
    · let out := (s.tile c.ix).plainRows (s.plainCtl c.ix f) f none (fun _ => .fin false 1 0) { gen := (s.tile c.ix).genMx }
      let v := (s.modTile c.ix fun t => { t with genMx := out.2.gen }).numEvents c.ix c.p c.pc c.d out.2.ev
      have writes : s.drainEffect c f none =
          v.modTile c.ix fun t => t.writeRows ⟨f.dst.toNat * 64, f.dstride.toNat * 64, out.1⟩ := by
        simp only [State.drainEffect, hm, h8, if_false, Option.isSome_none, Bool.and_false]
        rfl
      obtain ⟨he, ht, -⟩ := accounts_numEvents (s.modTile c.ix fun t => { t with genMx := out.2.gen }) c.ix c.p c.pc c.d out.2.ev
      rw [writes]
      refine ⟨elsewhere_trans (elsewhere_modTile ..) (elsewhere_trans (he c.ix) (elsewhere_modTile ..)), out.2.gen, ?_⟩
      rw [State.tile_modTile_same, ht, State.tile_modTile_same, TileSt.writeRows_eq, State.drainRows, if_neg h8]
      rfl

end

/-! ## The checks of a drain -/

/-- The regions that operands of an MXDRAIN use: none when it drains nothing. -/
def MxDrain.used (f : MxDrain) (l : List Opnd) : List Nat := if f.m = 0 then [] else resOf l

/-- The check of an epilogue record that fails first (R202, R209). -/
def State.epiBad (s : State) (c : Issuing) (f : MxDrain) (h : Epi) : Option Nat :=
  firstFail
    [(h.ok c.d.strict f.slot.toNat && (!h.hook || s.portEnabled h.port) && !(c.d.strict && f.rnd == 3 && h.ifmt == 0), rsReserved),
     (operandsOk (f.opnds (some h)).1 (f.opnds (some h)).2 && !!h.sendInside f, rsAddress), (!!s.sendAllowed c h, rsOutside)]

/-- The group that an epilogue sends its rows to has an owner (R213). -/
def State.groupTaken (s : State) (f : MxDrain) (h : Epi) : Bool :=
  h.send && h.sendKind == 2 && (f.m != 0 || h.sigEn) && (s.groupRun h.sendGroup).owner.isSome

/-- The regions that a drain with an epilogue reads. -/
def MxDrain.epiReads (f : MxDrain) (h : Epi) : List Nat :=
  dedup (resAcc f.slot.toNat :: f.used (f.opnds (some h)).1 ++ regionsOf (f.epiRec.toNat * 64) 128)

/-- The regions that a drain with an epilogue writes. -/
def TileSt.epiWrites (t : TileSt) (f : MxDrain) (h : Epi) : List Nat :=
  dedup (f.used (f.opnds (some h)).2 ++ ((if h.rescales then [resAcc h.target] else []) ++ t.heldRes f h))

section
variable (s : State) (c : Issuing) (f : MxDrain)

theorem State.epiBad_none {h : Epi} (hok : h.ok c.d.strict f.slot.toNat = true) (hport : h.hook = false ∨ s.portEnabled h.port = true)
    (hrnd : (c.d.strict && f.rnd == 3 && h.ifmt == 0) = false) (ho : operandsOk (f.opnds (some h)).1 (f.opnds (some h)).2 = true)
    (hin : h.sendInside f = true) (hall : s.sendAllowed c h = true) : s.epiBad c f h = none := by
  have port : (!h.hook || s.portEnabled h.port) = true := by simpa using hport
  simp only [State.epiBad, firstFail, hok, port, hrnd, ho, hin, hall, Bool.not_true, Bool.not_false, Bool.and_true, if_true]

/-- A drain without an epilogue that passes its checks. -/
theorem State.drain_plain (hf : drainFieldsOk f = true) (he : f.epiEn = false)
    (ho : operandsOk (f.opnds none).1 (f.opnds none).2 = true) (hs : (s.tile c.ix).slotsFull c.e = false)
    (reads writes : List Nat) (hr : reads = dedup (resAcc f.slot.toNat :: f.used (f.opnds none).1 ++ []))
    (hw : writes = dedup (f.used (f.opnds none).2 ++ [])) (hb : (s.tile c.ix).blocked none reads writes = none) :
    s.drain c {} f = (s.launch c reads writes none).drainEffect c f none := by
  have plain : s.drain c {} f = s.drainWith c {} f none := by simp [State.drain, hf, he]
  subst hr hw
  rw [plain]
  refine Eq.trans ?_ (s.dispatchOp_launches c _ _ (fun s => s.drainEffect c f none) hs hb)
  simp [State.drainWith, firstFail, ho, he, MxDrain.used, State.underUpset_none]

/-- R176, R202: a drain takes its epilogue from its record, which lies in the store and has no pending writer. -/
theorem State.drain_record (hf : drainFieldsOk f = true) (he : f.epiEn = true) (hin : f.epiRec.toNat * 64 + 128 ≤ 1048576)
    (hr : s.recordReady c (f.epiRec.toNat * 64) 128 = none) :
    s.drain c {} f = s.drainWith c {} f (some (epiOf ((s.tile c.ix).readN .store (f.epiRec.toNat * 64) 128))) := by
  simp only [State.drain, hf, he, hr, Bool.not_true, Bool.false_eq_true, if_false, Nat.not_lt.mpr hin]

/-- A drain with an epilogue that passes its checks. -/
theorem State.drainWith_launches (h : Epi) (he : f.epiEn = true) (hbad : s.epiBad c f h = none) (hfree : s.groupTaken f h = false)
    (hstrict : (c.d.strict && h.online) = false) (hs : (s.tile c.ix).slotsFull c.e = false)
    (hb : (s.tile c.ix).blocked none (f.epiReads h) ((s.tile c.ix).epiWrites f h) = none) :
    s.drainWith c {} f (some h) = (s.launch c (f.epiReads h) ((s.tile c.ix).epiWrites f h) none).drainEffect c f (some h) := by
  have online : firstFail [(!(c.d.strict && h.online), rsStrictOnline)] = none := by
    rw [hstrict]
    rfl
  refine Eq.trans ?_ (s.dispatchOp_launches c _ _ (fun s => s.drainEffect c f (some h)) hs hb)
  unfold State.epiBad at hbad
  unfold State.groupTaken at hfree
  simp only [State.drainWith, Option.map_some, Option.getD_some, hbad, hfree, online, he, if_true,
    Bool.and_false, Bool.false_eq_true, if_false, State.underUpset_none]
  rfl

end

theorem exec_mxdrain {s u : State} {tile : TileId} {e : Engine} {c : Issuing} {f : MxDrain} (h : issuesTo s tile e (.mxdrain f) c u) :
    exec (.mxdrain tile e {}) s = .next (u.drain c {} f) :=
  congrArg Host.Outcome.next (issueOp_of_issuesTo h fun c i s => match i with
    | .mxdrain f => s.drain c {} f
    | _ => s)

theorem State.numCtl_launch (s : State) (c : Issuing) (reads writes : List Nat) :
    (s.launch c reads writes none).numCtl c.ix = s.numCtl c.ix := by
  rw [State.numCtl, State.latched_elsewhere (elsewhere_launch s c reads writes) fun p => (s.pack_launch c reads writes p).1]
  rfl

/-- Putting a drain on the scoreboard does not change its rows. -/
theorem State.drainRows_launch (s : State) (c : Issuing) (f : MxDrain) (reads writes : List Nat) :
    (s.launch c reads writes none).drainRows c.ix f = s.drainRows c.ix f := by
  simp only [State.drainRows, State.plainCtl, State.numCtl_launch, State.tile_launch, TileSt.launched_genMx,
    TileSt.rawRows_congr (TileSt.launched_arr ..), TileSt.plainRows_congr (TileSt.launched_mem ..) (TileSt.launched_arr ..)]

/-- Settles O28: the record by `drain_record` and `drainWith_launches`, the rows by `drainEffect_plain` and by what
writing rows leaves in a memory. -/
theorem mxdrainWritesItsRows : Obligations.MxdrainWritesItsRows := by
  intro s u tile e c f h hf x used
  have hs := slot_of_issuesTo h
  rw [exec_mxdrain h]
  refine ⟨?_, ?_⟩
  · intro r he hin hrd hrec o reads writes hok hport hrnd ho hsi hsa hfree hso hb
    have passes := u.epiBad_none c f hok hport hrnd ho hsi hsa
    rw [u.drain_record c f hf he hin hrd, ← hrec, u.drainWith_launches c f r he passes hfree hso hs hb]
    rfl
  · intro he ho hb hlen d rows
    obtain ⟨-, -, hce⟩ := names_of_issuesTo h
    let reads := dedup (resAcc f.slot.toNat :: used (f.opnds none).1 ++ [])
    let writes := dedup (used (f.opnds none).2 ++ [])
    have effect := u.drain_plain c f hf he ho hs reads writes rfl rfl hb
    obtain ⟨frame, g, hy⟩ := (u.launch c reads writes none).drainEffect_plain c f
    rw [State.drainRows_launch, State.tile_launch] at hy
    have same : u.drainRows c.ix f = rows := rfl
    have count : rows.length = f.m.toNat := u.drainRows_count f c.ix
    have length : ∀ b ∈ rows, b.length = f.rowBytes := u.drainRows_length f c.ix
    rw [same] at hy
    have mem : (x.launched c reads writes).mem = x.mem := TileSt.launched_mem ..
    refine ⟨_, _, congrArg _ effect, hy, elsewhere_trans (elsewhere_launch u c _ _) frame, TileSt.launched_arr ..,
      TileSt.launched_sems .., ?_, fun m b _ hb => ?_, fun a ha => ?_, ?_, ?_⟩
    · rw [TileSt.drained_engine, ← hce]
      exact TileSt.launched_engine ..
    · exact Memory.readBytes_writeRows _ _ _ _ rows length hlen m b hb
    · refine (Memory.readByte_writeRows_outside _ _ _ _ rows length a fun i hi => ha i (count ▸ hi)).trans ?_
      rw [mem]
    · show (x.launched c reads writes).mem.x = x.mem.x
      rw [mem]
    · show (x.launched c reads writes).mem.y = x.mem.y
      rw [mem]

end Sys2Proof.Machine
end

section
/-! The Kennel: spare rows and self-test runs (R95, R96, R270, R271, R274). -/
namespace Sys2Proof.Machine
open Sys2Proof

/-! ## Sites -/

theorem Table.put_put_same {α : Type} (t : Table α) (k : Nat) (v w : α) : Table.put (Table.put t k v) k w = Table.put t k w := by
  induction t with
  | nil => simp [Table.put]
  | cons e t ih =>
    obtain ⟨i, x⟩ := e
    by_cases hlt : k < i
    · simp [Table.put, hlt]
    · by_cases heq : k = i
      · simp [Table.put, heq]
      · simp [Table.put, hlt, heq, ih]

section
variable (s : State) (i : Nat)

theorem State.modSite_modSite (f g : SiteSt → SiteSt) : (s.modSite i f).modSite i g = s.modSite i fun x => g (f x) := by
  rw [State.modSite, State.site_modSite_same]
  simp only [State.modSite, State.setSite, Table.put_put_same]

/-- R272: where no site is SUSPECT, a new spare serves none. -/
theorem State.serveSuspects_none (c : Nat) (h : ∀ j, (s.site j).st ≠ .suspect) : s.serveSuspects c = s := by
  refine List.foldlRecOn (motive := fun v => v = s) (columnSites c) _ rfl fun v hv j _ => ?_
  subst hv
  simp [h j]

/-- R271: a site that becomes SPARE where no other is SUSPECT. -/
theorem State.site_spareSite (h : ∀ j, j ≠ i → (s.site j).st ≠ .suspect) :
    (s.spareSite i).site i = { s.site i with st := .spare, retest := false, passed := 0 } := by
  have spares (v : State) (hv : ∀ j, v.site j = s.site j) :
      ((v.modSite i fun x => { x with st := .spare, retest := false, passed := 0 }).serveSuspects (i % 32)).site i =
        { s.site i with st := .spare, retest := false, passed := 0 } := by
    rw [State.serveSuspects_none, State.site_modSite_same, hv]
    intro j
    by_cases hj : j = i
    · simp [hj]
    · rw [State.site_modSite_other _ _ _ _ hj, hv]
      exact h j hj
  unfold State.spareSite
  dsimp only
  split
  · exact spares _ fun _ => rfl
  · exact spares _ fun _ => rfl

theorem State.site_retireSite : (s.retireSite i).site i = { s.site i with st := .retired } :=
  s.site_modSite_same i fun x => { x with st := .retired }

end

/-! ## Spare rows (R95, R96, R270) -/

section
variable (s : State) (tile : TileId) (m : TileMem) (row : Nat)

theorem execRowSpareReplace_quiescent (h : ∀ p, s.packOf tile = some p → s.quiescent p = true) :
    execRowSpareReplace tile m row s = .next (s.replaceRow (s.siteOf tile).ix m row) := by
  unfold execRowSpareReplace
  cases hp : s.packOf tile with
  | none => rfl
  | some p => simp [h p hp]

theorem execRowSpareReplace_waits (p : Nat) (hp : s.packOf tile = some p) (hq : s.quiescent p = false) :
    execRowSpareReplace tile m row s = .next s := by
  simp [execRowSpareReplace, hp, hq]

theorem State.replaceRow_notDue (i : Nat) (h : s.rowDue i m row = false) : s.replaceRow i m row = s := by
  simp [State.replaceRow, h]

theorem execRowSpareReplace_notDue (h : s.rowDue (s.siteOf tile).ix m row = false) : execRowSpareReplace tile m row s = .next s := by
  simp [execRowSpareReplace, State.replaceRow_notDue s m row _ h]

/-- The errors of a row are forgotten when a spare row takes its place. -/
def SiteSt.rowGone (x : SiteSt) (m : TileMem) (row : Nat) : SiteSt :=
  { x with corrected := x.corrected.filter fun e => !(e.1 == m && e.2.1 == row) }

/-- The spare rows of a bank that are in use. -/
def SiteSt.rowsUsed (x : SiteSt) (m : TileMem) (row : Nat) : Nat :=
  (x.spareRows.filter fun e => e.1 == m && e.2.1 == rowBank m row).length

theorem State.replaceRow_spare (i : Nat) (h : s.rowDue i m row = true) (hu : (s.site i).rowsUsed m row < spareRowsOf m) :
    s.replaceRow i m row = s.modSite i fun x => { x.rowGone m row with spareRows := x.spareRows ++ [(m, rowBank m row, row)] } := by
  unfold SiteSt.rowsUsed at hu
  simp only [State.replaceRow, h, hu, Bool.not_true, Bool.false_eq_true, if_false, if_true, State.modSite_modSite]
  rfl

theorem State.replaceRow_exhausted (i : Nat) (h : s.rowDue i m row = true) (hu : spareRowsOf m ≤ (s.site i).rowsUsed m row) :
    s.replaceRow i m row = (s.modSite i fun x => x.rowGone m row).quarantine i 2 0 := by
  unfold SiteSt.rowsUsed at hu
  simp only [State.replaceRow, h, Nat.not_lt.mpr hu, Bool.not_true, Bool.false_eq_true, if_false]
  rfl

end

/-! ## Self-test runs (R271, R274) -/

/-- A site after a self-test run. -/
def SiteSt.tested (x : SiteSt) (pass : Bool) (now : Nat) : SiteSt :=
  { x with bistRuns := sat 8 (x.bistRuns + 1), lastFail := !pass, lastPass := if pass then some now else x.lastPass
           served := if pass then [] else x.served }

section
variable (s : State) (i : Nat)

/-- The state when a self-test run of a site is recorded. -/
def State.tested (pass : Bool) : State := s.modSite i fun x => x.tested pass s.tick.count

@[simp] theorem State.site_tested (pass : Bool) : (s.tested i pass).site i = (s.site i).tested pass s.tick.count :=
  State.site_modSite_same ..

theorem State.site_tested_other (pass : Bool) (j : Nat) (h : j ≠ i) : (s.tested i pass).site j = s.site j :=
  State.site_modSite_other _ _ _ _ h

/-- R274: a failed run retires its site, and is counted. -/
def State.testFailed : State := ((s.tested i false).retireSite i).modKennel fun k => { k with bistFail := sat 16 (k.bistFail + 1) }

theorem State.site_testFailed : ((s.testFailed i).site i).st = .retired :=
  congrArg SiteSt.st ((s.tested i false).site_retireSite i)

theorem State.selfTest_testing_pass (h : (s.site i).st = .testing) : s.selfTest i true = (s.tested i true).spareSite i := by
  simp only [State.selfTest, h, if_true]
  rfl

/-- R274: the alarm of a site whose run in TESTING fails. -/
theorem State.selfTest_testing_fail (h : (s.site i).st = .testing) : ∃ (v : State) (b : List Byte),
    s.selfTest i false = v.raise .alarm 0x0008 i b ∧
    v.site i = (s.testFailed i).site i := by
  cases hp : (s.site i).lastPass with
  | some t =>
    simp only [State.selfTest, h, hp, Bool.false_eq_true, if_false]
    exact ⟨s.testFailed i, _, rfl, rfl⟩
  | none =>
    simp only [State.selfTest, h, hp, Bool.false_eq_true, if_false]
    exact ⟨(s.testFailed i).draw.2, _, rfl, rfl⟩

theorem State.selfTest_quarantine_fail (h : (s.site i).st = .quarantine) : s.selfTest i false = s.testFailed i := by
  simp only [State.selfTest, h, Bool.not_false, if_true]
  rfl

theorem State.selfTest_quarantine_pass (h : (s.site i).st = .quarantine) : s.selfTest i true =
    if (s.site i).passed + 1 < 3 then (s.tested i true).modSite i fun x => { x with passed := x.passed + 1 }
    else if 3 ≤ (s.site i).faults then (s.tested i true).retireSite i
    else (s.tested i true).spareSite i := by
  simp only [State.selfTest, h, Bool.not_true, Bool.false_eq_true, if_false]
  rfl

theorem State.selfTest_untested (pass : Bool) (ht : (s.site i).st ≠ .testing) (hq : (s.site i).st ≠ .quarantine) :
    s.selfTest i pass = s := by
  unfold State.selfTest
  dsimp only
  split
  · contradiction
  · contradiction
  · rfl

variable (hn : ∀ j, (s.site j).st ≠ .suspect)
include hn

/-- R271: a tested site that becomes SPARE where none is SUSPECT. -/
theorem State.site_tested_spare : ((s.tested i true).spareSite i).site i =
    { (s.site i).tested true s.tick.count with st := .spare, retest := false, passed := 0 } := by
  rw [State.site_spareSite, State.site_tested]
  intro j hj
  rw [State.site_tested_other _ _ _ _ hj]
  exact hn j

end

/-- Settles O20: the rows by the cases of `replaceRow`, the runs by the cases of `selfTest`. -/
theorem rowsAreSparedAndSitesTested : Obligations.RowsAreSparedAndSitesTested := by
  refine ⟨?_, ?_⟩
  · intro s tile m row i used gone
    refine ⟨fun hq hd => ?_, ?_⟩
    · have replaces := execRowSpareReplace_quiescent s tile m row hq
      exact ⟨fun hu => replaces.trans (congrArg _ (s.replaceRow_spare m row i hd hu)),
        fun hu => replaces.trans (congrArg _ (s.replaceRow_exhausted m row i hd hu))⟩
    · rintro (hd | ⟨p, hp, hq⟩)
      · exact execRowSpareReplace_notDue s tile m row hd
      · exact execRowSpareReplace_waits s tile m row p hp hq
  · intro s x hn
    refine ⟨fun ht => ⟨⟨_, rfl, ?_⟩, ?_⟩, fun hq => ⟨⟨_, rfl, ?_⟩, fun hp => ⟨_, rfl, ?_⟩, fun hp => ⟨_, rfl, ?_⟩⟩,
      fun ht hq ok => ?_⟩
    · rw [s.selfTest_testing_pass _ ht, s.site_tested_spare _ hn]
      exact ⟨rfl, rfl⟩
    · obtain ⟨v, b, hv, hs⟩ := s.selfTest_testing_fail x.ix ht
      refine ⟨_, rfl, ?_, ?_⟩
      · rw [hv, State.site_raise, hs, State.site_testFailed]
      · rw [hv]
        exact ⟨_, _, rfl, rfl, rfl⟩
    · rw [s.selfTest_quarantine_fail _ hq, State.site_testFailed]
    · rw [s.selfTest_quarantine_pass _ hq, if_neg (by omega)]
      by_cases hf : (s.site x.ix).faults < 3
      · rw [if_neg (by omega), if_pos hf, s.site_tested_spare _ hn]
      · rw [if_pos (by omega), if_neg hf, State.site_retireSite]
    · rw [s.selfTest_quarantine_pass _ hq, if_pos (by omega), State.site_modSite_same, State.site_tested]
      exact ⟨hq, rfl⟩
    · exact congrArg _ (s.selfTest_untested x.ix ok ht hq)

end Sys2Proof.Machine
end

section
/-! The value of an exact entry (R126). -/
namespace Sys2Proof.Machine
open Sys2Proof

/-- A number of `n` bits read as two's complement is zero where its bits are. -/
theorem signed_eq_zero_iff {n x : Nat} (hx : x < 2 ^ n) : signed n x = 0 ↔ x = 0 := by
  have bound : (x : Int) < 2 ^ n := by exact_mod_cast hx
  unfold signed
  split
  · exact Int.natCast_eq_zero
  · next top =>
    have positive : 0 < x := Nat.lt_of_lt_of_le (Nat.two_pow_pos _) (Nat.le_of_not_lt top)
    omega

/-- Settles O59: the branches of `Exact.num`, in the order of the rules. -/
theorem exactEntryHasTheValueOfTheFirstRule : Obligations.ExactEntryHasTheValueOfTheFirstRule := by
  intro w hexact low v
  have value : entryNum w = (Exact.ofEntry w).num := if_neg (ne_true_of_eq_false hexact)
  have zero : signed 96 low = 0 ↔ low = 0 := signed_eq_zero_iff (Nat.mod_lt _ (Nat.two_pow_pos 96))
  rw [value, Exact.num, Exact.ofEntry]
  refine ⟨fun hnan => if_pos hnan, fun hnan hp => ?_, fun hnan hp hn => ?_, fun hnan hp hn => ?_⟩
  · simp only [hnan, hp, Bool.false_eq_true, if_true, if_false]
  · simp only [hnan, hp, hn, Bool.false_eq_true, if_true, if_false]
  simp only [hnan, hp, hn, Bool.false_eq_true, if_false]
  refine ⟨fun hl => if_pos (zero.mpr hl), fun hl => ?_⟩
  rw [if_neg (zero.not.mpr hl), Num.ofInt, if_neg (zero.not.mpr hl)]
  rfl

end Sys2Proof.Machine
end

section
/-! SUPPORT. Packed elements in a memory, said once: what reading a part of written bytes gives, and element `i` of an array that
`packElems` has written (R7, R121). -/
namespace Sys2Proof.Machine
open Sys2Proof

/-! ## Bytes -/

theorem leNat_leBytes (n x : Nat) : leNat (leBytes n x) = x % 256 ^ n := by
  induction n generalizing x with
  | zero => rw [Nat.pow_zero, Nat.mod_one]; rfl
  | succ n ih => rw [leBytes, leNat, ih, Nat.pow_succ', Nat.mod_mul, BitVec.toNat_ofNat]

/-- Reading a part of the bytes written. -/
theorem Memory.readBytes_writeBytes_part (m : Memory) (a k n : Nat) (l : List Byte) (h : k + n ≤ l.length) :
    (m.writeBytes a l).readBytes (a + k) n = (l.drop k).take n := by
  have whole := m.readBytes_writeBytes_same a l
  have part := (m.writeBytes a l).drop_readBytes a l.length k
  rw [whole] at part
  rw [part, Memory.take_readBytes, Nat.min_eq_left (by omega)]

theorem Memory.readLE_writeBytes_leBytes (m : Memory) (a n x : Nat) : (m.writeBytes a (leBytes n x)).readLE a n = x % 256 ^ n := by
  have bytes := m.readBytes_writeBytes_same a (leBytes n x)
  rw [length_leBytes] at bytes
  rw [Memory.readLE, bytes, leNat_leBytes]

/-- Item `i` of items of `n` bytes each. -/
theorem drop_take_flatMap_leBytes {α : Type} (n : Nat) (v : α → Nat) (l : List α) (i : Nat) (x : α) (h : l[i]? = some x) :
    ((l.flatMap fun y => leBytes n (v y)).drop (i * n)).take n = leBytes n (v x) := by
  induction l generalizing i with
  | nil => simp at h
  | cons y l ih =>
    rw [List.flatMap_cons]
    cases i with
    | zero =>
      obtain rfl : y = x := by simpa using h
      rw [Nat.zero_mul, List.drop_zero, List.take_left' (length_leBytes n _)]
    | succ i =>
      rw [Nat.add_one_mul, Nat.add_comm, ← List.drop_drop, List.drop_left' (length_leBytes n _)]
      exact ih i (by simpa using h)

/-! ## Packed elements (R121) -/

/-- Elements of whole bytes lie one after the other. -/
theorem packElems_eq_flatMap (b : Nat) (hb : b ≠ 4) : ∀ l : List Nat, packElems b l = l.flatMap (leBytes (b / 8))
  | [] => rfl
  | [x] => by simp [packElems, hb]
  | x :: y :: l => by
    rw [packElems, if_neg hb, packElems_eq_flatMap b hb (y :: l)]
    rfl

/-- 4-bit elements lie two to a byte, the lower first. -/
theorem packElems_nibble : ∀ (l : List Nat) (i x : Nat), l[i]? = some x →
    bits (leNat (((packElems 4 l).drop (i / 2)).take 1)) (4 * (i % 2)) 4 = x % 16
  | [], i, x, h => by simp at h
  | [y], 0, x, h => by
    obtain rfl : y = x := by simpa using h
    simp [packElems, leNat, bits]
  | [y], i + 1, x, h => by simp at h
  | y :: z :: l, 0, x, h => by
    obtain rfl : y = x := by simpa using h
    simp [packElems, leNat, bits]
  | y :: z :: l, 1, x, h => by
    obtain rfl : z = x := by simpa using h
    simp [packElems, leNat, bits]
    omega
  | y :: z :: l, i + 2, x, h => by
    have rest := packElems_nibble l i x (by simpa using h)
    simpa [packElems] using rest

/-- Element `i` of an array in the tile store, once the array has been written there. -/
theorem TileSt.elem_packElems {t : TileSt} {m : Memory} {a : Nat} {f : Fmt} {l : List Nat}
    (ht : t.mem.store = m.writeBytes a (packElems f.bits l)) {i x : Nat} (h : l[i]? = some x) :
    t.elem .store a f.bits i = x % 2 ^ f.bits := by
  have widths : f.bits = 4 ∨ f.bits ≠ 4 ∧ 256 ^ (f.bits / 8) = 2 ^ f.bits := by cases f <;> decide
  have hi : i < l.length := (List.getElem?_eq_some_iff.mp h).1
  have read (k n : Nat) (hk : k + n ≤ (packElems f.bits l).length) :
      t.readN .store (a + k) n = leNat (((packElems f.bits l).drop k).take n) := by
    rw [TileSt.readN, TileMems.side, ht, Memory.readLE, Memory.readBytes_writeBytes_part _ _ _ _ _ hk]
  rcases widths with hb | ⟨hb, hw⟩
  · rw [TileSt.elem, if_pos hb, read _ _ (by rw [hb, packElems_length_nibbles]; omega), hb]
    exact packElems_nibble l i x h
  · have fits : i * (f.bits / 8) + f.bits / 8 ≤ (packElems f.bits l).length := by
      rw [packElems_length_bytes _ hb, ← Nat.add_one_mul]
      exact Nat.mul_le_mul_right _ hi
    rw [TileSt.elem, if_neg hb, read _ _ fits, packElems_eq_flatMap _ hb, drop_take_flatMap_leBytes _ (fun y => y) l i x h,
      leNat_leBytes, hw]

end Sys2Proof.Machine
end

section
/-! SUPPORT. The rounding of the elements of an instruction, in order, and the effect of an instruction of the vector engine on
its tile (R123, R137, R139, R140). -/
namespace Sys2Proof.Machine
open Sys2Proof

/-! ## Elements rounded in order -/

/-- The generator after `n` elements: one draw for each in SR mode (R139, R140). -/
def RndMode.genAfter (m : RndMode) (n : Nat) (g : DWord) : DWord := if m = .sr then Nat.repeat genStep n g else g

/-- The next element takes the rounding and leaves the generator of its place. -/
theorem RndMode.draw_genAfter (m : RndMode) (n : Nat) (g : DWord) :
    m.draw (m.genAfter n g) = (elemRound m g n, m.genAfter (n + 1) g) := by
  cases m <;> rfl

/-- R137, R139: every element is rounded once, in order, with its own draw. -/
theorem Rounded.foldl_push (f : Fmt) (m : RndMode) (ieee : Bool) (v : Nat → Num) (ev : Nat → NumEv) (pos : Nat → NanPos) (g : DWord)
    (n : Nat) : let r := (List.range n).foldl (fun r i => r.push f m ieee (v i) (ev i) (pos i)) ({ gen := g } : Rounded)
    r.codes.reverse = (List.range n).map (fun i => (f.convert (elemRound m g i) ieee (v i)).code) ∧ r.gen = m.genAfter n g := by
  induction n with
  | zero => cases m <;> exact ⟨rfl, rfl⟩
  | succ n ih =>
    obtain ⟨hcodes, hgen⟩ := ih
    rw [List.range_succ, List.foldl_append, List.map_append]
    generalize (List.range n).foldl (fun r i => r.push f m ieee (v i) (ev i) (pos i)) ({ gen := g } : Rounded) = r at hcodes hgen ⊢
    simp [Rounded.push, hgen, RndMode.draw_genAfter, hcodes]

/-- A rounding adds one code for each element. -/
theorem Rounded.length_foldl_push {α : Type} (f : Fmt) (m : RndMode) (ieee : Bool) (v : α → Num) (pos : α → NanPos) (l : List α)
    (r : Rounded) :
    (l.foldl (fun (r : Rounded) x => r.push f m ieee (v x) {} (pos x)) r).codes.length = r.codes.length + l.length := by
  induction l generalizing r with
  | nil => rfl
  | cons x l ih =>
    rw [List.foldl_cons, ih, List.length_cons, Rounded.push, List.length_cons]
    omega

/-- Where SR is not accepted nothing is drawn (R137). -/
theorem NumCtl.rnd_ne_sr (c : NumCtl) (rnd : Nat) : c.rnd rnd false ≠ .sr := by
  simp only [NumCtl.rnd, Bool.and_false, Bool.false_eq_true, if_false]
  generalize (if rnd = 0 then c.defRnd else rnd) = r
  split <;> simp

/-- Apart from SR, every element is rounded alike. -/
theorem elemRound_of_ne_sr {m : RndMode} (h : m ≠ .sr) (g k : DWord) (i j : Nat) : elemRound m g i = elemRound m k j := by
  cases m with
  | rne => rfl
  | rtz => rfl
  | sr => exact absurd rfl h

/-! ## The tile of an instruction that works in it -/

/-- The entry of an instruction on the scoreboard (R153). -/
def Issuing.flight (c : Issuing) (reads writes : List Nat) : Flight := ⟨c.e, c.pc, c.word, reads, writes, none⟩

section
variable (t : TileSt) (c : Issuing) (reads writes : List Nat)

@[simp] theorem TileSt.setEngine_genVe (e : Engine) (g : EngineSt) : (t.setEngine e g).genVe = t.genVe := by cases e <;> rfl
@[simp] theorem TileSt.launched_genVe : (t.launched c reads writes).genVe = t.genVe := TileSt.setEngine_genVe ..

/-- R153, R155: the engine goes on, and its instruction is in flight. -/
theorem TileSt.launched_eq : t.launched c reads writes =
    { t.setEngine c.e (t.engine c.e).advance with flights := t.flights ++ [c.flight reads writes] } := by
  unfold TileSt.launched Issuing.flight
  cases c.e <;> rfl

/-- The tile with another store. -/
def TileSt.withStore (m : Memory) : TileSt := { t with mem := { t.mem with store := m } }

@[simp] theorem TileSt.withStore_store (m : Memory) : (t.withStore m).mem.store = m := rfl

theorem TileSt.write_store (a : Nat) (b : List Byte) : t.write .store a b = t.withStore (t.mem.store.writeBytes a b) := rfl

/-- R153: an instruction that writes the store once its engine goes on and it is in flight. -/
theorem TileSt.launched_withStore (m : Memory) : (t.launched c reads writes).withStore m =
    { t.setEngine c.e (t.engine c.e).advance with
      flights := t.flights ++ [c.flight reads writes], mem := { t.mem with store := m } } := by
  unfold TileSt.launched Issuing.flight
  cases c.e <;> rfl

/-- A source element depends on the tile's memories alone. -/
theorem TileSt.source_congr {t v : TileSt} (h : v.mem = t.mem) : v.source = t.source := by
  funext f a i
  simp only [TileSt.source, TileSt.elem, TileSt.readN, h]

end

/-- R176: an instruction that passes its decode checks, has a slot and finds its operands free takes effect. -/
theorem State.dispatchOp_passes {s : State} {c : Issuing} {decode : Option Nat} {reads writes : List Nat} {effect : State → State}
    (hd : decode = none) (hs : (s.tile c.ix).slotsFull c.e = false) (hb : (s.tile c.ix).blocked none reads writes = none) :
    s.dispatchOp c decode reads writes none (fun s => s.underUpset c {} effect) = effect (s.launch c reads writes none) := by
  rw [hd, State.dispatchOp_launches _ _ _ _ _ hs hb, State.underUpset_none]

/-- An instruction that changes its tile and notes what its arithmetic raised leaves the rest alone. -/
theorem modTile_numEvents_frame (s : State) (ix : Nat) (g : TileSt → TileSt) (p pc : Nat) (d : Desc) (ev : NumEv) :
    let t := (s.modTile ix g).numEvents ix p pc d ev
    elsewhere s t ix ∧ t.tile ix = g (s.tile ix) := by
  obtain ⟨frame, tiles, -⟩ := accounts_numEvents (s.modTile ix g) ix p pc d ev
  exact ⟨elsewhere_trans (elsewhere_modTile s ix g) (frame ix), (tiles ix).trans (State.tile_modTile_same ..)⟩

end Sys2Proof.Machine
end

section
/-! The elementwise instructions of the vector engine (R134, R137, R139, R187, R188). -/
namespace Sys2Proof.Machine
open Sys2Proof

/-! ## The exact results -/

/-- R188: the place of its events does not change what a table gives. -/
theorem vtabEval_value (m : Memory) (table : Nat) (x : Num) (p q : NanPos) : (vtabEval m table x p).1 = (vtabEval m table x q).1 := by
  simp only [vtabEval, vtabBy]
  repeat' split
  all_goals rfl

/-- R187: the value of an element before its rounding. -/
theorem elemValue_exact (op : ElemOp) (nl : Memory) (table : Nat) (a b d : Num) (i : Nat) :
    (elemValue op nl table a b d i).1 = elemExact op nl table a b d := by
  cases op with
  | vtab => exact vtabEval_value ..
  | vadd => rfl
  | vmul => rfl
  | vfma => rfl
  | vmax => rfl
  | vmin => rfl
  | vcvt => rfl

/-! ## The codes that an instruction writes -/

/-- Source element `i`: the first under broadcast. -/
def TileSt.elemSource (t : TileSt) (addr : BitVec 14) (fmt : BitVec 4) (bc : Bool) (i : Nat) : Num :=
  t.source ((fmtOf fmt.toNat).getD .fp32) (64 * addr.toNat) (if bc then 0 else i)

/-- What a function of the three sources gives for element `i`; a source that the instruction has not is +0. -/
def TileSt.elemBy {α : Type} (t : TileSt) (op : ElemOp) (f : Elem) (v : Num → Num → Num → α) (i : Nat) : α :=
  v (t.elemSource f.src1 f.fmt1 false i) (if op.two then t.elemSource f.src2 f.fmt2 f.bc2 i else .zero false)
    (if op == .vfma then t.elemSource f.src3 f.fmt3 f.bc3 i else .zero false)

/-- The exact result of element `i`. -/
def TileSt.elemResult (t : TileSt) (op : ElemOp) (f : Elem) : Nat → Num :=
  t.elemBy op f (elemExact op t.mem.nl f.table.toNat)

/-- What element `i` raises before its rounding: NaN sources, and an invalid operation (R142, R144). -/
def TileSt.elemRaised (t : TileSt) (op : ElemOp) (f : Elem) (i : Nat) : NumEv :=
  t.elemBy op f (fun a b d => (evsOf [nanIf a.isNan (elemPos 5 i), nanIf b.isNan (elemPos 6 i), nanIf d.isNan (elemPos 7 i)]).andThen
    (elemValue op t.mem.nl f.table.toNat a b d i).2) i

theorem TileSt.elemResult_congr {t v : TileSt} (h : v.mem = t.mem) : v.elemResult = t.elemResult := by
  funext op f i
  simp only [TileSt.elemResult, TileSt.elemBy, TileSt.elemSource, TileSt.source_congr h, h]

/-- The format of the result. -/
def Elem.fd (f : Elem) : Fmt := (fmtOf f.fmtD.toNat).getD .fp32

/-- The rounding mode of an elementwise instruction: SR for a conversion to a narrow format alone (R137). -/
def State.elemMode (s : State) (ix : Nat) (op : ElemOp) (f : Elem) : RndMode :=
  (s.numCtl ix).rnd f.rnd.toNat (op == .vcvt && f.fd != .fp32)

/-- The code of element `i` of the result. -/
def State.elemCode (s : State) (ix : Nat) (op : ElemOp) (f : Elem) (i : Nat) : Nat :=
  (f.fd.convert (elemRound (s.elemMode ix op f) (s.tile ix).genVe i) ((s.numCtl ix).ieee f.ovf.toNat f.fd)
    ((s.tile ix).elemResult op f i)).code

/-- The elements of the result, rounded in order. -/
def State.elemRounded (s : State) (ix : Nat) (op : ElemOp) (f : Elem) : Rounded :=
  (List.range f.n.toNat).foldl (fun r i => r.push f.fd (s.elemMode ix op f) ((s.numCtl ix).ieee f.ovf.toNat f.fd)
    ((s.tile ix).elemResult op f i) ((s.tile ix).elemRaised op f i) (elemPos 4 i)) { gen := (s.tile ix).genVe }

/-- The operands that an elementwise instruction reads. -/
def Elem.srcs (op : ElemOp) (f : Elem) : List Opnd :=
  elemOpnd f.src1 f.fmt1 f.n.toNat false :: ((if op.two then [elemOpnd f.src2 f.fmt2 f.n.toNat f.bc2] else []) ++
    (if op == .vfma then [elemOpnd f.src3 f.fmt3 f.n.toNat f.bc3] else []))

/-- The operand that it writes. -/
def Elem.dsts (f : Elem) : List Opnd := [elemOpnd f.dst f.fmtD f.n.toNat false]

/-- The tile once an elementwise instruction has written its result. -/
def TileSt.elemWritten (t : TileSt) (f : Elem) (codes : List Nat) (gen : DWord) : TileSt :=
  { t.withStore (t.mem.store.writeBytes (64 * f.dst.toNat) (packElems f.fd.bits codes)) with genVe := gen }

section
variable (s : State) (c : Issuing) (op : ElemOp) (f : Elem)

/-- R187: the effect of an elementwise instruction is to write its codes, and to note what they raised. -/
theorem State.velem_writes (hf : elemFieldsOk op f = true) (ho : operandsOk (f.srcs op) f.dsts = true)
    (hs : (s.tile c.ix).slotsFull c.e = false) (hb : (s.tile c.ix).blocked none (resOf (f.srcs op)) (resOf f.dsts) = none) :
    let v := s.launch c (resOf (f.srcs op)) (resOf f.dsts) none
    let r := v.elemRounded c.ix op f
    s.velem c {} op f = (v.modTile c.ix fun t => t.elemWritten f r.codes.reverse r.gen).numEvents c.ix c.p c.pc c.d r.ev := by
  intro v r
  have passes : firstFail [(elemFieldsOk op f, rsReserved), (operandsOk (f.srcs op) f.dsts, rsAddress)] = none := by
    simp [firstFail, hf, ho]
  have rounded : r = (List.range f.n.toNat).foldl (fun r i => r.push f.fd (v.elemMode c.ix op f)
      ((v.numCtl c.ix).ieee f.ovf.toNat f.fd)
      ((v.tile c.ix).elemBy op f (fun a b d => (elemValue op (v.tile c.ix).mem.nl f.table.toNat a b d i).1) i)
      ((v.tile c.ix).elemRaised op f i) (elemPos 4 i)) { gen := (v.tile c.ix).genVe } := by
    simp only [elemValue_exact]
    rfl
  rw [rounded]
  exact State.dispatchOp_passes passes hs hb

/-- R137, R139: the codes and the generator of a result. -/
theorem State.elemRounded_codes (ix : Nat) : let r := s.elemRounded ix op f
    r.codes.reverse = (List.range f.n.toNat).map (s.elemCode ix op f) ∧
      r.gen = (s.elemMode ix op f).genAfter f.n.toNat (s.tile ix).genVe := Rounded.foldl_push ..

/-- Putting an instruction on the scoreboard does not change its mode or its codes. -/
theorem State.elemCode_launch (reads writes : List Nat) : let v := s.launch c reads writes none
    v.elemMode c.ix op f = s.elemMode c.ix op f ∧ v.elemCode c.ix op f = s.elemCode c.ix op f := by
  intro v
  have mode : v.elemMode c.ix op f = s.elemMode c.ix op f := by simp only [v, State.elemMode, State.numCtl_launch]
  refine ⟨mode, funext fun i => ?_⟩
  simp only [State.elemCode, mode]
  simp only [v, State.numCtl_launch, State.tile_launch, TileSt.launched_genVe, TileSt.elemResult_congr (TileSt.launched_mem ..)]

/-- R187: what an elementwise instruction that passes its checks leaves of the tile, and of the rest. -/
theorem State.velem_done (hf : elemFieldsOk op f = true) (ho : operandsOk (f.srcs op) f.dsts = true)
    (hs : (s.tile c.ix).slotsFull c.e = false) (hb : (s.tile c.ix).blocked none (resOf (f.srcs op)) (resOf f.dsts) = none) :
    let t := s.velem c {} op f
    elsewhere s t c.ix ∧ t.tile c.ix = ((s.tile c.ix).launched c (resOf (f.srcs op)) (resOf f.dsts)).elemWritten f
      ((List.range f.n.toNat).map (s.elemCode c.ix op f)) ((s.elemMode c.ix op f).genAfter f.n.toNat (s.tile c.ix).genVe) := by
  let v := s.launch c (resOf (f.srcs op)) (resOf f.dsts) none
  obtain ⟨codes, gen⟩ := v.elemRounded_codes op f c.ix
  obtain ⟨mode, code⟩ := s.elemCode_launch c op f (resOf (f.srcs op)) (resOf f.dsts)
  obtain ⟨frame, written⟩ := modTile_numEvents_frame v c.ix (fun t => t.elemWritten f (v.elemRounded c.ix op f).codes.reverse
    (v.elemRounded c.ix op f).gen) c.p c.pc c.d (v.elemRounded c.ix op f).ev
  rw [s.velem_writes c op f hf ho hs hb]
  refine ⟨elsewhere_trans (elsewhere_launch ..) frame, written.trans ?_⟩
  simp only [codes, gen, v, mode, code, State.tile_launch, TileSt.launched_genVe]

end

theorem exec_elem {s u : State} {tile : TileId} {e : Engine} {c : Issuing} {op : ElemOp} {f : Elem}
    (h : issuesTo s tile e (.elem op f) c u) (p : Instr × ElemOp) (hp : p ∈ elemCommands tile e) (hop : p.2 = op) :
    exec p.1 s = .next (u.velem c {} op f) := by
  have issues : s.issueElem tile e {} op = u.velem c {} op f := issueOp_of_issuesTo h fun c i s => match i with
    | .elem o f => s.velem c {} o f
    | _ => s
  rw [← issues, ← hop]
  simp only [elemCommands, List.mem_cons, List.not_mem_nil, or_false] at hp
  obtain rfl | rfl | rfl | rfl | rfl | rfl | rfl := hp <;> rfl

/-- Settles O29: the effect by `velem_done`, each element by `elem_packElems`. -/
theorem elementwiseInstructionsRoundOnce : Obligations.ElementwiseInstructionsRoundOnce := by
  intro s u tile e c op f h hf n x srcs dst ho hb fd src mode p hp hop
  obtain ⟨-, -, rfl⟩ := names_of_issuesTo h
  obtain ⟨frame, written⟩ := u.velem_done c op f hf ho (slot_of_issuesTo h) hb
  have length : (packElems fd.bits ((List.range n).map (u.elemCode c.ix op f))).length = ceilDiv (n * fd.bits) 8 := by
    rw [packElems_length, List.length_map, List.length_range, Fmt.span]
  rw [TileSt.elemWritten, TileSt.launched_mem, TileSt.launched_withStore] at written
  refine ⟨_, _, _, _, exec_elem h p hp hop, frame, written, fun a ha => ?_, rfl, fun i hi => ?_⟩
  · exact Memory.readByte_writeBytes_other _ _ _ _ (length ▸ ha)
  · have store := congrArg (fun t : TileSt => t.mem.store) written
    have code : ((List.range n).map (u.elemCode c.ix op f))[i]? = some (u.elemCode c.ix op f i) := by simp [hi]
    exact TileSt.elem_packElems store code

end Sys2Proof.Machine
end

section
/-! The row instructions of the vector engine: VRED, VTOPK and VSAMPLE (R135, R189, R190). -/
namespace Sys2Proof.Machine
open Sys2Proof

/-! ## VRED (R189) -/

/-- The destination of a VRED: one element for each row. -/
def Row.redOpnd (f : Row) : Opnd :=
  { Opnd.flat .store (64 * f.dst.toNat) (ceilDiv (f.rows.toNat * f.fd.bits) 8) f.fd.bits with fmt := some f.fmtD.toNat }

/-- The rounding mode of a row instruction. -/
def State.rowMode (s : State) (ix : Nat) (f : Row) : RndMode := (s.numCtl ix).rnd f.rnd.toNat false

/-- A row depends on the tile's memories alone. -/
theorem Row.row_congr (f : Row) {t v : TileSt} (h : v.mem = t.mem) : f.row v = f.row t := by
  funext r
  simp only [Row.row, TileSt.source_congr h]

/-- The reduction of row `i`, and what it raises. -/
def Row.reduced (f : Row) (t : TileSt) (i : Nat) : Num × NumEv := reduce f.op.toNat ⟨1, 4, i, 0, 0⟩ (f.row t i)

/-- The reductions of the rows, rounded in order. -/
def State.redRounded (s : State) (ix : Nat) (f : Row) : Rounded :=
  (List.range f.rows.toNat).foldl (fun r i => r.push f.fd (s.rowMode ix f) ((s.numCtl ix).ieee f.ovf.toNat f.fd)
    (f.reduced (s.tile ix) i).1 ((rowNans i (f.row (s.tile ix) i)).andThen (f.reduced (s.tile ix) i).2) ⟨1, 4, i, 0, 0⟩)
    { gen := (s.tile ix).genVe }

/-- The code of the reduction of row `i`. -/
def State.redCode (s : State) (ix : Nat) (f : Row) (i : Nat) : Nat :=
  (f.fd.convert (elemRound (s.rowMode ix f) 0 0) ((s.numCtl ix).ieee f.ovf.toNat f.fd)
    (f.reduced (s.tile ix) i).1).code

section
variable (s : State) (c : Issuing) (f : Row)

theorem State.redRounded_codes (ix : Nat) : (s.redRounded ix f).codes.reverse = (List.range f.rows.toNat).map (s.redCode ix f) := by
  refine (Rounded.foldl_push ..).1.trans (List.map_congr_left fun i _ => ?_)
  have rounds := elemRound_of_ne_sr (m := s.rowMode ix f) (NumCtl.rnd_ne_sr _ _) (s.tile ix).genVe 0 i 0
  rw [rounds, State.redCode]

theorem State.redCode_launch (reads writes : List Nat) : (s.launch c reads writes none).redCode c.ix f = s.redCode c.ix f := by
  funext i
  simp only [State.redCode, State.rowMode, Row.reduced, State.numCtl_launch, State.tile_launch, Row.row_congr f (TileSt.launched_mem ..)]

/-- R189: what a VRED that passes its checks leaves of the tile, and of the rest. -/
theorem State.vred_done (hf : rowFieldsOk .vred f = true) (ho : operandsOk [f.srcOpnd] [f.redOpnd] = true)
    (hs : (s.tile c.ix).slotsFull c.e = false) (hb : (s.tile c.ix).blocked none (resOf [f.srcOpnd]) (resOf [f.redOpnd]) = none) :
    let t := s.vred c {} f
    elsewhere s t c.ix ∧ t.tile c.ix = ((s.tile c.ix).launched c (resOf [f.srcOpnd]) (resOf [f.redOpnd])).withStore
      ((s.tile c.ix).mem.store.writeBytes f.redOpnd.base (packElems f.fd.bits ((List.range f.rows.toNat).map (s.redCode c.ix f)))) := by
  have passes : firstFail [(rowFieldsOk .vred f, rsReserved), (operandsOk [f.srcOpnd] [f.redOpnd], rsAddress)] = none := by
    simp [firstFail, hf, ho]
  let v := s.launch c (resOf [f.srcOpnd]) (resOf [f.redOpnd]) none
  have writes : s.vred c {} f = (v.modTile c.ix fun t => t.write .store f.redOpnd.base
      (packElems f.fd.bits (v.redRounded c.ix f).codes.reverse)).numEvents c.ix c.p c.pc c.d (v.redRounded c.ix f).ev :=
    State.dispatchOp_passes passes hs hb
  obtain ⟨frame, written⟩ := modTile_numEvents_frame v c.ix (fun t => t.write .store f.redOpnd.base
    (packElems f.fd.bits (v.redRounded c.ix f).codes.reverse)) c.p c.pc c.d (v.redRounded c.ix f).ev
  rw [writes]
  refine ⟨elsewhere_trans (elsewhere_launch ..) frame, written.trans ?_⟩
  rw [State.redRounded_codes, State.redCode_launch, State.tile_launch, TileSt.write_store, TileSt.launched_mem]

end

theorem exec_vred {s u : State} {tile : TileId} {e : Engine} {c : Issuing} {f : Row} (h : issuesTo s tile e (.row .vred f) c u) :
    exec (.vred tile e {}) s = .next (u.vred c {} f) :=
  congrArg Host.Outcome.next (issueOp_of_issuesTo h fun c i s => match i with
    | .row _ f => s.vred c {} f
    | _ => s)

/-! ## VTOPK (R135, R189) -/

/-- The memory once two blocks have been written for each of `n` rows: first those at `a`, then those at `b`. -/
def Memory.writePairs (m : Memory) (a b : Nat → Nat × List Byte) (n : Nat) : Memory :=
  (List.range n).foldl (fun m r => (m.writeBytes (a r).1 (a r).2).writeBytes (b r).1 (b r).2) m

section
variable (m : Memory) (a b : Nat → Nat × List Byte)

theorem Memory.writePairs_succ (n : Nat) : m.writePairs a b (n + 1) =
    ((m.writePairs a b n).writeBytes (a n).1 (a n).2).writeBytes (b n).1 (b n).2 := by
  simp [Memory.writePairs, List.range_succ]

/-- An address outside every block keeps its byte. -/
theorem Memory.readByte_writePairs_outside (n k : Nat) (h : ∀ r, r < n →
      (k < (a r).1 ∨ (a r).1 + (a r).2.length ≤ k) ∧ (k < (b r).1 ∨ (b r).1 + (b r).2.length ≤ k)) :
    (m.writePairs a b n).readByte k = m.readByte k := by
  induction n with
  | zero => rfl
  | succ n ih =>
    obtain ⟨ha, hb⟩ := h n (Nat.lt_succ_self n)
    rw [Memory.writePairs_succ, Memory.readByte_writeBytes_other _ _ _ _ hb, Memory.readByte_writeBytes_other _ _ _ _ ha]
    exact ih fun r hr => h r (Nat.lt_succ_of_lt hr)

/-- The second block of row `r` is in the memory, where the blocks of later rows lie apart from it. -/
theorem Memory.readBytes_writePairs (n r : Nat) (hr : r < n)
    (h : ∀ i, i < n → r < i → ∀ k, (b r).1 ≤ k → k < (b r).1 + (b r).2.length →
      (k < (a i).1 ∨ (a i).1 + (a i).2.length ≤ k) ∧ (k < (b i).1 ∨ (b i).1 + (b i).2.length ≤ k)) :
    (m.writePairs a b n).readBytes (b r).1 (b r).2.length = (b r).2 := by
  induction n with
  | zero => exact absurd hr (Nat.not_lt_zero r)
  | succ n ih =>
    rw [Memory.writePairs_succ]
    rcases Nat.lt_succ_iff_lt_or_eq.mp hr with hlt | rfl
    · rw [Memory.readBytes_congr fun k hk hl => ?_]
      · exact ih hlt fun i hi => h i (Nat.lt_succ_of_lt hi)
      · obtain ⟨ha, hb⟩ := h n (Nat.lt_succ_self n) hlt k hk hl
        rw [Memory.readByte_writeBytes_other _ _ _ _ hb, Memory.readByte_writeBytes_other _ _ _ _ ha]
    · exact Memory.readBytes_writeBytes_same ..

end

/-- The values that a VTOPK selects. -/
def Row.topkOpnd (f : Row) : Opnd :=
  { base := 64 * f.dst.toNat, stride := rowPitch f.k.toNat f.fd.bits, len := ceilDiv (f.k.toNat * f.fd.bits) 8, rows := f.rows.toNat
    bits := f.fd.bits, fmt := some f.fmtD.toNat }

/-- Their indices. -/
def Row.indexOpnd (f : Row) : Opnd :=
  { base := 64 * f.idx.toNat, stride := rowPitch f.k.toNat 32, len := 4 * f.k.toNat, rows := f.rows.toNat, bits := 32 }

/-- The elements of a row in the order that a VTOPK selects them (R135). -/
def Row.ordered (f : Row) (t : TileSt) (r : Nat) : List (Num × Nat) :=
  sortNums (if f.op.getLsbD 0 then Num.before else largestFirst) (f.row t r)

/-- The best of a row, rounded in order. -/
def State.topkRounded (s : State) (ix : Nat) (f : Row) (i : Nat) : Rounded :=
  ((f.ordered (s.tile ix) i).take f.k.toNat).foldl (fun r e => r.push f.fd (s.rowMode ix f) ((s.numCtl ix).ieee f.ovf.toNat f.fd)
    e.1 {} ⟨1, 4, i, e.2 % 64, e.2 / 64⟩) { gen := (s.tile ix).genVe, ev := rowNans i (f.row (s.tile ix) i) }

/-- The block of values of row `r`. -/
def State.topkValues (s : State) (ix : Nat) (f : Row) (r : Nat) : Nat × List Byte :=
  (f.topkOpnd.base + r * f.topkOpnd.stride, packElems f.fd.bits (s.topkRounded ix f r).codes.reverse)

/-- The block of indices of row `r`. -/
def TileSt.topkIndices (t : TileSt) (f : Row) (r : Nat) : Nat × List Byte :=
  (f.indexOpnd.base + r * f.indexOpnd.stride, ((f.ordered t r).take f.k.toNat).flatMap fun e => leBytes 4 e.2)

/-- The tile once both blocks of every row have been written. -/
def TileSt.topkWritten (t : TileSt) (a b : Nat → Nat × List Byte) (n : Nat) : TileSt :=
  t.withStore (t.mem.store.writePairs a b n)

/-- What a VTOPK leaves of its tile, row after row, and what it raises. -/
def State.topkDone (s : State) (ix : Nat) (f : Row) (n : Nat) : TileSt × NumEv :=
  (List.range n).foldl (fun acc i =>
    ((acc.1.write .store (s.topkValues ix f i).1 (s.topkValues ix f i).2).write .store ((s.tile ix).topkIndices f i).1
      ((s.tile ix).topkIndices f i).2, acc.2.andThen (s.topkRounded ix f i).ev)) (s.tile ix, {})

/-- Two spans that do not meet: a byte of the one is outside the other. -/
theorem Opnd.apart_of_meets {o q : Opnd} (hs : o.side = q.side) (h : o.meets q = false) {i j k : Nat} (hi : i < o.rows) (hj : j < q.rows)
    (hlo : q.base + j * q.stride ≤ k) (hhi : k < q.base + j * q.stride + q.len) :
    k < o.base + i * o.stride ∨ o.base + i * o.stride + o.len ≤ k := by
  by_contra inside
  have rowsMeet : spansMeet (o.base + i * o.stride) o.len (q.base + j * q.stride) q.len = true := by
    simp only [spansMeet, Bool.and_eq_true, decide_eq_true_eq, bne_iff_ne, ne_eq]
    omega
  have meets : o.meets q = true := by
    simp only [Opnd.meets, hs, beq_self_eq_true, Bool.true_and, List.any_eq_true, List.mem_range]
    exact ⟨i, hi, j, hj, rowsMeet⟩
  exact absurd (meets.symm.trans h) (by decide)

/-- A row of `k` indices fits its pitch. -/
theorem four_mul_le_rowPitch (k : Nat) : 4 * k ≤ rowPitch k 32 := by
  simp only [rowPitch, ceilDiv]
  omega

section
variable (s : State) (c : Issuing) (f : Row)

theorem State.topkDone_tile (ix n : Nat) :
    (s.topkDone ix f n).1 = (s.tile ix).topkWritten (s.topkValues ix f) ((s.tile ix).topkIndices f) n := by
  induction n with
  | zero => rfl
  | succ n ih =>
    simp only [State.topkDone, List.range_succ, List.foldl_append, List.foldl_cons, List.foldl_nil] at ih ⊢
    rw [ih, TileSt.topkWritten, TileSt.topkWritten, Memory.writePairs_succ]
    rfl

/-- The values of a row fit the row of their operand. -/
theorem State.length_topkValues (ix r : Nat) : (s.topkValues ix f r).2.length ≤ f.topkOpnd.len := by
  have few : (s.topkRounded ix f r).codes.reverse.length ≤ f.k.toNat := by
    rw [List.length_reverse, State.topkRounded, Rounded.length_foldl_push, List.length_take]
    exact (Nat.zero_add _).trans_le (Nat.min_le_left ..)
  rw [State.topkValues, packElems_length]
  exact Nat.div_le_div_right (Nat.sub_le_sub_right (Nat.add_le_add_right (Nat.mul_le_mul_right _ few) 8) 1)

theorem TileSt.length_topkIndices (t : TileSt) (r : Nat) : (t.topkIndices f r).2.length ≤ f.indexOpnd.len := by
  simp only [TileSt.topkIndices, Row.indexOpnd, List.length_flatMap, length_leBytes, List.map_const', List.sum_replicate,
    List.length_take, smul_eq_mul]
  omega

theorem State.topkValues_launch (reads writes : List Nat) : let v := s.launch c reads writes none
    v.topkValues c.ix f = s.topkValues c.ix f ∧ (v.tile c.ix).topkIndices f = (s.tile c.ix).topkIndices f := by
  intro v
  have row : f.row (v.tile c.ix) = f.row (s.tile c.ix) := by
    rw [State.tile_launch]
    exact Row.row_congr f (TileSt.launched_mem ..)
  refine ⟨funext fun r => ?_, funext fun r => ?_⟩
  · simp only [State.topkValues, State.topkRounded, Row.ordered, row]
    simp only [v, State.rowMode, State.numCtl_launch, State.tile_launch, TileSt.launched_genVe]
  · simp only [TileSt.topkIndices, Row.ordered, row]

/-- R189: what a VTOPK that passes its checks leaves of the tile, and of the rest. -/
theorem State.vtopk_done (hf : rowFieldsOk .vtopk f = true) (ho : operandsOk [f.srcOpnd] [f.topkOpnd, f.indexOpnd] = true)
    (hs : (s.tile c.ix).slotsFull c.e = false)
    (hb : (s.tile c.ix).blocked none (resOf [f.srcOpnd]) (resOf [f.topkOpnd, f.indexOpnd]) = none) :
    let t := s.vtopk c {} f
    elsewhere s t c.ix ∧ t.tile c.ix = ((s.tile c.ix).launched c (resOf [f.srcOpnd]) (resOf [f.topkOpnd, f.indexOpnd])).topkWritten
      (s.topkValues c.ix f) ((s.tile c.ix).topkIndices f) f.rows.toNat := by
  have passes : firstFail [(rowFieldsOk .vtopk f, rsReserved),
      (operandsOk [f.srcOpnd] [f.topkOpnd, f.indexOpnd], rsAddress)] = none := by
    simp [firstFail, hf, ho]
  let v := s.launch c (resOf [f.srcOpnd]) (resOf [f.topkOpnd, f.indexOpnd]) none
  have writes : s.vtopk c {} f = (v.modTile c.ix fun _ => (v.topkDone c.ix f f.rows.toNat).1).numEvents c.ix c.p c.pc c.d
      (v.topkDone c.ix f f.rows.toNat).2 := State.dispatchOp_passes passes hs hb
  obtain ⟨frame, written⟩ := modTile_numEvents_frame v c.ix (fun _ => (v.topkDone c.ix f f.rows.toNat).1) c.p c.pc c.d
    (v.topkDone c.ix f f.rows.toNat).2
  obtain ⟨values, indices⟩ := s.topkValues_launch c f (resOf [f.srcOpnd]) (resOf [f.topkOpnd, f.indexOpnd])
  rw [writes]
  refine ⟨elsewhere_trans (elsewhere_launch ..) frame, written.trans ?_⟩
  rw [State.topkDone_tile, values, indices, State.tile_launch]

end

section
variable (t x : TileSt) (f : Row) (v : Nat → Nat × List Byte) (hv : ∀ i, (v i).1 = f.topkOpnd.base + i * f.topkOpnd.stride)
  (hl : ∀ i, (v i).2.length ≤ f.topkOpnd.len)
include hv hl

/-- R189: a VTOPK writes the rows of its two destinations alone. -/
theorem TileSt.topkWritten_outside (n k : Nat) (h : ∀ r, r < n →
      (k < f.topkOpnd.base + r * f.topkOpnd.stride ∨ f.topkOpnd.base + r * f.topkOpnd.stride + f.topkOpnd.len ≤ k) ∧
      (k < f.indexOpnd.base + r * f.indexOpnd.stride ∨ f.indexOpnd.base + r * f.indexOpnd.stride + f.indexOpnd.len ≤ k)) :
    (t.mem.store.writePairs v (x.topkIndices f) n).readByte k = t.mem.store.readByte k := by
  refine Memory.readByte_writePairs_outside _ _ _ n k fun r hr => ?_
  obtain ⟨hd, hi⟩ := h r hr
  have values := hl r
  have indices := x.length_topkIndices f r
  rw [hv r, show (x.topkIndices f r).1 = f.indexOpnd.base + r * f.indexOpnd.stride from rfl]
  omega

variable (hm : f.topkOpnd.meets f.indexOpnd = false)
include hm

/-- The indices of a row stay when those of later rows, and their values, are written. -/
theorem TileSt.topkWritten_indices {r : Nat} (hr : r < f.rows.toNat) :
    (t.mem.store.writePairs v (x.topkIndices f) f.rows.toNat).readBytes (f.indexOpnd.base + r * f.indexOpnd.stride)
      (x.topkIndices f r).2.length = (x.topkIndices f r).2 := by
  refine Memory.readBytes_writePairs _ _ _ _ r hr fun i hi hri k hlo hhi => ?_
  have block (i : Nat) : (x.topkIndices f i).1 = f.indexOpnd.base + i * f.indexOpnd.stride := rfl
  have values := hl i
  have row := x.length_topkIndices f r
  have pitch : f.indexOpnd.len ≤ f.indexOpnd.stride := four_mul_le_rowPitch f.k.toNat
  have later : (r + 1) * f.indexOpnd.stride ≤ i * f.indexOpnd.stride := Nat.mul_le_mul_right _ hri
  rw [Nat.add_one_mul] at later
  rw [block] at hlo hhi
  have sides : f.topkOpnd.side = f.indexOpnd.side := rfl
  have apart := Opnd.apart_of_meets sides hm (i := i) hi (j := r) hr hlo (by omega)
  rw [hv i, block]
  omega

/-- R189: every index of a row is at its place once a VTOPK has written all rows. -/
theorem TileSt.topkWritten_index {r j : Nat} {b : Num × Nat} (hr : r < f.rows.toNat) (hj : j < f.k.toNat)
    (hb : (f.ordered x r)[j]? = some b) : (t.topkWritten v (x.topkIndices f) f.rows.toNat).readN .store
      (f.indexOpnd.base + r * f.indexOpnd.stride + 4 * j) 4 = b.2 % 2 ^ 32 := by
  have best : ((f.ordered x r).take f.k.toNat)[j]? = some b := by rw [List.getElem?_take_of_lt hj, hb]
  have inside : j < ((f.ordered x r).take f.k.toNat).length := (List.getElem?_eq_some_iff.mp best).1
  have length : (x.topkIndices f r).2.length = 4 * ((f.ordered x r).take f.k.toNat).length := by
    simp [TileSt.topkIndices, List.length_flatMap, length_leBytes, Nat.mul_comm]
  have block := t.topkWritten_indices x f v hv hl hm hr
  have part := (t.mem.store.writePairs v (x.topkIndices f) f.rows.toNat).drop_readBytes
    (f.indexOpnd.base + r * f.indexOpnd.stride) (x.topkIndices f r).2.length (4 * j)
  have index : ((x.topkIndices f r).2.drop (4 * j)).take 4 = leBytes 4 b.2 := by
    rw [Nat.mul_comm]
    exact drop_take_flatMap_leBytes 4 Prod.snd _ j b best
  rw [block] at part
  rw [part, Memory.take_readBytes, Nat.min_eq_left (by omega)] at index
  rw [TileSt.readN, Memory.readLE, TileMems.side, TileSt.topkWritten, TileSt.withStore_store, index, leNat_leBytes,
    show 256 ^ 4 = 2 ^ 32 from rfl]

end

theorem exec_vtopk {s u : State} {tile : TileId} {e : Engine} {c : Issuing} {f : Row} (h : issuesTo s tile e (.row .vtopk f) c u) :
    exec (.vtopk tile e {}) s = .next (u.vtopk c {} f) :=
  congrArg Host.Outcome.next (issueOp_of_issuesTo h fun c i s => match i with
    | .row _ f => s.vtopk c {} f
    | _ => s)

/-! ## VSAMPLE (R190) -/

/-- The format of the logits. -/
def Samp.fd (f : Samp) : Fmt := (fmtOf f.fmt.toNat).getD .fp32

/-- How many candidates a VSAMPLE has: the best K, or all. -/
def Samp.count (f : Samp) : Nat := if f.ken then f.k.toNat else f.len.toNat

/-- Where the logits lie. -/
def Samp.srcOpnd (f : Samp) : Opnd := Opnd.flat .store (64 * f.src.toNat) (f.len.toNat * (f.fd.bits / 8)) f.fd.bits

/-- Where the index drawn goes. -/
def Samp.dstOpnd (f : Samp) : Opnd := Opnd.flat .store (64 * f.dst.toNat) (if f.count = 0 then 0 else 4) 32

/-- The logits of a VSAMPLE. -/
def Samp.logits (f : Samp) (t : TileSt) : List Num := (List.range f.len.toNat).map fun i => t.source f.fd f.srcOpnd.base i

/-- The candidates, the greatest first. -/
def Samp.candidates (f : Samp) (t : TileSt) : List (Num × Nat) := (sortNums largestFirst (f.logits t)).take f.count

/-- The index drawn from candidates of which `top` is the first, with the generator at `g`. -/
def Samp.drawn (f : Samp) (cand : List (Num × Nat)) (top : Num) (g : DWord) : Nat :=
  (cand[samplePick (cand.map fun y => sampleWeight top (bf16.decode f.temp.toNat) y.1) (genBits g)]?.map Prod.snd).getD 0

/-- The tile once the index has been drawn: it is in the store, and a stop action empties its semaphore. -/
def TileSt.sampled (t : TileSt) (f : Samp) (index : Nat) : TileSt :=
  let v := { t.writeN .store f.dstOpnd.base 4 index with genVe := genStep t.genVe }
  if f.stopEn && index == f.stop.toNat then v.setSem f.psem.toNat 0 else v

/-- The effect of a VSAMPLE: nothing is written where there is no candidate. -/
def State.sampleEffect (s : State) (c : Issuing) (f : Samp) : State :=
  let t := s.tile c.ix
  match f.candidates t with
  | [] => s.numEvents c.ix c.p c.pc c.d (rowNans 0 (f.logits t))
  | m :: _ => (s.modTile c.ix fun v => v.sampled f (f.drawn (f.candidates t) m.1 (genStep t.genVe))).numEvents c.ix c.p c.pc c.d
      (rowNans 0 (f.logits t))

theorem Samp.candidates_congr (f : Samp) {t v : TileSt} (h : v.mem = t.mem) : f.candidates v = f.candidates t := by
  simp only [Samp.candidates, Samp.logits, TileSt.source_congr h]

section
variable (t : TileSt) (f : Samp) (index : Nat)

/-- Whether or not the index drawn stops, it is in the store and one draw has been taken. -/
theorem TileSt.sampled_frame : (t.sampled f index).genVe = genStep t.genVe ∧
    (t.sampled f index).mem.store = t.mem.store.writeBytes f.dstOpnd.base (leBytes 4 index) := by
  unfold TileSt.sampled
  dsimp only
  split <;> exact ⟨rfl, rfl⟩

theorem TileSt.sampled_stops (he : f.stopEn = true) (hi : index = f.stop.toNat) : (t.sampled f index).sem f.psem.toNat = 0 := by
  simp [TileSt.sampled, he, hi, TileSt.sem, TileSt.setSem, Table.get_set_same]

theorem TileSt.sampled_goesOn (h : f.stopEn = false ∨ index ≠ f.stop.toNat) : (t.sampled f index).sems = t.sems := by
  have goesOn : (f.stopEn && index == f.stop.toNat) = false := by rcases h with h | h <;> simp [h]
  simp only [TileSt.sampled, goesOn, Bool.false_eq_true, if_false]
  rfl

end

section
variable (s : State) (c : Issuing) (f : Samp)

theorem State.sampleEffect_none (h : f.candidates (s.tile c.ix) = []) :
    elsewhere s (s.sampleEffect c f) c.ix ∧ (s.sampleEffect c f).tile c.ix = s.tile c.ix := by
  obtain ⟨frame, tiles, -⟩ := accounts_numEvents s c.ix c.p c.pc c.d (rowNans 0 (f.logits (s.tile c.ix)))
  rw [State.sampleEffect, h]
  exact ⟨frame c.ix, tiles c.ix⟩

theorem State.sampleEffect_draws {m : Num × Nat} {l : List (Num × Nat)} (h : f.candidates (s.tile c.ix) = m :: l) :
    elsewhere s (s.sampleEffect c f) c.ix ∧ (s.sampleEffect c f).tile c.ix =
      (s.tile c.ix).sampled f (f.drawn (m :: l) m.1 (genStep (s.tile c.ix).genVe)) := by
  rw [State.sampleEffect, h]
  exact modTile_numEvents_frame ..

theorem State.sampleEffect_frame : elsewhere s (s.sampleEffect c f) c.ix := by
  cases h : f.candidates (s.tile c.ix) with
  | nil => exact (s.sampleEffect_none c f h).1
  | cons m l => exact (s.sampleEffect_draws c f h).1

/-- R190: a VSAMPLE that passes its checks takes effect. -/
theorem State.vsample_launches (hf : sampFieldsOk f = true) (ho : operandsOk [f.srcOpnd] [f.dstOpnd] = true)
    (hs : (s.tile c.ix).slotsFull c.e = false)
    (hb : (s.tile c.ix).blocked none (resOf [f.srcOpnd]) (resOf [f.dstOpnd]) = none) :
    s.vsample c {} f = (s.launch c (resOf [f.srcOpnd]) (resOf [f.dstOpnd]) none).sampleEffect c f := by
  have passes : firstFail [(sampFieldsOk f, rsReserved), (operandsOk [f.srcOpnd] [f.dstOpnd], rsAddress)] = none := by
    simp [firstFail, hf, ho]
  exact State.dispatchOp_passes passes hs hb

end

theorem exec_vsample {s u : State} {tile : TileId} {e : Engine} {c : Issuing} {f : Samp} (h : issuesTo s tile e (.vsample f) c u) :
    exec (.vsample tile e {}) s = .next (u.vsample c {} f) :=
  congrArg Host.Outcome.next (issueOp_of_issuesTo h fun c i s => match i with
    | .vsample f => s.vsample c {} f
    | _ => s)

/-- Settles O30: VRED by `vred_done`, VTOPK by `vtopk_done` and `topkWritten_index`, VSAMPLE by its candidates and `sampled_frame`. -/
theorem rowInstructionsReduceSelectAndSample : Obligations.RowInstructionsReduceSelectAndSample := by
  refine ⟨?_, ?_, ?_⟩
  · intro s u tile e c f h hf x dst ho hb
    obtain ⟨-, -, rfl⟩ := names_of_issuesTo h
    obtain ⟨frame, written⟩ := u.vred_done c f hf ho (slot_of_issuesTo h) hb
    have length : (packElems f.fd.bits ((List.range f.rows.toNat).map (u.redCode c.ix f))).length = dst.len := by
      rw [packElems_length, List.length_map, List.length_range, Fmt.span]
      rfl
    rw [TileSt.launched_withStore] at written
    refine ⟨_, _, _, exec_vred h, frame, written, fun a ha => ?_, fun r hr => ?_⟩
    · exact Memory.readByte_writeBytes_other _ _ _ _ (length ▸ ha)
    · have store := congrArg (fun t : TileSt => t.mem.store) written
      have code : ((List.range f.rows.toNat).map (u.redCode c.ix f))[r]? = some (u.redCode c.ix f r) := by simp [hr]
      exact TileSt.elem_packElems store code
  · intro s u tile e c f h hf x k dst idx ho hm hb
    obtain ⟨-, -, rfl⟩ := names_of_issuesTo h
    obtain ⟨frame, written⟩ := u.vtopk_done c f hf ho (slot_of_issuesTo h) hb
    have tileAfter := written
    rw [TileSt.topkWritten, TileSt.launched_mem, TileSt.launched_withStore] at tileAfter
    have values : ∀ i, (u.topkValues c.ix f i).1 = f.topkOpnd.base + i * f.topkOpnd.stride := fun _ => rfl
    refine ⟨_, _, _, exec_vtopk h, frame, tileAfter, fun a ha => ?_, fun r j hr hj b hb => ?_⟩
    · exact x.topkWritten_outside x f _ values (u.length_topkValues f c.ix) _ a ha
    · rw [written]
      exact TileSt.topkWritten_index _ x f _ values (u.length_topkValues f c.ix) hm hr hj hb
  · intro s u tile e c f h hf x fmt src n dst ho hb cand
    obtain ⟨-, -, rfl⟩ := names_of_issuesTo h
    have runs := u.vsample_launches c f hf ho (slot_of_issuesTo h) hb
    let v := u.launch c (resOf [f.srcOpnd]) (resOf [f.dstOpnd]) none
    have launched : v.tile c.ix = x.launched c (resOf [f.srcOpnd]) (resOf [f.dstOpnd]) := State.tile_launch ..
    have candidates : f.candidates (v.tile c.ix) = cand := by
      rw [launched]
      exact f.candidates_congr (TileSt.launched_mem ..)
    refine ⟨_, c.flight (resOf [src]) (resOf [dst]), (exec_vsample h).trans (congrArg _ runs),
      elsewhere_trans (elsewhere_launch ..) (v.sampleEffect_frame c f), fun hn => ?_, fun top rest hc => ?_⟩
    · have empty : cand = [] := by rw [show cand = List.take n _ from rfl, hn, List.take_zero]
      obtain ⟨-, stays⟩ := v.sampleEffect_none c f (candidates.trans empty)
      rw [stays, launched, TileSt.launched_eq]
      rfl
    · intro w y hy
      obtain ⟨-, draws⟩ := v.sampleEffect_draws c f (candidates.trans hc)
      have genVe : (v.tile c.ix).genVe = x.genVe := by rw [launched, TileSt.launched_genVe]
      have mem : (v.tile c.ix).mem = x.mem := by rw [launched, TileSt.launched_mem]
      have sems : (v.tile c.ix).sems = x.sems := by rw [launched, TileSt.launched_sems]
      have drawn : f.drawn (top :: rest) top.1 (genStep x.genVe) = y.2 := by
        rw [Samp.drawn, ← hc, hy]
        rfl
      rw [genVe, drawn] at draws
      obtain ⟨gen, store⟩ := (v.tile c.ix).sampled_frame f y.2
      rw [draws]
      refine ⟨gen.trans (congrArg genStep genVe), ?_, (v.tile c.ix).sampled_stops f y.2,
        fun hg => ((v.tile c.ix).sampled_goesOn f y.2 hg).trans sems, fun a ha => ?_⟩
      · rw [TileSt.readN, TileMems.side, store]
        exact Memory.readLE_writeBytes_leBytes ..
      · rw [store, mem]
        exact Memory.readByte_writeBytes_other _ _ _ _ (length_leBytes 4 y.2 ▸ ha)

end Sys2Proof.Machine
end

section
/-! SUPPORT. What the pump of the links leaves alone, said once for each operation that it is made of (R310 to R316, R319). -/
namespace Sys2Proof.Machine
open Sys2Proof

/-! ## Work on the links -/

/-- Between two states only the links, the paging walkers, the counters and the descriptors may differ. -/
def linkWork (s t : State) : Prop := ∃ l g k d, t = { s with links := l, paging := g, cnt := k, shep := d }

theorem linkWork_refl (s : State) : linkWork s s := ⟨_, _, _, _, rfl⟩

theorem linkWork_trans {s t v : State} (h : linkWork s t) (k : linkWork t v) : linkWork s v := by
  obtain ⟨l, g, n, d, rfl⟩ := h
  obtain ⟨l', g', n', d', rfl⟩ := k
  exact ⟨l', g', n', d', rfl⟩

theorem linkWork_foldl {α : Type} (s : State) (f : State → α → State) (hf : ∀ t x, linkWork t (f t x)) (l : List α) :
    linkWork s (l.foldl f s) :=
  List.foldlRecOn l f (linkWork_refl s) fun _ ht x _ => linkWork_trans ht (hf _ x)

variable (s : State)

/-! ## Flits that leave -/

theorem linkWork_countEv (unit ev n : Nat) : linkWork s (s.countEv unit ev n) := ⟨_, _, _, _, s.countEv_eq unit ev n⟩

theorem linkWork_modLf (f : LinkFabric → LinkFabric) : linkWork s (s.modLf f) := ⟨_, _, _, _, rfl⟩

theorem linkWork_modMeas (n : Nat) (f : LinkMeas → LinkMeas) : linkWork s (s.modMeas n f) := ⟨_, _, _, _, rfl⟩

theorem linkWork_modDesc (id : Nat) (f : Desc → Desc) : linkWork s (s.modDesc id f) := ⟨_, _, _, _, rfl⟩

theorem linkWork_wakeTx (n : Nat) : linkWork s (s.wakeTx n) := by
  unfold State.wakeTx
  split
  · exact ⟨_, _, _, _, rfl⟩
  · exact linkWork_refl s

theorem linkWork_putFlit (n : Nat) (kind : FlitKind) (fseq : BitVec 10) (vc : Nat) (b : List Byte) :
    linkWork s (s.putFlit n kind fseq vc b) := ⟨_, _, _, _, rfl⟩

theorem linkWork_flitStep (n vc : Nat) : linkWork s (s.flitStep n vc) := by
  unfold State.flitStep
  dsimp only
  split
  · exact linkWork_refl s
  · exact linkWork_trans (linkWork_countEv s _ _ _) (linkWork_trans (linkWork_putFlit _ _ _ _ _ _) (linkWork_modMeas _ _ _))

theorem linkWork_controlFlit (n : Nat) : linkWork s (s.controlFlit n) := by
  unfold State.controlFlit
  dsimp only
  split
  · exact linkWork_putFlit ..
  · exact linkWork_refl s

theorem linkWork_flushLink (n : Nat) : linkWork s (s.flushLink n) := by
  unfold State.flushLink
  split
  · exact linkWork_refl s
  split
  · exact linkWork_wakeTx s n
  refine linkWork_trans ?_ (linkWork_controlFlit _ n)
  split
  · exact linkWork_refl s
  · exact linkWork_foldl s _ (fun t vc => linkWork_foldl t _ (fun v _ => linkWork_flitStep v n vc) _) _

theorem linkWork_flushLinks : linkWork s s.flushLinks := linkWork_foldl s _ linkWork_flushLink _

/-! ## What waits to leave -/

theorem linkWork_usedBy (q : LinkReq) : linkWork s (s.usedBy q) := by
  unfold State.usedBy
  split
  · split
    · exact linkWork_refl s
    · split
      · exact linkWork_modDesc ..
      · exact ⟨_, _, _, _, rfl⟩
  · exact linkWork_refl s

theorem linkWork_putReq (q : LinkReq) (n vc : Nat) : linkWork s (s.putReq q n vc) := by
  unfold State.putReq
  dsimp only
  refine linkWork_trans ?_ (linkWork_modLf _ _)
  exact linkWork_trans (linkWork_modMeas s _ _) (linkWork_usedBy _ q)

theorem linkWork_trySend (q : LinkReq) : linkWork s (s.trySend q) := by
  unfold State.trySend
  split
  · exact linkWork_refl s
  split
  · exact linkWork_refl s
  split
  · exact linkWork_refl s
  split
  · exact linkWork_wakeTx s _
  split
  · exact linkWork_refl s
  · exact linkWork_putReq ..

theorem linkWork_postMsg (m : OutMsg) : linkWork s (s.postMsg m) := by
  unfold State.postMsg
  split
  · exact linkWork_refl s
  split
  · exact linkWork_modLf ..
  refine linkWork_foldl s _ (fun t n => ?_) _
  split
  · exact linkWork_modMeas ..
  split
  · exact linkWork_putFlit ..
  · exact linkWork_wakeTx t n

theorem linkWork_postMsgs : linkWork s s.postMsgs := linkWork_trans (linkWork_modLf s _) (linkWork_foldl _ _ linkWork_postMsg _)

theorem linkWork_postTransit (t : Transit) : linkWork s (s.postTransit t) := by
  unfold State.postTransit
  dsimp only
  split
  · exact linkWork_modLf ..
  · exact linkWork_modMeas ..

theorem linkWork_postTransits : linkWork s s.postTransits := by
  unfold State.postTransits
  dsimp only
  split
  · exact linkWork_refl s
  refine linkWork_trans (linkWork_modLf s fun l => { l with transit := [] }) ?_
  split
  · exact linkWork_refl _
  · exact linkWork_foldl _ _ linkWork_postTransit _

theorem linkWork_askPeer (q : PeerRead) : linkWork s (s.askPeer q) := by
  unfold State.askPeer
  split
  · split
    · exact ⟨_, _, _, _, rfl⟩
    · exact ⟨_, _, _, _, rfl⟩
  · exact linkWork_refl s

/-- Whatever leaves on the links touches no memory, no tile and no register. -/
theorem linkWork_pump : linkWork s s.pump := by
  refine linkWork_trans ?_ (linkWork_flushLinks _)
  refine linkWork_trans ?_ (linkWork_postTransits _)
  refine linkWork_trans ?_ (linkWork_postMsgs _)
  refine linkWork_trans ?_ (linkWork_foldl _ _ linkWork_trySend _)
  exact linkWork_trans (linkWork_foldl s _ linkWork_askPeer _) (linkWork_flushLinks _)

end Sys2Proof.Machine
end

section
/-! Signals (R157 to R159, R180, R257, R319): SIG, SIGX and the arrival of a signal. -/
namespace Sys2Proof.Machine
open Sys2Proof

/-! ## Semaphores after a signal (R157, R158) -/

section
variable (t : TileSt)

theorem TileSt.sem_congr {t v : TileSt} (h : v.sems = t.sems) : v.sem = t.sem := by
  funext n
  simp only [TileSt.sem, h]

theorem TileSt.sem_le (n : Nat) : t.sem n ≤ 65535 := Nat.le_of_lt_succ (Table.get 0 t.sems n).isLt

theorem TileSt.sem_setSem_same (n v : Nat) (hv : v ≤ 65535) : (t.setSem n v).sem n = v := by
  simp only [TileSt.sem, TileSt.setSem, Table.get_set_same, BitVec.toNat_ofNat]
  omega

theorem TileSt.sem_setSem_other (n v m : Nat) (h : m ≠ n) : (t.setSem n v).sem m = t.sem m := by
  simp only [TileSt.sem, TileSt.setSem, Table.get_set_other _ _ _ _ _ h]

theorem TileSt.engine_setSem (n v : Nat) (e : Engine) : (t.setSem n v).engine e = t.engine e := by cases e <;> rfl

/-- A tile to which a signal has come; an increment of 0 changes nothing (R157). -/
def TileSt.signalled (n inc : Nat) : TileSt := if inc = 0 then t else t.setSem n (min (t.sem n + inc) 65535)

theorem TileSt.sem_signalled_same (n inc : Nat) : (t.signalled n inc).sem n = min (t.sem n + inc) 65535 := by
  unfold TileSt.signalled
  split
  · have := t.sem_le n
    omega
  · exact t.sem_setSem_same n _ (Nat.min_le_right ..)

theorem TileSt.sem_signalled_other (n inc m : Nat) (h : m ≠ n) : (t.signalled n inc).sem m = t.sem m := by
  unfold TileSt.signalled
  split
  · rfl
  · exact t.sem_setSem_other n _ m h

theorem TileSt.signalled_frame (n inc : Nat) : (t.signalled n inc).mem = t.mem ∧ (t.signalled n inc).arr = t.arr ∧
    ∀ e, (t.signalled n inc).engine e = t.engine e := by
  unfold TileSt.signalled
  split
  · exact ⟨rfl, rfl, fun _ => rfl⟩
  · exact ⟨rfl, rfl, t.engine_setSem n _⟩

/-- A tile stays quiet where one of its engines is at no WAIT. -/
theorem quiet_setEngine {t : TileSt} (h : quiet t) (e : Engine) (g : EngineSt) (hg : ∀ a b k x, g.hold ≠ .wait a b k x) :
    quiet (t.setEngine e g) := by
  obtain ⟨waits, hctxs⟩ := h
  refine ⟨fun k => ?_, (t.setEngine_ctxs e g).trans hctxs⟩
  by_cases hk : k = e
  · rw [hk, TileSt.engine_setEngine_same]
    exact hg
  · rw [TileSt.engine_setEngine_other _ _ _ _ hk]
    exact waits k

theorem quiet_advance {t : TileSt} (h : quiet t) (e : Engine) : quiet (t.setEngine e (t.engine e).advance) :=
  quiet_setEngine h e _ fun _ _ _ _ => Hold.noConfusion

end

/-! ## A signal at a tile (R158, R159) -/

/-- Between two states the memories and the registers are the same, the same signals are under way, and only one tile
differs. -/
def oneTile (s t : State) (ix : Nat) : Prop :=
  t.hbm = s.hbm ∧ t.host = s.host ∧ t.regs = s.regs ∧ t.tiles.signals = s.tiles.signals ∧ ∀ j, j ≠ ix → t.tile j = s.tile j

theorem oneTile_of_elsewhere {s t : State} {ix : Nat} (h : elsewhere s t ix) : oneTile s t ix := by
  simp only [elsewhere] at h
  simp only [oneTile]
  grind

theorem oneTile_trans {s t v : State} {ix : Nat} (h : oneTile s t ix) (k : oneTile t v ix) : oneTile s v ix := by
  simp only [oneTile] at *
  grind

variable (s : State)

theorem oneTile_taint (ix : Nat) (x : TileId) (engine pc reason : Nat) (word : QWord) :
    oneTile s (s.taint x engine pc reason word) ix := by
  obtain ⟨hhbm, hhost, hregs, -, htile⟩ := s.taint_frame x engine pc reason word
  refine ⟨hhbm, hhost, hregs, ?_, fun j _ => htile j⟩
  rcases s.taint_cases x engine pc reason word with ⟨-, h⟩ | ⟨p, d, tel, ill, -, -, h⟩
  · rw [h]
  · rw [h]
    rfl

/-- R158: an add that saturates taints, and changes its tile as any other does. -/
theorem State.semAdd_frame (ix n inc : Nat) :
    oneTile s (s.semAdd ix n inc) ix ∧ (s.semAdd ix n inc).tile ix = (s.tile ix).setSem n (min ((s.tile ix).sem n + inc) 65535) := by
  have added (v : Nat) := oneTile_of_elsewhere (elsewhere_modTile s ix fun t => t.setSem n v)
  rcases s.semAdd_cases ix n inc with ⟨hv, h⟩ | ⟨hv, h⟩
  · rw [h, Nat.min_eq_left hv]
    exact ⟨added _, State.tile_modTile_same ..⟩
  · obtain ⟨-, -, -, -, htile⟩ := (s.modTile ix fun t => t.setSem n 65535).taint_frame (tileOfIx ix) 5 0xFFFFFF rsSemSat 0
    rw [h, Nat.min_eq_right (Nat.le_of_lt hv)]
    exact ⟨oneTile_trans (added _) (oneTile_taint _ ix _ _ _ _ _), (htile ix).trans (State.tile_modTile_same ..)⟩

/-- R159: a signal at a tile in which no engine waits and no stream is open adds to its semaphore, and nothing more. -/
theorem State.signal_quiet (x : TileId) (n inc : Nat) (h : quiet (s.tile x.ix)) :
    oneTile s (s.signal x n inc) x.ix ∧ (s.signal x n inc).tile x.ix = (s.tile x.ix).signalled n inc := by
  unfold State.signal TileSt.signalled
  split
  · exact ⟨oneTile_of_elsewhere (elsewhere_refl s x.ix), rfl⟩
  · obtain ⟨frame, added⟩ := s.semAdd_frame x.ix n inc
    have still : quiet ((s.semAdd x.ix n inc).tile x.ix) := by
      obtain ⟨waits, hctxs⟩ := h
      rw [added]
      exact ⟨fun e => by rw [TileSt.engine_setSem]; exact waits e, hctxs⟩
    obtain ⟨settles, same⟩ := State.settle_quiet _ x still
    exact ⟨oneTile_trans frame (oneTile_of_elsewhere settles), same.trans added⟩

/-! ## SIG and SIGX as their meanings (R180) -/

section
variable {s u : State} {tile : TileId} {e : Engine} {c : Issuing} {n : BitVec 6} {via : Bool} {inc : BitVec 16} {x y : BitVec 5}
  {flow : BitVec 16}

theorem exec_sig (h : issuesTo s tile e (.sig n inc) c u) :
    exec (.sig tile e {}) s = .next (((u.tagged c).advance c).signal tile n.toNat inc.toNat) := by
  refine congrArg Host.Outcome.next ((issueOp_of_issuesTo h _).trans ?_)
  exact u.controlUnder_passes c _ _ (slot_of_issuesTo h)

/-- R180: the checks of a SIGX, and its effect. -/
theorem exec_sigx (h : issuesTo s tile e (.sigx n via inc x y flow) c u) :
    exec (.sigx tile e {}) s = .next (u.controlUnder c {} (firstFail
      [(via || flow == 0, rsReserved),
       (if via then u.mayUse c.d flow.toNat
        else decide (x.toNat < (u.shape c.p).width) && decide (y.toNat < (u.shape c.p).height), rsOutside)])
      fun s => s.sigx c n.toNat via inc.toNat x.toNat y.toNat flow.toNat) :=
  congrArg Host.Outcome.next (issueOp_of_issuesTo h fun c i s => match i with
    | .sigx sem via inc col row flow =>
      s.controlUnder c {} (firstFail
        [(via || flow == 0, rsReserved),
         (if via then s.mayUse c.d flow.toNat
          else decide (col.toNat < (s.shape c.p).width) && decide (row.toNat < (s.shape c.p).height), rsOutside)])
        fun s => s.sigx c sem.toNat via inc.toNat col.toNat row.toNat flow.toNat
    | _ => s)

theorem exec_sigx_inside (h : issuesTo s tile e (.sigx n false inc x y 0) c u) (hx : x.toNat < (u.shape c.p).width)
    (hy : y.toNat < (u.shape c.p).height) :
    exec (.sigx tile e {}) s = .next ((u.tagged c).sigx c n.toNat false inc.toNat x.toNat y.toNat 0) := by
  have passes : firstFail [(false || (0 : BitVec 16) == 0, rsReserved), (if false = true then u.mayUse c.d (0 : BitVec 16).toNat
      else decide (x.toNat < (u.shape c.p).width) && decide (y.toNat < (u.shape c.p).height), rsOutside)] = none := by
    simp [firstFail, hx, hy]
  rw [exec_sigx h, passes, u.controlUnder_passes c _ _ (slot_of_issuesTo h)]
  rfl

theorem exec_sigx_outside (h : issuesTo s tile e (.sigx n false inc x y 0) c u)
    (ho : (u.shape c.p).width ≤ x.toNat ∨ (u.shape c.p).height ≤ y.toNat) :
    exec (.sigx tile e {}) s = .next (u.skip c rsOutside) := by
  have fails : firstFail [(false || (0 : BitVec 16) == 0, rsReserved), (if false = true then u.mayUse c.d (0 : BitVec 16).toNat
      else decide (x.toNat < (u.shape c.p).width) && decide (y.toNat < (u.shape c.p).height), rsOutside)] = some rsOutside := by
    rcases ho with ho | ho <;> simp [firstFail, Nat.not_lt.mpr ho]
  rw [exec_sigx h, fails, State.controlUnder_skips]

theorem exec_sigx_flow (h : issuesTo s tile e (.sigx n true inc x y flow) c u) (hu : u.mayUse c.d flow.toNat = true) :
    exec (.sigx tile e {}) s = .next ((u.tagged c).sigx c n.toNat true inc.toNat x.toNat y.toNat flow.toNat) := by
  have passes : firstFail [(true || flow == 0, rsReserved), (if true = true then u.mayUse c.d flow.toNat
      else decide (x.toNat < (u.shape c.p).width) && decide (y.toNat < (u.shape c.p).height), rsOutside)] = none := by
    simp [firstFail, hu]
  rw [exec_sigx h, passes, u.controlUnder_passes c _ _ (slot_of_issuesTo h)]
  rfl

end

/-- R319: a TOKEN names the Pack and the epoch of a tile, which issuing leaves alone. -/
theorem State.token_tagged (c : Issuing) (p i : Nat) : (s.tagged c).token p i = s.token p i := by
  simp only [State.token, State.tile_tagged]

/-- R157: a signal within the Pack joins those under way. -/
theorem State.sigx_inside (c : Issuing) (n inc col row : Nat) (hi : inc ≠ 0) :
    (s.tagged c).sigx c n false inc col row 0 =
      ({ (s.tagged c) with tiles := { (s.tagged c).tiles with
          signals := s.tiles.signals ++ [⟨(s.shape c.p).at col row, n, inc, some c.p⟩] } } : State).advance c := by
  obtain ⟨k, h⟩ := s.tagged_frame c
  simp only [State.sigx, Bool.false_eq_true, if_false, hi]
  rw [h]
  rfl

/-- The request that a SIGX through a flow becomes (R319). -/
def State.rsignal (s : State) (c : Issuing) (n inc col row flow : Nat) : LinkReq :=
  { id := 0, type := .rsignal, flow := flow, issued := 0, desc := some c.d.id, tile := c.ix, engine := c.e.num, pc := c.pc
    word := c.word, target := rsignalTarget col row n inc, token := s.token c.p c.ix }

/-- R157, R319: a signal through a flow is a request. -/
theorem State.sigx_flow (c : Issuing) (n inc col row flow : Nat) :
    (s.tagged c).sigx c n true inc col row flow =
      ((s.tagged c).enqueue (s.rsignal c n inc col row flow)).pump.advance c := by
  simp only [State.sigx, if_true, State.token_tagged, State.request]
  rfl

/-! ## Arrival (R159, R257) -/

/-- The first of a list that a test picks stands behind those that it does not. -/
theorem takeFirst_append {α : Type} (p : α → Bool) (a b : List α) (x : α) (ha : ∀ y ∈ a, p y = false) (hx : p x = true) :
    takeFirst p (a ++ x :: b) = (some x, a ++ b) := by
  induction a with
  | nil => simp [takeFirst, hx]
  | cons y a ih =>
    obtain ⟨hy, rest⟩ := List.forall_mem_cons.mp ha
    simp [takeFirst, hy, ih rest]

/-- The machine once a signal has left the network. -/
def State.delivered (s : State) (l : List SignalSt) : State := { s with tiles := { s.tiles with signals := l } }

theorem exec_signalArrival (tile : TileId) (a b : List SignalSt) (g : SignalSt) (hs : s.tiles.signals = a ++ g :: b)
    (ha : ∀ x ∈ a, x.target ≠ tile) (hg : g.target = tile) :
    exec (.signalArrival tile {}) s = .next (if s.away tile then (s.delivered (a ++ b)).park (some tile) (.signal tile g.sem g.inc g.pack)
      else (s.delivered (a ++ b)).signal tile g.sem g.inc) := by
  have first := takeFirst_append (fun g : SignalSt => g.target == tile) a b g (fun y hy => beq_false_of_ne (ha y hy))
    (beq_iff_eq.mpr hg)
  refine congrArg Host.Outcome.next ?_
  rw [hs, first]
  rfl

/-- Settles O23: SIG and an arrival by `signal_quiet`; SIGX by its checks, and through a flow by `linkWork_pump`. -/
theorem signalsAddToSemaphores : Obligations.SignalsAddToSemaphores := by
  refine ⟨fun s u tile e c n inc h hq => ?_, fun s u tile e c n via inc x y flow h => ⟨?_, ?_, ?_⟩, fun v => ?_,
    fun s tile a b g hs ha hg => ⟨fun haway => ?_, fun haway hq => ?_⟩⟩
  · obtain ⟨-, hix, he⟩ := names_of_issuesTo h
    let v := (u.tagged c).advance c
    let y := (u.tile c.ix).setEngine e ((u.tile c.ix).engine e).advance
    have issued : oneTile u v c.ix := oneTile_of_elsewhere (elsewhere_trans ((accounts_tagged u c).1 c.ix) (elsewhere_modTile _ _ _))
    have hv : v.tile c.ix = y := by simp [v, y, State.advance, State.modEngine, he]
    obtain ⟨signals, signalled⟩ := v.signal_quiet tile n.toNat inc.toNat (by rw [← hix, hv]; exact quiet_advance hq e)
    rw [← hix] at signals signalled
    obtain ⟨hhbm, hhost, hregs, -, hother⟩ := oneTile_trans issued signals
    obtain ⟨hmem, harr, hengine⟩ := y.signalled_frame n.toNat inc.toNat
    have sems : y.sem = (u.tile c.ix).sem := TileSt.sem_congr (TileSt.setEngine_sems ..)
    refine ⟨_, exec_sig h, ?_⟩
    rw [signalled, hv, TileSt.sem_signalled_same, hengine, hmem, harr, sems]
    refine ⟨rfl, fun m hm => ?_, TileSt.engine_setEngine_same .., TileSt.setEngine_mem .., TileSt.setEngine_arr .., hother, hhbm,
      hhost, hregs⟩
    rw [TileSt.sem_signalled_other _ _ _ _ hm, sems]
  · rintro rfl rfl hx hy hi
    obtain ⟨-, -, he⟩ := names_of_issuesTo h
    have hi' : inc.toNat ≠ 0 := fun hz => hi (BitVec.eq_of_toNat_eq hz)
    refine ⟨_, (exec_sigx_inside h hx hy).trans (congrArg _ (u.sigx_inside c _ _ _ _ hi')), ?_⟩
    obtain ⟨k, ht⟩ := u.tagged_frame c
    rw [ht, ← he]
    exact ⟨rfl, State.tile_modTile_same .., fun j hj => State.tile_modTile_other _ _ _ _ hj, rfl, rfl, rfl, rfl⟩
  · rintro rfl rfl ho
    exact exec_sigx_outside h ho
  · rintro rfl hu
    obtain ⟨-, -, he⟩ := names_of_issuesTo h
    rw [exec_sigx_flow h hu, u.sigx_flow, ← he]
    rfl
  · obtain ⟨l, g, k, d, h⟩ := linkWork_pump v
    rw [h]
    exact ⟨rfl, rfl, rfl, rfl, rfl, rfl, rfl⟩
  · rw [exec_signalArrival s tile a b g hs ha hg, if_pos haway]
    rfl
  · obtain ⟨⟨hhbm, hhost, hregs, hsignals, hother⟩, signalled⟩ := (s.delivered (a ++ b)).signal_quiet tile g.sem g.inc hq
    obtain ⟨hmem, -, -⟩ := (s.tile tile.ix).signalled_frame g.sem g.inc
    refine ⟨_, (exec_signalArrival s tile a b g hs ha hg).trans (by rw [if_neg (by simp [haway])]), hsignals, ?_⟩
    rw [signalled]
    exact ⟨TileSt.sem_signalled_same .., TileSt.sem_signalled_other _ _ _, hmem, hother, hhbm, hhost, hregs⟩

end Sys2Proof.Machine
end

section
/-! Waits and barriers (R157, R162, R166, R180). -/
namespace Sys2Proof.Machine
open Sys2Proof

/-! ## A WAIT at its semaphore (R157) -/

/-- An engine that a WAIT or a BARRIER holds. -/
def EngineSt.held (g : EngineSt) (h : Hold) : EngineSt := { g with hold := h }

section
variable (t : TileSt) (e : Engine)

theorem TileSt.setEngine_setEngine (g k : EngineSt) : (t.setEngine e g).setEngine e k = t.setEngine e k := by cases e <;> rfl

theorem TileSt.setSem_setEngine (g : EngineSt) (n v : Nat) : (t.setEngine e g).setSem n v = (t.setSem n v).setEngine e g := by
  cases e <;> rfl

theorem TileSt.sem_setEngine (g : EngineSt) : (t.setEngine e g).sem = t.sem := TileSt.sem_congr (TileSt.setEngine_sems ..)

/-- R157: a WAIT passes where its semaphore has the count. -/
theorem TileSt.waitOk_eq (n count : Nat) : t.waitOk n count = decide (count ≤ t.sem n) := by
  cases count <;> simp [TileSt.waitOk]

variable (n count : Nat) (use : Bool) (x : Option (Nat × Nat))

/-- A tile in which an engine has come to a WAIT, and has been tested. -/
def TileSt.waits : TileSt := (t.setEngine e ((t.engine e).held (.wait n count use x))).releaseWait e

theorem TileSt.waits_eq : t.waits e n count use x =
    if count ≤ t.sem n then (if use then t.setSem n (t.sem n - count) else t).setEngine e (t.engine e).advance
    else t.setEngine e ((t.engine e).held (.wait n count use x)) := by
  have going : ((t.engine e).held (.wait n count use x)).advance = (t.engine e).advance := rfl
  unfold TileSt.waits TileSt.releaseWait
  simp only [TileSt.engine_setEngine_same, EngineSt.held, TileSt.waitOk_eq, TileSt.sem_setEngine, decide_eq_true_eq]
  split
  · cases use
    · simp only [Bool.false_eq_true, if_false, TileSt.engine_setEngine_same, TileSt.setEngine_setEngine]
      rfl
    · simp only [if_true, TileSt.setSem_setEngine, TileSt.engine_setEngine_same, TileSt.setEngine_setEngine]
      rfl
  · rfl

end

/-! ## WAIT and BARRIER as their meanings -/

section
variable {s u : State} {tile : TileId} {e : Engine} {c : Issuing}

theorem State.modTile_modTile (s : State) (i : Nat) (f g : TileSt → TileSt) :
    (s.modTile i f).modTile i g = s.modTile i fun t => g (f t) := by
  simp only [State.modTile, State.setTile, State.tile, Table.get_put_same, Table.put_put_same]

/-- R180: a WAIT without a timeout whose TIMEOUT is not zero is skipped. -/
theorem exec_wait_reserved {n : BitVec 6} {use : Bool} {count tmo : BitVec 16} (h : issuesTo s tile e (.wait n use false count tmo) c u)
    (ht : tmo ≠ 0) : exec (.wait tile e {}) s = .next (u.skip c rsReserved) := by
  refine congrArg Host.Outcome.next ((issueOp_of_issuesTo h _).trans ?_)
  have fails : firstFail [(false || tmo == 0, rsReserved)] = some rsReserved := by simpa [firstFail] using ht
  exact (congrArg (fun r => u.controlUnder c {} r _) fails).trans (State.controlUnder_skips ..)

/-- R157, R166: a WAIT holds its engine, and is tested at once. -/
theorem exec_wait {n : BitVec 6} {use timed : Bool} {count tmo : BitVec 16} (h : issuesTo s tile e (.wait n use timed count tmo) c u)
    (ht : timed = true ∨ tmo = 0) :
    exec (.wait tile e {}) s = .next ((u.tagged c).modTile c.ix fun t =>
      t.waits e n.toNat count.toNat use (if timed then some (u.tick.count, tmo.toNat) else none)) := by
  obtain ⟨-, -, he⟩ := names_of_issuesTo h
  have passes : firstFail [(timed || tmo == 0, rsReserved)] = none := by
    rcases ht with ht | ht <;> simp [firstFail, ht]
  have clock : (u.tagged c).tick = u.tick := by
    obtain ⟨k, hk⟩ := u.tagged_frame c
    rw [hk]
    rfl
  refine congrArg Host.Outcome.next ((issueOp_of_issuesTo h _).trans ?_)
  refine (congrArg (fun r => u.controlUnder c {} r _) passes).trans ?_
  rw [u.controlUnder_passes c _ _ (slot_of_issuesTo h), State.underUpset_none, clock, State.holdAt, State.modEngine, he,
    State.modTile_modTile]
  rfl

theorem exec_barrier {n : BitVec 2} {m : BitVec 5} (h : issuesTo s tile e (.barrier n m) c u) :
    exec (.barrier tile e {}) s =
      .next (if m = 0 then (u.tagged c).advance c else (u.tagged c).barrier c n.toNat m.toNat) := by
  refine congrArg Host.Outcome.next ((issueOp_of_issuesTo h _).trans ?_)
  exact u.controlUnder_passes c _ _ (slot_of_issuesTo h)

end

/-! ## An arrival at a barrier (R162) -/

/-- The barrier of a number, which opens with a mask where it is not open. -/
def PackSt.barrierOf (k : PackSt) (num mask : Nat) : BarrierSt := (k.barriers.find? fun b => b.num == num).getD ⟨num, mask, []⟩

/-- A barrier at which one more engine has arrived. -/
def BarrierSt.arrive (b : BarrierSt) (a : TileId × Engine) : BarrierSt := { b with arrived := b.arrived ++ [a] }

/-- The barriers that are open in a Pack are replaced. -/
def State.setBarriers (s : State) (p : Nat) (l : List BarrierSt) : State := s.modPack p fun k => { k with barriers := l }

theorem State.barriers_setBarriers (s : State) (p : Nat) (l : List BarrierSt) : ((s.setBarriers p l).pack p).barriers = l :=
  congrArg PackSt.barriers (s.pack_modPack_same p fun k => { k with barriers := l })

/-- The engines that have arrived at a barrier go on. -/
def State.resume (s : State) (l : List (TileId × Engine)) : State :=
  l.foldl (fun s a => s.modEngine a.1.ix a.2 EngineSt.advance) s

section
variable (s : State) (c : Issuing) (num mask : Nat)

theorem State.barrier_skips (hm : ((s.pack c.p).barrierOf num mask).mask ≠ mask) : s.barrier c num mask = s.skip c rsBarrier :=
  if_pos hm

variable (hm : ((s.pack c.p).barrierOf num mask).mask = mask)
include hm

theorem State.barrier_holds
    (hf : barrierFull (s.shape c.p).tiles (((s.pack c.p).barrierOf num mask).arrive (c.tile, c.e)) = false) :
    s.barrier c num mask = (s.setBarriers c.p (((s.pack c.p).barriers.filter fun b => b.num != num) ++
      [((s.pack c.p).barrierOf num mask).arrive (c.tile, c.e)])).holdAt c (.barrier num mask) :=
  (if_neg (not_not_intro hm)).trans (if_neg (ne_true_of_eq_false hf))

theorem State.barrier_opens
    (hf : barrierFull (s.shape c.p).tiles (((s.pack c.p).barrierOf num mask).arrive (c.tile, c.e)) = true) :
    s.barrier c num mask = (s.setBarriers c.p ((s.pack c.p).barriers.filter fun b => b.num != num)).resume
        (((s.pack c.p).barrierOf num mask).arrive (c.tile, c.e)).arrived :=
  (if_neg (not_not_intro hm)).trans (if_pos hf)

end

/-! ## The engines that go on (R162) -/

theorem TileId.ix_injective : Function.Injective TileId.ix := by
  rintro ⟨⟨a, ha⟩, ⟨b, hb⟩⟩ ⟨⟨c, hc⟩, ⟨d, hd⟩⟩ h
  simp only [TileId.ix] at h
  obtain rfl : a = c := by omega
  obtain rfl : b = d := by omega
  rfl

section
variable (s : State)

/-- Engines that go on change the tiles alone. -/
theorem State.resume_frame (l : List (TileId × Engine)) :
    ∃ t, s.resume l = { s with tiles := { s.tiles with tiles := t } } := by
  refine List.foldlRecOn (motive := fun v : State => ∃ t, v = { s with tiles := { s.tiles with tiles := t } }) l _
    ⟨s.tiles.tiles, rfl⟩ ?_
  rintro _ ⟨t, rfl⟩ a -
  exact ⟨_, rfl⟩

theorem State.engine_modEngine_same (a : TileId × Engine) (f : EngineSt → EngineSt) :
    ((s.modEngine a.1.ix a.2 f).tile a.1.ix).engine a.2 = f ((s.tile a.1.ix).engine a.2) := by
  rw [State.modEngine, State.tile_modTile_same, TileSt.engine_setEngine_same]

theorem State.engine_modEngine_other (a b : TileId × Engine) (f : EngineSt → EngineSt) (h : b ≠ a) :
    ((s.modEngine a.1.ix a.2 f).tile b.1.ix).engine b.2 = (s.tile b.1.ix).engine b.2 := by
  by_cases hix : b.1.ix = a.1.ix
  · have off : b.2 ≠ a.2 := fun he => h (Prod.ext (TileId.ix_injective hix) he)
    rw [State.modEngine, hix, State.tile_modTile_same, TileSt.engine_setEngine_other _ _ _ _ off]
  · rw [State.modEngine, State.tile_modTile_other _ _ _ _ hix]

theorem State.engine_resume_other (l : List (TileId × Engine)) (b : TileId × Engine) (h : b ∉ l) :
    ((s.resume l).tile b.1.ix).engine b.2 = (s.tile b.1.ix).engine b.2 := by
  induction l generalizing s with
  | nil => rfl
  | cons a l ih =>
    have later := ih (s.modEngine a.1.ix a.2 EngineSt.advance) fun hb => h (List.mem_cons_of_mem a hb)
    exact later.trans (s.engine_modEngine_other a b _ fun hb => h (hb ▸ List.mem_cons_self))

/-- R162: each engine that has arrived, once, goes on to its next instruction. -/
theorem State.engine_resume (l : List (TileId × Engine)) (hl : l.Nodup) (b : TileId × Engine) (h : b ∈ l) :
    ((s.resume l).tile b.1.ix).engine b.2 = ((s.tile b.1.ix).engine b.2).advance := by
  induction l generalizing s with
  | nil => cases h
  | cons a l ih =>
    obtain ⟨fresh, rest⟩ := List.nodup_cons.mp hl
    by_cases hb : b = a
    · subst hb
      exact (State.engine_resume_other _ l b fresh).trans (s.engine_modEngine_same b _)
    · refine (ih _ rest ((List.mem_cons.mp h).resolve_left hb)).trans ?_
      rw [s.engine_modEngine_other a b _ hb]

/-! ## A Pack that an issue has noted -/

theorem State.shape_tagged (c : Issuing) (p : Nat) : (s.tagged c).shape p = s.shape p := by
  obtain ⟨k, h⟩ := s.tagged_frame c
  rw [h]
  rfl

theorem State.barriers_tagged (c : Issuing) : ((s.tagged c).pack c.p).barriers = (s.pack c.p).barriers := by
  obtain ⟨k, h⟩ := s.tagged_frame c
  rw [h]
  have noted := congrArg PackSt.barriers (s.pack_modPack_same c.p fun k => { k with issued := true })
  exact noted

theorem State.barrierOf_tagged (c : Issuing) (num mask : Nat) :
    ((s.tagged c).pack c.p).barrierOf num mask = (s.pack c.p).barrierOf num mask := by
  simp only [PackSt.barrierOf, State.barriers_tagged]

end

/-- Settles O24: WAIT by the tile that `waits_eq` gives, BARRIER by the three ways of an arrival. -/
theorem waitsAndBarriersHoldTheirEngine : Obligations.WaitsAndBarriersHoldTheirEngine := by
  refine fun s u tile e c => ⟨fun n use timed count tmo h => ⟨?_, fun ht => ?_⟩, fun n m h => ?_⟩
  · rintro rfl ht
    exact exec_wait_reserved h ht
  · obtain ⟨-, -, he⟩ := names_of_issuesTo h
    have frame := tileOnly_modTile u c fun t =>
      t.waits e n.toNat count.toNat use (if timed then some (u.tick.count, tmo.toNat) else none)
    rw [TileSt.waits_eq] at frame
    refine ⟨_, exec_wait h ht, fun hc => ?_, fun hc => ?_⟩
    · rwa [if_pos hc] at frame
    · rw [if_neg (Nat.not_le.mpr hc), ← he] at frame
      rw [← he]
      exact frame
  · intro l b b' rest
    obtain ⟨htile, -, he⟩ := names_of_issuesTo h
    subst htile he
    let v := u.tagged c
    have memories : v.hbm = u.hbm ∧ v.host = u.host ∧ v.regs = u.regs := by
      obtain ⟨hhbm, hhost, hregs, -⟩ := oneTile_of_elsewhere ((accounts_tagged u c).1 c.ix)
      exact ⟨hhbm, hhost, hregs⟩
    have barriers : (v.pack c.p).barriers = l := u.barriers_tagged c
    have here : (v.pack c.p).barrierOf n.toNat m.toNat = b := u.barrierOf_tagged c _ _
    have shape : v.shape c.p = u.shape c.p := u.shape_tagged c c.p
    refine ⟨fun hm => ⟨_, ?_, engineOnly_advance u c⟩, fun hm hb => ?_, fun hm hb hf => ?_, fun hm hb hn hf => ?_⟩
    · rw [exec_barrier h, if_pos hm]
    · rw [exec_barrier h, if_neg hm, State.barrier_skips v c _ _ (here ▸ hb)]
      rfl
    · let w := v.setBarriers c.p (rest ++ [b'])
      have holds : v.barrier c n.toNat m.toNat = w.holdAt c (.barrier n.toNat m.toNat) := by
        rw [v.barrier_holds c _ _ (here ▸ hb) (by rw [shape, here]; exact hf), barriers, here]
        rfl
      have unchanged (j : Nat) : w.tile j = u.tile j := u.tile_tagged c j
      refine ⟨w.holdAt c (.barrier n.toNat m.toNat), (exec_barrier h).trans (by rw [if_neg hm, holds]), ?_, ?_, fun j hj => ?_,
        memories⟩
      · exact v.barriers_setBarriers c.p (rest ++ [b'])
      · rw [State.holdAt, State.modEngine, State.tile_modTile_same, unchanged]
      · exact (State.tile_modTile_other _ _ _ _ hj).trans (unchanged j)
    · let w := v.setBarriers c.p rest
      have opens : v.barrier c n.toNat m.toNat = w.resume b'.arrived := by
        rw [v.barrier_opens c _ _ (here ▸ hb) (by rw [shape, here]; exact hf), barriers, here]
        rfl
      have unchanged (j : Nat) : w.tile j = u.tile j := u.tile_tagged c j
      obtain ⟨ts, frame⟩ := w.resume_frame b'.arrived
      refine ⟨w.resume b'.arrived, (exec_barrier h).trans (by rw [if_neg hm, opens]), ?_, fun a ha => ?_, ?_⟩
      · rw [frame]
        exact v.barriers_setBarriers c.p rest
      · rw [w.engine_resume _ hn a ha, unchanged]
      · rw [frame]
        exact memories

end Sys2Proof.Machine
end

section
/-! Retirement, WAIT timeouts and the deadlock check (R154, R166, R167, R170, R171). -/
namespace Sys2Proof.Machine
open Sys2Proof

/-! ## Retirement (R154) -/

section
variable (s : State) (tile : TileId) (e : Engine)

theorem exec_instructionRetire_held (h : s.mayRetire tile e = false) : exec (.instructionRetire tile e) s = .next s := by
  refine congrArg Host.Outcome.next ?_
  simp only [h, Bool.not_false, if_true]

/-- A tile whose flights are replaced; what waited at issue tries again. -/
def TileSt.released (t : TileSt) (l : List Flight) : TileSt := { t with flights := l }.retry

theorem exec_instructionRetire_oldest (a b : List Flight) (f : Flight) (h : s.mayRetire tile e = true)
    (hl : (s.tile tile.ix).flights = a ++ f :: b) (ha : ∀ x ∈ a, x.engine ≠ e ∨ x.ctx.isSome = true) (he : f.engine = e)
    (hc : f.ctx = none) :
    exec (.instructionRetire tile e) s = .next ((s.modTile tile.ix fun t => t.released (a ++ b)).settle tile) := by
  have first := takeFirst_append (fun f : Flight => f.engine == e && f.ctx.isNone) a b f
    (fun x hx => by rcases ha x hx with hx | hx <;> simp [hx]) (by simp [he, hc])
  refine congrArg Host.Outcome.next ?_
  rw [h, hl, first]
  rfl

end

theorem TileSt.released_frame (t : TileSt) (l : List Flight) :
    (t.released l).flights = l ∧ (t.released l).mem = t.mem ∧ (t.released l).sems = t.sems := by
  obtain ⟨hmem, -, hsems, -, hflights⟩ := ({ t with flights := l } : TileSt).retry_frame
  exact ⟨hflights, hmem, hsems⟩

theorem TileSt.released_quiet (t : TileSt) (l : List Flight) (h : quiet t) : quiet (t.released l) := by
  obtain ⟨waits, hctxs⟩ := h
  obtain ⟨-, -, -, same, -⟩ := ({ t with flights := l } : TileSt).retry_frame
  refine ⟨fun k a b use x => ?_, same.trans hctxs⟩
  have engine : ({ t with flights := l } : TileSt).engine k = t.engine k := by cases k <;> rfl
  rw [TileSt.released, TileSt.retry_engine, engine]
  exact EngineSt.retried_noWait _ (waits k) a b use x

/-! ## The Pack of a tile and its descriptor -/

/-- R260, R261: a tile that a shape covers is one of its tiles. -/
theorem PackShape.mem_tiles_of_covers (sh : PackShape) (t : TileId) (h : sh.covers t = true) : t.ix ∈ sh.tiles := by
  obtain ⟨col, row⟩ := t
  simp only [PackShape.covers, Bool.and_eq_true, decide_eq_true_eq] at h
  obtain ⟨⟨⟨⟨on, hc⟩, hc'⟩, hr⟩, hr'⟩ := h
  have here : sh.at (col.val - sh.col0) (row.val - sh.row0) = ⟨col, row⟩ := by
    have hcol : sh.col0 + (col.val - sh.col0) = col.val := by omega
    have hrow : sh.row0 + (row.val - sh.row0) = row.val := by omega
    simp only [PackShape.at, hcol, hrow, Fin.ofNat_val_eq_self]
  simp only [PackShape.tiles, on, if_true, List.mem_flatMap, List.mem_map, List.mem_range]
  exact ⟨row.val - sh.row0, by omega, col.val - sh.col0, by omega, congrArg TileId.ix here⟩

section
variable (s : State)

theorem State.mem_tiles_of_packOf (t : TileId) (p : Nat) (h : s.packOf t = some p) : t.ix ∈ (s.shape p).tiles :=
  PackShape.mem_tiles_of_covers _ t (List.find?_some (p := fun p => (s.shape p).covers t) h)

theorem State.desc?_of_running (p : Nat) (d : Desc) (h : s.running p = some d) : s.desc? d.id = some d := by
  unfold State.running at h
  split at h
  next id _ =>
    have named : d.id = id := by simpa using List.find?_some (p := fun d : Desc => d.id == id) h
    rw [named]
    exact h
  next => cases h

/-! ## WAIT timeouts (R166 to R168) -/

theorem State.timedOut_iff (ix : Nat) (e : Engine) (sem count : Nat) (use : Bool) (since tmo : Nat)
    (h : ((s.tile ix).engine e).hold = .wait sem count use (some (since, tmo))) :
    s.timedOut ix e = true ↔ since + tmo + 1 ≤ s.tick.count := by
  simp only [State.timedOut, h, decide_eq_true_eq]

/-- The tiles of a Pack, once for each of its WAITs that is past its time. -/
def State.timeouts (p : Nat) : List Nat := (s.shape p).tiles.flatMap fun i => (engines.filter (s.timedOut i)).map fun _ => i

theorem State.timeouts_pos (t : TileId) (e : Engine) (p : Nat) (hp : s.packOf t = some p) (ht : s.timedOut t.ix e = true) :
    0 < (s.timeouts p).length := by
  have listed : e ∈ engines := by cases e <;> decide
  refine List.length_pos_of_mem (a := t.ix) (List.mem_flatMap.mpr ⟨t.ix, s.mem_tiles_of_packOf t p hp, ?_⟩)
  exact List.mem_map.mpr ⟨e, List.mem_filter.mpr ⟨listed, ht⟩, rfl⟩

/-- R167: the logs of timeouts draw free values and raise events. -/
theorem State.foldl_logTimeout_frame (l : List Nat) : ∃ k n, l.foldl State.logTimeout s = { s with tel := k, fresh := n } := by
  refine List.foldlRecOn (motive := fun v : State => ∃ k n, v = { s with tel := k, fresh := n }) l _ ⟨s.tel, s.fresh, rfl⟩ ?_
  rintro _ ⟨k, n, rfl⟩ i -
  exact ⟨_, _, rfl⟩

/-- R171: a Pack without a buffer takes no snapshot. -/
theorem State.snapshot_none (p : Nat) (d : Desc) (cause : Nat) (h : s.reg64 (0x4C100 + 8 * p) = 0) : s.snapshot p d cause = s :=
  if_pos h

/-- R171: a snapshot writes host memory. -/
theorem State.snapshot_frame (p : Nat) (d : Desc) (cause : Nat) : ∃ m, s.snapshot p d cause = { s with host := m } := by
  unfold State.snapshot
  dsimp only
  split
  · exact ⟨_, rfl⟩
  · exact ⟨_, rfl⟩

/-- R173: WAIT timeouts are counted. -/
def State.timeoutsCounted (n : Nat) : State :=
  { s with tiles := { s.tiles with waitTimeouts := sat 16 (s.tiles.waitTimeouts + n) } }

/-- R166, R167: timeouts are logged and counted, and end the Pack's descriptor. -/
theorem State.waitTimeouts_ends (p : Nat) (d : Desc) (hd : s.running p = some d) (hph : d.phase = .running)
    (hl : 0 < (s.timeouts p).length) (hb : s.reg64 (0x4C100 + 8 * p) = 0) :
    ∃ k n, s.waitTimeouts p =
      (({ s with tel := k, fresh := n } : State).timeoutsCounted (s.timeouts p).length).endDesc d.id stWaitTimeout := by
  have due : ¬ (d.phase != .running || (s.timeouts p).isEmpty) = true := by
    simp [hph, List.ne_nil_of_length_pos hl]
  have ends : s.waitTimeouts p = (((s.timeouts p).foldl State.logTimeout (s.snapshot p d 0x13)).timeoutsCounted
      (s.timeouts p).length).endDesc d.id stWaitTimeout := by
    unfold State.waitTimeouts
    rw [hd]
    exact if_neg due
  obtain ⟨k, n, logged⟩ := s.foldl_logTimeout_frame (s.timeouts p)
  rw [s.snapshot_none p d _ hb, logged] at ends
  exact ⟨k, n, ends⟩

theorem exec_waitTimeout_due (t : TileId) (e : Engine) (p : Nat) (hp : s.packOf t = some p) (ht : s.timedOut t.ix e = true) :
    exec (.waitTimeout t e) s = .next (s.waitTimeouts p) := by
  refine congrArg Host.Outcome.next ?_
  rw [hp]
  exact if_pos ht

theorem exec_waitTimeout_early (t : TileId) (e : Engine) (p : Nat) (hp : s.packOf t = some p) (ht : s.timedOut t.ix e = false) :
    exec (.waitTimeout t e) s = .next s := by
  refine congrArg Host.Outcome.next ?_
  rw [hp]
  exact if_neg (ne_true_of_eq_false ht)

/-! ## The counts of faults through the end of a descriptor (R173) -/

/-- SHP_SYNC_COUNT: the deadlocks and the WAIT timeouts counted. -/
def State.syncCounts : Nat × Nat := (s.tiles.deadlocks, s.tiles.waitTimeouts)

/-- R90: stopping the tiles of a Pack touches the tiles' own states and the hub check units. -/
theorem State.stopTiles_tiles (p : Nat) :
    ∃ t g, s.stopTiles p = { s with tiles := { s.tiles with tiles := t }, paging := g } := by
  have stopped : ∃ t, (s.shape p).tiles.foldl (fun s i => s.modTile i (TileSt.stopped (s.ctxBusy i))) s =
      { s with tiles := { s.tiles with tiles := t } } := by
    refine List.foldlRecOn (motive := fun v : State => ∃ t, v = { s with tiles := { s.tiles with tiles := t } }) _ _
      ⟨s.tiles.tiles, rfl⟩ ?_
    rintro _ ⟨t, rfl⟩ i -
    exact ⟨_, rfl⟩
  obtain ⟨t, ht⟩ := stopped
  unfold State.stopTiles
  rw [ht]
  exact ⟨t, _, rfl⟩

theorem State.syncCounts_stopPack (p id : Nat) : (s.stopPack p id).syncCounts = s.syncCounts := by
  unfold State.stopPack
  obtain ⟨t, g, h⟩ := State.stopTiles_tiles
    ((s.modLf fun l => { l with reqs := l.reqs.filter fun q => !(q.desc == some id && q.first.isNone) }).modLf
      fun l => l.stopGroups id) p
  simp only [State.syncCounts, h, State.modPack, State.setPack]
  rfl

theorem State.syncCounts_endDesc (id st : Nat) : (s.endDesc id st).syncCounts = s.syncCounts := by
  rcases s.endDesc_cases id st with ⟨-, h⟩ | ⟨d, -, ⟨-, h⟩ | ⟨-, h⟩ | ⟨-, h⟩⟩
  · rw [h]
  · rw [h]
    exact s.syncCounts_stopPack d.pack id
  · rw [h]
  · rw [h]
    rfl

theorem State.syncCounts_foldl_endDesc (st : Nat) (ids : List Nat) :
    (ids.foldl (fun (s : State) id => s.endDesc id st) s).syncCounts = s.syncCounts :=
  List.foldlRecOn (motive := fun v : State => v.syncCounts = s.syncCounts) ids _ rfl
    fun v hv id _ => (v.syncCounts_endDesc id st).trans hv

/-! ## A Pack Muzzle that ends a descriptor with a status of its own (R21, R22) -/

/-- A Pack whose Muzzle opens, as the alarm goes out: the trigger's own descriptor has been ended. -/
def State.packEntered (p c id st : Nat) : State :=
  (({ s with muzzle := { s.muzzle with packs := Table.put s.muzzle.packs p ((s.mzPack p).enter c) } } : State).endDesc id st)

/-- R22: the Muzzle of a Pack that had none: its descriptors end after the trigger's own, and its cues go to their safe
levels. -/
theorem State.muzzlePack_first (p c id st : Nat) (h : (s.mzPack p).active = false) :
    ∃ (k : Telemetry) (ids : List Nat) (owned : CueIx → Bool), s.muzzlePack p c (some (id, st)) =
      (ids.foldl (fun (s : State) id => s.endDesc id (mzStatus c)) { s.packEntered p c id st with tel := k }).cuesSafe owned := by
  unfold State.muzzlePack
  rw [h]
  exact ⟨_, _, _, rfl⟩

section
variable (p c id st : Nat) (h : (s.mzPack p).active = false)
include h

theorem State.muzzlePack_own_frame : let v := s.muzzlePack p c (some (id, st))
    v.mzPack p = { active := true, cause := c, count := 1, seen := [c] } ∧ v.syncCounts = s.syncCounts ∧
      v.hbm = s.hbm ∧ v.regs = s.regs := by
  obtain ⟨k, ids, owned, hv⟩ := s.muzzlePack_first p c id st h
  obtain ⟨t, g, l, b, ds, own⟩ := State.endDesc_frame
    ({ s with muzzle := { s.muzzle with packs := Table.put s.muzzle.packs p ((s.mzPack p).enter c) } } : State) id st
  have counts : (s.packEntered p c id st).syncCounts = s.syncCounts := State.syncCounts_endDesc _ id st
  obtain ⟨t', g', l', b', ds', rest⟩ := State.foldl_endDesc_frame { s.packEntered p c id st with tel := k } (mzStatus c) ids
  have counts' := State.syncCounts_foldl_endDesc { s.packEntered p c id st with tel := k } (mzStatus c) ids
  obtain ⟨q, safe⟩ := State.cuesSafe_frame
    (ids.foldl (fun (s : State) id => s.endDesc id (mzStatus c)) { s.packEntered p c id st with tel := k }) owned
  rw [hv, safe]
  refine ⟨?_, counts'.trans counts, ?_, ?_⟩
  · rw [rest, State.packEntered, own, ← (s.mzPack p).enter_inactive c h]
    exact Table.get_put_same ..
  · rw [rest, State.packEntered, own]
  · rw [rest, State.packEntered, own]

/-- R22: a descriptor that runs stops with the status of the trigger's own. -/
theorem State.muzzlePack_own_stops (d : Desc) (hd : s.desc? id = some d) (hp : d.phase = .running) :
    (s.muzzlePack p c (some (id, st))).stopsWith id st := by
  obtain ⟨k, ids, owned, hv⟩ := s.muzzlePack_first p c id st h
  have own : (s.packEntered p c id st).stopsWith id st := State.endDesc_stops _ id st d hd (.inl hp)
  have rest := List.foldlRecOn (motive := fun v : State => v.stopsWith id st) ids
    (fun (s : State) id => s.endDesc id (mzStatus c)) (b := { s.packEntered p c id st with tel := k }) own
    fun v hs x _ => v.endDesc_keeps_stopsWith id st x _ hs
  obtain ⟨q, safe⟩ := State.cuesSafe_frame
    (ids.foldl (fun (s : State) id => s.endDesc id (mzStatus c)) { s.packEntered p c id st with tel := k }) owned
  rw [hv, safe]
  exact rest

end

/-! ## The deadlock check (R170) -/

/-- R170: the Pack of a deadlock is counted, snapshot and Muzzled, and its descriptor ends. -/
theorem State.deadlock_eq (p : Nat) (d : Desc) : ∃ m, s.deadlock p d =
    ({ s with host := m, tiles := { s.tiles with deadlocks := sat 16 (s.tiles.deadlocks + 1) } } : State).muzzlePack p 0x0A
      (some (d.id, stDeadlock)) := by
  obtain ⟨m, h⟩ := s.snapshot_frame p d 0x12
  unfold State.deadlock
  rw [h]
  exact ⟨m, rfl⟩

theorem exec_syncDeadlock_now (p : PackIx) (d : Desc) (hd : s.running p.val = some d) (h : s.deadNow p.val d = true) :
    exec (.syncDeadlock p) s = .next (s.deadlock p.val d) := by
  refine congrArg Host.Outcome.next ?_
  rw [hd]
  exact if_pos h

theorem exec_syncDeadlock_early (p : PackIx) (d : Desc) (hd : s.running p.val = some d) (h : s.deadNow p.val d = false) :
    exec (.syncDeadlock p) s = .next s := by
  refine congrArg Host.Outcome.next ?_
  rw [hd]
  exact if_neg (ne_true_of_eq_false h)

/-- R170: a descriptor that the test finds deadlocked runs. -/
theorem State.running_of_deadTest (p : Nat) (d : Desc) (h : s.deadTest p d = true) : d.phase = .running := by
  simp only [State.deadTest, Bool.and_eq_true, beq_iff_eq] at h
  tauto

theorem State.deadNow_iff (p : Nat) (d : Desc) : s.deadNow p d = true ↔
    s.deadTest p d = true ∧ ∃ since, (s.pack p).deadSince = some since ∧ since + s.regN 0x4C000 ≤ s.tick.count := by
  unfold State.deadNow
  cases (s.pack p).deadSince with
  | none => simp
  | some since =>
    simp only [Bool.and_eq_true, decide_eq_true_eq, Option.some.injEq, exists_eq_left']
    rfl

end

/-- Settles O25: retirement in a quiet tile, the counted timeouts, and the Pack Muzzle with a status of its own. -/
theorem retirementTimeoutAndDeadlock : Obligations.RetirementTimeoutAndDeadlock := by
  refine ⟨fun s tile e => ⟨exec_instructionRetire_held s tile e, fun a b f hr hl ha he hc hq => ?_⟩,
    fun s tile e p sem count n use since tmo d hp hd hph hw hn => ⟨fun ht hb => ?_, fun ht => ?_⟩,
    fun s p d hd => ⟨fun since ht hm hs hl => ?_, fun hn => ?_, fun since hs hl => ?_⟩⟩
  · let v := s.modTile tile.ix fun t => t.released (a ++ b)
    have hv : v.tile tile.ix = (s.tile tile.ix).released (a ++ b) := State.tile_modTile_same ..
    obtain ⟨settles, same⟩ := v.settle_quiet tile (by rw [hv]; exact TileSt.released_quiet _ _ hq)
    obtain ⟨hhbm, hhost, hregs, -, hother⟩ := oneTile_of_elsewhere (elsewhere_trans (elsewhere_modTile s _ _) settles)
    obtain ⟨hflights, hmem, hsems⟩ := (s.tile tile.ix).released_frame (a ++ b)
    refine ⟨_, exec_instructionRetire_oldest s tile e a b f hr hl ha he hc, ?_⟩
    rw [same, hv]
    exact ⟨hflights, hmem, hsems, hother, hhbm, hhost, hregs⟩
  · have due := (s.timedOut_iff tile.ix e sem count use since tmo hw).mpr ht
    have counted := s.timeouts_pos tile e p hp due
    obtain ⟨k, i, ends⟩ := s.waitTimeouts_ends p d hd hph counted hb
    let v : State := ({ s with tel := k, fresh := i } : State).timeoutsCounted (s.timeouts p).length
    obtain ⟨d', hd', hph', hst⟩ := v.endDesc_stops d.id stWaitTimeout d (s.desc?_of_running p d hd) (.inl hph)
    obtain ⟨t, g, l, b, ds, frame⟩ := v.endDesc_frame d.id stWaitTimeout
    have counts := congrArg Prod.snd (v.syncCounts_endDesc d.id stWaitTimeout)
    refine ⟨_, d', _, (exec_waitTimeout_due s tile e p hp due).trans (congrArg _ ends), hd', hst, hph', counted, hn ▸ counts, ?_⟩
    change (v.endDesc d.id stWaitTimeout).hbm = _ ∧ _
    rw [frame]
    exact ⟨rfl, rfl, rfl⟩
  · refine exec_waitTimeout_early s tile e p hp (Bool.eq_false_iff.mpr fun due => ?_)
    have := (s.timedOut_iff tile.ix e sem count use since tmo hw).mp due
    omega
  · obtain ⟨m, dead⟩ := s.deadlock_eq p.val d
    have now := (s.deadNow_iff p.val d).mpr ⟨ht, since, hs, hl⟩
    let v : State := { s with host := m, tiles := { s.tiles with deadlocks := sat 16 (s.tiles.deadlocks + 1) } }
    obtain ⟨muzzled, counts, hhbm, hregs⟩ := v.muzzlePack_own_frame p.val 0x0A d.id stDeadlock hm
    obtain ⟨d', hd', hph', hst⟩ := v.muzzlePack_own_stops p.val 0x0A d.id stDeadlock hm d (s.desc?_of_running _ d hd)
      (s.running_of_deadTest p.val d ht)
    exact ⟨_, d', (exec_syncDeadlock_now s p d hd now).trans (congrArg _ dead), congrArg MzScope.active muzzled,
      congrArg MzScope.cause muzzled, hd', hst, hph', congrArg Prod.fst counts, hhbm, hregs⟩
  · refine exec_syncDeadlock_early s p d hd (Bool.eq_false_iff.mpr fun now => ?_)
    obtain ⟨ht, since, hs, -⟩ := (s.deadNow_iff p.val d).mp now
    rcases hn with hn | hn
    · exact Bool.false_ne_true (hn.symm.trans ht)
    · cases hn.symm.trans hs
  · refine exec_syncDeadlock_early s p d hd (Bool.eq_false_iff.mpr fun now => ?_)
    obtain ⟨-, x, hx, hle⟩ := (s.deadNow_iff p.val d).mp now
    obtain rfl : since = x := Option.some.inj (hs.symm.trans hx)
    omega

end Sys2Proof.Machine
end

section
/-! SUPPORT. Words of the DSP engine in a tile's memories, said once: which integers a word holds, and a block of words
written to a memory (R95, R191). -/
namespace Sys2Proof.Machine
open Sys2Proof

/-! ## Words -/

/-- The integers that a word holds. -/
def spRange (x : Int) : Prop := spBottom ≤ x ∧ x ≤ spTop

theorem signed_unsigned_word {x : Int} (h : spRange x) : signed 32 (unsigned 32 x) = x := by
  obtain ⟨low, high⟩ := h
  simp only [spBottom, spTop] at low high
  unfold signed unsigned
  split <;> omega

theorem spRange_signed {n : Nat} (h : n < 2 ^ 32) : spRange (signed 32 n) := by
  simp only [spRange, spBottom, spTop, signed]
  split <;> omega

theorem spRange_spSat (x : Int) : spRange (spSat x).1 := by
  simp only [spRange, spSat]
  split
  · simp [spBottom, spTop]
  · split
    · simp [spBottom, spTop]
    · omega

theorem spRange_spShift (k x : Int) : spRange (spShift k x).1 := by
  unfold spShift
  split <;> exact spRange_spSat _

theorem spRange_headroom (x : Int) : spRange (headroom x) := by
  have small : headroom x ≤ 31 := by
    unfold headroom
    split
    · rfl
    · dsimp only
      generalize (if x < 0 then (-x - 1).toNat else x.toNat) = m
      split <;> omega
  simp only [spRange, spBottom, spTop]
  omega

theorem spRange_toInt (b : BitVec 16) : spRange b.toInt := by
  have low := b.le_toInt
  have high := b.toInt_lt
  simp only [spRange, spBottom, spTop]
  omega

theorem TileSt.spRange_spWord (t : TileSt) (k : Side) (a : Nat) : spRange (t.spWord k a) := by
  have four := leNat_lt ((t.mem.side k).readBytes a 4)
  rw [Memory.length_readBytes] at four
  exact spRange_signed four

/-! ## A block of words in a memory -/

@[simp] theorem TileMems.side_setSide_same (m : TileMems) (k : Side) (v : Memory) : (m.setSide k v).side k = v := by
  cases k <;> rfl

theorem TileMems.side_setSide_other (m : TileMems) (k j : Side) (v : Memory) (h : j ≠ k) : (m.setSide k v).side j = m.side j := by
  cases k <;> cases j <;> simp [TileMems.setSide, TileMems.side] at h ⊢

@[simp] theorem TileMems.nl_setSide (m : TileMems) (k : Side) (v : Memory) : (m.setSide k v).nl = m.nl := by
  cases k <;> rfl

theorem length_flatMap_leBytes {α : Type} (n : Nat) (v : α → Nat) (l : List α) :
    (l.flatMap fun x => leBytes n (v x)).length = l.length * n := by
  simp [List.length_flatMap, length_leBytes]

theorem TileSt.spWord_congr {t v : TileSt} (h : v.mem = t.mem) : v.spWord = t.spWord := by
  funext k a
  simp only [TileSt.spWord, TileSt.readN, h]

theorem TileSt.spWords_congr {t v : TileSt} (h : v.mem = t.mem) : v.spWords = t.spWords := by
  funext k a n
  simp only [TileSt.spWords, TileSt.spWord_congr h]

theorem TileSt.cx_congr {t v : TileSt} (h : v.mem = t.mem) : v.cx = t.cx := by
  funext k a
  simp only [TileSt.cx, TileSt.spWord_congr h]

theorem TileSt.macTerms_congr {t v : TileSt} (h : v.mem = t.mem) : v.macTerms = t.macTerms := by
  funext f
  simp only [TileSt.macTerms, TileSt.cx_congr h]

/-- A tile `y` holds the words `l` where `x` had others, and nothing else of its memories, its array, its semaphores and its
streams differs. -/
theorem wordsAt_setSpWords {x y : TileSt} {k : Side} {a n : Nat} {l : List Int} (hl : ∀ w ∈ l, spRange w) (hn : 4 * l.length = n)
    (hm : y.mem = (x.setSpWords k a l).mem) (ha : y.arr = x.arr) (hs : y.sems = x.sems) (hc : y.ctxs = x.ctxs) :
    wordsAt y k a l ∧ onlySpan x y k a n := by
  have bytes := length_flatMap_leBytes 4 (unsigned 32) l
  have side : y.mem.side k = (x.mem.side k).writeBytes a (l.flatMap fun w => leBytes 4 (unsigned 32 w)) := by
    rw [hm]
    exact TileMems.side_setSide_same ..
  refine ⟨fun i w hi => ?_, fun b hb => ?_, fun j hj => ?_, ?_, ha, hs, hc⟩
  · have inside : i < l.length := (List.getElem?_eq_some_iff.mp hi).1
    rw [TileSt.spWord, TileSt.readN, Memory.readLE, side, Memory.readBytes_writeBytes_part _ _ _ _ _ (by omega), Nat.mul_comm 4 i,
      drop_take_flatMap_leBytes 4 (unsigned 32) l i w hi, leNat_leBytes, Nat.mod_eq_of_lt (by simp only [unsigned]; omega),
      signed_unsigned_word (hl w (List.mem_of_getElem? hi))]
  · rw [side, Memory.readByte_writeBytes_other _ _ _ _ (by omega)]
  · rw [hm]
    exact TileMems.side_setSide_other _ _ _ _ hj
  · rw [hm]
    exact TileMems.nl_setSide ..

/-! ## Complex results -/

theorem length_cxWords (l : List (Cx × Bool)) : (cxWords l).length = 2 * l.length := by
  simp [cxWords, List.length_flatMap, Nat.mul_comm]

theorem spRange_cxWords {l : List (Cx × Bool)} (h : ∀ z ∈ l, spRange z.1.re ∧ spRange z.1.im) :
    ∀ w ∈ cxWords l, spRange w := by
  intro w hw
  obtain ⟨z, hz, part⟩ := List.mem_flatMap.mp hw
  obtain ⟨re, im⟩ := h z hz
  rcases List.mem_pair.mp part with rfl | rfl
  · exact re
  · exact im

theorem spRange_narrow (z : Cx) (n : Nat) : spRange (z.narrow n).1.re ∧ spRange (z.narrow n).1.im :=
  ⟨spRange_spSat _, spRange_spSat _⟩

/-- R193: a stage has as many outputs as points, and each is a pair of words where the points are. -/
theorem length_fftStage (f : Fft) (a : Nat → Cx) : (fftStage f a).length = 4 ^ f.log4n.toNat := by
  unfold fftStage
  split
  next h => simp [h]
  next => simp

theorem spRange_fftStage (f : Fft) (a : Nat → Cx) (h : spRange (a 0).re ∧ spRange (a 0).im) :
    ∀ z ∈ fftStage f a, spRange z.1.re ∧ spRange z.1.im := by
  intro z hz
  unfold fftStage at hz
  split at hz
  next =>
    obtain rfl := List.mem_singleton.mp hz
    exact h
  next =>
    obtain ⟨i, -, rfl⟩ := List.mem_map.mp hz
    unfold fftPoint
    dsimp only
    split <;> exact spRange_narrow _ _

end Sys2Proof.Machine
end

section
/-! The instructions of the DSP engine (R191 to R195). -/
namespace Sys2Proof.Machine
open Sys2Proof

/-! ## The effect of an instruction that writes words -/

/-- An instruction that changes its tile and then sets HEAD and its flags leaves the rest alone. -/
theorem State.spDone_frame (s : State) (c : Issuing) (g : TileSt → TileSt) (outs : List Int) (ovf : Bool) :
    let t := (s.modTile c.ix g).spDone c outs ovf
    elsewhere s t c.ix ∧ t.tile c.ix = { g (s.tile c.ix) with head := leastHead outs } := by
  obtain ⟨frame, tile⟩ := modTile_numEvents_frame (s.modTile c.ix g) c.ix (fun t => { t with head := leastHead outs }) c.p c.pc c.d
    { ovf := ovf }
  rw [State.tile_modTile_same] at tile
  exact ⟨elsewhere_trans (elsewhere_modTile s c.ix g) frame, tile⟩

section
variable (t : TileSt) (c : Issuing) (reads writes : List Nat)

@[simp] theorem TileSt.setEngine_be (e : Engine) (g : EngineSt) : (t.setEngine e g).be = t.be := by cases e <;> rfl
@[simp] theorem TileSt.setEngine_head (e : Engine) (g : EngineSt) : (t.setEngine e g).head = t.head := by cases e <;> rfl
@[simp] theorem TileSt.launched_be : (t.launched c reads writes).be = t.be := TileSt.setEngine_be ..
@[simp] theorem TileSt.launched_head : (t.launched c reads writes).head = t.head := TileSt.setEngine_head ..
@[simp] theorem TileSt.launched_ctxs : (t.launched c reads writes).ctxs = t.ctxs := TileSt.setEngine_ctxs ..

/-- Words written by an instruction on the scoreboard, whatever they do to BE and HEAD. -/
theorem launched_writes {k : Side} {a n : Nat} {l : List Int} (hl : ∀ w ∈ l, spRange w) (hn : 4 * l.length = n) (be : BitVec 16)
    (head : Nat) (y : TileSt) (hy : y = { (t.launched c reads writes).setSpWords k a l with be := be, head := head }) :
    wordsAt y k a l ∧ onlySpan t y k a n ∧ y.be = be ∧ y.head = head := by
  have mem : y.mem = (t.setSpWords k a l).mem := by
    rw [hy]
    simp only [TileSt.setSpWords, TileSt.write, TileSt.launched_mem]
  obtain ⟨words, span⟩ := wordsAt_setSpWords (y := y) hl hn mem (by rw [hy]; exact TileSt.launched_arr ..)
    (by rw [hy]; exact TileSt.launched_sems ..) (by rw [hy]; exact TileSt.launched_ctxs ..)
  exact ⟨words, span, by rw [hy], by rw [hy]⟩

end

/-! ## What each instruction does once it has passed its checks -/

/-- What an SP instruction leaves that writes `l` to `n` bytes of `k` at `a`, with BE and HEAD at `be` and `head`. -/
def spWrote (u t : State) (ix : Nat) (k : Side) (a n : Nat) (l : List Int) (be : BitVec 16) (head : Nat) : Prop :=
  elsewhere u t ix ∧ wordsAt (t.tile ix) k a l ∧ onlySpan (u.tile ix) (t.tile ix) k a n ∧ (t.tile ix).be = be ∧
    (t.tile ix).head = head

section
variable (u : State) (c : Issuing) (reads writes : List Nat)

theorem launch_spDone {k : Side} {a n : Nat} {l : List Int} (hl : ∀ w ∈ l, spRange w) (hn : 4 * l.length = n)
    (be : BitVec 16 → BitVec 16) (ovf : Bool) :
    spWrote u (((u.launch c reads writes none).modTile c.ix fun t => { t.setSpWords k a l with be := be t.be }).spDone c l ovf)
      c.ix k a n l (be (u.tile c.ix).be) (leastHead l) := by
  obtain ⟨frame, tile⟩ := (u.launch c reads writes none).spDone_frame c (fun t => { t.setSpWords k a l with be := be t.be }) l ovf
  rw [State.tile_launch, TileSt.launched_be] at tile
  exact ⟨elsewhere_trans (elsewhere_launch ..) frame, launched_writes _ c reads writes hl hn _ _ _ tile⟩

theorem launch_setSpWords {k : Side} {a n : Nat} {l : List Int} (hl : ∀ w ∈ l, spRange w) (hn : 4 * l.length = n) :
    spWrote u ((u.launch c reads writes none).modTile c.ix fun t => t.setSpWords k a l) c.ix k a n l (u.tile c.ix).be
      (u.tile c.ix).head := by
  have tile := (u.launch c reads writes none).tile_modTile_same c.ix fun t => t.setSpWords k a l
  rw [State.tile_launch] at tile
  refine ⟨elsewhere_trans (elsewhere_launch ..) (elsewhere_modTile ..), launched_writes _ c reads writes hl hn _ _ _ ?_⟩
  rw [tile, ← TileSt.launched_be _ c reads writes, ← TileSt.launched_head _ c reads writes]
  rfl

/-- An update of a tile is what it makes of that tile. -/
theorem State.modTile_congr {s : State} {i : Nat} (f g : TileSt → TileSt) (h : f (s.tile i) = g (s.tile i)) :
    s.modTile i f = s.modTile i g := congrArg (s.setTile i) h

theorem State.mem_launch : ((u.launch c reads writes none).tile c.ix).mem = (u.tile c.ix).mem := by
  rw [State.tile_launch, TileSt.launched_mem]

end

/-! ## The operands and the words of each instruction -/

/-- R434: an operand that lies in its memory can be a source and the destination at once. -/
theorem operandsOk_inPlace {o : Opnd} (h : operandsOk [o] [] = true) : operandsOk [o] [o] = true := by
  have inside : o.inside = true := by simpa [operandsOk] using h
  simp [operandsOk, inside, Opnd.inPlace]

/-- Where the points of a stage lie, at a unit address of the store (R193). -/
def Fft.points (f : Fft) (a : BitVec 14) : Opnd := Opnd.flat .store (a.toNat * 64) (8 * 4 ^ f.log4n.toNat) 64

/-- The outputs of a stage. -/
def TileSt.fftOut (t : TileSt) (f : Fft) : List (Cx × Bool) := fftStage f fun i => t.cx .store ((f.points f.src).base + 8 * i)

/-- The sources of a multiply-accumulate in X and in Y (R194). -/
def Mac.srcs (f : Mac) : List Opnd :=
  [Opnd.flat .x (4 * f.xa.toNat) (8 * f.n.toNat) 64, Opnd.flat .y (4 * f.ya.toNat) (8 * f.n.toNat) 64]

/-- Where its results go. -/
def Mac.dst (f : Mac) : Opnd :=
  Opnd.flat (if f.dmem then .y else .x) (4 * f.da.toNat) (if f.elem then 8 * f.n.toNat else 8) 64

/-- Its results: one for each product, or their sum. -/
def TileSt.macOut (t : TileSt) (f : Mac) : List (Cx × Bool) :=
  (if f.elem then t.macTerms f else [(t.macTerms f).foldl Cx.add ⟨0, 0⟩]).map fun z => z.narrow (31 + f.shift.toNat)

/-- The words of a block (R195). -/
def TileSt.blkWords (t : TileSt) (f : Blk) : List Int := t.spWords f.opnd.side f.opnd.base f.n.toNat

/-- The amount by which a normalisation shifts. -/
def TileSt.normAmount (t : TileSt) (amt : BitVec 6) (h : Bool) : Int := if h then t.head else Machine.signed 6 amt.toNat

/-- The words that SPEXP writes: BE, or the headroom of each word of the block. -/
def TileSt.expOut (t : TileSt) (f : Blk) (b : Bool) : List Int :=
  if b then [t.be.toInt] else (t.blkWords f).map fun w => (headroom w : Int)

/-- Where SPEXP writes them. -/
def Blk.expDst (f : Blk) (dm : BitVec 2) (da : BitVec 14) (b : Bool) : Opnd :=
  Opnd.flat (memSide dm.toNat) (spAddr dm da) (4 * (if b then 1 else f.n.toNat)) 32

/-! The results depend on the tile's memories, and on BE or HEAD where an instruction names them. -/

section
variable {t v : TileSt} (h : v.mem = t.mem)
include h

theorem TileSt.fftOut_congr (f : Fft) : v.fftOut f = t.fftOut f := by simp only [TileSt.fftOut, TileSt.cx_congr h]
theorem TileSt.macOut_congr (f : Mac) : v.macOut f = t.macOut f := by simp only [TileSt.macOut, TileSt.macTerms_congr h]
theorem TileSt.blkWords_congr (f : Blk) : v.blkWords f = t.blkWords f := by simp only [TileSt.blkWords, TileSt.spWords_congr h]

theorem TileSt.expOut_congr (hb : v.be = t.be) (f : Blk) (b : Bool) : v.expOut f b = t.expOut f b := by
  rw [TileSt.expOut, TileSt.blkWords_congr h, hb, TileSt.expOut]

end

theorem length_fftOut (t : TileSt) (f : Fft) : 4 * (cxWords (t.fftOut f)).length = 8 * 4 ^ f.log4n.toNat := by
  rw [length_cxWords, TileSt.fftOut, length_fftStage]
  omega

theorem spRange_fftOut (t : TileSt) (f : Fft) : ∀ w ∈ cxWords (t.fftOut f), spRange w :=
  spRange_cxWords (spRange_fftStage f _ ⟨t.spRange_spWord .., t.spRange_spWord ..⟩)

theorem length_macOut (t : TileSt) (f : Mac) : 4 * (cxWords (t.macOut f)).length = f.dst.len := by
  have len : f.dst.len = if f.elem then 8 * f.n.toNat else 8 := rfl
  rw [length_cxWords, TileSt.macOut, List.length_map, len]
  split
  next =>
    rw [TileSt.macTerms, List.length_map, List.length_range]
    omega
  next => rfl

theorem spRange_macOut (t : TileSt) (f : Mac) : ∀ w ∈ cxWords (t.macOut f), spRange w := by
  refine spRange_cxWords fun z hz => ?_
  obtain ⟨y, -, rfl⟩ := List.mem_map.mp hz
  exact spRange_narrow _ _

theorem TileSt.length_blkWords (t : TileSt) (f : Blk) : (t.blkWords f).length = f.n.toNat := by
  simp [TileSt.blkWords, TileSt.spWords]

theorem length_expOut (t : TileSt) (f : Blk) (dm : BitVec 2) (da : BitVec 14) (b : Bool) :
    4 * (t.expOut f b).length = (f.expDst dm da b).len := by
  cases b
  · exact congrArg (4 * ·) ((List.length_map _).trans (t.length_blkWords f))
  · rfl

theorem spRange_expOut (t : TileSt) (f : Blk) (b : Bool) : ∀ w ∈ t.expOut f b, spRange w := by
  intro w hw
  cases b
  · obtain ⟨x, -, rfl⟩ := List.mem_map.mp hw
    exact spRange_headroom x
  · obtain rfl := List.mem_singleton.mp hw
    exact spRange_toInt _

/-! ## The instructions, once they have passed their checks -/

section
variable {u : State} {c : Issuing} (hs : (u.tile c.ix).slotsFull c.e = false)
include hs

/-- R193. -/
theorem State.spfft4_wrote {f : Fft} (hl : f.log4n.toNat ≤ 8) (hf : f.shift ≠ 3)
    (hg : f.stage < f.log4n ∨ f.log4n = 0 ∧ f.stage = 0) (ho : operandsOk [f.points f.src] [f.points f.dst] = true)
    (hb : (u.tile c.ix).blocked none (resOf [f.points f.src]) (resOf [f.points f.dst]) = none) :
    let out := cxWords ((u.tile c.ix).fftOut f)
    spWrote u (u.spfft4 c {} f) c.ix .store (f.points f.dst).base (f.points f.dst).len out
      ((u.tile c.ix).be + BitVec.ofNat 16 f.shift.toNat) (leastHead out) := by
  have passes : firstFail [
      (decide (f.log4n.toNat ≤ 8) && f.shift != 3 && (decide (f.stage < f.log4n) || (f.log4n == 0 && f.stage == 0)), rsReserved),
      (operandsOk [f.points f.src] [f.points f.dst], rsAddress)] = none := by
    have shift : (f.shift != 3) = true := bne_iff_ne.mpr hf
    have stage : (decide (f.stage < f.log4n) || (f.log4n == 0 && f.stage == 0)) = true := by simpa using hg
    simp only [firstFail, hl, shift, stage, ho, decide_true, Bool.and_self, if_true]
  let v := u.launch c (resOf [f.points f.src]) (resOf [f.points f.dst]) none
  have runs : u.spfft4 c {} f = (v.modTile c.ix fun t =>
      { t.setSpWords .store (f.points f.dst).base (cxWords ((v.tile c.ix).fftOut f)) with
        be := t.be + BitVec.ofNat 16 f.shift.toNat }).spDone c (cxWords ((v.tile c.ix).fftOut f))
          (((v.tile c.ix).fftOut f).any Prod.snd) := State.dispatchOp_passes passes hs hb
  have same : (v.tile c.ix).fftOut f = (u.tile c.ix).fftOut f := TileSt.fftOut_congr (u.mem_launch ..) f
  rw [runs, same]
  exact launch_spDone u c _ _ (spRange_fftOut _ f) (length_fftOut _ f) (· + BitVec.ofNat 16 f.shift.toNat) _

/-- R194. -/
theorem State.spmac_wrote {f : Mac} (hn : f.n.toNat ≤ 4096) (hx : f.xa.getLsbD 0 = false) (hy : f.ya.getLsbD 0 = false)
    (hd : f.da.getLsbD 0 = false) (ho : operandsOk f.srcs [f.dst] = true)
    (hb : (u.tile c.ix).blocked none (resOf f.srcs) (resOf [f.dst]) = none) :
    let out := cxWords ((u.tile c.ix).macOut f)
    spWrote u (u.spmac c {} f) c.ix f.dst.side f.dst.base f.dst.len out (u.tile c.ix).be (leastHead out) := by
  have passes : firstFail [(decide (f.n.toNat ≤ 4096), rsReserved),
      (!f.xa.getLsbD 0 && !f.ya.getLsbD 0 && !f.da.getLsbD 0 && operandsOk f.srcs [f.dst], rsAddress)] = none := by
    simp only [firstFail, hn, hx, hy, hd, ho, decide_true, Bool.not_false, Bool.and_self, if_true]
  let v := u.launch c (resOf f.srcs) (resOf [f.dst]) none
  have runs : u.spmac c {} f = (v.modTile c.ix fun t => t.setSpWords f.dst.side f.dst.base (cxWords ((v.tile c.ix).macOut f))).spDone c
      (cxWords ((v.tile c.ix).macOut f)) (((v.tile c.ix).macOut f).any Prod.snd) := State.dispatchOp_passes passes hs hb
  have same : (v.tile c.ix).macOut f = (u.tile c.ix).macOut f := TileSt.macOut_congr (u.mem_launch ..) f
  rw [runs, same]
  exact launch_spDone u c _ _ (spRange_macOut _ f) (length_macOut _ f) id _

/-- R195: SPBEXP changes HEAD alone. -/
theorem State.spbexp_heads {f : Blk} (hf : spFieldOk f.mem f.addr = true) (ho : operandsOk [f.opnd] [] = true)
    (hb : (u.tile c.ix).blocked none (resOf [f.opnd]) [] = none) :
    let t := u.spbexp c {} f
    elsewhere u t c.ix ∧ (t.tile c.ix).mem = (u.tile c.ix).mem ∧ (t.tile c.ix).be = (u.tile c.ix).be ∧
      (t.tile c.ix).head = leastHead ((u.tile c.ix).blkWords f) := by
  have passes : firstFail [(spFieldOk f.mem f.addr, rsReserved), (operandsOk [f.opnd] [], rsAddress)] = none := by
    simp only [firstFail, hf, ho, if_true]
  let v := u.launch c (resOf [f.opnd]) [] none
  have runs : u.spbexp c {} f = v.modTile c.ix fun t => { t with head := leastHead (t.blkWords f) } :=
    State.dispatchOp_passes passes hs hb
  rw [runs]
  refine ⟨elsewhere_trans (elsewhere_launch ..) (elsewhere_modTile ..), ?_⟩
  rw [State.tile_modTile_same, State.tile_launch]
  exact ⟨TileSt.launched_mem .., TileSt.launched_be .., by rw [TileSt.blkWords_congr (TileSt.launched_mem ..)]⟩

/-- R195, R228: SPNORM shifts each word of its block in place. -/
theorem State.spnorm_wrote {f : Blk} {amt : BitVec 6} {h : Bool} (hf : spFieldOk f.mem f.addr = true)
    (ho : operandsOk [f.opnd] [] = true) (ha : amt ≠ 0x20) (hh : h = false ∨ amt = 0)
    (hb : (u.tile c.ix).blocked none (resOf [f.opnd]) (resOf [f.opnd]) = none) :
    let k := (u.tile c.ix).normAmount amt h
    let out := ((u.tile c.ix).blkWords f).map fun w => (spShift k w).1
    spWrote u (u.spnorm c {} f amt h) c.ix f.opnd.side f.opnd.base f.opnd.len out ((u.tile c.ix).be - BitVec.ofInt 16 k)
      (leastHead out) := by
  intro k out
  have passes : firstFail [(spFieldOk f.mem f.addr && amt != 0x20 && (!h || amt == 0), rsReserved),
      (operandsOk [f.opnd] [f.opnd], rsAddress)] = none := by
    have amount : (amt != 0x20) = true := bne_iff_ne.mpr ha
    have headed : (!h || amt == 0) = true := by simpa using hh
    simp only [firstFail, hf, amount, headed, operandsOk_inPlace ho, Bool.and_self, if_true]
  let v := u.launch c (resOf [f.opnd]) (resOf [f.opnd]) none
  let shifted (t : TileSt) := (t.blkWords f).map (spShift (t.normAmount amt h))
  have runs : u.spnorm c {} f amt h = (v.modTile c.ix fun t =>
      { t.setSpWords f.opnd.side f.opnd.base ((shifted (v.tile c.ix)).map Prod.fst) with
        be := t.be - BitVec.ofInt 16 ((v.tile c.ix).normAmount amt h) }).spDone c ((shifted (v.tile c.ix)).map Prod.fst)
          ((shifted (v.tile c.ix)).any Prod.snd) := State.dispatchOp_passes passes hs hb
  have amount : (v.tile c.ix).normAmount amt h = k := by
    simp only [TileSt.normAmount, v, State.tile_launch, TileSt.launched_head, k]
  have same : (shifted (v.tile c.ix)).map Prod.fst = out := by
    simp only [shifted, amount, TileSt.blkWords_congr (u.mem_launch c _ _), v, List.map_map, out, Function.comp_def]
  rw [runs, same, amount]
  refine launch_spDone u c _ _ (fun w hw => ?_) ?_ (· - BitVec.ofInt 16 k) _
  · obtain ⟨x, -, rfl⟩ := List.mem_map.mp hw
    exact spRange_spShift k x
  · exact congrArg (4 * ·) ((List.length_map _).trans (TileSt.length_blkWords _ f))

/-- R195: SPEXP writes words, and changes neither BE nor HEAD. -/
theorem State.spexp_wrote {f : Blk} {dm : BitVec 2} {da : BitVec 14} {b : Bool} (hf : spFieldOk f.mem f.addr = true)
    (hd : spFieldOk dm da = true) (hn : b = false ∨ f.n = 0) (ho : operandsOk [f.opnd] [f.expDst dm da b] = true)
    (hb : (u.tile c.ix).blocked none (resOf [f.opnd]) (resOf [f.expDst dm da b]) = none) :
    spWrote u (u.spexp c {} f dm da b) c.ix (f.expDst dm da b).side (f.expDst dm da b).base (f.expDst dm da b).len
      ((u.tile c.ix).expOut f b) (u.tile c.ix).be (u.tile c.ix).head := by
  have passes : firstFail [(spFieldOk f.mem f.addr && spFieldOk dm da && (!b || f.n == 0), rsReserved),
      (operandsOk [f.opnd] [f.expDst dm da b], rsAddress)] = none := by
    have empty : (!b || f.n == 0) = true := by simpa using hn
    simp only [firstFail, hf, hd, empty, ho, Bool.and_self, if_true]
  let v := u.launch c (resOf [f.opnd]) (resOf [f.expDst dm da b]) none
  have runs : u.spexp c {} f dm da b = v.modTile c.ix fun t =>
      t.setSpWords (f.expDst dm da b).side (f.expDst dm da b).base (t.expOut f b) := State.dispatchOp_passes passes hs hb
  have same : (v.tile c.ix).expOut f b = (u.tile c.ix).expOut f b :=
    TileSt.expOut_congr (u.mem_launch ..) (by rw [State.tile_launch, TileSt.launched_be]) f b
  rw [runs, State.modTile_congr _ (fun t => t.setSpWords _ _ ((u.tile c.ix).expOut f b))
    (congrArg ((v.tile c.ix).setSpWords _ _) same)]
  exact launch_setSpWords u c _ _ (spRange_expOut _ f b) (length_expOut _ f dm da b)

end

/-! ## The instructions as their meanings -/

section
variable {s u : State} {tile : TileId} {e : Engine} {c : Issuing}

theorem exec_spfft4 {f : Fft} (h : issuesTo s tile e (.spfft4 f) c u) : exec (.spfft4 tile e {}) s = .next (u.spfft4 c {} f) :=
  congrArg Host.Outcome.next (issueOp_of_issuesTo h fun c i s => match i with
    | .spfft4 f => s.spfft4 c {} f
    | _ => s)

theorem exec_spmac {f : Mac} (h : issuesTo s tile e (.spmac f) c u) : exec (.spmac tile e {}) s = .next (u.spmac c {} f) :=
  congrArg Host.Outcome.next (issueOp_of_issuesTo h fun c i s => match i with
    | .spmac f => s.spmac c {} f
    | _ => s)

theorem exec_spbexp {f : Blk} (h : issuesTo s tile e (.spbexp f) c u) : exec (.spbexp tile e {}) s = .next (u.spbexp c {} f) :=
  congrArg Host.Outcome.next (issueOp_of_issuesTo h fun c i s => match i with
    | .spbexp f => s.spbexp c {} f
    | _ => s)

theorem exec_spnorm {f : Blk} {amt : BitVec 6} {b : Bool} (h : issuesTo s tile e (.spnorm f amt b) c u) :
    exec (.spnorm tile e {}) s = .next (u.spnorm c {} f amt b) :=
  congrArg Host.Outcome.next (issueOp_of_issuesTo h fun c i s => match i with
    | .spnorm f amt b => s.spnorm c {} f amt b
    | _ => s)

theorem exec_spexp {f : Blk} {dm : BitVec 2} {da : BitVec 14} {b : Bool} (h : issuesTo s tile e (.spexp f dm da b) c u) :
    exec (.spexp tile e {}) s = .next (u.spexp c {} f dm da b) :=
  congrArg Host.Outcome.next (issueOp_of_issuesTo h fun c i s => match i with
    | .spexp f dm da b => s.spexp c {} f dm da b
    | _ => s)

end

/-- Settles O31: each instruction by what it wrote, or by the HEAD that it set. -/
theorem spInstructionsWriteBlocksAndHeadroom : Obligations.SpInstructionsWriteBlocksAndHeadroom := by
  intro s u tile e c x
  refine ⟨?_, ?_, ?_⟩
  · intro f h hl hf hg src dst ho hb out
    exact ⟨_, exec_spfft4 h, State.spfft4_wrote (slot_of_issuesTo h) hl hf hg ho hb⟩
  · intro f h hn hx hy hd a b dst ho hb out
    exact ⟨_, exec_spmac h, State.spmac_wrote (slot_of_issuesTo h) hn hx hy hd ho hb⟩
  · intro f hf ho l
    refine ⟨?_, ?_, ?_⟩
    · intro h hb
      exact ⟨_, exec_spbexp h, State.spbexp_heads (slot_of_issuesTo h) hf ho hb⟩
    · intro amt hh h ha hu hb k out
      exact ⟨_, exec_spnorm h, State.spnorm_wrote (slot_of_issuesTo h) hf ho ha hu hb⟩
    · intro dm da b h hd hn dst ho hb
      exact ⟨_, exec_spexp h, State.spexp_wrote (slot_of_issuesTo h) hf hd hn ho hb⟩

end Sys2Proof.Machine
end

section
/-! The streams RGET, RPUT and RGATHER take their context (R196, R198, R199, R239, R241). -/
namespace Sys2Proof.Machine
open Sys2Proof

/-! ## A record, a context and a hub unit -/

section
variable {s : State} {c : Issuing}

/-- R176: a record whose region has no pending writer is read at once. -/
theorem State.withRecord_reads (a : Nat) (body : Nat → State)
    (h : ∀ q ∈ regionsOf a 64, ((s.tile c.ix).pendWrites none).contains q = false) :
    s.withRecord c a body = body ((s.tile c.ix).readN .store a 64) := by
  have quiet : (regionsOf a 64).find? (fun r => ((s.tile c.ix).pendWrites none).contains r) = none :=
    List.find?_eq_none.mpr fun q hq => Bool.eq_false_iff.mp (h q hq)
  simp only [State.withRecord, quiet]

/-- The state in which a stream has taken context `ci`, and hub check unit `hub` where that is not 0. -/
def State.takesCtx (s : State) (c : Issuing) (reads : List Nat) (ci hub : Nat) (k : CtxSt) : State :=
  let v := (s.launch c reads [] (some ci)).modTile c.ix fun t => { t with ctxs := Table.put t.ctxs ci k }
  if hub = 0 then v else v.modCrcUnit (hub - 1) fun u => { u with owner := some (c.ix, ci) }

/-- R153, R155, R196, R241: with a slot, its operands, its context and its hub unit free, a stream takes them and goes on. -/
theorem State.issueCtx_takes {reads : List Nat} {ci hub : Nat} (k : CtxSt) (hs : (s.tile c.ix).slotsFull c.e = false)
    (hb : (s.tile c.ix).blocked none reads [] = none) (hc : (s.tile c.ix).ctx? ci = none)
    (hh : hub = 0 ∨ (s.crcUnit (hub - 1)).owner = none ∧ s.regN (crcCtrlAddr (hub - 1)) % 8 ≠ 0) :
    s.issueCtx c reads ci hub k = ((s.takesCtx c reads ci hub k).settle c.tile).ctxEnd c.tile ci := by
  have free : (hub != 0 && ((s.crcUnit (hub - 1)).owner.isSome || s.regN (crcCtrlAddr (hub - 1)) % 8 == 0)) = false := by
    rcases hh with hz | ⟨owner, ctrl⟩
    · simp [hz]
    · simp [owner, ctrl]
  simp only [State.issueCtx, hs, hb, hc, free, Option.isSome_none, Bool.false_eq_true, if_false]
  rfl

end

/-! ## RGET and RPUT (R198) -/

/-- The context of a stream with record `r`. -/
def Stream.ctxOf (f : Stream) (get : Bool) (pc : Nat) (r : StreamRec) : CtxSt :=
  let n := ceilDiv r.length (2 ^ f.chunk.toNat)
  { kind := if get then .get else .put, pc := pc, rcd := r, laddr := f.laddr.toNat * 64, recAddr := f.rcd.toNat * 64
    chunkLog2 := f.chunk.toNat, slots := f.slots.toNat, bind := f.bind, empty := f.empty.toNat, full := f.full.toNat
    total := if f.bind then max 1 n else n, crc := r.crc }

section
variable {u : State} {c : Issuing}

/-- R198, R234: a stream whose fields and whose record pass takes its context. -/
theorem State.stream_takes {f : Stream} {get : Bool} (hf : streamFieldsOk f = true)
    (hp : ∀ q ∈ regionsOf (f.rcd.toNat * 64) 64, ((u.tile c.ix).pendWrites none).contains q = false)
    (hr : streamRecOk get ((u.tile c.ix).readN .store (f.rcd.toNat * 64) 64) = true)
    (hi : (streamRecOf ((u.tile c.ix).readN .store (f.rcd.toNat * 64) 64)).inside f = true) :
    let r := streamRecOf ((u.tile c.ix).readN .store (f.rcd.toNat * 64) 64)
    u.stream c {} get f = u.issueCtx c (regionsOf (f.rcd.toNat * 64) 64) f.ctx.toNat r.hub (f.ctxOf get c.pc r) := by
  simp only [State.stream, hf, Bool.not_true, Bool.false_eq_true, if_false, State.withRecord_reads _ _ hp, hr, hi,
    State.underUpset_none]
  rfl

variable {s : State} {tile : TileId} {e : Engine}

theorem exec_stream {f : Stream} {get : Bool} (h : issuesTo s tile e (if get then .rget f else .rput f) c u) :
    exec (if get then .rget tile e {} else .rput tile e {}) s = .next (u.stream c {} get f) := by
  cases get
  · exact congrArg Host.Outcome.next (issueOp_of_issuesTo h fun c i s => match i with
      | .rput f => s.stream c {} false f
      | _ => s)
  · exact congrArg Host.Outcome.next (issueOp_of_issuesTo h fun c i s => match i with
      | .rget f => s.stream c {} true f
      | _ => s)

/-! ## RGATHER (R199, R239) -/

/-- The context of a gather with record `w`. -/
def Gather.ctxOf (f : Gather) (pc w : Nat) : CtxSt :=
  { kind := .gather, pc := pc, rcd := { base := bits w 0 57, prefetch := bits w 160 5, tmem := bits w 168 2 }
    laddr := f.laddr.toNat * 64, recAddr := f.rcd.toNat * 64, total := f.nrows.toNat, idx := f.idx.toNat * 64
    rowBytes := f.rowb.toNat * 64, tstride := bits w 64 64, trows := bits w 128 32 }

/-- The regions that a gather reads: its record and its indexes. -/
def Gather.reads (f : Gather) : List Nat :=
  dedup (regionsOf (f.rcd.toNat * 64) 64 ++ regionsOf (f.idx.toNat * 64) (4 * f.nrows.toNat))

/-- Its rows fit their memory, its indexes the store, and the two do not meet there. -/
def Gather.fits (f : Gather) (tmem : Nat) : Prop :=
  f.laddr.toNat * 64 + f.nrows.toNat * (f.rowb.toNat * 64) ≤ sideSize tmem ∧ f.idx.toNat * 64 + 4 * f.nrows.toNat ≤ 1048576 ∧
    (tmem = 0 → spansMeet (f.laddr.toNat * 64) (f.nrows.toNat * (f.rowb.toNat * 64)) (f.idx.toNat * 64) (4 * f.nrows.toNat) = false)

/-- R199, R239: a gather whose fields and whose record pass takes its context. -/
theorem State.gather_takes {f : Gather} (hn : f.nrows.toNat ≤ 65536)
    (hp : ∀ q ∈ regionsOf (f.rcd.toNat * 64) 64, ((u.tile c.ix).pendWrites none).contains q = false)
    (hr : gatherRecOk ((u.tile c.ix).readN .store (f.rcd.toNat * 64) 64) = true)
    (hf : f.fits (bits ((u.tile c.ix).readN .store (f.rcd.toNat * 64) 64) 168 2)) :
    u.gather c {} f = u.issueCtx c f.reads f.ctx.toNat 0 (f.ctxOf c.pc ((u.tile c.ix).readN .store (f.rcd.toNat * 64) 64)) := by
  unfold State.gather
  rw [if_neg (Nat.not_lt.mpr hn)]
  dsimp only
  rw [State.withRecord_reads _ _ hp]
  generalize (u.tile c.ix).readN .store (f.rcd.toNat * 64) 64 = w at hr hf ⊢
  obtain ⟨rows, indexes, apart⟩ := hf
  have passes : (decide (sideSize (bits w 168 2) < f.laddr.toNat * 64 + f.nrows.toNat * (f.rowb.toNat * 64)) ||
      decide (1048576 < f.idx.toNat * 64 + 4 * f.nrows.toNat) || (bits w 168 2 == 0 &&
        spansMeet (f.laddr.toNat * 64) (f.nrows.toNat * (f.rowb.toNat * 64)) (f.idx.toNat * 64) (4 * f.nrows.toNat))) = false := by
    simpa [rows, indexes] using apart
  simp only [hr, passes, Bool.not_true, Bool.false_eq_true, if_false, State.underUpset_none]
  rfl

theorem exec_rgather {f : Gather} (h : issuesTo s tile e (.rgather f) c u) :
    exec (.rgather tile e {}) s = .next (u.gather c {} f) :=
  congrArg Host.Outcome.next (issueOp_of_issuesTo h fun c i s => match i with
    | .rgather f => s.gather c {} f
    | _ => s)

end

/-- Settles O32: the checks by `stream_takes` and `gather_takes`, the context and the hub unit by `issueCtx_takes`. -/
theorem streamsTakeTheirContext : Obligations.StreamsTakeTheirContext := by
  intro s u tile e c x taken
  refine ⟨?_, ?_⟩
  · intro f get h hf ra r hp hr hi hh hb hc n v
    obtain ⟨rfl, -, rfl⟩ := names_of_issuesTo h
    rw [exec_stream h, State.stream_takes hf hp hr hi, State.issueCtx_takes _ (slot_of_issuesTo h) hb hc hh]
    rfl
  · intro f h hn ra w res hp hr hl hi ha hb hc
    obtain ⟨rfl, -, rfl⟩ := names_of_issuesTo h
    rw [exec_rgather h, State.gather_takes hn hp hr ⟨hl, hi, ha⟩,
      State.issueCtx_takes (reads := f.reads) _ (slot_of_issuesTo h) hb hc (.inl rfl)]
    rfl

end Sys2Proof.Machine
end

section
/-! RSEND within the Pack, through a flow and to a tile outside it; RMCAST (R200, R319, R325). -/
namespace Sys2Proof.Machine
open Sys2Proof

/-! ## Transactions counted (R258) -/

/-- Only counts of transactions, and the latencies drawn for them, differ. -/
def netCounted (s t : State) : Prop := ∃ p n, t = { s with paging := p, fresh := n }

theorem netCounted_netOne (s : State) (ini rd wr : Nat) : netCounted s (s.netOne ini rd wr) :=
  ⟨(s.netOne ini rd wr).paging, (s.netOne ini rd wr).fresh, rfl⟩

theorem netCounted_foldl (s : State) (f : State → Nat → State) (hf : ∀ t n, netCounted t (f t n)) (l : List Nat) :
    netCounted s (l.foldl f s) := by
  refine List.foldlRecOn (motive := netCounted s) l f ⟨s.paging, s.fresh, rfl⟩ fun v hv n _ => ?_
  obtain ⟨p, k, rfl⟩ := hv
  exact hf _ n

theorem netCounted_netReads (s : State) (ini : Nat) (l : List Nat) : netCounted s (s.netReads ini l) :=
  netCounted_foldl s _ (fun t n => netCounted_netOne t ini n 0) l

theorem netCounted_netWrites (s : State) (ini : Nat) (l : List Nat) : netCounted s (s.netWrites ini l) :=
  netCounted_foldl s _ (fun t n => netCounted_netOne t ini 0 n) l

/-- R258: counting transactions leaves every tile, the memories, the registers and what runs alone. -/
theorem netCounted.frame {s t : State} (h : netCounted s t) : (∀ j, t.tile j = s.tile j) ∧ (∀ ix, oneTile s t ix) ∧
    t.links = s.links ∧ ∀ x, t.owner x = s.owner x := by
  obtain ⟨p, n, rfl⟩ := h
  exact ⟨fun _ => rfl, fun _ => ⟨rfl, rfl, rfl, rfl, fun _ _ => rfl⟩, rfl, fun _ => rfl⟩

/-! ## The checks of an RSEND -/

section
variable (u : State) (c : Issuing) (f : Send)

/-- The index of the tile that an RSEND within the Pack names. -/
def State.sendTarget : Nat := ((u.shape c.p).at f.col.toNat f.row.toNat).ix

/-- COMB is 0 on grade B (R200). -/
def State.sendGrade : Bool :=
  !((match u.mod.grade with
    | .a => false
    | .b => true) && f.comb != 0)

/-- An RSEND's source and target fit the tile store, and do not meet in part where they lie in one tile (R200). -/
def State.sendFits : Bool :=
  decide (f.laddr.toNat * 64 + f.bytes.toNat ≤ 1048576) && decide (f.raddr.toNat * 64 + f.bytes.toNat ≤ 1048576) &&
    !((!f.via && u.sendTarget c f == c.ix) && f.laddr.toNat * 64 != f.raddr.toNat * 64 &&
      spansMeet (f.laddr.toNat * 64) f.bytes.toNat (f.raddr.toNat * 64) f.bytes.toNat)

/-- The flow is one that the descriptor may use, or the target lies in the Pack (R200, R314). -/
def State.sendReaches : Bool :=
  if f.via then u.mayUse c.d f.flow.toNat
  else decide (f.col.toNat < (u.shape c.p).width) && decide (f.row.toNat < (u.shape c.p).height)

theorem State.sendReaches_within (hv : f.via = false) :
    u.sendReaches c f = true ↔ f.col.toNat < (u.shape c.p).width ∧ f.row.toNat < (u.shape c.p).height := by
  simp [State.sendReaches, hv]

/-- The values of an RSEND that are not reserved (R200). -/
def Send.fieldsOk : Bool :=
  decide (f.bytes.toNat ≤ 1048576) && f.bytes.toNat % 64 == 0 && f.comb != 3 && (f.via || f.flow == 0)

/-- The checks of an RSEND in their order, with their reasons. -/
def State.sendChecks : List (Bool × Nat) :=
  [(f.fieldsOk, rsReserved), (u.sendGrade f, rsAbsent), (u.sendFits c f, rsAddress), (u.sendReaches c f, rsOutside)]

/-- R176, R200: an RSEND that fails a check is skipped. -/
theorem State.send_skips (r : Nat) (h : firstFail (u.sendChecks c f) = some r) : u.send c {} f = u.skip c r := by
  unfold State.send
  dsimp only
  split
  next x hx =>
    obtain rfl : r = x := Option.some.inj (h.symm.trans hx)
    rfl
  next hx => cases h.symm.trans hx

/-- R153, R155, R200: an RSEND that passes its checks takes effect once a slot, its source and a context are free. -/
theorem State.send_takesEffect (h : firstFail (u.sendChecks c f) = none) (hs : (u.tile c.ix).slotsFull c.e = false)
    (hb : (u.tile c.ix).blocked none (regionsOf (f.laddr.toNat * 64) f.bytes.toNat) [] = none)
    (hc : (u.tile c.ix).freeCtx.isSome = true) : u.send c {} f = u.sendEffect c f := by
  have context : (u.tile c.ix).freeCtx.isNone = false := by rw [← Option.not_isSome, hc]; rfl
  unfold State.send
  dsimp only
  split
  next x hx => cases h.symm.trans hx
  next =>
    rw [State.underUpset_none]
    simp only [hs, hb, context, Bool.false_eq_true, if_false]

end

section
variable {u : State} {c : Issuing} {f : Send}

theorem Send.fieldsOk_of (hn : f.bytes.toNat ≤ 1048576) (hm : f.bytes.toNat % 64 = 0) (hc : f.comb ≠ 3)
    (hv : f.via = true ∨ f.flow = 0) : f.fieldsOk = true := by
  have comb : (f.comb != 3) = true := bne_iff_ne.mpr hc
  have flow : (f.via || f.flow == 0) = true := by simpa using hv
  simp only [Send.fieldsOk, hn, hm, comb, flow, decide_true, beq_self_eq_true, Bool.and_self]

theorem State.sendGrade_of (h : f.comb = 0 ∨ u.mod.grade = .a) : u.sendGrade f = true := by
  rcases h with h | h <;> simp [State.sendGrade, h]

theorem State.sendFits_of (hl : f.laddr.toNat * 64 + f.bytes.toNat ≤ 1048576) (hr : f.raddr.toNat * 64 + f.bytes.toNat ≤ 1048576)
    (h : f.via = true ∨ u.sendTarget c f ≠ c.ix ∨ f.laddr = f.raddr ∨
      spansMeet (f.laddr.toNat * 64) f.bytes.toNat (f.raddr.toNat * 64) f.bytes.toNat = false) : u.sendFits c f = true := by
  rcases h with h | h | h | h <;> simp [State.sendFits, hl, hr, h]

/-- What an RSEND that passes its first three checks fails. -/
theorem State.firstFail_sendChecks (hf : f.fieldsOk = true) (hg : u.sendGrade f = true) (ha : u.sendFits c f = true) :
    firstFail (u.sendChecks c f) = if u.sendReaches c f then none else some rsOutside := by
  simp only [State.sendChecks, firstFail, hf, hg, ha, if_true]

end

/-! ## An RSEND within the Pack (R200) -/

/-- What an RSEND within the Pack leaves: its bytes at tile `i`, its engine one instruction further, and all else as it was. -/
def sentWithin (u t : State) (c : Issuing) (f : Send) (i : Nat) : Prop :=
  (t.tile i).read .store (f.raddr.toNat * 64) f.bytes.toNat = (u.tile c.ix).read .store (f.laddr.toNat * 64) f.bytes.toNat ∧
  (∀ a, a < f.raddr.toNat * 64 ∨ f.raddr.toNat * 64 + f.bytes.toNat ≤ a →
    (t.tile i).mem.store.readByte a = (u.tile i).mem.store.readByte a) ∧
  (t.tile c.ix).engine c.e = ((u.tile c.ix).engine c.e).advance ∧ (t.tile c.ix).flights = (u.tile c.ix).flights ∧
  (i ≠ c.ix → (t.tile c.ix).mem = (u.tile c.ix).mem) ∧ (∀ j, j ≠ c.ix → j ≠ i → t.tile j = u.tile j) ∧
  t.hbm = u.hbm ∧ t.host = u.host ∧ t.regs = u.regs ∧ t.links = u.links

section
variable (u : State) (c : Issuing) (f : Send)

theorem TileSt.write_engine (t : TileSt) (k : Side) (a : Nat) (b : List Byte) (e : Engine) : (t.write k a b).engine e = t.engine e := by
  cases e <;> rfl

/-- The engine of a tile that has sent goes on. -/
theorem sentWithin_advance (w : State) (i : Nat) (b : List Byte) (hb : b = (u.tile c.ix).read .store (f.laddr.toNat * 64) f.bytes.toNat)
    (target : w.tile i = (u.tile i).write .store (f.raddr.toNat * 64) b) (others : ∀ j, j ≠ i → w.tile j = u.tile j)
    (hm : w.hbm = u.hbm ∧ w.host = u.host ∧ w.regs = u.regs ∧ w.links = u.links) : sentWithin u (w.advance c) c f i := by
  have length : b.length = f.bytes.toNat := by rw [hb, TileSt.read, Memory.length_readBytes]
  have sender : (w.tile c.ix).engine c.e = (u.tile c.ix).engine c.e ∧ (w.tile c.ix).flights = (u.tile c.ix).flights := by
    by_cases h : c.ix = i
    · rw [h, target]
      exact ⟨TileSt.write_engine .., rfl⟩
    · rw [others _ h]
      exact ⟨rfl, rfl⟩
  have mem (j : Nat) : ((w.advance c).tile j).mem = (w.tile j).mem := by
    by_cases h : j = c.ix
    · rw [h, State.advance, State.modEngine, State.tile_modTile_same, TileSt.setEngine_mem]
    · rw [State.advance, State.modEngine, State.tile_modTile_other _ _ _ _ h]
  obtain ⟨engine, flights⟩ := sender
  refine ⟨?_, fun a ha => ?_, ?_, ?_, fun hi => ?_, fun j hc hi => ?_, hm⟩
  · rw [TileSt.read, mem, target, ← hb, ← length]
    exact Memory.readBytes_writeBytes_same ..
  · rw [mem, target]
    exact Memory.readByte_writeBytes_other _ _ _ _ (length ▸ ha)
  · rw [State.advance, State.modEngine, State.tile_modTile_same, TileSt.engine_setEngine_same, engine]
  · rw [State.advance, State.modEngine, State.tile_modTile_same, TileSt.setEngine_flights, flights]
  · rw [mem, others _ hi.symm]
  · rw [State.advance, State.modEngine, State.tile_modTile_other _ _ _ _ hc, others _ hi]

/-- R200: an RSEND within the Pack copies its bytes to the target tile and nothing else. -/
theorem State.sendEffect_within (hv : f.via = false) : sentWithin u (u.sendEffect c f) c f (u.sendTarget c f) := by
  obtain ⟨k, tagged⟩ := u.tagged_frame c
  by_cases hn : f.bytes.toNat = 0
  · have runs : u.sendEffect c f = (u.tagged c).advance c := by simp only [State.sendEffect, hn, if_true]
    rw [runs, tagged]
    exact sentWithin_advance u c f _ _ [] (by rw [hn]; rfl) rfl (fun _ _ => rfl) ⟨rfl, rfl, rfl, rfl⟩
  · obtain ⟨p, n, counted⟩ := netCounted_netWrites (u.tagged c) (u.siteOf c.tile).ix (spanSizes f.bytes.toNat)
    let b := (u.tile c.ix).read .store (f.laddr.toNat * 64) f.bytes.toNat
    have runs : u.sendEffect c f = (((u.tagged c).netWrites (u.siteOf c.tile).ix (spanSizes f.bytes.toNat)).modTile
        (u.sendTarget c f) fun t => t.write .store (f.raddr.toNat * 64) b).advance c := by
      simp only [State.sendEffect, hn, hv, Bool.not_false, if_false, if_true]
      rfl
    rw [runs, counted, tagged]
    exact sentWithin_advance u c f _ _ b rfl (State.tile_modTile_same ..) (fun j hj => State.tile_modTile_other _ _ _ _ hj)
      ⟨rfl, rfl, rfl, rfl⟩

end

/-! ## RMCAST (R200, R325) -/

section
variable (u : State) (c : Issuing) (f : Mcast)

/-- What an RMCAST that passes its checks does, a slot and its source free. -/
def State.mcastEffect : State :=
  if !((u.group f.group.toNat).root && (u.group f.group.toNat).enabled) then
    ((u.tagged c).taint c.tile c.e.num c.pc rsAddress c.word).advance c
  else if f.bytes.toNat = 0 || (u.group f.group.toNat).branches.isEmpty then (u.tagged c).advance c
  else match (u.tile c.ix).freeCtx with
    | none => u.holdAt c (.issue resAnyCtx)
    | some ci => if (u.groupRun f.group.toNat).owner.isSome then u.holdAt c (.issue resAnyCtx) else u.mcastStart c f ci

theorem State.mcast_takesEffect (hn : f.bytes.toNat ≤ 1048576) (hm : f.bytes.toNat % 64 = 0)
    (hl : f.laddr.toNat * 64 + f.bytes.toNat ≤ 1048576) (hr : f.raddr.toNat * 64 + f.bytes.toNat ≤ 1048576)
    (hs : (u.tile c.ix).slotsFull c.e = false)
    (hb : (u.tile c.ix).blocked none (regionsOf (f.laddr.toNat * 64) f.bytes.toNat) [] = none) :
    u.mcast c {} f = u.mcastEffect c f := by
  have passes : firstFail [(decide (f.bytes.toNat ≤ 1048576) && f.bytes.toNat % 64 == 0, rsReserved),
      (decide (f.laddr.toNat * 64 + f.bytes.toNat ≤ 1048576) && decide (f.raddr.toNat * 64 + f.bytes.toNat ≤ 1048576), rsAddress)] =
      none := by
    simp only [firstFail, hn, hm, hl, hr, decide_true, beq_self_eq_true, Bool.and_self, if_true]
  simp only [State.mcast, passes, State.underUpset_none, hs, hb, Bool.false_eq_true, if_false]
  rfl

/-- R325: a group that this module does not root, or that is disabled, taints the descriptor. -/
theorem State.mcastEffect_notRooted (h : (u.group f.group.toNat).root = false ∨ (u.group f.group.toNat).enabled = false) :
    u.mcastEffect c f = ((u.tagged c).taint c.tile c.e.num c.pc rsAddress c.word).advance c := by
  have notRooted : (!((u.group f.group.toNat).root && (u.group f.group.toNat).enabled)) = true := by
    rcases h with h | h <;> simp [h]
  simp only [State.mcastEffect, notRooted, if_true]

section
variable (root : (u.group f.group.toNat).root = true) (enabled : (u.group f.group.toNat).enabled = true)
include root enabled

/-- R200: without bytes or receivers it completes at once. -/
theorem State.mcastEffect_completes (h : f.bytes = 0 ∨ (u.group f.group.toNat).branches = []) :
    u.mcastEffect c f = (u.tagged c).advance c := by
  rcases h with h | h <;> simp [State.mcastEffect, root, enabled, h]

theorem State.mcastEffect_starts {ci : Nat} (hn : f.bytes ≠ 0) (hb : (u.group f.group.toNat).branches ≠ [])
    (hc : (u.tile c.ix).freeCtx = some ci) (ho : (u.groupRun f.group.toNat).owner = none) :
    u.mcastEffect c f = u.mcastStart c f ci := by
  have bytes : f.bytes.toNat ≠ 0 := fun h => hn (BitVec.eq_of_toNat_eq h)
  simp [State.mcastEffect, root, enabled, bytes, hb, hc, ho]

end

end

theorem exec_rsend {s u : State} {tile : TileId} {e : Engine} {c : Issuing} {f : Send} (h : issuesTo s tile e (.rsend f) c u) :
    exec (.rsend tile e {}) s = .next (u.send c {} f) :=
  congrArg Host.Outcome.next (issueOp_of_issuesTo h fun c i s => match i with
    | .rsend f => s.send c {} f
    | _ => s)

theorem exec_rmcast {s u : State} {tile : TileId} {e : Engine} {c : Issuing} {f : Mcast} (h : issuesTo s tile e (.rmcast f) c u) :
    exec (.rmcast tile e {}) s = .next (u.mcast c {} f) :=
  congrArg Host.Outcome.next (issueOp_of_issuesTo h fun c i s => match i with
    | .rmcast f => s.mcast c {} f
    | _ => s)

/-- Settles O33: an RSEND by its checks and by `sendEffect_within`, an RMCAST by the cases of `mcastEffect`. -/
theorem sendsReachTheirTargets : Obligations.SendsReachTheirTargets := by
  intro s u tile e c x
  refine ⟨?_, ?_⟩
  · intro f h hn hm hcomb hgrade hl hr hctx hb sh target
    obtain ⟨rfl, -, rfl⟩ := names_of_issuesTo h
    have grade : u.sendGrade f = true := State.sendGrade_of hgrade
    have checks (hv : f.via = true ∨ f.flow = 0) (ha : f.via = true ∨ target ≠ c.ix ∨ f.laddr = f.raddr ∨
        spansMeet (f.laddr.toNat * 64) f.bytes.toNat (f.raddr.toNat * 64) f.bytes.toNat = false) :
        firstFail (u.sendChecks c f) = if u.sendReaches c f then none else some rsOutside :=
      State.firstFail_sendChecks (Send.fieldsOk_of hn hm hcomb hv) grade (State.sendFits_of hl hr ha)
    have takes (hp : firstFail (u.sendChecks c f) = none) : exec (.rsend c.tile c.e {}) s = .next (u.sendEffect c f) :=
      (exec_rsend h).trans (congrArg _ (u.send_takesEffect c f hp (slot_of_issuesTo h) hb hctx))
    have skips (hp : firstFail (u.sendChecks c f) = some rsOutside) : exec (.rsend c.tile c.e {}) s = .next (u.skip c 0x09) :=
      (exec_rsend h).trans (congrArg _ (u.send_skips c f _ hp))
    refine ⟨fun hv hflow hcol hrow ha => ?_, fun hv hu => ?_, fun hv hu => ?_, fun hv hflow hout ha => ?_⟩
    · have reaches : u.sendReaches c f = true := (u.sendReaches_within c f hv).mpr ⟨hcol, hrow⟩
      have passes := checks (.inr hflow) (.inr ha)
      rw [reaches] at passes
      exact ⟨_, takes passes, u.sendEffect_within c f hv⟩
    · have passes := checks (.inl hv) (.inl hv)
      simp only [State.sendReaches, hv, hu, if_true] at passes
      exact takes passes
    · have fails := checks (.inl hv) (.inl hv)
      simp only [State.sendReaches, hv, hu, if_true] at fails
      exact skips fails
    · have reaches : u.sendReaches c f = false := by
        refine Bool.eq_false_iff.mpr fun inside => ?_
        obtain ⟨hcol, hrow⟩ := (u.sendReaches_within c f hv).mp inside
        exact hout.elim (Nat.not_le.mpr hcol) (Nat.not_le.mpr hrow)
      have fails := checks (.inr hflow) (.inr (.inl ha))
      rw [reaches] at fails
      exact skips fails
  · intro f h hn hm hl hr hb g
    obtain ⟨rfl, -, rfl⟩ := names_of_issuesTo h
    have runs := (exec_rmcast h).trans (congrArg _ (u.mcast_takesEffect c f hn hm hl hr (slot_of_issuesTo h) hb))
    refine ⟨fun hg => ?_, fun hroot hen => ⟨fun hz => ?_, fun ci hbytes hbranches hc ho => ?_⟩⟩
    · rw [runs, u.mcastEffect_notRooted c f hg]
      rfl
    · rw [u.mcastEffect_completes c f hroot hen hz] at runs
      exact ⟨_, runs, engineOnly_advance u c⟩
    · rw [runs, u.mcastEffect_starts c f hroot hen hbytes hbranches hc ho]

end Sys2Proof.Machine
end

section
/-! SUPPORT. Streams of a tile that cannot go on, and a stream that retires, said once (R159, R161, R196, R198). -/
namespace Sys2Proof.Machine
open Sys2Proof

/-! ## A tile in which nothing settles -/

/-- No engine of a tile is at a WAIT. -/
def TileSt.noWait (t : TileSt) : Prop := ∀ e a b k x, (t.engine e).hold ≠ .wait a b k x

theorem TileSt.noWait_congr {t v : TileSt} (h : t.noWait) (he : ∀ e, v.engine e = t.engine e) : v.noWait := by
  intro e
  rw [he]
  exact h e

/-- No engine of a tile waits, and no stream of it has a chunk to request. -/
def TileSt.still (t : TileSt) : Prop := t.noWait ∧ ∀ e ∈ t.ctxs, e.2.room = false

/-- R159: where no engine is at a WAIT, the test of the waiting engines changes nothing. -/
theorem TileSt.releaseWaits_noWait {t : TileSt} (h : t.noWait) : t.releaseWaits = t := by
  have keeps (e : Engine) : t.releaseWait e = t := by
    unfold TileSt.releaseWait
    split
    · exact absurd ‹_› (h e _ _ _ _)
    · rfl
  simp [TileSt.releaseWaits, engines, keeps]

/-- R236: a stream without room does not go on. -/
theorem State.ctxStep_noRoom (s : State) (x : TileId) (d : Desc) (ci : Nat) (h : ∀ e ∈ (s.tile x.ix).ctxs, e.2.room = false) :
    s.ctxStep x d ci = s := by
  unfold State.ctxStep
  dsimp only
  split
  next => rfl
  next k hk =>
    obtain ⟨e, he, rfl⟩ := Option.map_eq_some_iff.mp hk
    rw [h e (List.mem_of_find?_eq_some he)]
    rfl

/-- R161: in a tile in which no engine waits and no stream has room, nothing settles. -/
theorem State.settle_still (s : State) (x : TileId) (h : (s.tile x.ix).still) :
    elsewhere s (s.settle x) x.ix ∧ (s.settle x).tile x.ix = s.tile x.ix := by
  obtain ⟨waits, room⟩ := h
  have once (v : State) (hv : elsewhere s v x.ix ∧ v.tile x.ix = s.tile x.ix) :
      elsewhere s (v.modTile x.ix TileSt.releaseWaits) x.ix ∧ (v.modTile x.ix TileSt.releaseWaits).tile x.ix = s.tile x.ix := by
    refine ⟨elsewhere_trans hv.1 (elsewhere_modTile v x.ix _), ?_⟩
    rw [State.tile_modTile_same, hv.2, TileSt.releaseWaits_noWait waits]
  have settled := once s ⟨elsewhere_refl s x.ix, rfl⟩
  unfold State.settle
  dsimp only
  split
  · exact settled
  · split
    · exact settled
    next d _ =>
      split
      · exact settled
      · refine List.foldlRecOn (motive := fun v => elsewhere s v x.ix ∧ v.tile x.ix = s.tile x.ix) (List.range 18) _ settled
          fun v hv _ _ => once _ ?_
        refine List.foldlRecOn (motive := fun w => elsewhere s w x.ix ∧ w.tile x.ix = s.tile x.ix) _ _ hv fun w hw ci _ => ?_
        rw [State.ctxStep_noRoom w x d ci (hw.2 ▸ room)]
        exact hw

/-! ## The one stream of a tile -/

section
variable {s : State} {ix ci : Nat} {k : CtxSt}

theorem TileSt.ctx?_one {t : TileSt} (h : t.ctxs = [(ci, k)]) : t.ctx? ci = some k := by simp [TileSt.ctx?, h]

theorem State.tile_modCtx_one (f : CtxSt → CtxSt) (h : (s.tile ix).ctxs = [(ci, k)]) :
    (s.modCtx ix ci f).tile ix = { s.tile ix with ctxs := [(ci, f k)] } := by
  rw [State.modCtx, State.tile_modTile_same, h]
  simp

theorem oneTile_modCtx (f : CtxSt → CtxSt) : oneTile s (s.modCtx ix ci f) ix := oneTile_of_elsewhere (elsewhere_modTile ..)

end

/-- A stream that has nothing left to do, and no check value to give back (R198, R242). -/
structure CtxSt.finished (k : CtxSt) : Prop where
  inflight : k.inflight = []
  fault : k.fault = none
  next : k.next = k.total
  done : k.done = k.total
  poly : k.rcd.poly = 0
  hub : k.rcd.hub = 0

theorem CtxSt.finished.noRoom {k : CtxSt} (h : k.finished) : k.room = false := by simp [CtxSt.room, h.next]

/-- A tile in which no engine waits and whose one stream is `k`. -/
def TileSt.streamsOnly (t : TileSt) (ci : Nat) (k : CtxSt) : Prop := t.noWait ∧ t.ctxs = [(ci, k)]

theorem TileSt.retry_noWait {t : TileSt} (h : t.noWait) : t.retry.noWait := by
  intro e
  rw [TileSt.retry_engine]
  exact EngineSt.retried_noWait _ (h e)

/-- R198: the tile's one stream leaves it, and the engines of the tile try again. -/
theorem TileSt.dropCtx_streamsOnly {t : TileSt} {ci : Nat} {k : CtxSt} (h : t.streamsOnly ci k) :
    (t.dropCtx ci).mem = t.mem ∧ (t.dropCtx ci).arr = t.arr ∧ (t.dropCtx ci).ctxs = [] ∧ (t.dropCtx ci).still := by
  obtain ⟨waits, one⟩ := h
  let v : TileSt := { t with ctxs := Table.erase t.ctxs ci, flights := t.flights.filter fun f => f.ctx != some ci }
  obtain ⟨mem, arr, -, ctxs, -⟩ := v.retry_frame
  have none : (t.dropCtx ci).ctxs = [] := ctxs.trans (by simp [v, one, Table.erase])
  have engine (e : Engine) : v.engine e = t.engine e := by cases e <;> rfl
  refine ⟨mem, arr, none, TileSt.retry_noWait (TileSt.noWait_congr waits engine), fun e he => ?_⟩
  rw [none] at he
  cases he

/-- What a chunk that has gone leads to: the engines of its tile try again, its streams go on, and its own stream may retire. -/
def State.chunkGone (v : State) (tile : TileId) (ci : Nat) : State := ((v.modTile tile.ix TileSt.retry).settle tile).ctxEnd tile ci

/-- R198: a finished stream retires: it leaves its tile, which settles. -/
theorem State.ctxEnd_finished {s : State} {tile : TileId} {ci : Nat} {k : CtxSt} (h : (s.tile tile.ix).ctx? ci = some k)
    (hk : k.finished) : s.ctxEnd tile ci = (s.modTile tile.ix fun t => t.dropCtx ci).settle tile := by
  simp only [State.ctxEnd, h, hk.inflight, hk.fault, hk.next, hk.done, List.isEmpty_nil, Option.isSome_none, Nat.lt_irrefl,
    decide_false, Bool.not_true, Bool.or_self, Bool.false_eq_true, if_false, State.ctxRetire, hk.poly, hk.hub, if_true]

/-- R198: the tile's one stream, finished, leaves it without streams and otherwise as it was. -/
theorem State.chunkGone_retires (v : State) (tile : TileId) (ci : Nat) {k : CtxSt} (h : (v.tile tile.ix).streamsOnly ci k)
    (hk : k.finished) : let t := v.chunkGone tile ci
    oneTile v t tile.ix ∧ (t.tile tile.ix).mem = (v.tile tile.ix).mem ∧ (t.tile tile.ix).arr = (v.tile tile.ix).arr ∧
      (t.tile tile.ix).ctxs = [] := by
  obtain ⟨waits, one⟩ := h
  let w := v.modTile tile.ix TileSt.retry
  obtain ⟨mem, arr, -, ctxs, -⟩ := (v.tile tile.ix).retry_frame
  have tried : w.tile tile.ix = (v.tile tile.ix).retry := State.tile_modTile_same ..
  have only : (w.tile tile.ix).streamsOnly ci k := tried ▸ ⟨TileSt.retry_noWait waits, ctxs.trans one⟩
  have room : ∀ e ∈ (w.tile tile.ix).ctxs, e.2.room = false := by
    intro e he
    rw [only.2, List.mem_singleton] at he
    rw [he]
    exact hk.noRoom
  obtain ⟨settles, same⟩ := w.settle_still tile ⟨only.1, room⟩
  let z := (w.settle tile).modTile tile.ix fun t => t.dropCtx ci
  have dropped : z.tile tile.ix = (w.tile tile.ix).dropCtx ci := by rw [State.tile_modTile_same, same]
  obtain ⟨dmem, darr, none, still⟩ := TileSt.dropCtx_streamsOnly only
  obtain ⟨again, kept⟩ := z.settle_still tile (dropped ▸ still)
  have retires : v.chunkGone tile ci = z.settle tile :=
    State.ctxEnd_finished (same ▸ TileSt.ctx?_one only.2) hk
  have frame := elsewhere_trans (elsewhere_trans (elsewhere_modTile v _ _) settles) (elsewhere_trans (elsewhere_modTile _ _ _) again)
  intro t
  have last : t.tile tile.ix = (w.tile tile.ix).dropCtx ci := by
    rw [show t = z.settle tile from retires, kept, dropped]
  rw [last, dmem, darr, none, tried, mem, arr]
  exact ⟨oneTile_of_elsewhere ((congrArg (elsewhere v · tile.ix) retires).mpr frame), rfl, rfl, rfl⟩

end Sys2Proof.Machine
end

section
/-! Chunks that land and writes that are acknowledged (R198, R236, R247, R293). -/
namespace Sys2Proof.Machine
open Sys2Proof

/-- R96: without an upset an access to a tile's memory takes effect. -/
theorem State.tileUnder_none (s : State) (x : TileId) (effect : State → State) : s.tileUnder x {} effect = effect s := rfl

/-! ## A chunk that waits, lands or is acknowledged (R236, R247, R293) -/

section
variable {s : State} {tile : TileId} {ci : Fin 16} {k : CtxSt} {ch : ChunkSt} {rest : List ChunkSt}

/-- The chunk has left its stream, and its reads are counted. -/
def State.chunkTaken (s : State) (tile : TileId) (ci : Nat) (ch : ChunkSt) (rest : List ChunkSt) : State :=
  (s.modCtx tile.ix ci fun c => { c with inflight := rest }).netReads (s.netTile tile) (ch.segs.map Seg.len)

/-- R236: the stream of the tile has one chunk less in flight, and what runs on the tile stays. -/
theorem State.chunkTaken_frame (ci : Nat) : let v := s.chunkTaken tile ci ch rest
    oneTile s v tile.ix ∧ v.owner tile = s.owner tile ∧ ((s.tile tile.ix).ctxs = [(ci, k)] →
      v.tile tile.ix = { s.tile tile.ix with ctxs := [(ci, { k with inflight := rest })] }) := by
  let w := s.modCtx tile.ix ci fun c => { c with inflight := rest }
  obtain ⟨tiles, frame, -, owner⟩ := (netCounted_netReads w (s.netTile tile) (ch.segs.map Seg.len)).frame
  exact ⟨oneTile_trans (oneTile_modCtx _) (frame _), owner tile, fun h => (tiles _).trans (State.tile_modCtx_one _ h)⟩

/-- What the data of the chunk do: they land, unless they are discarded or lost, or the descriptor has stopped. -/
def State.chunkComes (v : State) (tile : TileId) (ci : Nat) (k : CtxSt) (ch : ChunkSt) : State :=
  match v.owner tile with
  | some d =>
    if ch.discard || !ch.lost.isEmpty || d.phase != .running then v
    else v.tileUnder tile {} fun s => s.chunkLands tile d ci k ch
  | none => v

/-- R236, R247: where the descriptor runs and nothing was lost, the data land, or are dropped where the chunk is discarded. -/
theorem State.chunkComes_eq {v : State} {d : Desc} (ho : v.owner tile = some d) (hp : d.phase = .running) (hl : ch.lost = [])
    (ci : Nat) : v.chunkComes tile ci k ch = if ch.discard then v else v.chunkLands tile d ci k ch := by
  simp [State.chunkComes, ho, hl, hp, State.tileUnder_none]

/-- R256: where no packet was dropped, every place of the chunk is written. -/
theorem ChunkSt.kept_whole (h : ch.lost = []) : ch.kept = (ch.segs, ch.data) := by simp [ChunkSt.kept, h]

variable (hc : (s.tile tile.ix).ctx? ci.val = some k) (hi : k.inflight = ch :: rest)
include hc hi

theorem exec_chunkResident_waits (h : s.chunkDone tile.ix ci.val ch = false) : exec (.chunkResident tile ci {}) s = .next s := by
  refine congrArg Host.Outcome.next ?_
  simp only [hc, hi, h, Bool.not_false, Bool.or_true, if_true]

theorem exec_writeAcknowledged_waits (h : s.chunkDone tile.ix ci.val ch = false) :
    exec (.writeAcknowledged tile ci {}) s = .next s := by
  refine congrArg Host.Outcome.next ?_
  simp only [hc, hi, h, Bool.not_false, Bool.or_true, if_true]

variable (hd : s.chunkDone tile.ix ci.val ch = true)
include hd

/-- R236: the data of an inbound chunk have come. -/
theorem exec_chunkResident_comes (hk : k.kind.inbound = true) : exec (.chunkResident tile ci {}) s = .next
    (((s.chunkTaken tile ci.val ch rest).chunkComes tile ci.val k ch).chunkGone tile ci.val) := by
  refine congrArg Host.Outcome.next ?_
  simp only [hc, hi, hk, hd, Bool.not_true, Bool.or_self, Bool.false_eq_true, if_false]
  rfl

/-- R236: the writes of a chunk are visible. -/
theorem exec_writeAcknowledged_comes {d : Desc} (ho : s.owner tile = some d) (hl : ch.lost = []) (hk : k.kind = .put) :
    exec (.writeAcknowledged tile ci {}) s = .next
      (((((s.writeSegs [d.id] ch.segs ch.data).netWrites (s.netTile tile) (ch.segs.map Seg.len)).countEv (s.netTile tile) 0x00A
        (segsLen ch.segs)).modCtx tile.ix ci.val fun c => { c with
          inflight := rest, done := if ch.discard then c.done else c.done + 1 }).chunkGone tile ci.val) := by
  have outbound : (k.kind.inbound || decide (k.kind = .send) || decide (k.kind = .mcast) ||
      !s.chunkDone tile.ix ci.val ch) = false := by
    rw [hk, hd]
    rfl
  refine congrArg Host.Outcome.next ?_
  simp only [hc, hi, outbound, ho, ChunkSt.kept_whole hl, State.tileUnder_none, Bool.false_eq_true, if_false]
  rfl

end

/-! ## The last chunk of a tile's one stream, in host memory -/

/-- A stream without conversion, check value, hub unit and bound semaphores, of which one chunk is left. -/
structure CtxSt.lastPlain (k : CtxSt) : Prop where
  fault : k.fault = none
  next : k.next = k.total
  done : k.done + 1 = k.total
  conv : k.rcd.conv = 0
  poly : k.rcd.poly = 0
  hub : k.rcd.hub = 0
  bind : k.bind = false

/-- With its last chunk done it is finished. -/
theorem CtxSt.lastPlain.finished {k : CtxSt} (h : k.lastPlain) : { k with inflight := [], done := k.done + 1 : CtxSt }.finished :=
  ⟨rfl, h.fault, h.next, h.done, h.poly, h.hub⟩

section
variable (s : State) (tile : TileId) (d : Desc) (ci : Nat) (k : CtxSt) (ch : ChunkSt)

/-- R198, R240, R241: the bytes of a plain RGET's chunk in host memory go to the tile as they are. -/
theorem State.chunkLands_host {a n : Nat} (hk : k.lastPlain) (hg : k.kind = .get) (hs : ch.segs = [.host a n]) (hn : ch.len = n)
    (hf : s.hostFails a n = false) :
    let v := (s.setFlags d.pack false false).modTile tile.ix fun t =>
      t.write (sideOf k.rcd.tmem) (k.chunkAddr ch.ix) (s.host.mem.readBytes a n)
    s.chunkLands tile d ci k ch = (v.countEv (v.netTile tile) 0x009 n).modCtx tile.ix ci fun k => { k with done := k.done + 1 } := by
  have read : s.readSegs [d.id] ch.peerBytes [.host a n] = (.bytes (s.host.mem.readBytes a n), s) := by
    simp [State.readSegs, State.hostRead, hf]
  have length : (s.host.mem.readBytes a n).take n = s.host.mem.readBytes a n :=
    List.take_of_length_le (Memory.length_readBytes ..).le
  simp only [State.chunkLands, read, State.convertChunk, hk.conv, hk.poly, hk.hub, hk.bind, hg, hs, hn, StreamRec.memBytes,
    State.feed, polyOf, if_true, length, List.isEmpty_cons, reduceCtorEq, Bool.false_eq_true, if_false, Memory.length_readBytes]

/-- R198: such a chunk's bytes stand at their place in the tile, and its stream has one chunk more done. -/
theorem State.chunkLands_frame {a n : Nat} {j : CtxSt} (hk : k.lastPlain) (hg : k.kind = .get) (hs : ch.segs = [.host a n])
    (hn : ch.len = n) (hf : s.hostFails a n = false) (hc : (s.tile tile.ix).ctxs = [(ci, j)]) :
    let t := s.chunkLands tile d ci k ch
    oneTile s t tile.ix ∧ t.tile tile.ix =
      { (s.tile tile.ix).write (sideOf k.rcd.tmem) (k.chunkAddr ch.ix) (s.host.mem.readBytes a n) with
        ctxs := [(ci, { j with done := j.done + 1 })] } := by
  intro t
  let v := (s.setFlags d.pack false false).modTile tile.ix fun t =>
    t.write (sideOf k.rcd.tmem) (k.chunkAddr ch.ix) (s.host.mem.readBytes a n)
  let w := v.countEv (v.netTile tile) 0x009 n
  obtain ⟨flags, sameTiles, -⟩ := accounts_setFlags s d.pack false false
  obtain ⟨counted, sameCount, -⟩ := accounts_countEv v (v.netTile tile) 0x009 n
  have lands : t = w.modCtx tile.ix ci fun k => { k with done := k.done + 1 } := s.chunkLands_host tile d ci k ch hk hg hs hn hf
  have here : w.tile tile.ix = (s.tile tile.ix).write (sideOf k.rcd.tmem) (k.chunkAddr ch.ix) (s.host.mem.readBytes a n) := by
    rw [sameCount, State.tile_modTile_same, sameTiles]
  have works : elsewhere s w tile.ix := elsewhere_trans (flags _) (elsewhere_trans (elsewhere_modTile ..) (counted _))
  rw [lands, State.tile_modCtx_one (k := j) _ (here ▸ hc), here]
  exact ⟨oneTile_trans (oneTile_of_elsewhere works) (oneTile_modCtx _), rfl⟩

/-- R198: when the tile's one stream has its last chunk done, it retires. -/
theorem State.lastChunk_retires (v : State) {k : CtxSt} {y : TileSt} (hk : k.lastPlain) (hy : y.noWait)
    (hv : v.tile tile.ix = { y with ctxs := [(ci, { k with inflight := [], done := k.done + 1 })] }) :
    let t := v.chunkGone tile ci
    oneTile v t tile.ix ∧ (t.tile tile.ix).mem = y.mem ∧ (t.tile tile.ix).arr = y.arr ∧ (t.tile tile.ix).ctxs = [] := by
  have only : (v.tile tile.ix).streamsOnly ci { k with inflight := [], done := k.done + 1 } := by
    rw [hv]
    exact ⟨TileSt.noWait_congr hy fun e => by cases e <;> rfl, rfl⟩
  obtain ⟨frame, mem, arr, ctxs⟩ := v.chunkGone_retires tile ci only hk.finished
  rw [hv] at mem arr
  exact ⟨frame, mem, arr, ctxs⟩

/-- R198: an RGET's last chunk from host memory stands at its place in the tile, and the stream retires. -/
theorem State.getChunk_retires {a n : Nat} (hk : k.lastPlain) (hg : k.kind = .get) (hs : ch.segs = [.host a n]) (hn : ch.len = n)
    (hf : s.hostFails a n = false) (hc : (s.tile tile.ix).ctxs = [(ci, k)]) (hw : (s.tile tile.ix).noWait) :
    let t := ((s.chunkTaken tile ci ch []).chunkLands tile d ci k ch).chunkGone tile ci
    let y := (s.tile tile.ix).write (sideOf k.rcd.tmem) (k.chunkAddr ch.ix) (s.host.mem.readBytes a n)
    oneTile s t tile.ix ∧ (t.tile tile.ix).mem = y.mem ∧ (t.tile tile.ix).arr = y.arr ∧ (t.tile tile.ix).ctxs = [] := by
  intro t y
  let v := s.chunkTaken tile ci ch []
  obtain ⟨leaves, -, left⟩ := State.chunkTaken_frame (s := s) (tile := tile) (k := k) (ch := ch) (rest := []) ci
  have taken : v.tile tile.ix = { s.tile tile.ix with ctxs := [(ci, { k with inflight := [] })] } := left hc
  have host : v.host = s.host := by
    obtain ⟨-, host, -⟩ := leaves
    exact host
  have readable : v.hostFails a n = false := by rw [State.hostFails, host]; exact hf
  obtain ⟨frame, landed⟩ := v.chunkLands_frame tile d ci k ch hk hg hs hn readable (j := { k with inflight := [] }) (by rw [taken])
  have here : (v.chunkLands tile d ci k ch).tile tile.ix =
      { y with ctxs := [(ci, { k with inflight := [], done := k.done + 1 })] } := by
    rw [landed, taken, host]
    rfl
  obtain ⟨retires, rest⟩ := State.lastChunk_retires tile ci _ hk (TileSt.noWait_congr hw fun e => TileSt.write_engine ..) here
  exact ⟨oneTile_trans (oneTile_trans leaves frame) retires, rest⟩

/-- R236: an RPUT's last chunk is in host memory, and the stream retires. -/
theorem State.putChunk_retires {a n : Nat} (hk : k.lastPlain) (hs : ch.segs = [.host a n]) (hn : ch.data.length = n)
    (hd : ch.discard = false) (hc : (s.tile tile.ix).ctxs = [(ci, k)]) (hw : (s.tile tile.ix).noWait) (sizes : List Nat) (m : Nat) :
    let t := ((((s.writeSegs [d.id] ch.segs ch.data).netWrites (s.netTile tile) sizes).countEv (s.netTile tile) 0x00A m).modCtx
      tile.ix ci fun c => { c with inflight := [], done := if ch.discard then c.done else c.done + 1 }).chunkGone tile ci
    t.host.mem = s.host.mem.writeBytes a ch.data ∧ t.hbm = s.hbm ∧ (t.tile tile.ix).ctxs = [] ∧
      (t.tile tile.ix).mem = (s.tile tile.ix).mem ∧ t.regs = s.regs ∧ ∀ j, j ≠ tile.ix → t.tile j = s.tile j := by
  let z := s.hostWriteAs (s.ownerFn [d.id]) a ch.data
  have written : s.writeSegs [d.id] ch.segs ch.data = z := by
    rw [hs, State.writeSegs, Seg.len, List.take_of_length_le hn.le]
    rfl
  rw [written]
  let v := z.netWrites (s.netTile tile) sizes
  let w := v.countEv (s.netTile tile) 0x00A m
  let r := w.modCtx tile.ix ci fun c => { c with inflight := [], done := if ch.discard then c.done else c.done + 1 }
  obtain ⟨sameNet, netted, -⟩ := (netCounted_netWrites z (s.netTile tile) sizes).frame
  obtain ⟨counted, sameTiles, -⟩ := accounts_countEv v (s.netTile tile) 0x00A m
  have here : w.tile tile.ix = s.tile tile.ix := (sameTiles _).trans (sameNet _)
  have done : r.tile tile.ix = { s.tile tile.ix with ctxs := [(ci, { k with inflight := [], done := k.done + 1 })] } := by
    rw [State.tile_modCtx_one _ (here ▸ hc), here, hd]
    rfl
  obtain ⟨retires, mem, -, ctxs⟩ := State.lastChunk_retires tile ci r hk hw done
  have works : oneTile z r tile.ix :=
    oneTile_trans (netted _) (oneTile_trans (oneTile_of_elsewhere (counted _)) (oneTile_modCtx _))
  obtain ⟨hbm, host, regs, -, others⟩ := oneTile_trans works retires
  exact ⟨congrArg HostSt.mem host, hbm, ctxs, mem, regs, others⟩

end

/-- Settles O34: what waits by `chunkDone`, what comes by `chunkComes_eq`, and the last chunk by `getChunk_retires` and
`putChunk_retires`. -/
theorem chunksLandAndTheStreamRetires : Obligations.ChunksLandAndTheStreamRetires := by
  intro s tile ci d k ch rest x s0 goes ho hp hc hi
  refine ⟨fun hw => ⟨exec_chunkResident_waits hc hi hw, exec_writeAcknowledged_waits hc hi hw⟩, fun hd hl => ?_⟩
  have comes (hk : k.kind.inbound = true) : exec (.chunkResident tile ci {}) s = .next
      (goes (if ch.discard then s0 else s0.chunkLands tile d ci.val k ch)) := by
    obtain ⟨-, owner, -⟩ := State.chunkTaken_frame (s := s) (tile := tile) (k := k) (ch := ch) (rest := rest) ci.val
    rw [exec_chunkResident_comes hc hi hd hk, State.chunkComes_eq (owner.trans ho) hp hl]
    rfl
  have acknowledged (hk : k.kind = .put) := exec_writeAcknowledged_comes hc hi hd ho hl hk
  refine ⟨comes, acknowledged, ?_⟩
  intro a n hdis hw hone hrest hfault hnext hdone hconv hpoly hhub hbind hsegs
  subst hrest
  have plain : k.lastPlain := ⟨hfault, hnext, hdone, hconv, hpoly, hhub, hbind⟩
  refine ⟨fun hg hf hn => ?_, fun hput hn => ?_⟩
  · obtain ⟨⟨hbm, host, regs, -, others⟩, mem, arr, ctxs⟩ := s.getChunk_retires tile d ci.val k ch plain hg hsegs hn hf hone hw
    have runs := comes (by rw [hg]; rfl)
    rw [hdis] at runs
    have side := (congrArg (fun m : TileMems => m.side (sideOf k.rcd.tmem)) mem).trans (TileMems.side_setSide_same ..)
    have length := s.host.mem.length_readBytes a n
    refine ⟨_, runs, ?_, fun p hp => ?_, ctxs, arr, congrArg HostSt.mem host, hbm, regs, others⟩
    · have whole := (x.mem.side (sideOf k.rcd.tmem)).readBytes_writeBytes_same (k.chunkAddr ch.ix) (s.host.mem.readBytes a n)
      rw [length] at whole
      exact (congrArg (Memory.readBytes · _ n) side).trans whole
    · exact (congrArg (Memory.readByte · p) side).trans (Memory.readByte_writeBytes_other _ _ _ _ (length.symm ▸ hp))
  · exact ⟨_, acknowledged hput, s.putChunk_retires tile d ci.val k ch plain hsegs hn hdis hone hw _ _⟩

end Sys2Proof.Machine
end

section
/-! Page faults: what the tick that samples one records, and the end of its descriptor (R247, R248, R250). -/
namespace Sys2Proof.Machine
open Sys2Proof

variable (s : State)

/-! ## What a fault record touches (R85, R248) -/

/-- R86, R87: sending a vector writes host memory, or sets a pending bit of a function. -/
theorem State.msixSend_frame (f v : Nat) :
    ∃ h k l, s.msixSend f v = { s with host := h, cnt := k, shep := { s.shep with fns := l } } := by
  rcases s.msixSend_cases f v with ⟨-, h⟩ | ⟨-, h⟩ | ⟨-, -, h⟩
  · exact ⟨_, _, _, h⟩
  · exact ⟨_, _, _, h⟩
  · rw [h, State.msixWrite, State.countEv_eq]
    exact ⟨_, _, _, rfl⟩

/-- R248: a fault is counted and its LOG is raised; host memory takes its record where the ring has an address. -/
theorem State.faultRecord_frame (d : Desc) (x : TileId) (ctx : Nat) (f : PgFault) (chunk : Nat) :
    ∃ g h k l e, s.faultRecord d x ctx f chunk = { s with
        paging := g, host := h, cnt := k, shep := { s.shep with fns := l }, tel := { s.tel with pend := s.tel.pend ++ [e] } } ∧
      g.faults = sat 16 (s.paging.faults + 1) ∧ e.cls = .log ∧ e.code = 0x104 ∧ (s.reg64 0x60200 = 0 → h = s.host) := by
  unfold State.faultRecord
  dsimp only
  split
  case isTrue => exact ⟨_, _, _, _, _, rfl, rfl, rfl, rfl, fun _ => rfl⟩
  case isFalse hbase =>
    split
    case isTrue => exact ⟨_, _, _, _, _, rfl, rfl, rfl, rfl, fun _ => rfl⟩
    case isFalse =>
      generalize hv : State.modPaging _ _ = v
      obtain ⟨h, k, l, sent⟩ := State.msixSend_frame v 0 (bits (s.regN 0x60208) 4 11)
      rw [sent, ← hv]
      simp only [State.modPaging, State.countFault, State.hostWriteAs, State.hostWrite, State.raise]
      exact ⟨_, _, _, _, _, rfl, rfl, rfl, rfl, fun base => absurd base hbase⟩

/-! ## The fault of a context -/

section
variable (ix ci : Nat) (k : CtxSt) (f : CtxSt → CtxSt)

/-- What a stream is after an update of its context. -/
theorem State.ctx?_modCtx_same (h : (s.tile ix).ctx? ci = some k) : ((s.modCtx ix ci f).tile ix).ctx? ci = some (f k) := by
  have found : ∀ l : Table CtxSt, (l.find? fun e => e.1 == ci).map Prod.snd = some k →
      ((l.map fun e => if e.1 = ci then (e.1, f e.2) else e).find? fun e => e.1 == ci).map Prod.snd = some (f k) := by
    intro l
    induction l with
    | nil => simp
    | cons e l ih =>
      by_cases he : e.1 = ci
      · simp only [List.map_cons, List.find?_cons, he, if_true, beq_self_eq_true, Option.map_some, Option.some.injEq]
        exact fun h => congrArg f h
      · simpa only [List.map_cons, List.find?_cons, he, if_false, beq_false_of_ne he] using ih
  rw [State.modCtx, State.tile_modTile_same]
  exact found _ h

theorem State.mem_modCtx : ((s.modCtx ix ci f).tile ix).mem = (s.tile ix).mem := by rw [State.modCtx, State.tile_modTile_same]

end

section
variable {s : State} {tile : TileId} {ci : Fin 16} {d : Desc} {k : CtxSt} {va kind : Nat} {w : Bool}

/-- The fault has been recorded, and its time noted (R248, R250). -/
def State.faultNoted (s : State) (d : Desc) (tile : TileId) (ci va kind : Nat) (w : Bool) (chunk : Nat) : State :=
  (s.faultRecord d tile ci ⟨va, kind, w⟩ chunk).modCtx tile.ix ci fun k => { k with fault := some (va, kind, w, some s.tick.count) }

/-- R248: the fault is counted and logged, its stream knows the time, and the descriptor, the memories of the tile and HBM
are as they were. -/
theorem State.faultNoted_frame (ci chunk : Nat) (hk : (s.tile tile.ix).ctx? ci = some k) :
    let t := s.faultNoted d tile ci va kind w chunk
    t.paging.faults = sat 16 (s.paging.faults + 1) ∧
      (t.tile tile.ix).ctx? ci = some { k with fault := some (va, kind, w, some s.tick.count) } ∧
      (∃ r, r ∈ t.tel.pend ∧ r.cls = .log ∧ r.code = 0x104) ∧ (∀ id, t.desc? id = s.desc? id) ∧
      (t.tile tile.ix).mem = (s.tile tile.ix).mem ∧ t.hbm = s.hbm ∧ t.regs = s.regs ∧ t.mod = s.mod ∧ t.tick = s.tick ∧
      (s.reg64 0x60200 = 0 → t.host = s.host) := by
  obtain ⟨g, h, n, l, e, record, faults, cls, code, host⟩ := s.faultRecord_frame d tile ci ⟨va, kind, w⟩ chunk
  have ctx := (s.faultRecord d tile ci ⟨va, kind, w⟩ chunk).ctx?_modCtx_same tile.ix ci k
    (fun k => { k with fault := some (va, kind, w, some s.tick.count) }) (by rw [record]; exact hk)
  have mem := (s.faultRecord d tile ci ⟨va, kind, w⟩ chunk).mem_modCtx tile.ix ci
    fun k => { k with fault := some (va, kind, w, some s.tick.count) }
  intro t
  refine ⟨?_, ctx, ⟨e, ?_, cls, code⟩, fun id => ?_, mem.trans ?_, ?_, ?_, ?_, ?_, fun base => ?_⟩
  case refine_9 => exact Eq.trans (by simp only [t, State.faultNoted, record]; rfl) (host base)
  all_goals simp only [t, State.faultNoted, record]
  case refine_1 => exact faults
  case refine_2 => exact List.mem_append_right _ (List.mem_singleton.mpr rfl)
  all_goals rfl

section
variable (ho : s.owner tile = some d) (hp : d.phase = .running) (hk : (s.tile tile.ix).ctx? ci.val = some k)
include ho hp hk

/-- R248, R250: the fault is noted at its tick, and with a PAGE_TIMEOUT of 0 ends the descriptor at once. -/
theorem exec_pageFault_samples (hf : k.fault = some (va, kind, w, none)) :
    let v := s.faultNoted d tile ci.val va kind w k.next
    exec (.pageFault tile ci) s = .next (if s.regN 0x60004 = 0 then v.endDesc d.id stPageTimeout else v) := by
  intro v
  obtain ⟨-, -, -, -, -, -, regs, mod, tick, -⟩ := State.faultNoted_frame (d := d) (va := va) (kind := kind) (w := w) ci.val k.next hk
  have timeout : v.regN 0x60004 = s.regN 0x60004 := by
    simp only [State.regN, State.reg, v, regs, mod]
  show Host.Outcome.next _ = _
  simp only [ho, hp, beq_self_eq_true, if_true, State.sampleFault, hk, hf, Option.isSome_none, Bool.false_eq_true, if_false,
    Option.getD_none, ← State.faultNoted.eq_1, Nat.sub_self, Nat.le_zero_eq, ← timeout, v]

theorem exec_pageFaultTimeout (since : Nat) (hf : k.fault = some (va, kind, w, some since)) :
    exec (.pageFaultTimeout tile ci) s =
      .next (if s.regN 0x60004 ≤ s.tick.count - since then s.endDesc d.id stPageTimeout else s) := by
  show Host.Outcome.next _ = _
  simp only [ho, hp, hk, hf, beq_self_eq_true, Bool.true_and, decide_eq_true_eq]

end
end

/-- R90: a descriptor that runs is ended with PAGE_TIMEOUT, and waits for its last transaction. -/
theorem State.endDesc_pageTimeout (d : Desc) (hd : s.desc? d.id = some d) (hp : d.phase = .running) :
    ∃ e, (s.endDesc d.id stPageTimeout).desc? d.id = some e ∧ e.phase = .ending ∧ e.status = 0x23 ∧
      (s.endDesc d.id stPageTimeout).host = s.host ∧ (s.endDesc d.id stPageTimeout).hbm = s.hbm ∧
      (s.endDesc d.id stPageTimeout).regs = s.regs := by
  obtain ⟨e, he, status, phase, host, hbm, regs, -⟩ := s.endDesc_open d.id stPageTimeout d hd (by simp [hp])
  exact ⟨e, he, by rw [phase, if_pos (.inl hp)], status, host, hbm, regs⟩

/-- Settles O35: `faultNoted_frame` for the tick that samples the fault, `endDesc_pageTimeout` for the end. -/
theorem pageFaultsAreReportedAndTimeOut : Obligations.PageFaultsAreReportedAndTimeOut := by
  intro s tile ci d k va kind w ho hd hp hk
  let v := s.faultNoted d tile ci.val va kind w k.next
  obtain ⟨faults, ctx, log, descs, mem, hbm, regs, -, -, host⟩ :=
    State.faultNoted_frame (d := d) (va := va) (kind := kind) (w := w) ci.val k.next hk
  refine ⟨fun hf ht => ?_, fun hf ht => ?_, fun since hf => ⟨fun ht => ?_, fun ht => ?_⟩⟩
  · have samples : exec (.pageFault tile ci) s = .next _ := exec_pageFault_samples ho hp hk hf
    exact ⟨v, by rw [samples, if_neg ht], faults, ⟨_, ctx, rfl⟩, log, (descs d.id).trans hd, mem, hbm, host⟩
  · have samples : exec (.pageFault tile ci) s = .next _ := exec_pageFault_samples ho hp hk hf
    obtain ⟨e, he, phase, status, -, hbm', regs'⟩ := v.endDesc_pageTimeout d ((descs d.id).trans hd) hp
    exact ⟨_, e, by rw [samples, if_pos ht], he, phase, status, hbm'.trans hbm, regs'.trans regs⟩
  · obtain ⟨e, he, phase, status, host, hbm, regs⟩ := s.endDesc_pageTimeout d hd hp
    exact ⟨_, e, by rw [exec_pageFaultTimeout ho hp hk since hf, if_pos ht], he, phase, status, host, hbm, regs⟩
  · rw [exec_pageFaultTimeout ho hp hk since hf, if_neg (Nat.not_le.mpr ht)]

end Sys2Proof.Machine
end

section
/-! BAR2, and the hub check units (R241, R242, R252, R259, R293). -/
namespace Sys2Proof.Machine
open Sys2Proof

/-! ## BAR2 (R252, R293) -/

section
variable (s : State) (off : BitVec 40) (data : List Byte) (len : Nat) (wr : Bool)

/-- What the addresses of a BAR2 access translate to. -/
def State.bar2Segs : Except PgFault (List Seg) :=
  s.xlates (s.regN 0x60010 % 64) wr (piecesOf ((s.reg64 0x60018 + off.toNat) % 2 ^ 57) len)

theorem exec_bar2Access_outside (h : 2 ^ s.host.pcie.bar2 < off.toNat + len) : exec (.bar2Access off wr data len) s = .next s :=
  congrArg Host.Outcome.next (if_pos h)

section
variable (h : off.toNat + len ≤ 2 ^ s.host.pcie.bar2)
include h

theorem exec_bar2Access_faults (e : PgFault) (hx : s.bar2Segs off len wr = .error e) :
    exec (.bar2Access off wr data len) s = .next s.bar2Refuse := by
  refine congrArg Host.Outcome.next ((if_neg (Nat.not_lt.mpr h)).trans ?_)
  rw [← State.bar2Segs, hx]

variable (gs : List Seg) (hx : s.bar2Segs off len wr = .ok gs)
include hx

/-- R252, R293: an access that translates is refused, held or served. -/
theorem exec_bar2Access_translated : exec (.bar2Access off wr data len) s = .next (
    if !allHbm gs then s.bar2Refuse
    else if s.hbm.held then s.modPaging fun p => { p with bar2Held := p.bar2Held ++ [⟨wr, data, len, gs⟩] }
    else s.bar2Serve wr data len gs) := by
  refine congrArg Host.Outcome.next ((if_neg (Nat.not_lt.mpr h)).trans ?_)
  rw [← State.bar2Segs, hx]

end

variable (a n : Nat)

theorem State.bar2Serve_writes (h : data.length = n) :
    s.bar2Serve true data len [.hbm a n] = (s.hbmWrite [] a data).netWrites hubInitiator [n] := by
  simp [State.bar2Serve, Seg.len, List.take_of_length_le (Nat.le_of_eq h)]

/-- The access has ended with bytes for the host, and its reads have been counted (R258). -/
def State.bar2Done (s : State) (n : Nat) (b : List Byte) : State :=
  (s.netReads hubInitiator [n]).modPaging fun p => { p with bar2Data := some b }

theorem State.bar2Done_frame (b : List Byte) : let t := s.bar2Done n b
    t.paging.bar2Data = some b ∧ t.hbm = s.hbm ∧ t.host = s.host ∧ t.tiles = s.tiles ∧ t.regs = s.regs := by
  obtain ⟨p, k, counted⟩ := netCounted_netReads s hubInitiator [n]
  simp only [State.bar2Done, counted]
  exact ⟨rfl, rfl, rfl, rfl, rfl⟩

theorem State.bar2Serve_reads (b : List Byte) (v : State) (h : s.hbmRead [] a n = (some b, v)) :
    s.bar2Serve false data len [.hbm a n] = v.bar2Done n b := by
  simp [State.bar2Serve, State.readSegs, h, State.bar2Done, Seg.len]

/-- R252: an unrecoverable read gives free bytes. -/
theorem State.bar2Serve_unreadable (v : State) (h : s.hbmRead [] a n = (none, v)) :
    s.bar2Serve false data len [.hbm a n] = v.draw.2.bar2Done n (leBytes len v.draw.1) := by
  simp [State.bar2Serve, State.readSegs, h, State.bar2Done, Seg.len]

end

/-! ## Hub check units (R241, R242, R259) -/

section
variable (s : State) (u : Nat) (v : Word)

@[simp] theorem State.crcUnit_modCrcUnit_same (f : CrcUnit → CrcUnit) : (s.modCrcUnit u f).crcUnit u = f (s.crcUnit u) :=
  Table.get_put_same ..

/-- R242: while a stream has the unit, CTRL and VALUE keep what they hold. -/
theorem State.crcWrite_busy (h : (s.crcUnit u).owner.isSome = true) (r : CrcReg)
    (hr : r ∈ [CrcReg.ctrl, CrcReg.valueLo, CrcReg.valueHi]) :
    s.crcWrite u r v = s.modCrcUnit u fun c => { c with writeBusy := true } := by
  simp only [List.mem_cons, List.not_mem_nil, or_false] at hr
  rcases hr with rfl | rfl | rfl <;> exact if_pos h

section
variable (h : (s.crcUnit u).owner = none)
include h

theorem State.crcWrite_ctrl : s.crcWrite u .ctrl v = s.setReg (crcCtrlAddr u) (v &&& 0x3FFF) := by
  simp [State.crcWrite, h]

theorem State.crcWrite_valueLo :
    s.crcWrite u .valueLo v = s.modCrcUnit u fun c => { c with value := c.value.extractLsb' 32 32 ++ v } := by
  simp [State.crcWrite, h]

theorem State.crcWrite_valueHi :
    s.crcWrite u .valueHi v = s.modCrcUnit u fun c => { c with value := v ++ c.value.extractLsb' 0 32 } := by
  simp [State.crcWrite, h]

end

end

/-- Settles O38: an access by its translation, one HBM segment written or read; a check unit by whether it is idle. -/
theorem bar2AndHubUnitsFollowTheirRules : Obligations.Bar2AndHubUnitsFollowTheirRules := by
  refine ⟨fun s off data len wr => ⟨exec_bar2Access_outside s off data len wr, fun h => ⟨?_, fun gs hx ha hh => ?_,
      fun gs hx ha hh => ?_,
      fun a n => ⟨s.bar2Serve_writes data len a n, fun b v hr => ?_, fun v hr => ?_⟩⟩⟩,
    fun s u v => ⟨fun hb r hr => ?_, fun hi => ⟨?_, ?_, ?_⟩, ?_⟩⟩
  · rintro (⟨e, hx⟩ | ⟨gs, hx, ha⟩)
    · exact exec_bar2Access_faults s off data len wr h e hx
    · rw [exec_bar2Access_translated s off data len wr h gs hx, ha]
      rfl
  · rw [exec_bar2Access_translated s off data len wr h gs hx, ha, hh]
    rfl
  · rw [exec_bar2Access_translated s off data len wr h gs hx, ha, hh]
    rfl
  · exact ⟨_, s.bar2Serve_reads data len a n b v hr, v.bar2Done_frame n b⟩
  · obtain ⟨bytes, frame⟩ := v.draw.2.bar2Done_frame n (leBytes len v.draw.1)
    exact ⟨_, _, s.bar2Serve_unreadable data len a n v hr, bytes, length_leBytes .., frame⟩
  · exact ⟨_, congrArg Host.Outcome.next (s.crcWrite_busy u.val v hb r hr), State.crcUnit_modCrcUnit_same .., rfl⟩
  · exact ⟨_, congrArg Host.Outcome.next (s.crcWrite_ctrl u.val v hi), State.reg_setReg_same .., rfl⟩
  · refine ⟨_, congrArg Host.Outcome.next (s.crcWrite_valueLo u.val v hi), ?_, ?_, rfl⟩ <;> rw [State.crcUnit_modCrcUnit_same]
    · exact BitVec.extractLsb'_append_eq_right
    · exact BitVec.extractLsb'_append_eq_left
  · refine ⟨_, congrArg Host.Outcome.next (s.crcWrite_valueHi u.val v hi), ?_, ?_, rfl⟩ <;> rw [State.crcUnit_modCrcUnit_same]
    · exact BitVec.extractLsb'_append_eq_left
    · exact BitVec.extractLsb'_append_eq_right
  · have place : 0x150008 + 32 * u.val = crcCtrlAddr u.val + 8 := Nat.add_right_comm 0x150000 8 _
    exact ⟨_, rfl, by rw [place]; exact s.reg_setReg_same .., rfl⟩

end Sys2Proof.Machine
end

section
/-! The tile network: packets that fail, domains that wake and are gated, the latched counters (R256 to R258, R270). -/
namespace Sys2Proof.Machine
open Sys2Proof

variable (s : State)

/-! ## Packets that fail (R256, R270) -/

section
variable (src dest stop : NetStop) (load : NetLoad) (n : Nat)

theorem exec_networkPacket_passes (h : n = 0 ∨ stopPassed stop src dest = false) :
    exec (.networkPacket src dest stop n load) s = .next s :=
  congrArg Host.Outcome.next (if_pos (by simpa using h))

/-- R256: a packet that fails at a stop on its path is retried up to three times. -/
theorem exec_networkPacket_fails (hn : 0 < n) (h : stopPassed stop src dest = true) :
    exec (.networkPacket src dest stop n load) s = .next (
      if 3 < n then (s.countRetries stop (min n 3)).dropPacket load else s.countRetries stop (min n 3)) :=
  congrArg Host.Outcome.next (if_neg (by simp [h, Nat.ne_of_gt hn]))

/-- The retries of a stop, with `n` more (R256). -/
def State.retriesCounted (s : State) (stop : NetStop) (n : Nat) : State :=
  { s with paging := { s.paging with
    retries := Table.put s.paging.retries (stopIx stop) (Table.get 0 s.paging.retries (stopIx stop) + n) } }

theorem State.countRetries_tile (x : SiteId) : let b := Table.get 0 s.paging.retries (stopIx (.tile x))
    s.countRetries (.tile x) n =
      if b < Config.stopRetryLimit ∧ Config.stopRetryLimit ≤ b + n then (s.retriesCounted (.tile x) n).quarantine x.ix 3 0
      else s.retriesCounted (.tile x) n := by
  simp only [State.countRetries, State.modPaging, State.retriesCounted, Bool.and_eq_true, decide_eq_true_eq]

theorem State.countRetries_other (h : ∀ x, stop ≠ .tile x) : s.countRetries stop n = s.retriesCounted stop n := by
  cases stop
  case tile x => exact absurd rfl (h x)
  all_goals rfl

end

section
variable {tile : TileId} {ci : Fin 16} {d : Desc} {k : CtxSt} {ch : ChunkSt} {rest : List ChunkSt} (n : Nat)

/-- A chunk one of whose packets was dropped. -/
def ChunkSt.without (ch : ChunkSt) (n : Nat) : ChunkSt := { ch with lost := if ch.lost.contains n then ch.lost else n :: ch.lost }

theorem ChunkSt.mem_lost_without (ch : ChunkSt) : n ∈ (ch.without n).lost := by
  unfold ChunkSt.without
  by_cases h : n ∈ ch.lost <;> simp [h]

/-- R256: the chunk goes without its packet, and the descriptor of the tile's Pack ends. -/
theorem State.dropPacket_piece (ho : s.owner tile = some d) (hk : (s.tile tile.ix).ctx? ci.val = some k) (hi : k.inflight = ch :: rest)
    (hn : n < ch.segs.length) : s.dropPacket (.piece tile ci n) = (s.losePiece tile ci.val n).latchFault d.id stMemory := by
  have out : s.pieceOut tile ci.val n = true := by simp [State.pieceOut, hk, hi, hn]
  simp [State.dropPacket, out, ho, State.packetEnds]

theorem State.losePiece_inflight (hk : (s.tile tile.ix).ctx? ci.val = some k) (hi : k.inflight = ch :: rest) :
    ∃ k', ((s.losePiece tile ci.val n).tile tile.ix).ctx? ci.val = some k' ∧ k'.inflight = ch.without n :: rest :=
  ⟨_, s.ctx?_modCtx_same tile.ix ci.val k _ hk, by simp only [hi]; rfl⟩

end

/-! ## Domains (R257, R376) -/

section
variable (d p : Nat)

/-- R257: a Pack whose domains are all awake goes on, and no other Pack changes. -/
theorem State.packWakes_pack (j : Nat) : ((s.packWakes p).pack j).waking =
    if j = p ∧ (s.packDomains p).any s.paging.asleep.contains = false then false else (s.pack j).waking := by
  unfold State.packWakes
  by_cases hj : j = p
  · subst hj
    cases (s.packDomains j).any s.paging.asleep.contains <;> cases hw : (s.pack j).waking <;> simp [hw]
  · split
    · simp [hj, State.pack_modPack_other _ _ _ _ hj]
    · simp [hj]

theorem State.packWakes_frame : ∃ l, s.packWakes p = { s with tiles := { s.tiles with packs := l } } := by
  unfold State.packWakes
  split
  · exact ⟨_, rfl⟩
  · exact ⟨_, rfl⟩

theorem State.foldl_packWakes_frame (l : List Nat) :
    ∃ t, l.foldl State.packWakes s = { s with tiles := { s.tiles with packs := t } } := by
  refine List.foldlRecOn (motive := fun u : State => ∃ t, u = { s with tiles := { s.tiles with packs := t } }) l _
    ⟨s.tiles.packs, rfl⟩ ?_
  rintro _ ⟨t, rfl⟩ p -
  exact State.packWakes_frame _ p

/-- R257: of the Packs that are gone through, each whose domains are all awake goes on. -/
theorem State.foldl_packWakes_goesOn (l : List Nat) (hp : p ∈ l) (ha : (s.packDomains p).any s.paging.asleep.contains = false) :
    ((l.foldl State.packWakes s).pack p).waking = false := by
  induction l using List.reverseRecOn with
  | nil => cases hp
  | append_singleton l q ih =>
    obtain ⟨t, before⟩ := s.foldl_packWakes_frame l
    rw [List.foldl_append, List.foldl_cons, List.foldl_nil, State.packWakes_pack]
    split
    case isTrue => rfl
    case isFalse h =>
      refine ih ((List.mem_append.mp hp).resolve_right fun hq => h ⟨List.mem_singleton.mp hq, ?_⟩)
      rw [List.mem_singleton.mp hq] at ha
      rw [before]
      exact ha

theorem State.wakeDomain_awake : (s.wakeDomain d).paging.asleep.contains d = false ∧ (s.wakeDomain d).paging.wakes d = false := by
  refine ⟨by simp [State.wakeDomain, State.modPaging], ?_⟩
  have gone := Table.find?_erase_same s.paging.waking d
  rw [List.find?_eq_none] at gone
  exact List.any_eq_false.mpr gone

theorem State.releaseInbound_none (h : s.links.fabric.inbound = []) : s.releaseInbound = s := by
  simp [State.releaseInbound, h]

/-- R257: a wake completes: the domain is awake, the Packs that it held go on, and all else is as it was. -/
theorem State.wakeDomain_packWakes {u : State} (hu : u = (List.range 64).foldl State.packWakes (s.wakeDomain d)) :
    u.paging.asleep.contains d = false ∧ u.paging.wakes d = false ∧
      (∀ p, p < 64 → (s.packDomains p).any u.paging.asleep.contains = false → (u.pack p).waking = false) ∧
      u.tiles.tiles = s.tiles.tiles ∧ u.host = s.host ∧ u.hbm = s.hbm ∧ u.regs = s.regs ∧
      (s.links.fabric.inbound = [] → u.releaseInbound = u) := by
  obtain ⟨t, frame⟩ := (s.wakeDomain d).foldl_packWakes_frame (List.range 64)
  obtain ⟨awake, done⟩ := s.wakeDomain_awake d
  have paging : u.paging = (s.wakeDomain d).paging := by rw [hu, frame]
  rw [paging]
  refine ⟨awake, done, fun p hp ha => ?_, ?_⟩
  · rw [hu]
    exact (s.wakeDomain d).foldl_packWakes_goesOn p (List.range 64) (List.mem_range.mpr hp) ha
  · rw [hu, frame]
    exact ⟨rfl, rfl, rfl, rfl, fun h => State.releaseInbound_none _ h⟩

section
variable (row : Fin 36) (right : Bool)

theorem exec_domainWakeComplete_asleep (h : s.paging.wakes (domainIx row.val right) = false) :
    exec (.domainWakeComplete row right) s = .next s :=
  congrArg Host.Outcome.next (if_neg (ne_true_of_eq_false h))

theorem exec_domainWakeComplete_wakes (h : s.paging.wakes (domainIx row.val right) = true) :
    exec (.domainWakeComplete row right) s = .next (s.wakeDone (domainIx row.val right)) :=
  congrArg Host.Outcome.next (if_pos h)

theorem exec_domainGate : exec (.domainGate row right) s = .next (s.gateDomain s.busyDomains (domainIx row.val right)) := rfl

end

/-- R376: a domain that is busy, asleep, or not yet idle for long enough is not gated. -/
theorem State.gateDomain_kept (busy : List Nat) (h : s.regN 0x110010 = 0 ∨ busy.contains d = true ∨
    s.paging.asleep.contains d = true ∨ s.tick.now < Table.get 0 s.paging.busyAt d + 1000 * s.regN 0x110010) : s.gateDomain busy d = s :=
  if_pos (by simpa only [Bool.or_eq_true, decide_eq_true_eq, or_assoc] using h)

theorem State.gateDomain_gated (busy : List Nat) (hi : s.regN 0x110010 ≠ 0) (hb : busy.contains d = false)
    (ha : s.paging.asleep.contains d = false) (ht : Table.get 0 s.paging.busyAt d + 1000 * s.regN 0x110010 ≤ s.tick.now) :
    s.gateDomain busy d = { s with paging := { s.paging with asleep := s.paging.asleep ++ [d] } } :=
  if_neg (by simp only [hb, ha, Bool.or_false, Bool.or_eq_true, decide_eq_true_eq, not_or]; exact ⟨hi, Nat.not_lt.mpr ht⟩)

end

/-! ## The latched counters (R258) -/

theorem exec_netStatSel (sel : BitVec 11) : exec (.netStatSel sel) s = .next { s with paging := { s.paging with
    sel := sel.toNat, latched := if sel.toNat ≤ 1216 then Table.get {} s.paging.counts sel.toNat else s.paging.latched } } := rfl

/-- Settles O39: a packet by its failures, a wake by `packWakes` of each Pack, gating and the latch by their conditions. -/
theorem networkRetriesParksAndWakes : Obligations.NetworkRetriesParksAndWakes := by
  intro s src dest stop load n
  refine ⟨exec_networkPacket_passes s src dest stop load n, fun hn h3 hp => ?_, fun hn hp => ?_, ⟨?_, s.countRetries_other stop n⟩,
    fun id => rfl, fun tile ci d k ch rest ho hk hi hl => ?_,
    fun row right => ⟨exec_domainWakeComplete_asleep s row right, fun hw => ?_, fun h => ?_, fun hi hb ha ht => ?_⟩,
    fun sel h => ?_, fun sel h => ?_⟩
  · rw [exec_networkPacket_fails s src dest stop load n hn hp, if_neg (Nat.not_lt.mpr h3), Nat.min_eq_left h3]
  · rw [exec_networkPacket_fails s src dest stop load n (Nat.zero_lt_of_lt hn) hp, if_pos hn, Nat.min_eq_right (Nat.le_of_lt hn)]
  · rintro x rfl
    exact s.countRetries_tile n x
  · obtain ⟨k', hk', inflight⟩ := s.losePiece_inflight n hk hi
    exact ⟨_, k', _, s.dropPacket_piece n ho hk hi hl, hk', inflight, ch.mem_lost_without n, rfl, rfl, rfl, rfl⟩
  · refine ⟨exec_domainWakeComplete_wakes s row right hw, s.wakeDomain_packWakes (domainIx row.val right) ?_⟩
    rfl
  · rw [exec_domainGate, s.gateDomain_kept _ _ h]
  · rw [exec_domainGate, s.gateDomain_gated _ _ hi hb ha ht]
  · rw [exec_netStatSel, if_pos h]
  · rw [exec_netStatSel, if_neg (Nat.not_le.mpr h)]

end Sys2Proof.Machine
end

section
/-! A peer's request on its way to its effect: passed on, kept waiting, or taken in its turn (R257, R266, R293, R312 to R316). -/
namespace Sys2Proof.Machine
open Sys2Proof

/-! ## Messages that leave (R312, R313) -/

section
variable (s : State) (m : OutMsg)

/-- A message joins those that leave, or the module sends none: nothing else changes. -/
theorem State.sendMsg_frame : ∃ o w, s.sendMsg m = s.modLf fun l => { l with out := o, wait := w } := by
  unfold State.sendMsg
  split
  · exact ⟨_, _, rfl⟩
  · exact ⟨s.links.fabric.out, s.links.fabric.wait, rfl⟩

theorem State.takes_iff : s.takes = true ↔ s.devid.isSome = true ∧ s.muzzle.module.active = false := by
  simp [State.takes]

/-- R312, R313: a module that takes transactions sends what it answers. -/
theorem State.out_sendMsg (h : s.takes = true) : (s.sendMsg m).links.fabric.out = s.links.fabric.out ++ [m] := by
  obtain ⟨known, free⟩ := s.takes_iff.mp h
  exact (s.sendMsg_sends m known free).2

end

/-- R257: a sleeping domain wakes, or begins to. -/
theorem State.wakes_startWake (s : State) (d : Nat) (h : s.paging.asleep.contains d = true) : (s.startWake d).paging.wakes d = true := by
  rw [State.startWake, State.modPaging_paging]
  cases hw : s.paging.wakes d
  · rw [if_pos (by rw [h]; rfl)]
    exact List.any_eq_true.mpr
      ⟨(d, s.tick.now), List.mem_of_find?_eq_some (Table.find?_put_same s.paging.waking d s.tick.now), beq_self_eq_true d⟩
  · rw [if_neg (by simp)]
    exact hw

/-! ## What arrives (R257, R266, R293, R313) -/

section
variable (s : State) (h : Header) (len : Fin 4097) (data : List Byte) {c : Instr × TxType × Nat × List Byte × (State → State)}

theorem exec_peerRequest (hc : c ∈ peerRequests h len data) :
    exec c.1 s = .next (s.arriveTx h c.2.1 c.2.2.1 c.2.2.2.1 c.2.2.2.2) := by
  simp only [peerRequests, List.mem_cons, List.not_mem_nil, or_false] at hc
  rcases hc with rfl | rfl | rfl | rfl | rfl <;> rfl

theorem State.parkTx_frame (ty : TxType) (n : Nat) : let t := s.parkTx ty h n data
    t.links.fabric.inbound = s.links.fabric.inbound ++ [.tx ty h n data] ∧ t.tiles = s.tiles ∧ t.hbm = s.hbm ∧
      t.links.fabric.inFlows = s.links.fabric.inFlows ∧
      ∀ x, (s.txTiles ty h n).1.find? s.away = some x → s.paging.asleep.contains (SiteId.domain (s.siteOf x)) = true →
        t.paging.wakes (SiteId.domain (s.siteOf x)) = true := by
  intro t
  cases hx : (s.txTiles ty h n).1.find? s.away with
  | none =>
    have waits : t = s.modLf fun l => { l with inbound := l.inbound ++ [.tx ty h n data] } := by
      simp only [t, State.parkTx, hx, State.park]
    rw [waits]
    exact ⟨rfl, rfl, rfl, rfl, fun x e => nomatch e⟩
  | some x =>
    have waits : t = (s.modLf fun l => { l with inbound := l.inbound ++ [.tx ty h n data] }).startWake
        (SiteId.domain (s.siteOf x)) := by
      simp only [t, State.parkTx, hx, State.park]
      rfl
    rw [waits]
    refine ⟨rfl, rfl, rfl, rfl, ?_⟩
    rintro _ ⟨⟩ asleep
    exact State.wakes_startWake _ _ asleep

end

/-! ## The turn of a request (R312 to R314, R316) -/

section
variable {s : State} {h : Header}

theorem onFlow_iff : onFlow s h ↔ ((s.flow h.rflow.toNat).enabled && (s.flow h.rflow.toNat).inbound &&
    (s.flow h.rflow.toNat).peer == h.src.toNat && (s.flow h.rflow.toNat).vc == h.vc.val) = true := by
  simp [onFlow, and_assoc]

variable (body : Flow → State → State × Nat)

theorem State.serve_notTaken (ht : s.takes = false) : s.serve h body = s := by simp [State.serve, ht]

variable (ht : s.takes = true)
include ht

theorem State.serve_offFlow (hf : ¬ onFlow s h) : s.serve h body = s.sendMsg (ackMsg h ackRefused) := by
  rw [onFlow_iff, Bool.not_eq_true] at hf
  simp only [State.serve, ht, hf, Bool.not_true, Bool.not_false, Bool.false_eq_true, if_false, if_true]

variable (hf : onFlow s h)
include hf

/-- R316: one that was received before is answered again. -/
theorem State.serve_again (st : Nat) (hp : (s.inFlow h.rflow.toNat).place h.seq.toNat = .again st) :
    s.serve h body = s.sendMsg (ackMsg h st) := by
  simp only [State.serve, ht, onFlow_iff.mp hf, Bool.not_true, Bool.false_eq_true, if_false, hp]

/-- R316: one ahead of its turn is discarded. -/
theorem State.serve_ahead (hp : (s.inFlow h.rflow.toNat).place h.seq.toNat = .ahead) : s.serve h body = s := by
  simp only [State.serve, ht, onFlow_iff.mp hf, Bool.not_true, Bool.false_eq_true, if_false, hp]

end

/-- R316: up to 2^31 requests back, a SEQ has been received. -/
theorem InFlow.place_again (i : InFlow) (k : Nat) (hk : 0 < k) (hk' : k ≤ 2 ^ 31) (hi : i.expected < 2 ^ 32) :
    ∃ st, i.place ((i.expected + 2 ^ 32 - k) % 2 ^ 32) = .again st := by
  have other : (i.expected + 2 ^ 32 - k) % 2 ^ 32 ≠ i.expected := by omega
  have back : (i.expected + 2 ^ 32 - 1 - (i.expected + 2 ^ 32 - k) % 2 ^ 32) % 2 ^ 32 < 2 ^ 31 := by omega
  exact ⟨_, by rw [InFlow.place, if_neg other, if_pos back]⟩

/-- R316: up to 2^31 requests on, a SEQ is still to come. -/
theorem InFlow.place_ahead (i : InFlow) (k : Nat) (hk : 0 < k) (hk' : k < 2 ^ 31) (hi : i.expected < 2 ^ 32) :
    i.place ((i.expected + k) % 2 ^ 32) = .ahead := by
  have other : (i.expected + k) % 2 ^ 32 ≠ i.expected := by omega
  have on : ¬(i.expected + 2 ^ 32 - 1 - (i.expected + k) % 2 ^ 32) % 2 ^ 32 < 2 ^ 31 := by omega
  rw [InFlow.place, if_neg other, if_neg on]

/-! ## The next in turn -/

/-- An effect `u` has been counted in its flow, which stood at `i`, and is answered with a status (R314, R316). -/
def State.counted (u : State) (i : InFlow) (h : Header) (st : Nat) : State :=
  (u.modLf fun l => { l with inFlows := Table.put l.inFlows h.rflow.toNat (i.count h.seq.toNat st) }).sendMsg (ackMsg h st)

section
variable (u : State) (i : InFlow) (h : Header) (st : Nat)

theorem State.counted_frame : let t := u.counted i h st
    (t.inFlow h.rflow.toNat).expected = (h.seq.toNat + 1) % 2 ^ 32 ∧ t = { u with links := t.links } ∧
      t.links.links = u.links.links ∧ t.links.fabric.reqs = u.links.fabric.reqs ∧
      t.links.fabric.answers = u.links.fabric.answers ∧ t.links.fabric.exposures = u.links.fabric.exposures := by
  let v := u.modLf fun l => { l with inFlows := Table.put l.inFlows h.rflow.toNat (i.count h.seq.toNat st) }
  obtain ⟨o, w, sent⟩ := v.sendMsg_frame (ackMsg h st)
  have expected : (v.inFlow h.rflow.toNat).expected = (h.seq.toNat + 1) % 2 ^ 32 :=
    congrArg InFlow.expected (show v.inFlow h.rflow.toNat = i.count h.seq.toNat st from Table.get_put_same ..)
  intro t
  rw [show t = _ from sent]
  exact ⟨expected, rfl, rfl, rfl, rfl, rfl⟩

theorem State.out_counted (ht : u.takes = true) :
    (u.counted i h st).links.fabric.out = u.links.fabric.out ++ [ackMsg h st] := State.out_sendMsg _ _ ht

theorem State.answered_counted (ht : u.takes = true) : answered u (u.counted i h st) h st := by
  obtain ⟨expected, same, links, reqs, -, -⟩ := u.counted_frame i h st
  exact ⟨u.out_counted i h st ht, expected, same, links, reqs⟩

end

/-- R314, R316: the next in turn has its effect, is counted, and is answered. -/
theorem State.serve_next {s : State} {h : Header} (ht : s.takes = true) (hf : onFlow s h)
    (hq : h.seq.toNat = (s.inFlow h.rflow.toNat).expected) (body : Flow → State → State × Nat) {u : State} {st : Nat}
    (hb : body (s.flow h.rflow.toNat) s = (u, st)) : s.serve h body = u.counted (s.inFlow h.rflow.toNat) h st := by
  have place : (s.inFlow h.rflow.toNat).place h.seq.toNat = .next := if_pos hq
  simp only [State.serve, ht, onFlow_iff.mp hf, Bool.not_true, Bool.false_eq_true, if_false, place, hb, State.counted]

/-- The requests of a peer that name a flow are served by it (R314, R321). -/
theorem peerRequests_serve (s : State) (h : Header) (n : Nat) (data : List Byte) (hg : h.group = false) :
    ∀ c ∈ [State.rreadTx h n, State.rwriteTx h data, State.rsignalTx h, State.tsendTx h data], ∃ body, c s = s.serve h body := by
  simp only [List.mem_cons, List.not_mem_nil, or_false]
  rintro c (rfl | rfl | rfl | rfl)
  · exact ⟨_, State.rreadTx.eq_1 ..⟩
  · exact ⟨_, State.rwriteTx.eq_1 ..⟩
  · exact ⟨_, (State.rsignalTx.eq_1 ..).trans (if_neg (ne_true_of_eq_false hg))⟩
  · exact ⟨_, State.tsendTx.eq_1 ..⟩

/-- R312, R313: a Muzzled module, or one without an identifier, takes no request. -/
theorem peerRequest_notTaken (s : State) (h : Header) (len : Fin 4097) (data : List Byte)
    {c : Instr × TxType × Nat × List Byte × (State → State)} (hc : c ∈ peerRequests h len data) (ht : s.takes = false) :
    c.2.2.2.2 s = s := by
  simp only [peerRequests, List.mem_cons, List.not_mem_nil, or_false] at hc
  rcases hc with rfl | rfl | rfl | rfl | rfl
  · exact (State.rreadTx.eq_1 ..).trans (State.serve_notTaken _ ht)
  · exact (State.rwriteTx.eq_1 ..).trans (State.serve_notTaken _ ht)
  · refine (State.rsignalTx.eq_1 ..).trans ?_
    split
    · rw [ht]
      rfl
    · exact State.serve_notTaken _ ht
  · exact (State.tsendTx.eq_1 ..).trans (State.serve_notTaken _ ht)
  · simp [State.mcastTx, ht]

end Sys2Proof.Machine
end

section
/-! What a peer's request does at its target, when its turn has come (R320 to R323, R327). -/
namespace Sys2Proof.Machine
open Sys2Proof

/-! ## Reads (R320) -/

/-- The bytes of a stretch, one by one. -/
theorem Memory.readBytes_eq_map (m : Memory) (a n : Nat) : m.readBytes a n = (List.range n).map fun j => m.readByte (a + j) := by
  induction n generalizing a with
  | zero => rfl
  | succ n ih =>
    rw [Memory.readBytes, ih, List.range_succ_eq_map, List.map_cons, List.map_map]
    refine congrArg _ (List.map_congr_left fun j _ => ?_)
    exact congrArg m.readByte (Nat.add_right_comm a 1 j)

section
variable {s : State} {f : Flow} {a n i o : Nat}

theorem State.windowTile_iff : s.windowTile f a = some (i, o) ↔
    peerTiles ≤ a ∧ (a - peerTiles) / 1048576 = i ∧ (a - peerTiles) % 1048576 = o ∧ i < 1024 ∧
      (s.shape f.pack).covers (tileOfIx i) = true := by
  simp only [State.windowTile, Option.ite_none_right_eq_some, Bool.and_eq_true, decide_eq_true_eq, Option.some.injEq, Prod.mk.injEq]
  constructor
  · rintro ⟨⟨⟨base, below⟩, covered⟩, rfl, rfl⟩
    exact ⟨base, rfl, rfl, below, covered⟩
  · rintro ⟨base, rfl, rfl, below, covered⟩
    exact ⟨⟨⟨base, below⟩, covered⟩, rfl, rfl⟩

/-- R320: a span whose ends lie in one tile lies in that tile. -/
theorem State.windowTile_within (ha : s.windowTile f a = some (i, o)) (hz : s.windowTile f (a + (n - 1)) = some (i, o + (n - 1)))
    {j : Nat} (hj : j < n) : s.windowTile f (a + j) = some (i, o + j) := by
  obtain ⟨base, tile, offset, below, covered⟩ := State.windowTile_iff.mp ha
  obtain ⟨-, -, last, -, -⟩ := State.windowTile_iff.mp hz
  exact State.windowTile_iff.mpr ⟨by omega, by omega, by omega, below, covered⟩

theorem State.peerRead_denied (h : f.rw = false) : s.peerRead f a n = (none, s) := by simp [State.peerRead, h]

theorem State.peerRead_hbm (hw : f.rw = true) (ha : a + n ≤ hbmUserEnd) {b : List Byte} {u : State}
    (hr : s.hbmRead [] a n = (some b, u)) : s.peerRead f a n = (some b, u) := by
  simp [State.peerRead, hw, ha, hr]

theorem State.peerRead_outside (ha : hbmUserEnd < a + n) (hx : s.windowTile f a = none) : s.peerRead f a n = (none, s) := by
  simp [State.peerRead, Nat.not_le.mpr ha, hx]

theorem State.peerRead_window (hw : f.rw = true) (ha : hbmUserEnd < a + n) (hi : s.windowTile f a = some (i, o))
    (hz : s.windowTile f (a + (n - 1)) = some (i, o + (n - 1))) :
    s.peerRead f a n = (some ((s.tile i).mem.store.readBytes o n), s) := by
  simp only [State.peerRead, hw, Bool.not_true, Bool.false_eq_true, if_false, Nat.not_le.mpr ha, hi, hz, Memory.readBytes_eq_map]
  refine congrArg (fun l => (some l, s)) (List.map_congr_left fun j hj => ?_)
  rw [State.windowTile_within hi hz (List.mem_range.mp hj)]

end

/-! ## Data that lands (R322, R327) -/

section
variable (s : State) (device token pack : Nat)

/-- A token's data is among the exposures. -/
def State.exposes (s : State) (device token pack : Nat) : Prop :=
  (s.links.fabric.exposures.any fun e => e.device == device && e.token == token && e.pack == pack) = true

/-- R322: what is written for a Pack exposes it to the token. -/
theorem State.expose_exposes (group : Option Nat) (span : Option Nat × Nat × Nat) :
    (s.expose device token pack group span).exposes device token pack := by
  unfold State.exposes State.expose State.modLf
  dsimp only
  by_cases held : (s.links.fabric.exposures.any fun e => e.device == device && e.token == token && e.pack == pack && e.job.isNone) = true
  · obtain ⟨e, he, mine⟩ := List.any_eq_true.mp held
    rw [if_pos held]
    refine List.any_eq_true.mpr ⟨_, List.mem_map_of_mem he, ?_⟩
    rw [if_pos mine]
    exact (Bool.and_eq_true_iff.mp mine).1
  · rw [if_neg held]
    simp

/-- R316, R322: what is written and counted exposes its Pack, and nothing but the links changes with that. -/
theorem State.counted_expose (i : InFlow) (h : Header) (st : Nat) (span : Option Nat × Nat × Nat) :
    let t := (s.expose device token pack none span).counted i h st
    t = { s with links := t.links } ∧ (t.inFlow h.rflow.toNat).expected = (h.seq.toNat + 1) % 2 ^ 32 ∧ t.exposes device token pack := by
  obtain ⟨expected, same, -, -, -, kept⟩ := (s.expose device token pack none span).counted_frame i h st
  exact ⟨same, expected, (congrArg (List.any · _) kept).trans (s.expose_exposes device token pack none span)⟩

end

/-- R327: what lands is no longer than what came. -/
theorem State.length_landed (s : State) (h : Header) (i a : Nat) (data : List Byte) : (s.landed h i a data).length ≤ data.length := by
  unfold State.landed
  split
  · exact Nat.le_refl _
  · exact (List.length_take ..).trans_le (Nat.min_le_left ..)

/-! ## Requests whose turn has come -/

section
variable {s : State} {h : Header} (ht : s.takes = true) (hf : onFlow s h) (hq : h.seq.toNat = (s.inFlow h.rflow.toNat).expected)
include ht hf hq

section
variable (n : Nat)

theorem State.rreadTx_refused (hr : s.peerRead (s.flow h.rflow.toNat) (bits h.target.toNat 0 48) n = (none, s)) :
    State.rreadTx h n s = s.counted (s.inFlow h.rflow.toNat) h ackRefused :=
  State.serve_next ht hf hq _ (by simp only [hr])

/-- R320: the data of a read goes back with the SEQ of the request. -/
theorem State.rreadTx_reads {b : List Byte} {u : State}
    (hr : s.peerRead (s.flow h.rflow.toNat) (bits h.target.toNat 0 48) n = (some b, u)) : let t := State.rreadTx h n s
    t = { u with links := t.links } ∧ t.links.fabric.answers = u.links.fabric.answers ++ [(h.src.toNat, h.seq.toNat, b)] ∧
      (t.inFlow h.rflow.toNat).expected = (h.seq.toNat + 1) % 2 ^ 32 := by
  let v := u.modLf fun l => { l with answers := l.answers ++ [(h.src.toNat, h.seq.toNat, b)] }
  let w := v.sendMsg ⟨.readData, h.src.toNat, h.rflow.toNat, h.seq.toNat, 0⟩
  have reads : State.rreadTx h n s = w.counted (s.inFlow h.rflow.toNat) h ackOk := State.serve_next ht hf hq _ (by simp only [hr]; rfl)
  obtain ⟨expected, same, -, -, answers, -⟩ := w.counted_frame (s.inFlow h.rflow.toNat) h ackOk
  obtain ⟨o, x, sent⟩ := v.sendMsg_frame ⟨.readData, h.src.toNat, h.rflow.toNat, h.seq.toNat, 0⟩
  have back : w.links.fabric.answers = u.links.fabric.answers ++ [(h.src.toNat, h.seq.toNat, b)] := by rw [show w = _ from sent]; rfl
  have links : w = { u with links := w.links } := by rw [show w = _ from sent]; rfl
  intro t
  rw [show t = _ from reads]
  refine ⟨?_, answers.trans back, expected⟩
  rw [links] at same ⊢
  exact same

end

section
variable (data : List Byte)

theorem State.rwriteTx_refused (hr : (s.flow h.rflow.toNat).rw = false ∨ hbmUserEnd < bits h.target.toNat 0 48 + data.length) :
    State.rwriteTx h data s = s.counted (s.inFlow h.rflow.toNat) h ackRefused := by
  refine State.serve_next ht hf hq _ (if_pos ?_)
  rcases hr with hr | hr <;> simp [hr]

/-- R320, R322: a write to the user range lands, and exposes the flow's Pack. -/
theorem State.rwriteTx_writes (hw : (s.flow h.rflow.toNat).rw = true) (ha : bits h.target.toNat 0 48 + data.length ≤ hbmUserEnd)
    (hl : data.length ≤ 4096) (hs : s.spent h = false) : State.rwriteTx h data s =
      ((s.hbmWrite [] (bits h.target.toNat 0 48) data).expose h.src.toNat h.token.toNat (s.flow h.rflow.toNat).pack none
        (none, bits h.target.toNat 0 48, data.length)).counted (s.inFlow h.rflow.toNat) h ackOk :=
  State.serve_next ht hf hq _ (by simp [hw, Nat.not_lt.mpr ha, Nat.not_lt.mpr hl, hs])

theorem State.rsignalTx_refused (hg : h.group = false) (hx : s.flowTarget (s.flow h.rflow.toNat) h.target.toNat = none) :
    State.rsignalTx h s = s.counted (s.inFlow h.rflow.toNat) h ackRefused := by
  refine (if_neg (ne_true_of_eq_false hg)).trans (State.serve_next ht hf hq _ ?_)
  simp only [hx]

theorem State.tsendTx_refused (hx : s.flowTarget (s.flow h.rflow.toNat) h.target.toNat = none) :
    State.tsendTx h data s = s.counted (s.inFlow h.rflow.toNat) h ackRefused :=
  State.serve_next ht hf hq _ (by simp only [hx])

variable {i : TileId} (hx : s.flowTarget (s.flow h.rflow.toNat) h.target.toNat = some i)
include hx

/-- R2, R327: a grade B module combines nothing. -/
theorem State.tsendTx_absent (hb : s.mod.grade = .b) (hc : h.comb ≠ 0) :
    State.tsendTx h data s = s.counted (s.inFlow h.rflow.toNat) h ackRefused :=
  State.serve_next ht hf hq _ (by simp only [hx, hb, bne_iff_ne.mpr hc, Bool.true_or, if_true])

variable (hs : s.spent h = false)
include hs

theorem State.rsignalTx_signals (hg : h.group = false) : State.rsignalTx h s =
    (s.signal i (bits h.target.toNat 10 6) (bits h.target.toNat 16 16)).counted (s.inFlow h.rflow.toNat) h ackOk := by
  refine (if_neg (ne_true_of_eq_false hg)).trans (State.serve_next ht hf hq _ ?_)
  simp [hx, hs]

/-- R321, R327: the data of a TSEND lands in its tile, combined where COMB says so, and exposes the flow's Pack. -/
theorem State.tsendTx_lands (hl : data.length ≤ 4096) (ha : bits h.target.toNat 10 14 * 64 + data.length ≤ 1048576)
    (hfwd : h.fwdEn = false) (hc : h.comb ≠ 3) (hg : s.mod.grade = .a ∨ h.comb = 0) :
    ∃ k, State.tsendTx h data s =
      ((({ s with cnt := k } : State).modTile i.ix fun t =>
        t.write .store (bits h.target.toNat 10 14 * 64) (s.landed h i.ix (bits h.target.toNat 10 14 * 64) data)).expose
          h.src.toNat h.token.toNat (s.flow h.rflow.toNat).pack none
          (some i.ix, bits h.target.toNat 10 14 * 64, (s.landed h i.ix (bits h.target.toNat 10 14 * 64) data).length)).counted
        (s.inFlow h.rflow.toNat) h ackOk := by
  have fits : ¬1048576 < bits h.target.toNat 10 14 * 64 + (s.landed h i.ix (bits h.target.toNat 10 14 * 64) data).length := by
    have := s.length_landed h i.ix (bits h.target.toNat 10 14 * 64) data
    omega
  obtain ⟨k, counts⟩ : ∃ k, (if h.comb = 0 then s else s.countEv (linkUnit h.link.val) 0x046 (data.length / 16)) =
      { s with cnt := k } := by
    split
    · exact ⟨s.cnt, rfl⟩
    · exact ⟨_, s.countEv_eq ..⟩
  refine ⟨k, State.serve_next ht hf hq _ ?_⟩
  simp only [hx]
  rw [if_neg, if_neg (ne_true_of_eq_false hs), counts, State.landInTile, if_neg fits, State.forward, if_pos (by simp [hfwd])]
  rcases hg with hg | hg
  · simpa [hg, Nat.not_lt.mpr hl, Nat.not_lt.mpr ha] using hc
  · cases s.mod.grade <;> simp [hg, Nat.not_lt.mpr hl, Nat.not_lt.mpr ha]

end
end

/-! ## The statement -/

/-- Settles O46: what arrives by `arriveTx`, its turn by `place`, and the next in turn by `serve_next` with the effect of its type. -/
theorem peerRequestsAreServedInOrder : Obligations.PeerRequestsAreServedInOrder := by
  intro s h len data b f a n
  refine ⟨fun c hc => ⟨fun hp => ?_, fun hp hw => ?_, fun hp hw => ?_, peerRequest_notTaken s h len data hc⟩, fun ht hg => ?_⟩
  · rw [exec_peerRequest s h len data hc, State.arriveTx, if_pos hp]
  · refine ⟨_, ?_, s.parkTx_frame h c.2.2.2.1 c.2.1 c.2.2.1⟩
    rw [exec_peerRequest s h len data hc, State.arriveTx, if_neg (ne_true_of_eq_false hp), if_pos hw]
  · rw [exec_peerRequest s h len data hc, State.arriveTx, if_neg (ne_true_of_eq_false hp), if_neg (ne_true_of_eq_false hw)]
  intro four
  have serves := peerRequests_serve s h n data hg
  refine ⟨fun hf c hc => ?_, fun hf => ⟨fun k hk hk' he hq c hc => ?_, fun k hk hk' he hq c hc => ?_, fun hq => ?_⟩⟩
  · obtain ⟨body, served⟩ := serves c hc
    rw [served, State.serve_offFlow body ht hf]
  · obtain ⟨body, served⟩ := serves c hc
    obtain ⟨st, again⟩ := (s.inFlow h.rflow.toNat).place_again k hk hk' he
    exact ⟨st, served.trans (State.serve_again body ht hf st (hq ▸ again))⟩
  · obtain ⟨body, served⟩ := serves c hc
    exact served.trans (State.serve_ahead body ht hf (hq ▸ InFlow.place_ahead _ k hk hk' he))
  let i := s.inFlow h.rflow.toNat
  have refused : answered s (s.counted i h ackRefused) h ackRefused := s.answered_counted i h ackRefused ht
  refine ⟨fun hw => ⟨?_, ?_⟩, fun hw ha u hr => ⟨_, rfl, ?_⟩, fun t o hw ha hn hi hz => ⟨_, rfl, ?_⟩, fun ha hx => ?_,
    fun ha => ?_, fun hw ha hl hs => ?_, fun hx => ⟨?_, ?_⟩, fun x hx hs => ⟨?_, fun hl ha hfwd hc => ⟨fun hgr => ?_, fun hgr hne => ?_⟩⟩⟩
  · rwa [State.rreadTx_refused ht hf hq n (State.peerRead_denied hw)]
  · rwa [State.rwriteTx_refused ht hf hq data (.inl hw)]
  · exact State.rreadTx_reads ht hf hq n (State.peerRead_hbm hw ha hr)
  · obtain ⟨same, answers, -⟩ := State.rreadTx_reads ht hf hq n (State.peerRead_window hw ha hi hz)
    exact ⟨same, answers⟩
  · rwa [State.rreadTx_refused ht hf hq n (State.peerRead_outside ha hx)]
  · rwa [State.rwriteTx_refused ht hf hq data (.inr ha)]
  · intro u
    rw [State.rwriteTx_writes ht hf hq data hw ha hl hs]
    exact ⟨_, rfl, u.counted_expose h.src.toNat h.token.toNat f.pack i h ackOk (none, a, data.length)⟩
  · rwa [State.rsignalTx_refused ht hf hq hg hx]
  · rwa [State.tsendTx_refused ht hf hq data hx]
  · intro u
    obtain ⟨expected, same, -⟩ := u.counted_frame i h ackOk
    rw [State.rsignalTx_signals ht hf hq hx hs hg]
    exact ⟨_, rfl, same, expected, u.out_counted i h ackOk⟩
  · obtain ⟨k, lands⟩ := State.tsendTx_lands ht hf hq data hx hs hl ha hfwd hc hgr
    let r := s.landed h x.ix (bits h.target.toNat 10 14 * 64) data
    let w := ({ s with cnt := k } : State).modTile x.ix fun t => t.write .store (bits h.target.toNat 10 14 * 64) r
    obtain ⟨same, -, exposes⟩ := w.counted_expose h.src.toNat h.token.toNat f.pack i h ackOk
      (some x.ix, bits h.target.toNat 10 14 * 64, r.length)
    have here : w.tile x.ix = (s.tile x.ix).write .store (bits h.target.toNat 10 14 * 64) r := State.tile_modTile_same ..
    have elsewhere (j : Nat) (hj : j ≠ x.ix) : w.tile j = s.tile j := State.tile_modTile_other _ _ _ _ hj
    rw [lands]
    exact ⟨_, rfl, (congrArg (State.tile · x.ix) same).trans here, fun h0 => if_pos h0,
      fun j hj => (congrArg (State.tile · j) same).trans (elsewhere j hj), (congrArg State.hbm same).trans rfl,
      (congrArg State.host same).trans rfl, (congrArg State.shep same).trans rfl, exposes⟩
  · rwa [State.tsendTx_absent ht hf hq data hx hgr hne]

end Sys2Proof.Machine
end

section
/-! Commands of the Kennel, and Rotation (R270 to R273, R276). -/
namespace Sys2Proof.Machine
open Sys2Proof

/-! ## A fault of a site (R270 to R272) -/

section
variable (s : State) (i : Nat)

theorem State.site_setFaults_same (n : Nat) : (s.setFaults i n).site i = { s.site i with faults := n } :=
  s.site_modSite_same i fun x => { x with faults := n }

theorem State.st_setFaults (n k : Nat) : ((s.setFaults i n).site k).st = (s.site k).st := by
  by_cases h : k = i
  · rw [h, State.site_setFaults_same]
  · rw [s.site_setFaults_other i k n h]

theorem State.spareOf_setFaults (n : Nat) (l : List Nat) : (s.setFaults i n).spareOf l = s.spareOf l := by
  simp only [State.spareOf, State.st_setFaults]
  rfl

/-- R270: the move that takes the tile of a faulty site to a spare. -/
def State.repairMove (j : Nat) : Move :=
  { tile := s.servedTile i, from_ := siteOfIx i, to_ := siteOfIx j, why := .repair, started := false }

/-- R273: where no Rotation step waits, none has to give its spare up. -/
theorem State.stepYields_none (j : Nat) (h : ∀ m ∈ s.kennel.moves, m.mayYield = false) : s.stepYields j = s := by
  have none_ : s.kennel.moves.find? (fun m => m.to_.ix == j && m.mayYield) = none :=
    List.find?_eq_none.mpr fun m hm => by simp [h m hm]
  rw [State.stepYields, none_]

section
variable (hm : s.kennel.moves = []) (j : Nat)
include hm

theorem State.spareFor_ownHalf (l l' : List Nat) (hj : s.spareOf l = some j) : s.spareFor (l ++ l') = some j := by
  have free : s.spareFor l = some j := by
    rw [← hj]
    simp only [State.spareFor, State.spareOf, hm, List.any_nil]
  rw [State.spareFor, List.find?_append]
  exact congrArg (Option.or · _) free

variable (hj : s.spareOf (halfSites (i % 32) (i / 32 / 18)) = some j)
include hj

theorem State.schedule_ownHalf :
    s.schedule i = (true, s.modKennel fun k => { k with moves := [s.repairMove i j] }) := by
  let u := s.modKennel fun k => { k with moves := k.moves ++ [s.repairMove i j] }
  have only : u.kennel.moves = [s.repairMove i j] := congrArg (· ++ [s.repairMove i j]) hm
  have holds : u.stepYields j = u := u.stepYields_none j (by simp [only, State.repairMove, Move.mayYield])
  simp only [State.schedule, s.spareFor_ownHalf hm j _ _ hj]
  refine (congrArg (Prod.mk true) holds).trans ?_
  simp only [u, State.modKennel, hm, List.nil_append]

/-- R270: with a spare in its half, a site in service counts the fault and its tile is to move there. -/
theorem State.quarantine_inService (cause job : Nat) (hs : (s.site i).st = .inService) :
    ∃ m : Move, m.to_ = siteOfIx j ∧ s.quarantine i cause job =
      (s.setFaults i (sat 8 ((s.site i).faults + 1))).modKennel fun k => { k with moves := [m] } := by
  let u := s.setFaults i (sat 8 ((s.site i).faults + 1))
  have moved := u.schedule_ownHalf i hm j ((s.spareOf_setFaults i _ _).trans hj)
  refine ⟨u.repairMove i j, rfl, ?_⟩
  simp only [State.quarantine, hs, hm, List.any_nil, Bool.false_eq_true, if_false]
  rw [moved]
  rfl

end

theorem State.quarantine_suspect (cause job : Nat) (hs : (s.site i).st = .suspect) :
    ∃ b, s.quarantine i cause job = s.raise .log 0x010E i b := by
  simp only [State.quarantine, hs]
  exact ⟨_, rfl⟩

end

/-! ## Commands at the tick (R276) -/

section
variable (s : State)

/-- R276: RESULT of the last command. -/
def State.knlResult (r : BitVec 2) : State := s.modKennel fun k => { k with cmdStatus := r }

/-- R276: the tick takes the commands that wait. -/
def State.cmdsTaken : State := s.modKennel fun k => { k with cmds := [] }

theorem State.finishMoves_none (h : ∀ m ∈ s.kennel.moves, m.done = none) : s.finishMoves = s := by
  have none_ : s.kennel.moves.filter (fun m => m.done.isSome) = [] :=
    List.filter_eq_nil_iff.mpr fun m hm => by simp [h m hm]
  rw [State.finishMoves, none_]
  rfl

theorem State.knlTick_one (h : ∀ m ∈ s.kennel.moves, m.done = none) (c : SiteId × Bool) (hc : s.kennel.cmds = [c]) :
    s.knlTick = s.cmdsTaken.knlApply c := by
  rw [State.knlTick, s.finishMoves_none h, hc]
  rfl

variable (x : SiteId)

theorem State.knlApply_inService (hs : (s.site x.ix).st = .inService) :
    s.knlApply (x, false) = (s.quarantine x.ix 4 0).knlResult 1 := by
  simp only [State.knlApply, hs, Bool.false_eq_true, if_false, if_true]
  rfl

theorem State.knlApply_suspect (hs : (s.site x.ix).st = .suspect) :
    s.knlApply (x, false) = (s.quarantine x.ix 4 0).knlResult 2 := by
  simp only [State.knlApply, hs, Bool.false_eq_true, reduceCtorEq, if_false, if_true]
  rfl

theorem State.knlApply_retest (hs : (s.site x.ix).st = .retired) : s.knlApply (x, true) =
    ((s.setFaults x.ix 0).modSite x.ix fun y => { y with st := .quarantine, passed := 0, retest := true }).knlResult 1 := by
  simp only [State.knlApply, hs, if_true]
  rfl

theorem State.knlApply_notRetired (hs : (s.site x.ix).st ≠ .retired) : s.knlApply (x, true) = s.knlResult 2 := by
  simp only [State.knlApply, hs, if_true, if_false]
  rfl

end

/-! ## Rotation (R273) -/

section
variable (s : State) (l : List Nat)

/-- A Rotation step of these sites that has not started. -/
def State.stepLate : Bool := s.kennel.moves.any fun m => m.mayYield && l.contains m.from_.ix

theorem State.rotateHalf_late (h : s.stepLate l = true) : s.rotateHalf l = s.deferStep := by
  rw [State.rotateHalf]
  exact if_pos h

section
variable (h : s.stepLate l = false)
include h

theorem State.rotateHalf_moves (i j : Nat) (hi : s.oldestSite l = some i) (hj : s.spareOf l = some j) :
    s.rotateHalf l = s.modKennel fun k => { k with moves := k.moves ++
      [{ tile := s.servedTile i, from_ := siteOfIx i, to_ := siteOfIx j, why := .rotation, started := false }] } := by
  rw [State.rotateHalf, hi, hj]
  exact if_neg (ne_true_of_eq_false h)

theorem State.rotateHalf_noSpare (hj : s.spareOf l = none) : s.rotateHalf l = s.deferStep := by
  rw [State.rotateHalf, hj]
  refine (if_neg (ne_true_of_eq_false h)).trans ?_
  cases s.oldestSite l with
  | none => rfl
  | some i => rfl

end

theorem exec_rotationStep : exec .rotationStep s = .next s.rotTick := rfl

theorem State.rotDue_iff : s.rotDue = true ↔
    s.rotEnabled = true ∧ s.rotInterval ≠ 0 ∧ s.kennel.rotSince + s.rotInterval ≤ s.tick.now := by
  simp [State.rotDue, and_assoc]

theorem State.rotTick_waits (h : ¬(s.rotDue = true ∧ s.sec.mcRunning = true)) : s.rotTick = s := by
  rw [State.rotTick, if_neg]
  rwa [Bool.and_eq_true]

/-- R273: one step in each of the 64 halves, and the next interval begins. -/
theorem State.rotTick_steps (h : s.rotDue = true) (hr : s.sec.mcRunning = true) (u : State)
    (hu : (List.range 64).foldl (fun s n => s.rotateHalf (halfSites (n / 2) (n % 2))) s = u) :
    s.rotTick = { u with kennel := { u.kennel with rotSince := u.kennel.rotSince + u.rotInterval } } := by
  have due : (s.rotDue && s.sec.mcRunning) = true := Bool.and_eq_true_iff.mpr ⟨h, hr⟩
  rw [State.rotTick, if_pos due, hu]
  rfl

end

/-! ## The statement -/

/-- Settles O21: each command by its case of `knlApply`, a half by the cases of `rotateHalf`, the interval by `rotTick`. -/
theorem kennelCommandsAndRotationMoveTheirTiles : Obligations.KennelCommandsAndRotationMoveTheirTiles := by
  refine ⟨fun s x => ⟨rfl, rfl, fun j hc hm hs hj => ?_, fun hn => ⟨fun hc hs => ?_, fun hc hs => ?_, fun hc hs => ?_⟩⟩,
    fun s l => ⟨fun h => ⟨s.rotateHalf_moves l h, s.rotateHalf_noSpare l h⟩, s.rotateHalf_late l, fun h => ?_,
      fun he hi hd hr => ?_⟩⟩
  · obtain ⟨m, hto, hq⟩ := s.cmdsTaken.quarantine_inService x.ix hm j hj 4 0 hs
    rw [s.knlTick_one (by simp [hm]) _ hc, s.cmdsTaken.knlApply_inService x hs, hq]
    exact ⟨congrArg (fun y => [y]) hto, congrArg SiteSt.faults (s.cmdsTaken.site_setFaults_same x.ix _), rfl⟩
  · obtain ⟨b, hq⟩ := s.cmdsTaken.quarantine_suspect x.ix 4 0 hs
    rw [s.knlTick_one hn _ hc, s.cmdsTaken.knlApply_suspect x hs, hq]
    exact ⟨rfl, rfl, _, _, rfl, rfl, rfl⟩
  · let u := s.cmdsTaken.setFaults x.ix 0
    have site := u.site_modSite_same x.ix fun y => { y with st := .quarantine, passed := 0, retest := true }
    have faults := congrArg SiteSt.faults (s.cmdsTaken.site_setFaults_same x.ix 0)
    rw [s.knlTick_one hn _ hc, s.cmdsTaken.knlApply_retest x hs]
    exact ⟨congrArg SiteSt.st site, (congrArg SiteSt.faults site).trans faults, rfl, rfl⟩
  · rw [s.knlTick_one hn _ hc, s.cmdsTaken.knlApply_notRetired x hs]
    exact ⟨rfl, rfl⟩
  · rw [exec_rotationStep, State.rotTick_waits]
    rw [s.rotDue_iff]
    rintro ⟨⟨he, -, hd⟩, hr⟩
    rcases h with h | h | h
    · cases he.symm.trans h
    · omega
    · cases hr.symm.trans h
  · exact (exec_rotationStep s).trans (congrArg _ (s.rotTick_steps (s.rotDue_iff.mpr ⟨he, hi, hd⟩) hr _ rfl))

end Sys2Proof.Machine
end

section
/-! SUPPORT. HBM, said once: locations and stacks, what an error and a clean code unit are to a read, what a buffer holds, and
what writing a buffer to memory changes (R278 to R285). -/
namespace Sys2Proof.Machine
open Sys2Proof

variable (s : State)

/-! ## Locations and stacks (R278, R279, R289) -/

/-- A frame is served by a whole frame. -/
theorem Hbm.loc_mod (h : Hbm) (a : Nat) : h.loc a % 256 = a % 256 := by
  unfold Hbm.loc
  split
  · rfl
  · dsimp only
    split
    · simp only [hbmReservedEnd]
      omega
    · rfl

theorem unitOf_pos_lt (l : Nat) : (unitOf l).pos < 5 := by
  simp only [unitOf]
  omega

theorem State.stack_modStack (k j : Nat) (f : StackSt → StackSt) :
    (s.modStack k f).stack j = if j = k then f (s.stack k) else s.stack j := by
  split
  next h => rw [h, State.stack_modStack_same]
  next h => exact s.stack_modStack_other k j f h

/-- A part of a stack that an update keeps stands on every stack. -/
theorem State.stack_modStack_keeps {β : Type} (g : StackSt → β) (k j : Nat) (f : StackSt → StackSt) (hf : ∀ x, g (f x) = g x) :
    g ((s.modStack k f).stack j) = g (s.stack j) := by
  rw [State.stack_modStack]
  split
  next h => rw [hf, h]
  next => rfl

theorem State.unitLost_eq (u : UnitId) :
    s.unitLost u = ((s.stack u.stack).failed || (s.stack u.stack).failedPc.getLsbD u.pc) := rfl

theorem State.unitLost_modStack (k : Nat) (f : StackSt → StackSt) (hf : ∀ x, (f x).failed = x.failed ∧ (f x).failedPc = x.failedPc)
    (u : UnitId) : (s.modStack k f).unitLost u = s.unitLost u := by
  rw [State.unitLost_eq, State.unitLost_eq, s.stack_modStack_keeps StackSt.failed _ _ f fun x => (hf x).1,
    s.stack_modStack_keeps StackSt.failedPc _ _ f fun x => (hf x).2]

/-- R292: a request that reaches a stack wakes it, and no unit is lost or recovered. -/
theorem State.unitLost_touchStack (k : Nat) (u : UnitId) : (s.touchStack k).unitLost u = s.unitLost u :=
  s.unitLost_modStack k (fun x => { x with asleep := false, lastReq := s.tick.now }) (fun _ => ⟨rfl, rfl⟩) u

/-- The errors that the world puts into code units change nothing else. -/
theorem State.unitHit_eq (st : Nat) (errs : List UnitErr) : ∃ b, s.unitHit st errs = { s with hbm := { s.hbm with bad := b } } := by
  induction errs generalizing s with
  | nil => exact ⟨_, rfl⟩
  | cons e errs ih =>
    obtain ⟨b, h⟩ := ih (s.unitHit st [e])
    exact ⟨b, h⟩

/-! ## Accesses that fail (R283) -/

theorem State.foldl_latchFault (st : Nat) (ids : List Nat) : ids.foldl (fun (s : State) id => s.latchFault id st) s =
    { s with tiles := { s.tiles with faults := s.tiles.faults ++ ids.map (⟨·, st⟩) } } := by
  induction ids generalizing s with
  | nil => simp
  | cons id ids ih =>
    rw [List.foldl_cons, ih]
    simp [State.latchFault]

/-- R283: an access to a user page ends the descriptors that it is for. -/
theorem State.memoryDoubt_user (a : Nat) (ids : List Nat) (h : a < 320 * 2 ^ 30) : s.memoryDoubt a ids =
    { s with tiles := { s.tiles with faults := s.tiles.faults ++ ids.map (⟨·, stMemory⟩) } } := by
  rw [State.memoryDoubt, if_neg (by simp only [hbmUserEnd]; omega), State.foldl_latchFault]

/-- R283: one to the reserved range Muzzles the module. -/
theorem State.memoryDoubt_reserved (a : Nat) (ids : List Nat) (h : 320 * 2 ^ 30 ≤ a) (h' : a < 336 * 2 ^ 30) :
    s.memoryDoubt a ids = s.trigger .module 0x01 := by
  rw [State.memoryDoubt, if_pos (by simp only [hbmUserEnd, hbmReservedEnd]; omega)]

/-! ## Code units and their errors (R282) -/

/-- A code unit with a number of erroneous symbols, on a working stack and on no suspect row. -/
structure State.CellHas (s : State) (c : CellId) (n : Nat) : Prop where
  works : s.unitLost c.unit = false
  trusted : s.suspectUnit c.unit = false
  errors : s.cellBad c = n

theorem cleanStripe_cell {s : State} {st p col : Nat} (h : cleanStripe s st) (hp : p < 6) (hc : col < 8) :
    s.CellHas ⟨⟨st, p⟩, col⟩ 0 :=
  have ⟨works, trusted, clean⟩ := h p hp
  ⟨works, trusted, clean col hc⟩

theorem State.countEv_cellBad (u ev n : Nat) (c : CellId) : (s.countEv u ev n).cellBad c = s.cellBad c := by
  rw [State.countEv_eq]
  rfl

section
variable {s} {c : CellId}

theorem State.CellHas.decode_clean (h : s.CellHas c 0) :
    s.decodeCell c = (true, s.countEv (hbmUnit c.unit.stack) 0x080 1) := by
  rw [State.decodeCell, if_neg (by rw [h.works]; decide)]
  simp only [State.countEv_cellBad, h.errors]

theorem State.CellHas.decode_one (h : s.CellHas c 1) :
    s.decodeCell c = (true, (s.countEv (hbmUnit c.unit.stack) 0x080 1).corrected c) := by
  rw [State.decodeCell, if_neg (by rw [h.works]; decide)]
  simp only [State.countEv_cellBad, h.errors]

theorem State.CellHas.decode_two (h : s.CellHas c 2) :
    s.decodeCell c = (false, (s.countEv (hbmUnit c.unit.stack) 0x080 1).codeFailed c) := by
  rw [State.decodeCell, if_neg (by rw [h.works]; decide)]
  simp only [State.countEv_cellBad, h.errors]

/-- R287: off the suspect rows a code unit is read through its code first. -/
theorem State.CellHas.read_decoded {n : Nat} (h : s.CellHas c n) {t : State} (hd : s.decodeCell c = (true, t)) :
    s.readCell c = (true, t) := by
  rw [State.readCell, if_neg (by rw [h.trusted]; decide)]
  simp only [hd]

theorem State.CellHas.read_failed {n : Nat} (h : s.CellHas c n) {t : State} (hd : s.decodeCell c = (false, t)) :
    s.readCell c = t.rebuild c := by
  rw [State.readCell, if_neg (by rw [h.trusted]; decide)]
  simp only [hd]

end

/-- Clean code units are read without loss, and the reads alone are counted. -/
theorem State.readCells_clean (l : List CellId) (h : ∀ c ∈ l, s.CellHas c 0) : ∃ k, s.readCells l = (true, { s with cnt := k }) := by
  induction l generalizing s with
  | nil => exact ⟨_, rfl⟩
  | cons c l ih =>
    have one : s.readCells (c :: l) = (s.countEv (hbmUnit c.unit.stack) 0x080 1).readCells l := by
      rw [State.readCells, List.foldl_cons, (h c List.mem_cons_self).read_decoded (h c List.mem_cons_self).decode_clean]
      rfl
    rw [one, State.countEv_eq]
    obtain ⟨k, hk⟩ := ih { s with cnt := (s.countEv (hbmUnit c.unit.stack) 0x080 1).cnt } fun d hd =>
      have ⟨works, trusted, clean⟩ := h d (List.mem_cons_of_mem _ hd)
      ⟨works, trusted, clean⟩
    exact ⟨k, hk⟩

/-! ## Check symbols stored afresh -/

/-- A state after check symbols have been stored afresh and events counted: what was clean is clean. -/
def storedAfresh (s t : State) : Prop := ∃ b k, t = { s with hbm := { s.hbm with bad := b }, cnt := k } ∧
  ∀ i, Table.get 0 s.hbm.bad i = 0 → Table.get 0 b i = 0

theorem storedAfresh_refl : storedAfresh s s := ⟨_, _, rfl, fun _ h => h⟩

theorem storedAfresh_trans {s t u : State} (h : storedAfresh s t) (h' : storedAfresh t u) : storedAfresh s u := by
  obtain ⟨b, k, rfl, hb⟩ := h
  obtain ⟨b', k', rfl, hb'⟩ := h'
  exact ⟨b', k', rfl, fun i hi => hb' i (hb i hi)⟩

theorem storedAfresh_foldl {α : Type} (f : State → α → State) (hf : ∀ t x, storedAfresh t (f t x)) (l : List α) :
    storedAfresh s (l.foldl f s) :=
  List.foldlRecOn (motive := storedAfresh s) l f (storedAfresh_refl s) fun _ ht x _ => storedAfresh_trans ht (hf _ x)

theorem storedAfresh_countEv (u ev n : Nat) : storedAfresh s (s.countEv u ev n) :=
  ⟨_, _, s.countEv_eq u ev n, fun _ h => h⟩

theorem storedAfresh_cellFresh (c : CellId) : storedAfresh s (s.cellFresh c) := by
  refine ⟨_, _, rfl, fun i hi => ?_⟩
  by_cases h : i = c.key
  · rw [h]
    exact Table.get_erase_same ..
  · exact (Table.get_erase_other _ _ _ _ h).trans hi

/-! ## Buffers written to memory (R284, R285, R290) -/

/-- The bytes of a buffer in memory. -/
def WcBuf.writtenTo (b : WcBuf) (m : Memory) : Memory := b.bytes.foldl (fun m e => m.writeByte (b.stripe * 1280 + e.1) e.2) m

theorem Hbm.foldl_parExact (h : Hbm) (cells : List CellId) : ∃ p, cells.foldl Hbm.parExact h = { h with par := p } := by
  induction cells generalizing h with
  | nil => exact ⟨_, rfl⟩
  | cons c cells ih =>
    obtain ⟨p, hp⟩ := ih (h.parExact c)
    exact ⟨p, hp⟩

/-- R284: a healthy stripe reads units of its own for the parity. -/
theorem WcBuf.plan_reads_lt (b : WcBuf) (col p : Nat) (h : p ∈ (b.plan [] col).reads) : p < 6 := by
  have five (q : Nat → Bool) (h : p ∈ (List.range 5).filter q) : p < 6 := by
    have := List.mem_range.mp (List.mem_of_mem_filter h)
    omega
  unfold WcBuf.plan at h
  simp only [List.contains_nil, Bool.or_false, List.isEmpty_nil, if_true] at h
  split at h
  · cases h
  split at h
  · exact five _ h
  · rcases List.mem_append.mp h with h | h
    · exact five _ h
    · rw [List.mem_singleton.mp h]
      decide

section
variable {s} {b : WcBuf} (h : cleanStripe s b.stripe)
include h

theorem WcBuf.nothing_lost : ((List.range 6).filter fun p => s.unitLost ⟨b.stripe, p⟩) = [] := by
  refine List.filter_eq_nil_iff.mpr fun p hp => ?_
  obtain ⟨works, -⟩ := h p (List.mem_range.mp hp)
  rw [works]
  decide

/-- R284: the units that a write of a healthy stripe needs are read without loss. -/
theorem WcBuf.reads_clean (cols : List Nat) (hc : ∀ col ∈ cols, col < 8) : ∃ k,
    s.readCells (cols.flatMap fun col => (b.plan [] col).reads.map fun p => ⟨⟨b.stripe, p⟩, col⟩) = (true, { s with cnt := k }) := by
  refine s.readCells_clean _ fun c hmem => ?_
  obtain ⟨col, hcol, hmem⟩ := List.mem_flatMap.mp hmem
  obtain ⟨p, hp, rfl⟩ := List.mem_map.mp hmem
  exact cleanStripe_cell h (b.plan_reads_lt col p hp) (hc col hcol)

/-- R284, R285: a buffer of a healthy stripe is written: its bytes, the parity and check symbols. -/
theorem State.flushBuf_writes (hl : s.hbm.lostGroup (b.stripe % 2) = false) : ∃ par bad k, s.flushBuf b =
    { s with hbm := { s.hbm with data := b.writtenTo s.hbm.data, par := par, bad := bad }, cnt := k } ∧
      ∀ i, Table.get 0 s.hbm.bad i = 0 → Table.get 0 bad i = 0 := by
  unfold State.flushBuf
  extract_lets lost cols cell anew put
  have hlost : lost = [] := WcBuf.nothing_lost h
  obtain ⟨k, hk⟩ := WcBuf.reads_clean h cols fun col hc => List.mem_range.mp (List.mem_of_mem_filter hc)
  rw [hlost, hk]
  simp only [Bool.true_and, hl, Bool.not_false, if_true]
  obtain ⟨par, hpar⟩ := Hbm.foldl_parExact { s.hbm with data := b.writtenTo s.hbm.data } (anew.map fun col => cell col 5)
  rw [List.foldl_map] at hpar
  have hput (t : State) (p : Nat) : storedAfresh t (put t p) := by
    refine storedAfresh_trans (t := if lost.contains p then t else _) ?_ (storedAfresh_foldl _ _ (fun t _ => storedAfresh_cellFresh t _) _)
    split
    · exact storedAfresh_refl t
    · exact storedAfresh_countEv t ..
  generalize hu : State.modHbm _ _ = u
  have hu' : u = { s with hbm := { s.hbm with data := b.writtenTo s.hbm.data, par := par }, cnt := k } := by
    rw [← hu, ← hpar]
    rfl
  obtain ⟨bad, k', e, hbad⟩ := storedAfresh_trans (storedAfresh_countEv u (hbmUnit (UnitId.stack ⟨b.stripe, 5⟩))
    (writeEvent b.units b.full) 1) (storedAfresh_foldl _ put hput (b.units ++ [5]))
  rw [hu'] at e hbad
  rw [hu']
  exact ⟨par, bad, k', e, hbad⟩

/-- R284, R291: a write to a group that has lost its data is an unrecoverable access. -/
theorem State.flushBuf_lost (hl : s.hbm.lostGroup (b.stripe % 2) = true)
    (ha : ∀ e ∈ b.bytes, s.hbm.addrOf (b.stripe * 1280 + e.1) < 320 * 2 ^ 30) :
    ∃ k, s.flushBuf b = State.memoryDoubt { s with cnt := k } 0 b.writers := by
  unfold State.flushBuf
  extract_lets lost cols cell anew put
  have hlost : lost = [] := WcBuf.nothing_lost h
  obtain ⟨k, hk⟩ := WcBuf.reads_clean h cols fun col hc => List.mem_range.mp (List.mem_of_mem_filter hc)
  rw [hlost, hk]
  simp only [Bool.true_and, hl, Bool.not_true, Bool.false_eq_true, if_false]
  refine ⟨k, if_neg fun hany => ?_⟩
  obtain ⟨a, hmem, hin⟩ := List.any_eq_true.mp hany
  obtain ⟨e, he, rfl⟩ := List.mem_map.mp hmem
  exact absurd (of_decide_eq_true ((Bool.and_eq_true _ _).mp hin).1) (Nat.not_le.mpr (ha e he))

end

/-! ## What a buffer holds (R285) -/

/-- Bytes put into a table from an index on, as a span enters a buffer. -/
def putBytes (t : Table Byte) (o : Nat) (b : List Byte) : Table Byte :=
  (b.foldl (fun (acc : Table Byte × Nat) x => (Table.put acc.1 acc.2 x, acc.2 + 1)) (t, o)).1

theorem putBytes_cons (t : Table Byte) (o : Nat) (x : Byte) (b : List Byte) :
    putBytes t o (x :: b) = putBytes (Table.put t o x) (o + 1) b := rfl

theorem Table.length_put_le {α : Type} (t : Table α) (k : Nat) (v : α) : (Table.put t k v).length ≤ t.length + 1 := by
  induction t with
  | nil => exact Nat.le_refl _
  | cons e t ih =>
    obtain ⟨i, w⟩ := e
    unfold Table.put
    split
    · exact Nat.le_refl _
    · split
      · exact Nat.le_succ _
      · exact Nat.succ_le_succ ih

theorem length_putBytes_le (t : Table Byte) (o : Nat) (b : List Byte) : (putBytes t o b).length ≤ t.length + b.length := by
  induction b generalizing t o with
  | nil => exact Nat.le_refl _
  | cons x b ih =>
    have put := Table.length_put_le t o x
    have rest := ih (Table.put t o x) (o + 1)
    rw [putBytes_cons, List.length_cons]
    omega

theorem find?_putBytes_outside (t : Table Byte) (o k : Nat) (b : List Byte) (h : k < o ∨ o + b.length ≤ k) :
    (putBytes t o b).find? (fun e => e.1 == k) = t.find? fun e => e.1 == k := by
  induction b generalizing t o with
  | nil => rfl
  | cons x b ih =>
    rw [List.length_cons] at h
    rw [putBytes_cons, ih _ _ (by omega), Table.find?_put_other _ _ _ _ (by omega)]

theorem find?_putBytes_inside (t : Table Byte) (o i : Nat) (b : List Byte) (x : Byte) (h : b[i]? = some x) :
    (putBytes t o b).find? (fun e => e.1 == o + i) = some (o + i, x) := by
  induction b generalizing t o i with
  | nil => simp at h
  | cons y b ih =>
    rw [putBytes_cons]
    cases i with
    | zero =>
      obtain rfl : y = x := by simpa using h
      rw [find?_putBytes_outside _ _ _ _ (.inl (by omega)), Nat.add_zero, Table.find?_put_same]
    | succ i =>
      have at_ : o + 1 + i = o + (i + 1) := by omega
      exact at_ ▸ ih (Table.put t o y) (o + 1) i (by simpa using h)

theorem Hbm.buffered_eq (h : Hbm) (l : Nat) : h.buffered l =
    ((h.bufs (l / 1280 % 2)).find? fun b => b.stripe == l / 1280).bind fun b =>
      (b.bytes.find? fun e => e.1 == l % 1280).map Prod.snd := by
  unfold Hbm.buffered Hbm.bufs
  cases List.find? _ _ <;> rfl

theorem Hbm.buffered_none (h : Hbm) (l : Nat) (hn : ∀ x ∈ h.bufs (l / 1280 % 2), x.stripe ≠ l / 1280) : h.buffered l = none := by
  rw [Hbm.buffered_eq, List.find?_eq_none.mpr fun x hx => by simpa using hn x hx]
  rfl

/-- What memory gives depends on the data, on the parity and on what is lost. -/
theorem Hbm.stored_congr {h h' : Hbm} (hd : h'.data = h.data) (hp : h'.par = h.par) (hs : ∀ u, h'.unitLost u = h.unitLost u)
    (l : Nat) : h'.stored l = h.stored l := by
  rw [Hbm.stored, Hbm.stored, hs, hd, hp]

/-- A buffer of its own for a span, with the span's bytes and writers. -/
def spanBuf (l : Nat) (b : List Byte) (now : Nat) (ws : List Nat) : WcBuf := ⟨l / 1280, putBytes [] (l % 1280) b, now, ws⟩

@[simp] theorem State.bufs_setBufs_same (g : Nat) (l : List WcBuf) : (s.setBufs g l).hbm.bufs g = l := by
  simp only [State.setBufs, Hbm.bufs, State.modHbm_hbm]
  by_cases h : g = 0 <;> simp [h]

theorem State.bufs_setBufs_other (g k : Nat) (l : List WcBuf) (h : g = 0 ↔ k ≠ 0) :
    (s.setBufs g l).hbm.bufs k = s.hbm.bufs k := by
  simp only [State.setBufs, Hbm.bufs, State.modHbm_hbm]
  by_cases hk : k = 0 <;> simp_all

theorem State.setBufs_setBufs (g : Nat) (l l' : List WcBuf) : (s.setBufs g l).setBufs g l' = s.setBufs g l' := by
  simp only [State.setBufs, State.modHbm]
  by_cases h : g = 0 <;> simp [h]

theorem State.setBufs_eq (g : Nat) (l : List WcBuf) :
    ∃ w0 w1, s.setBufs g l = { s with hbm := { s.hbm with wc0 := w0, wc1 := w1 } } := by
  simp only [State.setBufs, State.modHbm]
  by_cases h : g = 0
  · exact ⟨_, _, by rw [if_pos h]⟩
  · exact ⟨_, _, by rw [if_neg h]⟩

variable {s} in
/-- R285: a span whose stripe no buffer holds begins one. -/
theorem State.bufferSpan_begins (l : Nat) (b : List Byte) (ws : List Nat)
    (hn : ∀ x ∈ s.hbm.bufs (l / 1280 % 2), x.stripe ≠ l / 1280) (hlt : (s.hbm.bufs (l / 1280 % 2)).length < 64)
    (hb : b.length < 1280) :
    s.bufferSpan l b ws = s.setBufs (l / 1280 % 2) (s.hbm.bufs (l / 1280 % 2) ++ [spanBuf l b s.tick.now ws]) := by
  unfold State.bufferSpan
  extract_lets st g add room s1 s2
  have none_ : ((s.hbm.bufs g).any fun b => b.stripe == st) = false :=
    List.any_eq_false.mpr fun x hx => by simpa using hn x hx
  have room_ : room = s := if_neg (Nat.not_le.mpr hlt)
  have begun : s1 = s.setBufs g (s.hbm.bufs g ++ [⟨st, [], s.tick.now, []⟩]) := by
    simp only [s1, none_, room_, Bool.false_eq_true, if_false]
  have old : (s.hbm.bufs g).map (fun b => if b.stripe == st then add b else b) = s.hbm.bufs g :=
    (List.map_congr_left fun x hx => if_neg (by simpa using hn x hx)).trans (List.map_id _)
  have new : add ⟨st, [], s.tick.now, []⟩ = spanBuf l b s.tick.now ws := by
    simp [add, spanBuf, putBytes, st]
  have held : s2 = s.setBufs g (s.hbm.bufs g ++ [spanBuf l b s.tick.now ws]) := by
    simp only [s2, begun, State.bufs_setBufs_same, State.setBufs_setBufs, List.map_append, old, List.map_cons, List.map_nil,
      beq_self_eq_true, if_true, new]
  have short := length_putBytes_le [] (l % 1280) b
  have notFull : (s2.hbm.bufs g).find? (fun b => b.stripe == st && b.bytes.length == 1280) = none := by
    rw [held, State.bufs_setBufs_same]
    refine List.find?_eq_none.mpr fun x hx => ?_
    rcases List.mem_append.mp hx with hx | hx
    · simp [beq_false_of_ne (hn x hx), st]
    · rw [List.mem_singleton.mp hx]
      simp only [List.length_nil, Nat.zero_add] at short
      have : (putBytes [] (l % 1280) b).length ≠ 1280 := by omega
      simp [spanBuf, this]
  simp only [notFull]
  exact held

end Sys2Proof.Machine
end

section
/-! HBM writes (R284, R285, R291, R293): into their buffer, and from it to memory. -/
namespace Sys2Proof.Machine
open Sys2Proof

variable (s : State)

/-! ## Requests (R282, R284, R293) -/

theorem exec_hbmRead (a : BitVec 40) (id : Option Nat) (errs : List UnitErr) (h : a.toNat < 360 * 2 ^ 30) :
    exec (.hbmRead a id errs) s =
      .next ((s.unitHit (unitOf (s.hbm.loc a.toNat)).stripe errs).askHbm ⟨a.toNat, none, id⟩) :=
  if_neg (Nat.not_le.mpr h)

theorem exec_hbmWrite (a : BitVec 40) (b : List Byte) (w : Option Nat) (errs : List UnitErr)
    (h : a.toNat + b.length ≤ 360 * 2 ^ 30) (h' : a.toNat < 360 * 2 ^ 30) :
    exec (.hbmWrite a b w errs) s =
      .next ((s.unitHit (unitOf (s.hbm.loc a.toNat)).stripe errs).askHbm ⟨a.toNat, some b, w⟩) :=
  if_neg (not_or.mpr ⟨Nat.not_lt.mpr h, Nat.not_le.mpr h'⟩)

section
variable (st : Nat) (errs : List UnitErr)

@[simp] theorem State.unitHit_loc (a : Nat) : (s.unitHit st errs).hbm.loc a = s.hbm.loc a := by
  obtain ⟨b, h⟩ := s.unitHit_eq st errs
  rw [h]
  rfl

@[simp] theorem State.unitHit_held : (s.unitHit st errs).hbm.held = s.hbm.held := by
  obtain ⟨b, h⟩ := s.unitHit_eq st errs
  rw [h]
  rfl

@[simp] theorem State.unitHit_lostGroup (g : Nat) : (s.unitHit st errs).hbm.lostGroup g = s.hbm.lostGroup g := by
  obtain ⟨b, h⟩ := s.unitHit_eq st errs
  rw [h]
  rfl

end

variable {s} in
/-- R293: a frequency change holds a request, unless its group has lost its data. -/
theorem State.askHbm_held (q : HbmReq) (h : s.hbm.held = true) (hl : s.hbm.lostGroup (unitOf (s.hbm.loc q.addr)).grp = false) :
    s.askHbm q = s.modHbm fun h => { h with waiting := h.waiting ++ [q] } :=
  if_pos (by rw [h, hl]; rfl)

variable {s} in
theorem State.askHbm_served (q : HbmReq) (h : s.hbm.held = false ∨ s.hbm.lostGroup (unitOf (s.hbm.loc q.addr)).grp = true) :
    s.askHbm q = s.serveHbm q :=
  if_neg (by rcases h with h | h <;> simp [h])

/-! ## A write within a unit (R285) -/

variable {s} in
theorem State.hbmWrite_within {a : Nat} {b : List Byte} (hu : a % 256 + b.length ≤ 256) (hb : b ≠ []) (ws : List Nat) :
    s.hbmWrite ws a b = (s.touchStack (unitOf (s.hbm.loc a)).stack).bufferSpan (s.hbm.loc a) b ws := by
  have pos := List.length_pos_of_ne_nil hb
  have one : ceilDiv (a % 256 + b.length) 256 = 1 := by
    unfold ceilDiv
    omega
  have lo : max a (a / 256 * 256 + 0 * 256) = a := by omega
  have hi : min (a + b.length) (a / 256 * 256 + 0 * 256 + 256) = a + b.length := by omega
  have all : (b.drop (a - a)).take (a + b.length - a) = b := by simp
  simp only [State.hbmWrite, one, List.range_one, List.map_cons, List.map_nil, List.foldl_cons, List.foldl_nil, lo, hi, all]

section
variable {s} {l : Nat} {b : List Byte} {ws : List Nat}
  (hn : ∀ x ∈ s.hbm.bufs (l / 1280 % 2), x.stripe ≠ l / 1280)

/-- The state in which a span has begun its buffer. -/
def State.spanBegun (s : State) (l : Nat) (b : List Byte) (ws : List Nat) : State :=
  s.setBufs (l / 1280 % 2) (s.hbm.bufs (l / 1280 % 2) ++ [spanBuf l b s.tick.now ws])

include hn

theorem buffered_spanBegun_stripe (m : Nat) (hm : m / 1280 = l / 1280) : (s.spanBegun l b ws).hbm.buffered m =
    ((putBytes [] (l % 1280) b).find? fun e => e.1 == m % 1280).map Prod.snd := by
  have old : (s.hbm.bufs (l / 1280 % 2)).find? (fun x => x.stripe == l / 1280) = none :=
    List.find?_eq_none.mpr fun x hx => by simpa using hn x hx
  rw [Hbm.buffered_eq, hm, State.spanBegun, State.bufs_setBufs_same, List.find?_append, old]
  simp [spanBuf]

omit hn in
theorem buffered_spanBegun_other (m : Nat) (hm : m / 1280 ≠ l / 1280) : (s.spanBegun l b ws).hbm.buffered m = s.hbm.buffered m := by
  rw [Hbm.buffered_eq, Hbm.buffered_eq, State.spanBegun]
  by_cases hg : m / 1280 % 2 = l / 1280 % 2
  · have off : (l / 1280 == m / 1280) = false := beq_false_of_ne (Ne.symm hm)
    rw [hg, State.bufs_setBufs_same, List.find?_append]
    simp [spanBuf, off]
  · rw [State.bufs_setBufs_other _ _ _ _ (by omega)]

/-- R285: reads see the bytes of the span. -/
theorem byteAt_spanBegun_inside (hu : l % 1280 + b.length ≤ 1280) (i : Nat) (x : Byte) (hx : b[i]? = some x) :
    (s.spanBegun l b ws).hbm.byteAt (l + i) = x := by
  have hi : i < b.length := (List.getElem?_eq_some_iff.mp hx).1
  have stripe : (l + i) / 1280 = l / 1280 := by omega
  have offset : (l + i) % 1280 = l % 1280 + i := by omega
  rw [Hbm.byteAt, buffered_spanBegun_stripe hn _ stripe, offset, find?_putBytes_inside _ _ _ _ x hx]
  rfl

omit hn in
theorem stored_spanBegun (m : Nat) : (s.spanBegun l b ws).hbm.stored m = s.hbm.stored m := by
  obtain ⟨w0, w1, h⟩ := s.setBufs_eq (l / 1280 % 2) (s.hbm.bufs (l / 1280 % 2) ++ [spanBuf l b s.tick.now ws])
  rw [State.spanBegun, h]
  exact Hbm.stored_congr rfl rfl (fun _ => rfl) m

/-- R285: reads see no other byte change. -/
theorem byteAt_spanBegun_outside (m : Nat) (hm : m < l ∨ l + b.length ≤ m) :
    (s.spanBegun l b ws).hbm.byteAt m = s.hbm.byteAt m := by
  have same : (s.spanBegun l b ws).hbm.buffered m = s.hbm.buffered m := by
    by_cases stripe : m / 1280 = l / 1280
    · rw [buffered_spanBegun_stripe hn _ stripe, find?_putBytes_outside _ _ _ _ (by omega),
        s.hbm.buffered_none m (stripe ▸ hn)]
      rfl
    · exact buffered_spanBegun_other m stripe
  rw [Hbm.byteAt, Hbm.byteAt, same, stored_spanBegun]

end

/-! ## A request that reaches its stack (R285, R292) -/

/-- The errors that come with a request, and the waking of its stack, change neither the data nor the buffers. -/
structure Reaches (s t : State) : Prop where
  hbm : ∃ bad l, t = { s with hbm := { s.hbm with bad := bad, stackList := l } }
  lost : ∀ u, t.unitLost u = s.unitLost u

theorem reaches (st k : Nat) (errs : List UnitErr) : Reaches s ((s.unitHit st errs).touchStack k) where
  hbm := by
    obtain ⟨b, h⟩ := s.unitHit_eq st errs
    rw [h]
    exact ⟨_, _, rfl⟩
  lost u := by
    rw [State.unitLost_touchStack]
    obtain ⟨b, h⟩ := s.unitHit_eq st errs
    rw [h]
    rfl

theorem Reaches.byteAt {s t : State} (h : Reaches s t) (m : Nat) : t.hbm.byteAt m = s.hbm.byteAt m := by
  obtain ⟨⟨bad, l, rfl⟩, lost⟩ := h
  have stored := Hbm.stored_congr (h := s.hbm) (h' := { s.hbm with bad := bad, stackList := l }) rfl rfl lost m
  exact congrArg (Option.getD (s.hbm.buffered m)) stored

/-! ## A buffer that is written (R284, R291) -/

/-- WC_BUFFER_FLUSH writes the oldest buffer of a group. -/
theorem exec_wcBufferFlush (g : Fin 2) {b : WcBuf} {rest : List WcBuf} (h : s.hbm.bufs g.val = b :: rest) :
    exec (.wcBufferFlush g []) s = .next ((s.setBufs g.val rest).flushBuf b) := by
  simp only [exec, execWcBufferFlush, h]
  exact congrArg _ (by simp only [State.unitHit, List.foldl_nil, State.flushOldest, h])

theorem cleanStripe_setBufs {s : State} {st : Nat} (h : cleanStripe s st) (g : Nat) (l : List WcBuf) : cleanStripe (s.setBufs g l) st := by
  obtain ⟨w0, w1, e⟩ := s.setBufs_eq g l
  rw [e]
  exact h

theorem State.setBufs_addrOf (g : Nat) (l : List WcBuf) (a : Nat) : (s.setBufs g l).hbm.addrOf a = s.hbm.addrOf a := by
  obtain ⟨w0, w1, e⟩ := s.setBufs_eq g l
  rw [e]
  rfl

theorem State.setBufs_lostGroup (g : Nat) (l : List WcBuf) (k : Nat) : (s.setBufs g l).hbm.lostGroup k = s.hbm.lostGroup k := by
  obtain ⟨w0, w1, e⟩ := s.setBufs_eq g l
  rw [e]
  rfl

theorem State.setBufs_data (g : Nat) (l : List WcBuf) : (s.setBufs g l).hbm.data = s.hbm.data := by
  obtain ⟨w0, w1, e⟩ := s.setBufs_eq g l
  rw [e]

/-- Settles O40: a request is held or served; a span that begins its buffer by `byteAt_spanBegun_inside` and
`byteAt_spanBegun_outside`; a buffer that is written by `flushBuf_writes` and `flushBuf_lost`. -/
theorem hbmWritesAreVisibleInTheirBuffer : Obligations.HbmWritesAreVisibleInTheirBuffer := by
  intro s
  refine ⟨fun a b w errs => ?_, fun g b rest hg hclean => ?_⟩
  · intro l u
    refine ⟨fun hf => if_pos (by simp only [hbmEnd]; omega), fun hfit ha => ?_⟩
    have asked := exec_hbmWrite s a b w errs hfit ha
    refine ⟨fun hh hl => ?_, fun hh hu hb => ?_⟩
    · rw [asked, State.askHbm_held _ (by simpa using hh) (by simpa using hl)]
    · have written : exec (.hbmWrite a b w errs) s =
          .next (((s.unitHit u.stripe errs).touchStack u.stack).bufferSpan l b w.toList) := by
        rw [asked, State.askHbm_served _ (.inl (by simpa using hh))]
        exact congrArg _ ((State.hbmWrite_within hu hb w.toList).trans (by rw [State.unitHit_loc]))
      refine ⟨written, fun hn hlt => ?_⟩
      have reached := reaches s u.stripe u.stack errs
      have size : l % 1280 + b.length ≤ 1280 := by
        have := s.hbm.loc_mod a.toNat
        simp only [l]
        omega
      generalize (s.unitHit u.stripe errs).touchStack u.stack = v at written reached
      have same : v.hbm.bufs (l / 1280 % 2) = s.hbm.bufs (l / 1280 % 2) := by
        obtain ⟨bad, k, e⟩ := reached.hbm
        rw [e]
        rfl
      rw [State.bufferSpan_begins l b w.toList (by rw [same]; exact hn) (by rw [same]; exact hlt) (by omega)] at written
      have hn' : ∀ x ∈ v.hbm.bufs (l / 1280 % 2), x.stripe ≠ l / 1280 := by
        rw [same]
        exact hn
      refine ⟨_, written, fun i x hx => byteAt_spanBegun_inside hn' size i x hx,
        fun m hm => (byteAt_spanBegun_outside hn' m hm).trans (reached.byteAt m), ?_⟩
      obtain ⟨bad, k, e⟩ := reached.hbm
      obtain ⟨w0, w1, e'⟩ := v.setBufs_eq (l / 1280 % 2) (v.hbm.bufs (l / 1280 % 2) ++ [spanBuf l b v.tick.now w.toList])
      rw [e', e]
      exact ⟨rfl, rfl, rfl, rfl, rfl, rfl, rfl⟩
  · have flushed := exec_wcBufferFlush s g hg
    have clean := cleanStripe_setBufs hclean g.val rest
    have held := s.bufs_setBufs_same g.val rest
    refine ⟨fun hl => ?_, fun hl haddr => ?_⟩
    · obtain ⟨par, bad, k, e, hbad⟩ := State.flushBuf_writes clean ((s.setBufs_lostGroup ..).trans hl)
      refine ⟨_, flushed.trans (congrArg _ e), held, congrArg b.writtenTo (s.setBufs_data ..), fun p hp => ?_, rfl,
        rfl, rfl, rfl, rfl, rfl⟩
      obtain ⟨works, trusted, clean_⟩ := clean p hp
      exact ⟨works, trusted, fun c hc => hbad _ (clean_ c hc)⟩
    · obtain ⟨k, e⟩ := State.flushBuf_lost clean ((s.setBufs_lostGroup ..).trans hl) fun x hx => by
        rw [s.setBufs_addrOf]
        exact haddr x hx
      rw [State.memoryDoubt_user _ _ _ (by decide)] at e
      exact ⟨_, flushed.trans (congrArg _ e), held, s.setBufs_data .., rfl, rfl, rfl, rfl, rfl, rfl⟩

end Sys2Proof.Machine
end

section
/-! SUPPORT. HBM reads, said once: retirements that a read begins, reads that the code corrects, and reconstruction
(R282, R283, R287). -/
namespace Sys2Proof.Machine
open Sys2Proof

variable (s : State)

/-! ## Retirements begun (R287, R288) -/

/-- Nothing but the retirements and the telemetry that waits has changed. -/
def retires (s t : State) : Prop := ∃ l low ex n cmd tel, t =
  { s with hbm := { s.hbm with retiring := l, low := low, exhausted := ex, refused := n, cmdStatus := cmd }, tel := tel }

theorem retires_refl : retires s s := ⟨_, _, _, _, _, _, rfl⟩

theorem retires_trans {s t u : State} (h : retires s t) (h' : retires t u) : retires s u := by
  obtain ⟨l, low, ex, n, cmd, tel, rfl⟩ := h
  obtain ⟨l', low', ex', n', cmd', tel', rfl⟩ := h'
  exact ⟨l', low', ex', n', cmd', tel', rfl⟩

theorem retires_retire (f : Nat) (row : Option Nat) : retires s (s.retire f row) := by
  unfold State.retire
  split
  · exact retires_refl s
  split
  · exact ⟨_, _, _, _, _, _, rfl⟩
  extract_lets s1 s2
  have h1 : retires s s1 := ⟨_, _, _, _, _, _, rfl⟩
  have h2 : retires s s2 := by
    simp only [s2]
    split
    · exact retires_trans h1 ⟨_, _, _, _, _, _, rfl⟩
    · exact h1
  split
  · exact retires_trans h2 ⟨_, _, _, _, _, _, rfl⟩
  · exact h2

theorem retires_retireRow (u : UnitId) : retires s (s.retireRow u) := by
  refine List.foldlRecOn (motive := retires s) _ _ (retires_refl s) fun t ht l _ => retires_trans ht ?_
  split
  · exact retires_retire ..
  · exact retires_refl t

/-! ## One symbol and two (R282, R283) -/

/-- R282, R287: a corrected symbol is counted; check symbols are stored afresh; frames of a suspect row may begin to retire. -/
theorem retires_corrected (c : CellId) : ∃ times, retires
    (((s.cellFresh c).modStack c.unit.stack fun k => { k with ce := sat 32 (k.ce + 1) }).modHbm fun h => { h with ceTimes := times })
    (s.corrected c) := by
  unfold State.corrected
  dsimp only
  split
  · exact ⟨_, retires_retireRow _ c.unit⟩
  · exact ⟨_, retires_refl _⟩

/-- Units that the code alone could not read, as the report and the counts of failures have them (R289, R297). -/
def doubted (s t : State) : Prop := ∃ l ue due k,
  t = { s with hbm := { s.hbm with stackList := l, ueTimes := ue, failDue := due }, cnt := k } ∧
    ∀ j, ∃ e, t.stack j = { s.stack j with lastErr := e }

theorem doubted_refl : doubted s s := ⟨_, _, _, _, rfl, fun _ => ⟨_, rfl⟩⟩

theorem doubted_trans {s t u : State} (h : doubted s t) (h' : doubted t u) : doubted s u := by
  obtain ⟨l, ue, due, k, e, hs⟩ := h
  obtain ⟨l', ue', due', k', e', hs'⟩ := h'
  refine ⟨l', ue', due', k', by rw [e', e], fun j => ?_⟩
  obtain ⟨x, hx⟩ := hs j
  obtain ⟨x', hx'⟩ := hs' j
  exact ⟨x', by rw [hx', hx]⟩

theorem doubted_countEv (u ev n : Nat) : doubted s (s.countEv u ev n) := by
  rw [State.countEv_eq]
  exact ⟨_, _, _, _, rfl, fun _ => ⟨_, rfl⟩⟩

theorem State.stack_codeFailed (c : CellId) (j : Nat) : (s.codeFailed c).stack j =
    if j = c.unit.stack then { s.stack j with lastErr := c.local } else s.stack j := by
  have shown : (s.codeFailed c).stack j = (s.modStack c.unit.stack fun k => { k with lastErr := c.local }).stack j := by
    unfold State.codeFailed
    extract_lets u s1 ts s2
    split <;> rfl
  rw [shown, State.stack_modStack]
  split
  next h => rw [h]
  next => rfl

theorem doubted_codeFailed (c : CellId) : doubted s (s.codeFailed c) := by
  have frame : ∃ l ue due, s.codeFailed c = { s with hbm := { s.hbm with stackList := l, ueTimes := ue, failDue := due } } := by
    unfold State.codeFailed
    extract_lets u s1 ts s2
    split
    · exact ⟨_, _, _, rfl⟩
    · exact ⟨_, _, _, rfl⟩
  obtain ⟨l, ue, due, e⟩ := frame
  refine ⟨l, ue, due, _, e, fun j => ?_⟩
  rw [s.stack_codeFailed c j]
  split
  · exact ⟨_, rfl⟩
  · exact ⟨_, rfl⟩

section
variable {s} {t : State}

theorem doubted.unitLost (h : doubted s t) (u : UnitId) : t.unitLost u = s.unitLost u := by
  obtain ⟨l, ue, due, k, e, hs⟩ := h
  obtain ⟨x, hx⟩ := hs u.stack
  rw [State.unitLost_eq, State.unitLost_eq, hx]

theorem doubted.cell (h : doubted s t) {c : CellId} {n : Nat} (hc : s.CellHas c n) : t.CellHas c n := by
  have works := h.unitLost c.unit
  obtain ⟨l, ue, due, k, rfl, -⟩ := h
  exact ⟨works.trans hc.works, hc.trusted, hc.errors⟩

theorem State.CellHas.doubted_decode {c : CellId} {n : Nat} (h : s.CellHas c n) (hn : n = 0 ∨ n = 2) :
    (s.decodeCell c).1 = (n == 0) ∧ doubted s (s.decodeCell c).2 := by
  rcases hn with rfl | rfl
  · rw [h.decode_clean]
    exact ⟨rfl, doubted_countEv ..⟩
  · rw [h.decode_two]
    exact ⟨rfl, doubted_trans (doubted_countEv ..) (doubted_codeFailed ..)⟩

end

/-- Code units of a column read in turn through their code. -/
def State.decodeColumn (s : State) (st col : Nat) (ps : List Nat) : Bool × State :=
  ps.foldl (fun (acc : Bool × State) p =>
    let r := acc.2.decodeCell ⟨⟨st, p⟩, col⟩
    (acc.1 && r.1, r.2)) (true, s)

section
variable {s} {st col : Nat}

/-- R283: clean code units are all decoded, and the reads alone are counted. -/
theorem State.decodeColumn_clean (ps : List Nat) (h : ∀ p ∈ ps, s.CellHas ⟨⟨st, p⟩, col⟩ 0) :
    ∃ k, s.decodeColumn st col ps = (true, { s with cnt := k }) := by
  unfold State.decodeColumn
  refine List.foldlRecOn (motive := fun acc => ∃ k, acc = (true, { s with cnt := k })) ps _ ⟨s.cnt, rfl⟩ fun acc hacc p hp => ?_
  obtain ⟨k, rfl⟩ := hacc
  have hc : State.CellHas { s with cnt := k } ⟨⟨st, p⟩, col⟩ 0 :=
    have ⟨works, trusted, clean⟩ := h p hp
    ⟨works, trusted, clean⟩
  simp only [hc.decode_clean, Bool.and_self]
  rw [State.countEv_eq]
  exact ⟨_, rfl⟩

/-- R283: with two wrong symbols in one of the code units, not all are decoded. -/
theorem State.decodeColumn_fails (ps : List Nat) (n : Nat → Nat) (h : ∀ p ∈ ps, s.CellHas ⟨⟨st, p⟩, col⟩ (n p))
    (hn : ∀ p, n p = 0 ∨ n p = 2) : ∃ t, s.decodeColumn st col ps = (ps.all fun p => n p == 0, t) ∧ doubted s t := by
  unfold State.decodeColumn
  induction ps using List.reverseRecOn with
  | nil => exact ⟨s, rfl, doubted_refl s⟩
  | append_singleton ps p ih =>
    obtain ⟨t, e, ht⟩ := ih fun q hq => h q (List.mem_append_left _ hq)
    obtain ⟨hok, ht'⟩ := (ht.cell (h p (by simp))).doubted_decode (hn p)
    rw [List.foldl_append, e]
    exact ⟨_, by simp [hok], doubted_trans ht ht'⟩

end

/-! ## Reconstruction (R283) -/

/-- The positions of a stripe that reconstruct the unit at one of them. -/
def otherUnits (pos : Nat) : List Nat := (List.range 6).filter (· != pos)

theorem mem_otherUnits (pos p : Nat) : p ∈ otherUnits pos ↔ p < 6 ∧ p ≠ pos := by simp [otherUnits]

section
variable {s} {c : CellId} {t : State}

theorem State.rebuild_fails (hd : s.decodeColumn c.unit.stripe c.col (otherUnits c.unit.pos) = (false, t)) :
    s.rebuild c = (false, t.modStack c.unit.stack fun k => { k with unrepaired := sat 16 (k.unrepaired + 1) }) := by
  unfold State.decodeColumn otherUnits at hd
  simp only [State.rebuild, hd, Bool.false_eq_true, if_false]

/-- A parity that is the XOR of the data gives each unit the bytes that it has. -/
theorem Hbm.rebuilt_data (h : Hbm) (hc : c.col < 8) (hp : ∀ e ∈ h.par, e.1 / 256 ≠ c.unit.stripe) :
    (h.rebuilt c).data = h.data := by
  have none_ : (h.par.filter fun e => decide (c.par ≤ e.1) && decide (e.1 < c.par + 32)) = [] := by
    refine List.filter_eq_nil_iff.mpr fun e he hin => hp e he ?_
    simp only [Bool.and_eq_true, decide_eq_true_eq] at hin
    simp only [CellId.par] at hin
    omega
  unfold Hbm.rebuilt
  simp only [none_, List.foldl_nil, ite_self, Hbm.parExact_data]

/-- R283, R287: a code unit is rebuilt and counted, and frames of its row begin to retire. -/
theorem State.rebuild_done (hd : s.decodeColumn c.unit.stripe c.col (otherUnits c.unit.pos) = (true, t))
    (hw : t.unitLost c.unit = false) : ∃ k v, s.rebuild c = (true, v) ∧ retires
      ((((({ t with cnt := k } : State).cellFresh c).modHbm fun h => h.rebuilt c)).modStack c.unit.stack fun x =>
        { x with repaired := sat 16 (x.repaired + 1) }) v := by
  have works : (t.countEv (hbmUnit c.unit.stack) 0x085 1).unitLost c.unit = false := by
    rw [State.countEv_eq]
    exact hw
  unfold State.decodeColumn otherUnits at hd
  simp only [State.rebuild, hd, if_true, works, Bool.false_eq_true, if_false]
  rw [State.countEv_eq]
  exact ⟨_, _, rfl, retires_retireRow _ c.unit⟩

end

end Sys2Proof.Machine
end

section
/-! HBM reads and the patrol (R278, R282, R283, R285, R286, R291 to R293). -/
namespace Sys2Proof.Machine
open Sys2Proof

variable (s : State)

/-! ## A read of one code unit (R282, R283, R285) -/

@[simp] theorem State.unitHit_buffered (st : Nat) (errs : List UnitErr) (l : Nat) :
    (s.unitHit st errs).hbm.buffered l = s.hbm.buffered l := by
  obtain ⟨b, h⟩ := s.unitHit_eq st errs
  rw [h]
  rfl

theorem State.stack_touchStack_keeps {β : Type} (g : StackSt → β) (hg : ∀ x n, g { x with asleep := false, lastReq := n } = g x)
    (st k j : Nat) (errs : List UnitErr) : g (((s.unitHit st errs).touchStack k).stack j) = g (s.stack j) := by
  refine (State.stack_modStack_keeps _ g k j _ fun x => hg x _).trans ?_
  obtain ⟨b, h⟩ := s.unitHit_eq st errs
  rw [h]
  rfl

theorem State.checkSpan_byte (a : Nat) : s.checkSpan a 1 =
    let v := s.touchStack (unitOf (s.hbm.loc a)).stack
    if (s.hbm.buffered (s.hbm.loc a)).isSome then (true, v)
    else if s.hbm.lostGroup (unitOf (s.hbm.loc a)).grp then (false, v)
    else v.readCell (cellOf (s.hbm.loc a)) := by
  have one : ceilDiv (a % 32 + 1) 32 = 1 := by
    unfold ceilDiv
    omega
  have lo : max a (a / 32 * 32 + 0 * 32) = a := by omega
  have len : min (a + 1) (a / 32 * 32 + 0 * 32 + 32) - a = 1 := by omega
  simp only [State.checkSpan, one, List.range_one, List.map_cons, List.map_nil, List.foldl_cons, List.foldl_nil, lo, len,
    Bool.true_and]
  have span : (s.touchStack (cellOf (s.hbm.loc a)).unit.stack).hbm.spanBuffered (s.hbm.loc a) 1 =
      (s.hbm.buffered (s.hbm.loc a)).isSome := by
    simp only [Hbm.spanBuffered, List.range_one, List.all_cons, List.all_nil, Bool.and_true]
    rfl
  rw [span]
  rfl

section
variable {s} {a : Nat} (ids : List Nat)

/-- R285: what a buffer holds is not read from memory. -/
theorem State.hbmRead_buffered (hb : (s.hbm.buffered (s.hbm.loc a)).isSome = true) :
    (s.hbmRead ids a 1).2 = s.touchStack (unitOf (s.hbm.loc a)).stack := by
  have hc := s.checkSpan_byte a
  rw [if_pos hb] at hc
  simp only [State.hbmRead, Nat.one_ne_zero, if_false, hc]

variable (hb : s.hbm.buffered (s.hbm.loc a) = none)
include hb

/-- R291: a read of a group that has lost its data is unrecoverable. -/
theorem State.hbmRead_lost (hl : s.hbm.lostGroup (unitOf (s.hbm.loc a)).grp = true) :
    (s.hbmRead ids a 1).2 = (s.touchStack (unitOf (s.hbm.loc a)).stack).memoryDoubt a ids := by
  have hc := s.checkSpan_byte a
  rw [hb, if_neg (by decide), if_pos hl] at hc
  simp only [State.hbmRead, Nat.one_ne_zero, if_false, hc]

theorem State.hbmRead_cell (hl : s.hbm.lostGroup (unitOf (s.hbm.loc a)).grp = false) {ok : Bool} {t : State}
    (hr : (s.touchStack (unitOf (s.hbm.loc a)).stack).readCell (cellOf (s.hbm.loc a)) = (ok, t)) :
    (s.hbmRead ids a 1).2 = if ok then t else t.memoryDoubt a ids := by
  have hc := s.checkSpan_byte a
  rw [hb, if_neg (by decide), if_neg (by rw [hl]; decide), hr] at hc
  cases ok <;> simp only [State.hbmRead, Nat.one_ne_zero, if_false, hc] <;> rfl

end

section
variable {s} {a : BitVec 40} (id : Option Nat) (errs : List UnitErr) (ha : a.toNat < 360 * 2 ^ 30)
include ha

/-- A read that is not held is served, once its errors have come. -/
theorem exec_hbmRead_served (hs : s.hbm.held = false ∨ s.hbm.lostGroup (unitOf (s.hbm.loc a.toNat)).grp = true) :
    exec (.hbmRead a id errs) s =
      .next ((s.unitHit (unitOf (s.hbm.loc a.toNat)).stripe errs).hbmRead id.toList a.toNat 1).2 := by
  rw [exec_hbmRead s a id errs ha, State.askHbm_served _ (by simpa using hs)]
  rfl

theorem exec_hbmRead_cell (hh : s.hbm.held = false) (hl : s.hbm.lostGroup (unitOf (s.hbm.loc a.toNat)).grp = false)
    (hb : s.hbm.buffered (s.hbm.loc a.toNat) = none) {ok : Bool} {t : State}
    (hr : ((s.unitHit (unitOf (s.hbm.loc a.toNat)).stripe errs).touchStack (unitOf (s.hbm.loc a.toNat)).stack).readCell
      (cellOf (s.hbm.loc a.toNat)) = (ok, t)) :
    exec (.hbmRead a id errs) s = .next (if ok then t else t.memoryDoubt a.toNat id.toList) := by
  rw [exec_hbmRead_served id errs ha (.inl hh)]
  exact congrArg _ (State.hbmRead_cell _ (by simpa using hb) (by simpa using hl) (by simpa using hr))

end

/-! ## Errors that come with a read -/

/-- The erroneous symbols that come for one code unit of a stripe. -/
def newErrors (errs : List UnitErr) (p col : Nat) : Nat :=
  ((errs.filter fun e => e.pos.val == p && e.code.val == col).map UnitErr.n).sum

theorem State.cellBad_unitHit (st p col : Nat) (hc : col < 8) (errs : List UnitErr) :
    (s.unitHit st errs).cellBad ⟨⟨st, p⟩, col⟩ = s.cellBad ⟨⟨st, p⟩, col⟩ + newErrors errs p col := by
  induction errs generalizing s with
  | nil => rfl
  | cons e errs ih =>
    have first : (s.unitHit st [e]).cellBad ⟨⟨st, p⟩, col⟩ = s.cellBad ⟨⟨st, p⟩, col⟩ + newErrors [e] p col := by
      by_cases h : e.pos.val = p ∧ e.code.val = col
      · obtain ⟨rfl, rfl⟩ := h
        exact (Table.get_set_same ..).trans (by simp [newErrors]; rfl)
      · have key : CellId.key ⟨⟨st, p⟩, col⟩ ≠ CellId.key ⟨⟨st, e.pos.val⟩, e.code.val⟩ := by
          simp only [CellId.key, UnitId.key]
          omega
        refine (Table.get_set_other _ _ _ _ _ key).trans ?_
        simp [newErrors, h]
        rfl
    calc (s.unitHit st (e :: errs)).cellBad ⟨⟨st, p⟩, col⟩
        = (s.unitHit st [e]).cellBad ⟨⟨st, p⟩, col⟩ + newErrors errs p col := ih (s.unitHit st [e])
      _ = s.cellBad ⟨⟨st, p⟩, col⟩ + newErrors (e :: errs) p col := by
        rw [first, Nat.add_assoc]
        congr 1
        simp only [newErrors, List.filter_cons, List.filter_nil]
        split <;> simp

/-- One erroneous code unit of a stripe. -/
theorem newErrors_one (p : Fin 6) (col : Fin 8) (n : Nat) : newErrors [⟨p, col, n⟩] p.val col.val = n := by simp [newErrors]

theorem newErrors_one_other (p : Fin 6) (col : Fin 8) (n k : Nat) (h : k ≠ p.val) : newErrors [⟨p, col, n⟩] k col.val = 0 := by
  simp [newErrors, Ne.symm h]

/-- Two erroneous code units of a column. -/
theorem newErrors_two (p q : Fin 6) (col : Fin 8) (n k : Nat) (h : q ≠ p) :
    newErrors [⟨p, col, n⟩, ⟨q, col, n⟩] k col.val = if k = p.val ∨ k = q.val then n else 0 := by
  have off : q.val ≠ p.val := fun e => h (Fin.ext e)
  by_cases hp : p.val = k
  · have : q.val ≠ k := hp ▸ off
    simp [newErrors, hp, this]
  · by_cases hq : q.val = k
    · simp [newErrors, hp, hq]
    · simp [newErrors, hp, hq, Ne.symm hp, Ne.symm hq]

section
variable {s} {st : Nat} (h : cleanStripe s st) (k : Nat) (errs : List UnitErr) {p col : Nat} (hp : p < 6) (hc : col < 8)
include h hp hc

/-- What a code unit of a clean stripe holds once a request with errors has reached it. -/
theorem cellHas_reached : ((s.unitHit st errs).touchStack k).CellHas ⟨⟨st, p⟩, col⟩ (newErrors errs p col) := by
  obtain ⟨works, trusted, clean⟩ := h p hp
  have reached := reaches s st k errs
  refine ⟨(reached.lost _).trans works, ?_, ?_⟩
  · obtain ⟨bad, l, e⟩ := reached.hbm
    rw [e]
    exact trusted
  · exact (s.cellBad_unitHit st p col hc errs).trans (by rw [clean col hc, Nat.zero_add])

end

/-! ## What a read leaves alone -/

/-- HBM's data and all outside HBM but the counters and the telemetry that waits stay. -/
structure ReadsOnly (s t : State) : Prop where
  data : t.hbm.data = s.hbm.data
  tiles : t.tiles = s.tiles
  muzzle : t.muzzle = s.muzzle
  host : t.host = s.host
  regs : t.regs = s.regs
  shep : t.shep = s.shep
  links : t.links = s.links

theorem ReadsOnly.besides {s t : State} (h : ReadsOnly s t) : besidesHbm s t :=
  ⟨h.host, h.regs, h.shep, h.links, congrArg Tiles.tiles h.tiles⟩

theorem ReadsOnly.trans {s t u : State} (h : ReadsOnly s t) (h' : ReadsOnly t u) : ReadsOnly s u :=
  ⟨h'.data.trans h.data, h'.tiles.trans h.tiles, h'.muzzle.trans h.muzzle, h'.host.trans h.host, h'.regs.trans h.regs,
    h'.shep.trans h.shep, h'.links.trans h.links⟩

theorem Reaches.readsOnly {s t : State} (h : Reaches s t) : ReadsOnly s t := by
  obtain ⟨bad, l, rfl⟩ := h.hbm
  exact ⟨rfl, rfl, rfl, rfl, rfl, rfl, rfl⟩

theorem retires.readsOnly {s t : State} (h : retires s t) : ReadsOnly s t := by
  obtain ⟨l, low, ex, n, cmd, tel, rfl⟩ := h
  exact ⟨rfl, rfl, rfl, rfl, rfl, rfl, rfl⟩

theorem doubted.readsOnly {s t : State} (h : doubted s t) : ReadsOnly s t := by
  obtain ⟨l, ue, due, k, rfl, -⟩ := h
  exact ⟨rfl, rfl, rfl, rfl, rfl, rfl, rfl⟩

/-- R283: an unrecoverable read ends its reader, or Muzzles the module for a reserved address. -/
def endsReader (s t : State) (a id : Nat) : Prop :=
  (a < 320 * 2 ^ 30 → t.tiles.faults = s.tiles.faults ++ [⟨id, stMemory⟩] ∧ t.muzzle = s.muzzle) ∧
  (320 * 2 ^ 30 ≤ a → a < 336 * 2 ^ 30 → t.tiles = s.tiles ∧ t.muzzle.triggers = s.muzzle.triggers ++ [⟨.module, 0x01⟩])

theorem State.memoryDoubt_eq (a : Nat) (ids : List Nat) :
    ∃ f m, s.memoryDoubt a ids = { s with tiles := { s.tiles with faults := f }, muzzle := m } := by
  unfold State.memoryDoubt
  split
  · exact ⟨_, _, rfl⟩
  · rw [State.foldl_latchFault]
    exact ⟨_, _, rfl⟩

theorem ReadsOnly.doubt {s t : State} (h : ReadsOnly s t) (a id : Nat) :
    endsReader s (t.memoryDoubt a [id]) a id ∧ (t.memoryDoubt a [id]).hbm.data = s.hbm.data ∧
      besidesHbm s (t.memoryDoubt a [id]) := by
  refine ⟨⟨fun ha => ?_, fun ha ha' => ?_⟩, ?_, ?_⟩
  · rw [t.memoryDoubt_user a _ ha]
    exact ⟨congrArg (fun x : Tiles => x.faults ++ _) h.tiles, h.muzzle⟩
  · rw [t.memoryDoubt_reserved a _ ha ha']
    exact ⟨h.tiles, congrArg (fun x : Muzzle => x.triggers ++ _) h.muzzle⟩
  · obtain ⟨f, m, e⟩ := t.memoryDoubt_eq a [id]
    rw [e]
    exact h.data
  · obtain ⟨f, m, e⟩ := t.memoryDoubt_eq a [id]
    rw [e]
    exact h.besides

/-! ## A code unit with one wrong symbol, with two, and a second one (R282, R283) -/

section
variable {s} {c : CellId}

theorem State.CellHas.read_clean (h : s.CellHas c 0) : ∃ k, s.readCell c = (true, { s with cnt := k }) := by
  rw [h.read_decoded h.decode_clean, State.countEv_eq]
  exact ⟨_, rfl⟩

/-- R282: one symbol is corrected and counted. -/
theorem State.CellHas.read_one (h : s.CellHas c 1) : ∃ t, s.readCell c = (true, t) ∧ t.cellBad c = 0 ∧
    (t.stack c.unit.stack).ce = sat 32 ((s.stack c.unit.stack).ce + 1) ∧ ReadsOnly s t := by
  refine ⟨_, h.read_decoded h.decode_one, ?_⟩
  rw [State.countEv_eq]
  obtain ⟨times, hr⟩ := retires_corrected { s with cnt := (s.countEv (hbmUnit c.unit.stack) 0x080 1).cnt } c
  have only := hr.readsOnly
  obtain ⟨l, low, ex, n, cmd, tel, e⟩ := hr
  refine ⟨?_, ?_, ⟨only.data, only.tiles, only.muzzle, only.host, only.regs, only.shep, only.links⟩⟩
  · rw [e]
    exact Table.get_erase_same ..
  · rw [e]
    exact congrArg StackSt.ce (Table.get_put_same {} _ _ _)

/-- R283: two symbols are reconstructed from the other units of the stripe, and counted. -/
theorem State.CellHas.read_two (h : s.CellHas c 2) (hc : c.col < 8) (hp : parityExact s c.unit.stripe)
    (others : ∀ p ∈ otherUnits c.unit.pos, s.CellHas ⟨⟨c.unit.stripe, p⟩, c.col⟩ 0) :
    ∃ t, s.readCell c = (true, t) ∧ t.cellBad c = 0 ∧
      (t.stack c.unit.stack).repaired = sat 16 ((s.stack c.unit.stack).repaired + 1) ∧
      (t.stack c.unit.stack).lastErr = c.local ∧ ReadsOnly s t := by
  rw [h.read_failed h.decode_two]
  have doubt : doubted s ((s.countEv (hbmUnit c.unit.stack) 0x080 1).codeFailed c) :=
    doubted_trans (doubted_countEv ..) (doubted_codeFailed ..)
  have shown : ((s.countEv (hbmUnit c.unit.stack) 0x080 1).codeFailed c).stack c.unit.stack =
      { s.stack c.unit.stack with lastErr := c.local } := by
    rw [State.stack_codeFailed, if_pos rfl, State.countEv_eq]
    rfl
  generalize (s.countEv (hbmUnit c.unit.stack) 0x080 1).codeFailed c = v at doubt shown
  obtain ⟨k, hk⟩ := State.decodeColumn_clean _ fun p hp => doubt.cell (others p hp)
  obtain ⟨k', t, he, hr⟩ := State.rebuild_done hk (doubt.unitLost c.unit |>.trans h.works)
  have only := hr.readsOnly
  have parity : v.hbm.par = s.hbm.par := by
    obtain ⟨l, ue, due, k, rfl, -⟩ := doubt
    rfl
  have data := Hbm.rebuilt_data (c := c) { v.hbm with bad := Table.erase v.hbm.bad c.key } hc (parity ▸ hp)
  obtain ⟨l, low, ex, n, cmd, tel, e⟩ := hr
  have after : t.stack c.unit.stack =
      { v.stack c.unit.stack with repaired := sat 16 ((v.stack c.unit.stack).repaired + 1) } := by
    rw [e]
    exact Table.get_put_same ({} : StackSt) _ _ _
  have d := doubt.readsOnly
  refine ⟨t, he, ?_, ?_, ?_, ⟨only.data.trans (data.trans d.data), only.tiles.trans d.tiles, only.muzzle.trans d.muzzle,
    only.host.trans d.host, only.regs.trans d.regs, only.shep.trans d.shep, only.links.trans d.links⟩⟩
  · rw [e]
    exact Table.get_erase_same ..
  · rw [after, shown]
  · rw [after, shown]

/-- R283: with a second unit in error the read is unrecoverable, and counted. -/
theorem State.CellHas.read_lost (h : s.CellHas c 2) (n : Nat → Nat) (hn : ∀ p, n p = 0 ∨ n p = 2)
    (others : ∀ p ∈ otherUnits c.unit.pos, s.CellHas ⟨⟨c.unit.stripe, p⟩, c.col⟩ (n p)) (q : Nat)
    (hq : q ∈ otherUnits c.unit.pos) (hnq : n q = 2) :
    ∃ t, s.readCell c = (false, t) ∧ (t.stack c.unit.stack).unrepaired = sat 16 ((s.stack c.unit.stack).unrepaired + 1) ∧
      ReadsOnly s t := by
  rw [h.read_failed h.decode_two]
  have doubt : doubted s ((s.countEv (hbmUnit c.unit.stack) 0x080 1).codeFailed c) :=
    doubted_trans (doubted_countEv ..) (doubted_codeFailed ..)
  generalize (s.countEv (hbmUnit c.unit.stack) 0x080 1).codeFailed c = v at doubt
  obtain ⟨t, ht, doubt'⟩ := State.decodeColumn_fails _ n (fun p hp => doubt.cell (others p hp)) hn
  have some_ : ((otherUnits c.unit.pos).all fun p => n p == 0) = false :=
    List.all_eq_false.mpr ⟨q, hq, by rw [hnq]; decide⟩
  have d := doubted_trans doubt doubt'
  have only := d.readsOnly
  refine ⟨_, State.rebuild_fails (some_ ▸ ht), ?_, ⟨only.data, only.tiles, only.muzzle, only.host, only.regs, only.shep, only.links⟩⟩
  rw [State.stack_modStack_same]
  obtain ⟨l, ue, due, k, -, hs⟩ := d
  obtain ⟨x, hx⟩ := hs c.unit.stack
  rw [hx]

end

/-! ## The patrol (R286, R292) -/

/-- An update of every stack of a list. -/
def State.modStacks (s : State) (l : List Nat) (f : Nat → StackSt → StackSt) : State := l.foldl (fun s k => s.modStack k (f k)) s

theorem State.modStacks_eq (l : List Nat) (f : Nat → StackSt → StackSt) :
    ∃ x, s.modStacks l f = { s with hbm := { s.hbm with stackList := x } } :=
  List.foldlRecOn (motive := fun t => ∃ x, t = { s with hbm := { s.hbm with stackList := x } }) l _ ⟨_, rfl⟩ fun t ht k _ => by
    obtain ⟨x, rfl⟩ := ht
    exact ⟨_, rfl⟩

theorem State.stack_modStacks_other (l : List Nat) (f : Nat → StackSt → StackSt) (j : Nat) (h : j ∉ l) :
    (s.modStacks l f).stack j = s.stack j :=
  List.foldlRecOn (motive := fun t => State.stack t j = s.stack j) l _ rfl fun t ht k hk =>
    (t.stack_modStack_other k j (f k) fun e => h (e ▸ hk)).trans ht

theorem State.stack_modStacks_mem (l : List Nat) (hl : l.Nodup) (f : Nat → StackSt → StackSt) (j : Nat) (h : j ∈ l) :
    (s.modStacks l f).stack j = f j (s.stack j) := by
  induction l generalizing s with
  | nil => cases h
  | cons k l ih =>
    obtain ⟨hk, hl⟩ := List.nodup_cons.mp hl
    rcases List.mem_cons.mp h with rfl | h
    · exact (State.stack_modStacks_other _ l f j hk).trans (s.stack_modStack_same j (f j))
    · exact (ih (s.modStack k (f k)) hl h).trans
        (congrArg (f j) (s.stack_modStack_other k j (f k) fun e => hk (e ▸ h)))

/-- A part of a stack that the updates keep stands on every stack. -/
theorem State.stack_modStacks_keeps {β : Type} (g : StackSt → β) (l : List Nat) (f : Nat → StackSt → StackSt)
    (hf : ∀ k x, g (f k x) = g x) (j : Nat) : g ((s.modStacks l f).stack j) = g (s.stack j) :=
  List.foldlRecOn (motive := fun t => g (State.stack t j) = g (s.stack j)) l _ rfl fun t ht k _ =>
    (t.stack_modStack_keeps g k j (f k) (hf k)).trans ht

theorem cleanStripe_modStacks {s : State} {st : Nat} (h : cleanStripe s st) (l : List Nat) (f : Nat → StackSt → StackSt)
    (hf : ∀ k x, (f k x).failed = x.failed ∧ (f k x).failedPc = x.failedPc) : cleanStripe (s.modStacks l f) st := by
  intro p hp
  obtain ⟨works, trusted, clean⟩ := h p hp
  have lost : (s.modStacks l f).unitLost ⟨st, p⟩ = s.unitLost ⟨st, p⟩ := by
    rw [State.unitLost_eq, State.unitLost_eq, s.stack_modStacks_keeps StackSt.failed l f fun k x => (hf k x).1,
      s.stack_modStacks_keeps StackSt.failedPc l f fun k x => (hf k x).2]
  obtain ⟨x, e⟩ := s.modStacks_eq l f
  rw [e] at lost ⊢
  exact ⟨lost.trans works, trusted, clean⟩

theorem nodup_groupStacks (g : Nat) : (groupStacks g).Nodup :=
  List.nodup_range.map fun _ _ h => Nat.add_left_cancel h

section
variable {s} {st : Nat} (h : cleanStripe s st)
include h

theorem State.patrolUnit_clean (p : Nat) (hp : p < 6) : ∃ k, s.patrolUnit ⟨st, p⟩ = (true, { s with cnt := k }) := by
  obtain ⟨works, -⟩ := h p hp
  rw [State.patrolUnit, if_neg (by rw [works]; decide)]
  refine List.foldlRecOn (motive := fun acc => ∃ k, acc = (true, { s with cnt := k })) _ _ ⟨s.cnt, rfl⟩ fun acc hacc c hc => ?_
  obtain ⟨k, rfl⟩ := hacc
  obtain ⟨col, hcol, rfl⟩ := List.mem_map.mp hc
  have cell : State.CellHas { s with cnt := k } ⟨⟨st, p⟩, col⟩ 0 :=
    have ⟨works, trusted, clean⟩ := cleanStripe_cell h hp (List.mem_range.mp hcol)
    ⟨works, trusted, clean⟩
  simp only [cell.decode_clean]
  rw [State.countEv_eq]
  exact ⟨_, rfl⟩

/-- R286: the six units of a clean stripe are read, and the reads alone are counted. -/
theorem State.patrolUnits_clean : ∃ k, (List.range 6).foldl (fun (acc : Bool × State) p =>
    let r := acc.2.patrolUnit ⟨st, p⟩
    (acc.1 && r.1, r.2)) (true, s) = (true, { s with cnt := k }) := by
  refine List.foldlRecOn (motive := fun acc => ∃ k, acc = (true, { s with cnt := k })) _ _ ⟨s.cnt, rfl⟩ fun acc hacc p hp => ?_
  obtain ⟨k, rfl⟩ := hacc
  have clean : cleanStripe { s with cnt := k } st := h
  obtain ⟨k', e⟩ := State.patrolUnit_clean clean p (List.mem_range.mp hp)
  simp only [e, Bool.and_self]
  exact ⟨k', rfl⟩

end

/-- R286: a parity that differs from the XOR of its stripe's data is rewritten, counted and reported. -/
def State.parityChecked (s : State) (st : Nat) : State :=
  if s.hbm.par.any fun e => e.1 / 256 == st then
    let k := UnitId.stack ⟨st, 5⟩
    let s := s.modHbm fun h => { h with par := h.par.filter fun e => !(e.1 / 256 == st) }
    (s.modStack k fun x => { x with parityRepaired := sat 16 (x.parityRepaired + 1) }).raise .log 0x0106 k
      (leBytes 8 (s.stack k).lastErr)
  else s

/-- R286: the last stripe of a group counts a pass on each of its stacks. -/
def State.passCounted (s : State) (g n : Nat) : State :=
  if n + 1 = groupStripes then s.modStacks (groupStacks g) fun _ x => { x with passes := sat 16 (x.passes + 1) } else s

/-- R286, R292: a patrol read wakes the stacks of its group, reads a clean stripe and checks its parity. -/
theorem exec_patrolRead_clean (g : Fin 2) (n : Nat) (hon : s.regN 0x83054 % 2 = 1) (hn : n < 150994944)
    (hh : s.hbm.held = false) (hmay : ∀ j ∈ groupStacks g.val, s.patrolMay j = true) (h : cleanStripe s (2 * n + g.val)) :
    ∃ k, exec (.patrolRead g n []) s = .next ((State.parityChecked
      { s.modStacks (groupStacks g.val) (fun _ x => { x with asleep := false }) with cnt := k } (2 * n + g.val)).passCounted g.val n) := by
  obtain ⟨k, hk⟩ := State.patrolUnits_clean (cleanStripe_modStacks h (groupStacks g.val)
    (fun _ x => { x with asleep := false }) fun _ _ => ⟨rfl, rfl⟩)
  have all : (groupStacks g.val).all s.patrolMay = true := List.all_eq_true.mpr hmay
  have go : ¬(s.regN 0x83054 % 2 = 0 ∨ groupStripes ≤ n ∨ s.hbm.held = true ∨ (!(groupStacks g.val).all s.patrolMay) = true) := by
    rw [hh, all, groupStripes]
    simp
    omega
  refine ⟨k, congrArg Host.Outcome.next ((if_neg go).trans ?_)⟩
  simp only [State.modStacks] at hk
  simp only [State.unitHit, List.foldl_nil, hk, Bool.true_and]
  rfl

section
variable (st : Nat)

theorem parityExact_iff : parityExact s st ↔ (s.hbm.par.any fun e => e.1 / 256 == st) = false := by
  simp [parityExact]

theorem State.parityChecked_exact (h : parityExact s st) : s.parityChecked st = s :=
  if_neg (by rw [(parityExact_iff s st).mp h]; decide)

/-- R286: a parity that differs is counted and reported. -/
theorem State.parityChecked_differs (h : ¬ parityExact s st) :
    ((s.parityChecked st).stack (UnitId.stack ⟨st, 5⟩)).parityRepaired =
      sat 16 ((s.stack (UnitId.stack ⟨st, 5⟩)).parityRepaired + 1) ∧
    ∃ e, (s.parityChecked st).tel.pend = s.tel.pend ++ [e] ∧ e.cls = .log ∧ e.code = 0x106 := by
  rw [parityExact_iff, Bool.not_eq_false] at h
  rw [State.parityChecked, if_pos h]
  exact ⟨congrArg StackSt.parityRepaired (Table.get_put_same ({} : StackSt) _ _ _), _, rfl, rfl, rfl⟩

theorem State.parityChecked_par : (s.parityChecked st).hbm.par = s.hbm.par.filter fun e => e.1 / 256 != st := by
  by_cases h : parityExact s st
  · rw [s.parityChecked_exact st h]
    exact (List.filter_eq_self.mpr fun e he => by simpa using h e he).symm
  · rw [parityExact_iff, Bool.not_eq_false] at h
    rw [State.parityChecked, if_pos h]
    rfl

theorem ReadsOnly.of_parityChecked : ReadsOnly s (s.parityChecked st) := by
  unfold State.parityChecked
  split
  · exact ⟨rfl, rfl, rfl, rfl, rfl, rfl, rfl⟩
  · exact ⟨rfl, rfl, rfl, rfl, rfl, rfl, rfl⟩

theorem State.stack_parityChecked_keeps {β : Type} (g : StackSt → β)
    (hg : ∀ x : StackSt, g { x with parityRepaired := sat 16 (x.parityRepaired + 1) } = g x) (j : Nat) :
    g ((s.parityChecked st).stack j) = g (s.stack j) := by
  unfold State.parityChecked
  split
  · exact State.stack_modStack_keeps (s.modHbm fun h => { h with par := h.par.filter fun e => !(e.1 / 256 == st) }) g _ j _ hg
  · rfl

end

section
variable (g n : Nat)

theorem State.passCounted_eq : ∃ x, s.passCounted g n = { s with hbm := { s.hbm with stackList := x } } := by
  unfold State.passCounted
  split
  · exact s.modStacks_eq ..
  · exact ⟨_, rfl⟩

theorem State.stack_passCounted_keeps {β : Type} (f : StackSt → β)
    (hf : ∀ x : StackSt, f { x with passes := sat 16 (x.passes + 1) } = f x) (j : Nat) :
    f ((s.passCounted g n).stack j) = f (s.stack j) := by
  unfold State.passCounted
  split
  · exact s.stack_modStacks_keeps f _ _ (fun _ => hf) j
  · rfl

end

/-- R278, R282, R283, R285, R291, R293: a read of one byte. -/
theorem hbmRead_settled (s : State) (a : BitVec 40) (id : Nat) (errs : List UnitErr) (ha : a.toNat < 360 * 2 ^ 30) :
    let l := s.hbm.loc a.toNat
    let u := unitOf l
    (s.hbm.held = true → s.hbm.lostGroup u.grp = false →
      exec (.hbmRead a (some id) errs) s = .next ((s.unitHit u.stripe errs).modHbm fun h =>
        { h with waiting := h.waiting ++ [⟨a.toNat, none, some id⟩] })) ∧
    (s.hbm.lostGroup u.grp = true → s.hbm.buffered l = none →
      ∃ t, exec (.hbmRead a (some id) errs) s = .next t ∧ endsReader s t a.toNat id ∧ t.hbm.data = s.hbm.data ∧ besidesHbm s t) ∧
    (s.hbm.held = false → (s.hbm.buffered l).isSome = true →
      exec (.hbmRead a (some id) errs) s = .next ((s.unitHit u.stripe errs).touchStack u.stack)) := by
  intro l u
  refine ⟨fun hh hl => ?_, fun hl hb => ?_, fun hh hb => ?_⟩
  · rw [exec_hbmRead s a _ errs ha, State.askHbm_held _ (by simpa using hh)
      (by rw [State.unitHit_lostGroup, State.unitHit_loc]; exact hl)]
  · have lost : exec (.hbmRead a (some id) errs) s =
        .next (((s.unitHit u.stripe errs).touchStack u.stack).memoryDoubt a.toNat [id]) := by
      rw [exec_hbmRead_served _ _ ha (.inr hl)]
      exact congrArg _ ((State.hbmRead_lost [id] (by simpa using hb)
        (by rw [State.unitHit_lostGroup, State.unitHit_loc]; exact hl)).trans (by rw [State.unitHit_loc]))
    exact ⟨_, lost, (reaches s u.stripe u.stack errs).readsOnly.doubt a.toNat id⟩
  · rw [exec_hbmRead_served _ _ ha (.inl hh)]
    exact congrArg _ ((State.hbmRead_buffered [id] (by simpa using hb)).trans (by rw [State.unitHit_loc]))

section
variable {s : State} {a : BitVec 40} (id : Nat) {p q : Fin 6} {c : CellId} (hc : cellOf (s.hbm.loc a.toNat) = c)
  (ha : a.toNat < 360 * 2 ^ 30) (hh : s.hbm.held = false) (hl : s.hbm.lostGroup c.unit.grp = false)
  (hb : s.hbm.buffered (s.hbm.loc a.toNat) = none) (hclean : cleanStripe s c.unit.stripe) (hpar : parityExact s c.unit.stripe)
  (hp : p.val = c.unit.pos) (hq : q ≠ p)
include hc

theorem col_lt : c.col < 8 := by
  subst hc
  simp only [cellOf]
  omega

theorem exec_hbmRead_unit (errs : List UnitErr) (ha : a.toNat < 360 * 2 ^ 30) (hh : s.hbm.held = false)
    (hl : s.hbm.lostGroup c.unit.grp = false) (hb : s.hbm.buffered (s.hbm.loc a.toNat) = none) {ok : Bool} {t : State}
    (hr : ((s.unitHit c.unit.stripe errs).touchStack c.unit.stack).readCell c = (ok, t)) :
    exec (.hbmRead a (some id) errs) s = .next (if ok then t else t.memoryDoubt a.toNat [id]) := by
  subst hc
  exact exec_hbmRead_cell (some id) errs ha hh hl hb hr

include hclean

/-- What the code units of the column that is read hold once a request with errors has reached it. -/
theorem cellHas_asked (errs : List UnitErr) (k : Nat) (hk : k < 6) :
    ((s.unitHit c.unit.stripe errs).touchStack c.unit.stack).CellHas ⟨⟨c.unit.stripe, k⟩, c.col⟩
      (newErrors errs k (Fin.ofNat 8 c.col).val) := by
  rw [Fin.val_ofNat, Nat.mod_eq_of_lt (col_lt hc)]
  exact cellHas_reached hclean _ errs hk (col_lt hc)

include ha hh hl hb

theorem exec_hbmRead_clean : ∃ t, exec (.hbmRead a (some id) []) s = .next t ∧ t.hbm.bad = s.hbm.bad ∧ ReadsOnly s t := by
  have hpos : c.unit.pos < 6 := by
    subst hc
    exact Nat.lt_succ_of_lt (unitOf_pos_lt _)
  obtain ⟨k, hr⟩ := (cellHas_asked hc hclean [] _ hpos).read_clean
  exact ⟨_, exec_hbmRead_unit id hc _ ha hh hl hb hr, rfl, ⟨rfl, rfl, rfl, rfl, rfl, rfl, rfl⟩⟩

include hp

theorem exec_hbmRead_one : ∃ t, exec (.hbmRead a (some id) [⟨p, Fin.ofNat 8 c.col, 1⟩]) s = .next t ∧ t.cellBad c = 0 ∧
    (t.stack c.unit.stack).ce = sat 32 ((s.stack c.unit.stack).ce + 1) ∧ ReadsOnly s t := by
  have cell := cellHas_asked hc hclean [⟨p, Fin.ofNat 8 c.col, 1⟩] p p.isLt
  rw [newErrors_one, hp] at cell
  obtain ⟨t, hr, bad, ce, only⟩ := cell.read_one
  refine ⟨t, exec_hbmRead_unit id hc _ ha hh hl hb hr, bad, ce.trans ?_, (reaches s _ _ _).readsOnly.trans only⟩
  rw [State.stack_touchStack_keeps s StackSt.ce (fun _ _ => rfl)]

include hpar in
theorem exec_hbmRead_two : ∃ t, exec (.hbmRead a (some id) [⟨p, Fin.ofNat 8 c.col, 2⟩]) s = .next t ∧ t.cellBad c = 0 ∧
    (t.stack c.unit.stack).repaired = sat 16 ((s.stack c.unit.stack).repaired + 1) ∧
    (t.stack c.unit.stack).lastErr = c.local ∧ ReadsOnly s t := by
  have cell := cellHas_asked hc hclean [⟨p, Fin.ofNat 8 c.col, 2⟩] p p.isLt
  rw [newErrors_one, hp] at cell
  have reached := reaches s c.unit.stripe c.unit.stack [⟨p, Fin.ofNat 8 c.col, 2⟩]
  have parity : parityExact ((s.unitHit c.unit.stripe [⟨p, Fin.ofNat 8 c.col, 2⟩]).touchStack c.unit.stack) c.unit.stripe := by
    obtain ⟨bad, l, e⟩ := reached.hbm
    rw [e]
    exact hpar
  obtain ⟨t, hr, bad, done, last, only⟩ := cell.read_two (col_lt hc) parity fun k hk => by
    obtain ⟨hk, off⟩ := (mem_otherUnits _ k).mp hk
    have other := cellHas_asked hc hclean [⟨p, Fin.ofNat 8 c.col, 2⟩] k hk
    rwa [newErrors_one_other _ _ _ _ (hp ▸ off)] at other
  refine ⟨t, exec_hbmRead_unit id hc _ ha hh hl hb hr, bad, done.trans ?_, last, reached.readsOnly.trans only⟩
  rw [State.stack_touchStack_keeps s StackSt.repaired (fun _ _ => rfl)]

include hq in
theorem exec_hbmRead_lost : ∃ t, exec (.hbmRead a (some id) [⟨p, Fin.ofNat 8 c.col, 2⟩, ⟨q, Fin.ofNat 8 c.col, 2⟩]) s =
      .next (t.memoryDoubt a.toNat [id]) ∧
    (t.stack c.unit.stack).unrepaired = sat 16 ((s.stack c.unit.stack).unrepaired + 1) ∧ ReadsOnly s t := by
  have cells := cellHas_asked hc hclean [⟨p, Fin.ofNat 8 c.col, 2⟩, ⟨q, Fin.ofNat 8 c.col, 2⟩]
  simp only [newErrors_two _ _ _ _ _ hq] at cells
  have cell := cells p p.isLt
  rw [if_pos (.inl rfl), hp] at cell
  have other : q.val ∈ otherUnits c.unit.pos :=
    (mem_otherUnits _ _).mpr ⟨q.isLt, fun e => hq (Fin.ext (e.trans hp.symm))⟩
  obtain ⟨t, hr, count, only⟩ := cell.read_lost (fun k => if k = p.val ∨ k = q.val then 2 else 0)
    (fun k => by by_cases h : k = p.val ∨ k = q.val <;> simp [h]) (fun k hk => cells k ((mem_otherUnits _ k).mp hk).1)
    q.val other (if_pos (.inr rfl))
  refine ⟨t, exec_hbmRead_unit id hc _ ha hh hl hb hr, count.trans ?_, (reaches s _ _ _).readsOnly.trans only⟩
  rw [State.stack_touchStack_keeps s StackSt.unrepaired (fun _ _ => rfl)]

end

/-- R286: what the check of a stripe's parity and the count of a pass leave. -/
structure PatrolLeaves (s t : State) (st g n : Nat) : Prop where
  only : ReadsOnly s t
  par : t.hbm.par = s.hbm.par.filter fun e => e.1 / 256 != st
  exact_ : parityExact s st → t.tel.pend = s.tel.pend ∧
    (t.stack (UnitId.stack ⟨st, 5⟩)).parityRepaired = (s.stack (UnitId.stack ⟨st, 5⟩)).parityRepaired
  differs : ¬ parityExact s st →
    (t.stack (UnitId.stack ⟨st, 5⟩)).parityRepaired = sat 16 ((s.stack (UnitId.stack ⟨st, 5⟩)).parityRepaired + 1) ∧
      ∃ e, t.tel.pend = s.tel.pend ++ [e] ∧ e.cls = .log ∧ e.code = 0x106
  asleep : ∀ j, (t.stack j).asleep = (s.stack j).asleep
  passed : n + 1 = 150994944 → ∀ j ∈ groupStacks g, (t.stack j).passes = sat 16 ((s.stack j).passes + 1)
  more : n + 1 < 150994944 → ∀ j, (t.stack j).passes = (s.stack j).passes

theorem patrolLeaves_checked (st : Nat) (g n : Nat) : PatrolLeaves s ((s.parityChecked st).passCounted g n) st g n := by
  obtain ⟨x, counted⟩ := (s.parityChecked st).passCounted_eq g n
  have kept {β : Type} (f : StackSt → β) (hf : ∀ x : StackSt, f { x with passes := sat 16 (x.passes + 1) } = f x) (j : Nat) :=
    (s.parityChecked st).stack_passCounted_keeps g n f hf j
  have passes (j : Nat) := s.stack_parityChecked_keeps st StackSt.passes (fun _ => rfl) j
  have pend : ((s.parityChecked st).passCounted g n).tel.pend = (s.parityChecked st).tel.pend := by rw [counted]
  constructor
  case only =>
    refine (ReadsOnly.of_parityChecked s st).trans ?_
    rw [counted]
    exact ⟨rfl, rfl, rfl, rfl, rfl, rfl, rfl⟩
  case par =>
    rw [counted]
    exact s.parityChecked_par st
  case exact_ => exact fun h => ⟨by rw [pend, s.parityChecked_exact st h],
    by rw [kept StackSt.parityRepaired (fun _ => rfl), s.parityChecked_exact st h]⟩
  case differs =>
    intro h
    obtain ⟨repaired, e, added, log⟩ := s.parityChecked_differs st h
    exact ⟨(kept StackSt.parityRepaired (fun _ => rfl) _).trans repaired, e, pend.trans added, log⟩
  case asleep =>
    exact fun j => (kept StackSt.asleep (fun _ => rfl) j).trans (s.stack_parityChecked_keeps st StackSt.asleep (fun _ => rfl) j)
  case passed =>
    intro last j hj
    rw [State.passCounted, groupStripes, if_pos last, State.stack_modStacks_mem _ _ (nodup_groupStacks _) _ j hj, passes]
  case more =>
    intro more j
    rw [State.passCounted, groupStripes, if_neg (Nat.ne_of_lt more), passes]

/-- R292: the stacks that a patrol read wakes, and the reads that are counted. -/
theorem woken (s : State) (l : List Nat) (hl : l.Nodup) (cnt : Counters) :
    let v : State := { s.modStacks l (fun _ x => { x with asleep := false }) with cnt := cnt }
    ReadsOnly s v ∧ v.hbm.par = s.hbm.par ∧ v.tel = s.tel ∧ (∀ j ∈ l, (v.stack j).asleep = false) ∧
      ∀ j, (v.stack j).passes = (s.stack j).passes ∧ (v.stack j).parityRepaired = (s.stack j).parityRepaired := by
  intro v
  obtain ⟨x, e⟩ := s.modStacks_eq l fun _ x => { x with asleep := false }
  have awake (j : Nat) (hj : j ∈ l) : (v.stack j).asleep = false :=
    congrArg StackSt.asleep (s.stack_modStacks_mem l hl (fun _ x => { x with asleep := false }) j hj)
  refine ⟨?_, ?_, ?_, awake, fun j => ⟨?_, ?_⟩⟩
  · simp only [v, e]
    exact ⟨rfl, rfl, rfl, rfl, rfl, rfl, rfl⟩
  · simp only [v, e]
  · simp only [v, e]
  · exact s.stack_modStacks_keeps StackSt.passes l (fun _ x => { x with asleep := false }) (fun _ _ => rfl) j
  · exact s.stack_modStacks_keeps StackSt.parityRepaired l (fun _ x => { x with asleep := false }) (fun _ _ => rfl) j

/-- Settles O41: a read by what its code unit holds, the patrol by what it leaves of a clean stripe. -/
theorem hbmReadsAndPatrolRepair : Obligations.HbmReadsAndPatrolRepair := by
  refine ⟨fun s a id p q errs => ?_, fun s g n errs => ⟨fun hoff => ?_, fun hon hn hh hmay hclean => ?_⟩⟩
  · intro l c u col fails
    refine ⟨fun ha => if_pos ha, fun ha => (hbmRead_settled s a id errs ha).1, fun ha hl hb => ?_,
      fun ha => (hbmRead_settled s a id errs ha).2.2, fun ha hh hl hb hclean hpar hp hq => ⟨?_, ?_, ?_, ?_⟩⟩
    · obtain ⟨t, run, ends, data, besides⟩ := (hbmRead_settled s a id errs ha).2.1 hl hb
      exact ⟨t, run, ends, data, besides⟩
    · obtain ⟨t, run, bad, only⟩ := exec_hbmRead_clean id rfl ha hh hl hb hclean
      exact ⟨t, run, only.data, bad, only.tiles, only.muzzle, only.besides⟩
    · obtain ⟨t, run, bad, ce, only⟩ := exec_hbmRead_one id rfl ha hh hl hb hclean hp
      exact ⟨t, run, bad, ce, only.data, only.tiles, only.muzzle, only.besides⟩
    · obtain ⟨t, run, bad, done, last, only⟩ := exec_hbmRead_two id rfl ha hh hl hb hclean hpar hp
      exact ⟨t, run, bad, done, last, only.data, only.tiles, only.muzzle, only.besides⟩
    · obtain ⟨t, run, count, only⟩ := exec_hbmRead_lost id rfl ha hh hl hb hclean hp hq
      obtain ⟨ends, data, besides⟩ := only.doubt a.toNat id
      obtain ⟨f, m, e⟩ := t.memoryDoubt_eq a.toNat [id]
      exact ⟨_, run, by rw [e]; exact count, data, ends, besides⟩
  · have asleep : (!(groupStacks g.val).all s.patrolMay) = true ↔ ∃ j ∈ groupStacks g.val, s.patrolMay j = false := by
      simp
    exact congrArg _ (if_pos (by rw [asleep]; exact hoff))
  · obtain ⟨cnt, run⟩ := exec_patrolRead_clean s g n hon hn hh hmay hclean
    obtain ⟨only, par, tel, awake, kept⟩ := woken s (groupStacks g.val) (nodup_groupStacks _) cnt
    have leaves := patrolLeaves_checked
      { s.modStacks (groupStacks g.val) (fun _ x => { x with asleep := false }) with cnt := cnt } (2 * n + g.val) g.val n
    have same := parityExact_iff s (2 * n + g.val)
    rw [← par, ← parityExact_iff] at same
    have all := only.trans leaves.only
    refine ⟨_, run, all.data, all.tiles, all.muzzle, all.besides, par ▸ leaves.par, fun exact_ => ?_, fun differs => ?_,
      fun j hj => (leaves.asleep j).trans (awake j hj), fun last j hj => ?_, fun more j => (leaves.more more j).trans (kept j).1⟩
    · obtain ⟨pend, repaired⟩ := leaves.exact_ (same.mp exact_)
      exact ⟨pend.trans (congrArg _ tel), repaired.trans (kept _).2⟩
    · obtain ⟨repaired, e, added, log⟩ := leaves.differs (mt same.mpr differs)
      exact ⟨by rw [repaired, (kept _).2], e, by rw [added, tel], log⟩
    · rw [leaves.passed last j hj, (kept j).1]

end Sys2Proof.Machine
end

section
/-! Page retirement, failed stacks, self-refresh and frequency changes (R285, R287 to R295). -/
namespace Sys2Proof.Machine
open Sys2Proof

variable (s : State)

/-! ## Page retirement (R287, R288) -/

section
variable {s} {f : Nat} (row : Option Nat)

theorem State.retire_under (h : (s.hbm.retiring.any fun r => r.frame == f) = true) : s.retire f row = s := if_pos h

variable (h : (s.hbm.retiring.any fun r => r.frame == f) = false)
include h

/-- R288: with no spare left the retirement is refused. -/
theorem State.retire_refused (hn : s.hbm.freeSpare = none) : s.retire f row = { s with hbm := { s.hbm with
    exhausted := true, refused := sat 11 (s.hbm.refused + 1), cmdStatus := if row.isNone then 3 else s.hbm.cmdStatus } } := by
  simp only [State.retire, h, Bool.false_eq_true, if_false, hn]
  rfl

/-- R287, R288: the lowest free spare is taken; the last of them exhausts the pool. -/
theorem State.retire_taken {n : Nat} (hn : s.hbm.freeSpare = some n) : ∃ low tel, s.retire f row = { s with
    hbm := { s.hbm with
      retiring := s.hbm.retiring ++ [⟨f, n, row, false⟩], cmdStatus := if row.isNone then 1 else s.hbm.cmdStatus
      exhausted := s.hbm.exhausted || decide (spareFrames ≤ s.hbm.sparesUsed + 1), low := low }
    tel := tel } := by
  rw [State.retire, if_neg (by rw [h]; decide), hn]
  dsimp only
  generalize hs1 : s.modHbm _ = s1
  have used : s1.hbm.sparesUsed = s.hbm.sparesUsed + 1 := by
    subst hs1
    simp [Hbm.sparesUsed, Nat.add_assoc]
  have full : (if spareFrames ≤ s1.hbm.sparesUsed then s1.modHbm fun h => { h with exhausted := true } else s1) =
      { s1 with hbm := { s1.hbm with exhausted := s.hbm.exhausted || decide (spareFrames ≤ s.hbm.sparesUsed + 1) } } := by
    subst hs1
    rw [used]
    split
    next last =>
      rw [decide_eq_true last, Bool.or_true]
      rfl
    next last =>
      rw [decide_eq_false last, Bool.or_false]
      rfl
  rw [full]
  generalize hs2 : ({ s1 with hbm := _ } : State) = s2
  split
  · subst hs2 hs1
    exact ⟨_, _, rfl⟩
  · subst hs2 hs1
    exact ⟨_, _, rfl⟩

end

/-- R287, R297: a command to retire a frame. -/
theorem hbmRetireCmd_settled (f : BitVec 23) :
    let under := s.hbm.retiring.any fun r => r.frame == f.toNat
    (320 * 2 ^ 30 ≤ f.toNat * 65536 → exec (.hbmRetireCmd f) s = .next { s with hbm := { s.hbm with cmdStatus := 3 } }) ∧
    (f.toNat * 65536 < 320 * 2 ^ 30 → under = true → exec (.hbmRetireCmd f) s = .next s) ∧
    (∀ n, f.toNat * 65536 < 320 * 2 ^ 30 → under = false → s.hbm.freeSpare = some n →
      ∃ t, exec (.hbmRetireCmd f) s = .next t ∧ t.hbm.retiring = s.hbm.retiring ++ [⟨f.toNat, n, none, false⟩] ∧
        t.hbm.exhausted = (s.hbm.exhausted || decide (spareFrames ≤ s.hbm.sparesUsed + 1)) ∧
        t.hbm.cmdStatus = 1 ∧ t.hbm.data = s.hbm.data ∧ t.tiles = s.tiles ∧ besidesHbm s t) ∧
    (f.toNat * 65536 < 320 * 2 ^ 30 → under = false → s.hbm.freeSpare = none →
      exec (.hbmRetireCmd f) s = .next { s with hbm := { s.hbm with
        exhausted := true, refused := sat 11 (s.hbm.refused + 1), cmdStatus := 3 } }) := by
  intro under
  have inside (hf : f.toNat * 65536 < 320 * 2 ^ 30) : s.retireCmd f.toNat = s.retire f.toNat none :=
    if_neg (by simp only [hbmUserEnd]; omega)
  refine ⟨fun hf => congrArg _ (if_pos ?_), fun hf hu => ?_, fun n hf hu hn => ?_, fun hf hu hn => ?_⟩
  · simp only [hbmUserEnd]
    omega
  · exact congrArg _ ((inside hf).trans (State.retire_under none hu))
  · obtain ⟨low, tel, e⟩ := State.retire_taken none hu hn
    exact ⟨_, congrArg Host.Outcome.next ((inside hf).trans e), rfl, rfl, rfl, rfl, rfl, rfl, rfl, rfl, rfl, rfl⟩
  · exact congrArg _ ((inside hf).trans (State.retire_refused none hu hn))

/-- R296: with no copy under way, or while a frequency change pauses it, nothing ends. -/
theorem retirementCopyDone_idle (h : s.hbm.retiring.all RetireSt.done = true ∨ s.hbm.held = true) :
    exec .retirementCopyDone s = .next s := by
  simp only [exec, execRetirementCopyDone]
  split
  next => rfl
  next r hr =>
    rcases h with all | held
    · have := List.all_eq_true.mp all r (List.mem_of_find?_eq_some hr)
      have notDone := List.find?_some hr
      simp [this] at notDone
    · rw [if_pos held]

/-- R287, R288: the end of a copy, by whether all of the frame can be read. -/
theorem retirementCopyDone_of_oldest (r : RetireSt) (hr : s.hbm.retiring = [r]) (hd : r.done = false) (hh : s.hbm.held = false) :
    let l := s.hbm.loc (r.frame * 65536)
    ∀ (ok : Bool) (v : State), s.readCells (s.weakCells l) = (ok, v) →
      exec .retirementCopyDone s = .next (if ok && !((frameCells l).any fun c => s.hbm.lostGroup c.unit.grp) then
        v.modHbm fun h => { h with retiring := h.retiring.map fun x => if x.frame == r.frame then { x with done := true } else x }
        else v.abandon r) := by
  intro l ok v hv
  have first : (s.hbm.retiring.find? fun r => !r.done) = some r := by simp [hr, hd]
  simp only [exec, execRetirementCopyDone, first, hh, hv, l]
  rfl

/-! ## Failures (R289 to R291) -/

/-- Groups that lose their data, and the held requests that retire in error, as a check for a second loss leaves them. -/
def lossOnly (s t : State) : Prop := ∃ l0 l1 w f m, t =
  { s with hbm := { s.hbm with lost0 := l0, lost1 := l1, waiting := w }, tiles := { s.tiles with faults := f }, muzzle := m } ∧
    ∀ x ∈ s.muzzle.triggers, x ∈ m.triggers

theorem lossOnly_refl : lossOnly s s := ⟨_, _, _, _, _, rfl, fun _ h => h⟩

theorem lossOnly_trans {s t u : State} (h : lossOnly s t) (h' : lossOnly t u) : lossOnly s u := by
  obtain ⟨l0, l1, w, f, m, rfl, hm⟩ := h
  obtain ⟨l0', l1', w', f', m', rfl, hm'⟩ := h'
  exact ⟨l0', l1', w', f', m', rfl, fun x hx => hm' x (hm x hx)⟩

theorem lossOnly_trigger (sc : Scope) (cause : Nat) : lossOnly s (s.trigger sc cause) :=
  ⟨_, _, _, _, _, rfl, fun _ h => List.mem_append_left _ h⟩

theorem lossOnly_memoryDoubt (a : Nat) (ids : List Nat) : lossOnly s (s.memoryDoubt a ids) := by
  unfold State.memoryDoubt
  split
  · exact lossOnly_trigger ..
  · rw [State.foldl_latchFault]
    exact ⟨_, _, _, _, _, rfl, fun _ h => h⟩

theorem lossOnly_retireHeld (g : Nat) : lossOnly s (s.retireHeld g) :=
  List.foldlRecOn (motive := lossOnly s) _ _ ⟨_, _, _, _, _, rfl, fun _ h => h⟩ fun _ ht _ _ =>
    lossOnly_trans ht (lossOnly_memoryDoubt ..)

theorem lossOnly_checkLoss (g : Nat) : lossOnly s (s.checkLoss g) := by
  unfold State.checkLoss
  split
  · refine lossOnly_trans (lossOnly_trans ?_ (lossOnly_retireHeld _ g)) (lossOnly_trigger ..)
    split
    · exact ⟨_, _, _, _, _, rfl, fun _ h => h⟩
    · exact ⟨_, _, _, _, _, rfl, fun _ h => h⟩
  · exact lossOnly_refl s

theorem State.retireHeld_lost (g : Nat) : (s.retireHeld g).hbm.lost0 = s.hbm.lost0 ∧ (s.retireHeld g).hbm.lost1 = s.hbm.lost1 :=
  List.foldlRecOn (motive := fun t : State => t.hbm.lost0 = s.hbm.lost0 ∧ t.hbm.lost1 = s.hbm.lost1) _ _ ⟨rfl, rfl⟩
    fun t ht q _ => by
    obtain ⟨f, m, e⟩ := t.memoryDoubt_eq q.addr q.owner.toList
    rw [e]
    exact ht

section
variable {s} {t : State} (h : lossOnly s t)
include h

theorem lossOnly.kept : t.hbm.stackList = s.hbm.stackList ∧ t.hbm.failDue = s.hbm.failDue ∧ t.nv = s.nv ∧ t.tel = s.tel := by
  obtain ⟨l0, l1, w, f, m, rfl, -⟩ := h
  exact ⟨rfl, rfl, rfl, rfl⟩

theorem lossOnly.stack (j : Nat) : t.stack j = s.stack j := congrArg (fun x => Table.get ({} : StackSt) x j) h.kept.1

theorem lossOnly.secondLoss (g : Nat) : t.secondLoss g = s.secondLoss g := by
  simp only [State.secondLoss, h.stack]

theorem lossOnly.triggers (x : Trigger) (hx : x ∈ s.muzzle.triggers) : x ∈ t.muzzle.triggers := by
  obtain ⟨l0, l1, w, f, m, rfl, hm⟩ := h
  exact hm x hx

end

/-- R291: the loss of one group leaves the other's mark. -/
theorem State.checkLoss_lost1 : (s.checkLoss 0).hbm.lost1 = s.hbm.lost1 := by
  unfold State.checkLoss
  split
  · exact (State.retireHeld_lost _ 0).2
  · rfl

/-- R291: a second loss Muzzles the module. -/
theorem State.checkLoss_triggers (g : Nat) (hl : s.hbm.lostGroup g = false) (h2 : s.secondLoss g = true) :
    (⟨.module, 0x0B⟩ : Trigger) ∈ (s.checkLoss g).muzzle.triggers := by
  rw [State.checkLoss, if_pos (by rw [hl, h2]; rfl)]
  exact List.mem_append_right _ (List.mem_singleton.mpr rfl)

/-- R291: two failed stacks of a group are a second loss. -/
theorem State.secondLoss_of_failed {g i j : Nat} (hi : i ∈ groupStacks g) (hj : j ∈ groupStacks g) (hij : i ≠ j)
    (fi : (s.stack i).failed = true) (fj : (s.stack j).failed = true) : s.secondLoss g = true := by
  refine List.any_eq_true.mpr ?_
  rcases Nat.lt_or_gt_of_ne hij with lt | lt
  · exact ⟨i, hi, List.any_eq_true.mpr ⟨j, hj, by simp [lt, fi, fj]⟩⟩
  · exact ⟨j, hj, List.any_eq_true.mpr ⟨i, hi, by simp [lt, fi, fj]⟩⟩

theorem State.stack_failStack (k j : Nat) : (s.failStack k).stack j =
    if j = k then { s.stack k with failed := true, trained := false, asleep := false } else s.stack j := by
  have shown : (s.failStack k).stack j =
      (s.modStack k fun x => { x with failed := true, trained := false, asleep := false }).stack j := by
    unfold State.failStack
    extract_lets s1 s2
    simp only [s2]
    split
    · rfl
    · rfl
  rw [shown, State.stack_modStack]

theorem State.failStack_nv (k : Nat) : Table.get false (s.failStack k).nv.failedStacks k = true := Table.get_put_same ..

theorem State.failStack_lost (k : Nat) : (s.failStack k).hbm.lost0 = s.hbm.lost0 ∧ (s.failStack k).hbm.lost1 = s.hbm.lost1 ∧
    (s.failStack k).hbm.failDue = s.hbm.failDue := by
  unfold State.failStack
  extract_lets s1 s2
  simp only [s2]
  split
  · exact ⟨rfl, rfl, rfl⟩
  · exact ⟨rfl, rfl, rfl⟩

/-- R289: a stack that is declared failed is recorded, with an ALARM. -/
theorem State.declareFail_stack (k : Nat) : ∃ e, s.declareFail (k, none) =
    { s.failStack k with tel := { (s.failStack k).tel with pend := (s.failStack k).tel.pend ++ [e] } } ∧
    e.cls = .alarm ∧ e.code = 9 ∧ e.inst = k := ⟨_, rfl, rfl, rfl, rfl⟩

/-- R289: a pseudo-channel that is declared failed is marked. -/
theorem State.declareFail_pc (k : Nat) (pc : Fin 32) :
    ((s.declareFail (k, some pc.val)).stack k).failedPc.getLsbD pc.val = true := by
  have marked (x : BitVec 32) : (x ||| (1#32 <<< pc.val)).getLsbD pc.val = true := by
    simp
  have shown : ((s.modStack k fun x => { x with failedPc := x.failedPc ||| (1#32 <<< pc.val) }).stack k).failedPc.getLsbD pc.val =
      true := by
    rw [State.stack_modStack_same]
    exact marked _
  simp only [State.declareFail]
  split
  · refine (congrArg (fun x : StackSt => x.failedPc.getLsbD pc.val) ((State.stack_failStack _ k k).trans (if_pos rfl))).trans ?_
    exact shown
  · exact shown

section
variable {s} {d : Nat × Option Nat} (h : s.hbm.failDue = [d])
include h

theorem State.applyFails_one : s.applyFails =
    ((({ s with hbm := { s.hbm with failDue := [] } } : State).declareFail d).checkLoss 0).checkLoss 1 := by
  rw [State.applyFails, h]
  rfl

theorem State.applyFails_lossOnly :
    lossOnly (({ s with hbm := { s.hbm with failDue := [] } } : State).declareFail d) s.applyFails := by
  rw [State.applyFails_one h]
  exact lossOnly_trans (lossOnly_checkLoss ..) (lossOnly_checkLoss ..)

end

/-- R289, R297: a failed stack at the tick that records it. -/
theorem applyFails_stack (k : StackIx) (h : s.hbm.failDue = [(k.val, none)]) :
    (s.applyFails.stack k.val).failed = true ∧ s.applyFails.hbm.failDue = [] ∧
      Table.get false s.applyFails.nv.failedStacks k.val = true ∧
      (∃ e ∈ s.applyFails.tel.pend, e.cls = .alarm ∧ e.code = 9 ∧ e.inst = k.val) ∧
      (∀ j, j ∈ groupStacks (k.val / 6) → j ≠ k.val → (s.stack j).failed = true → s.hbm.lost0 = false → s.hbm.lost1 = false →
        (⟨.module, 0x0B⟩ : Trigger) ∈ s.applyFails.muzzle.triggers) := by
  have after := State.applyFails_lossOnly h
  have two := State.applyFails_one h
  generalize hs0 : ({ s with hbm := { s.hbm with failDue := [] } } : State) = s0 at after two
  obtain ⟨e, recorded, cls, code, inst⟩ := s0.declareFail_stack k.val
  obtain ⟨l0, l1, due⟩ := s0.failStack_lost k.val
  have shown (j : Nat) : (s0.declareFail (k.val, none)).stack j =
      if j = k.val then { s0.stack k.val with failed := true, trained := false, asleep := false } else s0.stack j :=
    s0.stack_failStack k.val j
  have nv : Table.get false (s0.declareFail (k.val, none)).nv.failedStacks k.val = true := s0.failStack_nv k.val
  have lost : (s0.declareFail (k.val, none)).hbm.lost0 = s.hbm.lost0 ∧ (s0.declareFail (k.val, none)).hbm.lost1 = s.hbm.lost1 := by
    subst hs0
    exact ⟨l0, l1⟩
  have pend : e ∈ (s0.declareFail (k.val, none)).tel.pend := by
    rw [recorded]
    exact List.mem_append_right _ (List.mem_singleton.mpr rfl)
  have empty : (s0.declareFail (k.val, none)).hbm.failDue = [] := by
    subst hs0
    exact due
  generalize s0.declareFail (k.val, none) = v at *
  obtain ⟨-, sameDue, sameNv, sameTel⟩ := after.kept
  refine ⟨?_, sameDue.trans empty, sameNv ▸ nv, ⟨e, sameTel ▸ pend, cls, code, inst⟩, fun j hj off fj hl0 hl1 => ?_⟩
  · rw [after.stack, shown, if_pos rfl]
  · have own : k.val ∈ groupStacks (k.val / 6) := List.mem_map.mpr ⟨k.val % 6, List.mem_range.mpr (by omega), by omega⟩
    have second : v.secondLoss (k.val / 6) = true := State.secondLoss_of_failed v hj own off
      (by rw [shown, if_neg off, ← fj, ← hs0]; rfl) (by rw [shown, if_pos rfl])
    have first := lossOnly_checkLoss v 0
    have group : k.val / 6 = 0 ∨ k.val / 6 = 1 := by omega
    rw [two]
    rcases group with g | g
    · rw [g] at second
      exact (lossOnly_checkLoss _ 1).triggers _ (v.checkLoss_triggers 0 (lost.1.trans hl0) second)
    · rw [g, ← first.secondLoss] at second
      exact State.checkLoss_triggers _ 1 ((v.checkLoss_lost1).trans (lost.2.trans hl1)) second

/-- R289: a failed pseudo-channel at the tick that marks it. -/
theorem applyFails_pc (k : Nat) (pc : Fin 32) (h : s.hbm.failDue = [(k, some pc.val)]) :
    (s.applyFails.stack k).failedPc.getLsbD pc.val = true := by
  rw [(State.applyFails_lossOnly h).stack]
  exact State.declareFail_pc _ k pc

/-! ## Self-refresh (R292) -/

/-- A stack that enters self-refresh at a time. -/
def StackSt.slept (x : StackSt) (now : Nat) : StackSt :=
  if x.failed || x.asleep then x else { x with asleep := true, asleepAt := now, srEntries := sat 16 (x.srEntries + 1) }

theorem State.sleepStack_eq (k : Nat) : ∃ l, s.sleepStack k = { s with hbm := { s.hbm with stackList := l } } := by
  unfold State.sleepStack
  split
  · exact ⟨_, rfl⟩
  · exact ⟨_, rfl⟩

theorem State.stack_sleepStack (k j : Nat) :
    (s.sleepStack k).stack j = if j = k then (s.stack k).slept s.tick.now else s.stack j := by
  unfold State.sleepStack StackSt.slept
  split
  · split
    next h => rw [h]
    next => rfl
  · exact s.stack_modStack k j _

/-- R292: an idle stack enters self-refresh, and no other. -/
theorem selfRefreshEntry_settled (k : StackIx) :
    (s.stackIdle k.val s.tick.next = true → (s.stack k.val).failed = false → (s.stack k.val).asleep = false →
      ∃ t, exec (.selfRefreshEntry k) s = .next t ∧ (t.stack k.val).asleep = true ∧
        (t.stack k.val).srEntries = sat 16 ((s.stack k.val).srEntries + 1) ∧ (∀ j, j ≠ k.val → t.stack j = s.stack j) ∧
        t.hbm.data = s.hbm.data ∧ t.tiles = s.tiles ∧ besidesHbm s t) ∧
    (s.stackIdle k.val s.tick.next = false ∨ (s.stack k.val).failed = true ∨ (s.stack k.val).asleep = true →
      exec (.selfRefreshEntry k) s = .next s) := by
  refine ⟨fun idle up awake => ⟨s.sleepStack k.val, congrArg _ (if_pos idle), ?_⟩, fun h => congrArg Host.Outcome.next ?_⟩
  · have own : (s.sleepStack k.val).stack k.val = { s.stack k.val with
        asleep := true, asleepAt := s.tick.now, srEntries := sat 16 ((s.stack k.val).srEntries + 1) } := by
      rw [State.stack_sleepStack, if_pos rfl, StackSt.slept, if_neg (by rw [up, awake]; decide)]
    have others (j : Nat) (hj : j ≠ k.val) : (s.sleepStack k.val).stack j = s.stack j :=
      (s.stack_sleepStack k.val j).trans (if_neg hj)
    obtain ⟨l, e⟩ := s.sleepStack_eq k.val
    exact ⟨by rw [own], by rw [own], others, by rw [e], by rw [e], by rw [e]; exact ⟨rfl, rfl, rfl, rfl, rfl⟩⟩
  · rcases h with busy | still
    · exact if_neg (by rw [busy]; decide)
    · have stays : s.sleepStack k.val = s := if_pos ((Bool.or_eq_true ..).mpr still)
      rw [stays, ite_self]

/-! ## Transactions that take too long (R294) -/

/-- R294: the transaction is an unrecoverable one, and no longer held. -/
theorem hbmTransactionTimeout_settled (a : BitVec 40) (w : Option Nat) (ha : a.toNat < 360 * 2 ^ 30) :
    let k := (unitOf (s.hbm.loc a.toNat)).stack
    ∃ t, exec (.hbmTransactionTimeout a w) s = .next t ∧
      (t.stack k).unrepaired = sat 16 ((s.stack k).unrepaired + 1) ∧
      t.hbm.waiting = s.hbm.waiting.filter (fun q => !(q.addr == a.toNat && q.owner == w)) ∧
      (a.toNat < 320 * 2 ^ 30 → t.tiles.faults = s.tiles.faults ++ w.toList.map (⟨·, stMemory⟩) ∧ t.muzzle = s.muzzle) ∧
      (320 * 2 ^ 30 ≤ a.toNat → a.toNat < 336 * 2 ^ 30 →
        t.tiles = s.tiles ∧ t.muzzle.triggers = s.muzzle.triggers ++ [⟨.module, 0x01⟩]) ∧
      t.hbm.data = s.hbm.data ∧ besidesHbm s t := by
  intro k
  let v := (s.modHbm fun h => { h with waiting := h.waiting.filter fun q => !(q.addr == a.toNat && q.owner == w) }).modStack k
    fun x => { x with unrepaired := sat 16 (x.unrepaired + 1) }
  have run : exec (.hbmTransactionTimeout a w) s = .next (v.memoryDoubt a.toNat w.toList) :=
    if_neg (by simp only [hbmEnd]; omega)
  have count : (v.stack k).unrepaired = sat 16 ((s.stack k).unrepaired + 1) :=
    congrArg StackSt.unrepaired (State.stack_modStack_same ..)
  obtain ⟨f, m, e⟩ := v.memoryDoubt_eq a.toNat w.toList
  refine ⟨_, run, ?_, ?_, fun low => ?_, fun low high => ?_, ?_, ?_⟩
  · rw [e]
    exact count
  · rw [e]
    rfl
  · rw [v.memoryDoubt_user _ _ low]
    exact ⟨rfl, rfl⟩
  · rw [v.memoryDoubt_reserved _ _ low high]
    exact ⟨rfl, rfl⟩
  · rw [e]
    rfl
  · rw [e]
    exact ⟨rfl, rfl, rfl, rfl, rfl⟩

end Sys2Proof.Machine
end

section
/-! What reads and writes of HBM's code units leave alone (R282 to R284), and the steps of a frequency change (R293). -/
namespace Sys2Proof.Machine
open Sys2Proof

variable (s : State)

/-! ## What reads and writes of code units leave alone -/

/-- Whether a stack works, whether it sleeps, and how often it has gone to sleep. -/
def StackSt.rest (x : StackSt) : Bool × Bool × Nat := (x.failed, x.asleep, x.srEntries)

/-- What no read or write of a code unit changes: of HBM the buffers, the frequency and the rest of the stacks; and all outside
HBM but the counters, the telemetry that waits, the descriptors and triggers that it ends them by, and free choices. -/
def State.steady (s : State) : State × (Nat → Bool × Bool × Nat) :=
  ({ s with
      hbm := { op := s.hbm.op, wc0 := s.hbm.wc0, wc1 := s.hbm.wc1, shadow := s.hbm.shadow, waiting := s.hbm.waiting }
      cnt := {}, tel := {}, muzzle := {}, tiles := { s.tiles with faults := [] }, fresh := 0 }, fun k => (s.stack k).rest)

theorem State.steady_countEv (u ev n : Nat) : (s.countEv u ev n).steady = s.steady := by
  rw [State.countEv_eq]
  rfl

theorem State.steady_modStack (k : Nat) (f : StackSt → StackSt) (hf : ∀ x, (f x).rest = x.rest) : (s.modStack k f).steady = s.steady :=
  Prod.ext rfl (funext fun j => s.stack_modStack_keeps StackSt.rest k j f hf)

theorem State.steady_cellFresh (c : CellId) : (s.cellFresh c).steady = s.steady := rfl

theorem retires.steady {s t : State} (h : retires s t) : t.steady = s.steady := by
  obtain ⟨l, low, ex, n, cmd, tel, rfl⟩ := h
  rfl

theorem doubted.steady {s t : State} (h : doubted s t) : t.steady = s.steady := by
  obtain ⟨l, ue, due, k, e, hs⟩ := h
  refine Prod.ext (by rw [e]; rfl) (funext fun j => ?_)
  obtain ⟨x, hx⟩ := hs j
  exact (congrArg StackSt.rest hx).trans rfl

theorem State.steady_corrected (c : CellId) : (s.corrected c).steady = s.steady := by
  obtain ⟨times, h⟩ := retires_corrected s c
  exact h.steady.trans ((s.cellFresh c).steady_modStack c.unit.stack (fun x => { x with ce := sat 32 (x.ce + 1) }) fun _ => rfl)

theorem State.steady_memoryDoubt (a : Nat) (ids : List Nat) : (s.memoryDoubt a ids).steady = s.steady := by
  obtain ⟨f, m, e⟩ := s.memoryDoubt_eq a ids
  rw [e]
  rfl

/-- Other bytes, and a parity that differs by them, change nothing else of HBM. -/
theorem Hbm.escaped_eq (h : Hbm) (c : CellId) (y : Nat) : ∃ d p, h.escaped c y = { h with data := d, par := p } :=
  List.foldlRecOn (motive := fun x : Hbm => ∃ d p, x = { h with data := d, par := p }) _ _ ⟨_, _, rfl⟩ fun x hx i _ => by
    obtain ⟨d, p, rfl⟩ := hx
    dsimp only
    split
    · exact ⟨_, _, rfl⟩
    · exact ⟨_, _, rfl⟩

theorem State.steady_escaped (c : CellId) (y : Nat) : (s.modHbm fun h => h.escaped c y).steady = s.steady := by
  obtain ⟨d, p, e⟩ := s.hbm.escaped_eq c y
  rw [State.modHbm, e]
  rfl

theorem State.steady_decodeCell (c : CellId) : (s.decodeCell c).2.steady = s.steady := by
  unfold State.decodeCell
  split
  · rfl
  · dsimp only
    split
    · exact s.steady_countEv ..
    · exact (State.steady_corrected ..).trans (s.steady_countEv ..)
    · exact (doubted_codeFailed ..).steady.trans (s.steady_countEv ..)
    · generalize hv : s.countEv (hbmUnit c.unit.stack) 0x080 1 = v
      have counted : v.steady = s.steady := hv ▸ s.steady_countEv ..
      rw [← counted, apply_ite Prod.snd, apply_ite State.steady]
      refine (ite_congr rfl (fun _ => ?_) fun _ => ?_).trans (ite_self _)
      · exact (doubted_codeFailed ..).steady.trans rfl
      · exact (State.steady_escaped ..).trans rfl

theorem State.steady_decodeColumn (st col : Nat) (ps : List Nat) : (s.decodeColumn st col ps).2.steady = s.steady := by
  unfold State.decodeColumn
  exact List.foldlRecOn (motive := fun acc : Bool × State => acc.2.steady = s.steady) ps _ rfl fun acc h p _ =>
    (acc.2.steady_decodeCell _).trans h

/-- R283: what stands on a failed stack is not stored again. -/
theorem State.rebuild_lost {s t : State} {c : CellId}
    (hd : s.decodeColumn c.unit.stripe c.col (otherUnits c.unit.pos) = (true, t)) (hw : t.unitLost c.unit = true) :
    s.rebuild c = (true, t.countEv (hbmUnit c.unit.stack) 0x085 1) := by
  have lost : (t.countEv (hbmUnit c.unit.stack) 0x085 1).unitLost c.unit = true := by
    rw [State.countEv_eq]
    exact hw
  unfold State.decodeColumn otherUnits at hd
  simp only [State.rebuild, hd, if_true, lost]

theorem State.steady_rebuild (c : CellId) : (s.rebuild c).2.steady = s.steady := by
  have read := s.steady_decodeColumn c.unit.stripe c.col (otherUnits c.unit.pos)
  rcases hd : s.decodeColumn c.unit.stripe c.col (otherUnits c.unit.pos) with ⟨ok, t⟩
  rw [hd] at read
  cases ok with
  | false =>
    rw [State.rebuild_fails hd]
    exact (t.steady_modStack _ (fun k => { k with unrepaired := sat 16 (k.unrepaired + 1) }) fun _ => rfl).trans read
  | true =>
    cases hw : t.unitLost c.unit with
    | true =>
      rw [State.rebuild_lost hd hw]
      exact (t.steady_countEv ..).trans read
    | false =>
      obtain ⟨k, v, e, h⟩ := State.rebuild_done hd hw
      rw [e]
      refine h.steady.trans (Eq.trans ?_ read)
      exact State.steady_modStack _ _ (fun x => { x with repaired := sat 16 (x.repaired + 1) }) fun _ => rfl

theorem State.steady_readCell (c : CellId) : (s.readCell c).2.steady = s.steady := by
  unfold State.readCell
  have decoded := s.steady_decodeCell c
  split
  · exact s.steady_rebuild c
  · split
    next t h => rwa [h] at decoded
    next t h =>
      rw [h] at decoded
      exact (t.steady_rebuild c).trans decoded

theorem State.steady_readCells (l : List CellId) : (s.readCells l).2.steady = s.steady := by
  unfold State.readCells
  exact List.foldlRecOn (motive := fun acc : Bool × State => acc.2.steady = s.steady) l _ rfl fun acc h c _ =>
    (acc.2.steady_readCell c).trans h

theorem State.steady_flushBuf (b : WcBuf) : (s.flushBuf b).steady = s.steady := by
  unfold State.flushBuf
  extract_lets lost cols cell
  have read := s.steady_readCells (cols.flatMap fun col => (b.plan lost col).reads.map (cell col))
  generalize s.readCells (cols.flatMap fun col => (b.plan lost col).reads.map (cell col)) = r at read ⊢
  obtain ⟨ok, v⟩ := r
  dsimp only at read ⊢
  split
  · have put (t : State) (p : Nat) : ((cols.filter fun col => p == 5 || !(b.offs p col).isEmpty).foldl
        (fun s col => s.cellFresh (cell col p))
        (if lost.contains p then t else t.countEv (hbmUnit (UnitId.stack ⟨b.stripe, p⟩)) 0x081 1)).steady = t.steady := by
      rw [foldl_keeps State.steady _ (fun t col => t.steady_cellFresh _), apply_ite State.steady, State.steady_countEv, ite_self]
    rw [foldl_keeps State.steady _ put, State.steady_countEv, ← read]
    obtain ⟨p, e⟩ := Hbm.foldl_parExact { v.hbm with
      data := b.writtenTo v.hbm.data } ((cols.filter fun col => (b.plan lost col).anew).map (cell · 5))
    rw [List.foldl_map] at e
    rw [State.modHbm]
    exact (congrArg (fun h => State.steady { v with hbm := h }) e).trans rfl
  · split
    · exact read
    · exact (v.steady_memoryDoubt ..).trans read

/-! ## The buffers are written (R285, R293) -/

theorem State.steady_flushAll : s.flushAll.steady = ((s.setBufs 0 []).setBufs 1 []).steady :=
  foldl_keeps State.steady State.flushBuf (fun t b => t.steady_flushBuf b) _ _

/-- With nothing in the buffers, nothing is written. -/
theorem State.flushAll_empty (h0 : s.hbm.wc0 = []) (h1 : s.hbm.wc1 = []) :
    s.flushAll.hbm.data = s.hbm.data ∧ s.flushAll.tiles = s.tiles := by
  rw [State.flushAll, h0, h1]
  exact ⟨rfl, rfl⟩

/-- Every stack of a list goes to sleep. -/
def State.sleepStacks (s : State) (l : List Nat) : State := l.foldl State.sleepStack s

theorem State.sleepStacks_eq (l : List Nat) : ∃ x, s.sleepStacks l = { s with hbm := { s.hbm with stackList := x } } :=
  List.foldlRecOn (motive := fun t => ∃ x, t = { s with hbm := { s.hbm with stackList := x } }) l _ ⟨_, rfl⟩ fun t ht k _ => by
    obtain ⟨x, rfl⟩ := ht
    obtain ⟨y, e⟩ := State.sleepStack_eq { s with hbm := { s.hbm with stackList := x } } k
    exact ⟨y, e⟩

theorem StackSt.slept_slept (x : StackSt) (now : Nat) : (x.slept now).slept now = x.slept now := by
  unfold StackSt.slept
  split
  next h => rfl
  next => exact if_pos (by simp)

theorem State.stack_sleepStacks (l : List Nat) (j : Nat) :
    (s.sleepStacks l).stack j = if j ∈ l then (s.stack j).slept s.tick.now else s.stack j := by
  induction l generalizing s with
  | nil => rfl
  | cons k l ih =>
    have tick : (s.sleepStack k).tick = s.tick := by
      obtain ⟨x, e⟩ := s.sleepStack_eq k
      rw [e]
    refine (ih (s.sleepStack k)).trans ?_
    rw [tick, s.stack_sleepStack]
    by_cases hk : j = k
    · subst hk
      simp [StackSt.slept_slept]
    · simp [hk]

/-- What a working stack that goes to sleep shows. -/
theorem StackSt.slept_shows (x : StackSt) (now : Nat) (h : x.failed = false) :
    (x.slept now).asleep = true ∧ (x.slept now).srEntries = if x.asleep then x.srEntries else sat 16 (x.srEntries + 1) := by
  unfold StackSt.slept
  rw [h, Bool.false_or]
  split
  next asleep => exact ⟨asleep, rfl⟩
  next => exact ⟨rfl, rfl⟩

/-- R293: the buffers are written, the stacks go to sleep, and the committed point is active. -/
theorem exec_freqChangeDrained (h : s.hbm.phase = .draining) :
    exec .freqChangeDrained s = .next { s.flushAll.sleepStacks (List.range 12) with
      regs := { s.regs with active := s.hbm.shadow.elim s.regs.active fun g => copyGroup s.mod.grade 5 0 g s.regs.active }
      hbm := { (s.flushAll.sleepStacks (List.range 12)).hbm with phase := .refreshing, shadow := none } } := by
  have flushed := s.steady_flushAll
  obtain ⟨x, e⟩ := s.flushAll.sleepStacks_eq (List.range 12)
  have shadow : (s.flushAll.sleepStacks (List.range 12)).hbm.shadow = s.hbm.shadow := by
    rw [e]
    exact congrArg (fun x => x.1.hbm.shadow) flushed
  have regs : (s.flushAll.sleepStacks (List.range 12)).regs = s.regs := by
    rw [e]
    exact congrArg (fun x => x.1.regs) flushed
  have mod : (s.flushAll.sleepStacks (List.range 12)).mod = s.mod := by
    rw [e]
    exact congrArg (fun x => x.1.mod) flushed
  refine congrArg Host.Outcome.next ((if_neg (not_not.mpr h)).trans ?_)
  dsimp only [State.sleepStacks] at shadow regs mod ⊢
  generalize (List.range 12).foldl State.sleepStack s.flushAll = v at *
  rw [← shadow, ← regs, ← mod]
  cases v.hbm.shadow
  · rfl
  · rfl

/-- R285, R293: the first step of a frequency change. -/
theorem freqChangeDrained_settled (h : s.hbm.phase = .draining) :
    ∃ t, exec .freqChangeDrained s = .next t ∧ t.hbm.phase = .refreshing ∧ t.hbm.data = s.flushAll.hbm.data ∧ t.hbm.op = s.hbm.op ∧
      t.hbm.wc0 = [] ∧ t.hbm.wc1 = [] ∧ (s.hbm.wc0 = [] → s.hbm.wc1 = [] → t.hbm.data = s.hbm.data ∧ t.tiles = s.tiles) ∧
      t.regs.active = s.hbm.shadow.elim s.regs.active (fun g => copyGroup s.mod.grade 5 0 g s.regs.active) ∧
      (∀ k, k < 12 → (s.stack k).failed = false → (t.stack k).asleep = true ∧
        (t.stack k).srEntries = if (s.stack k).asleep then (s.stack k).srEntries else sat 16 ((s.stack k).srEntries + 1)) ∧
      t.host = s.host ∧ t.links = s.links ∧ t.tiles.tiles = s.tiles.tiles := by
  have flushed := s.steady_flushAll
  have slept (k : Nat) := s.flushAll.stack_sleepStacks (List.range 12) k
  obtain ⟨x, e⟩ := s.flushAll.sleepStacks_eq (List.range 12)
  have run := exec_freqChangeDrained s h
  rw [e] at slept run
  have rest (k : Nat) : (s.flushAll.stack k).rest = (s.stack k).rest := congrFun (congrArg Prod.snd flushed) k
  refine ⟨_, run, rfl, rfl, congrArg (fun x => x.1.hbm.op) flushed, congrArg (fun x => x.1.hbm.wc0) flushed,
    congrArg (fun x => x.1.hbm.wc1) flushed, s.flushAll_empty, rfl, fun k hk up => ?_, congrArg (fun x => x.1.host) flushed,
    congrArg (fun x => x.1.links) flushed, congrArg (fun x => x.1.tiles.tiles) flushed⟩
  obtain ⟨failed, rest⟩ := Prod.ext_iff.mp (rest k)
  obtain ⟨asleep, entries⟩ := Prod.ext_iff.mp rest
  obtain ⟨sleeps, counts⟩ := (s.flushAll.stack k).slept_shows s.flushAll.tick.now (failed.trans up)
  have shown := (slept k).trans (if_pos (List.mem_range.mpr hk))
  refine ⟨(congrArg StackSt.asleep shown).trans sleeps, (congrArg StackSt.srEntries shown).trans (counts.trans ?_)⟩
  rw [show (s.flushAll.stack k).asleep = (s.stack k).asleep from asleep,
    show (s.flushAll.stack k).srEntries = (s.stack k).srEntries from entries]

/-- R293: the second step. -/
theorem freqChangeLocked_settled (h : s.hbm.phase = .refreshing) :
    ∃ t, exec .freqChangeLocked s = .next t ∧ t.hbm.phase = .retraining ∧ t.hbm.data = s.hbm.data ∧
      (∀ k, k < 12 → (t.stack k).asleep = false) ∧ t.tiles = s.tiles ∧ besidesHbm s t := by
  let wake (_ : Nat) (x : StackSt) : StackSt := { x with asleep := false }
  have run : exec .freqChangeLocked s =
      .next ((s.modStacks (List.range 12) wake).modHbm fun h => { h with phase := .retraining }) :=
    congrArg _ (if_neg (not_not.mpr h))
  have awake (k : Nat) (hk : k < 12) : ((s.modStacks (List.range 12) wake).stack k).asleep = false :=
    congrArg StackSt.asleep (s.stack_modStacks_mem _ List.nodup_range wake k (List.mem_range.mpr hk))
  obtain ⟨x, e⟩ := s.modStacks_eq (List.range 12) wake
  rw [e] at run awake
  exact ⟨_, run, rfl, rfl, awake, rfl, rfl, rfl, rfl, rfl, rfl⟩

/-- Declarations of failure that wait for the tick. -/
def State.failAll (s : State) (l : List (StackIx × Option (Fin 32))) : State :=
  l.foldl (fun s e => s.failNext e.1.val (e.2.map Fin.val)) s

theorem State.failAll_eq (l : List (StackIx × Option (Fin 32))) : ∃ d, s.failAll l = { s with hbm := { s.hbm with failDue := d } } ∧
    (∀ x ∈ s.hbm.failDue, x ∈ d) ∧ ∀ e ∈ l, (e.1.val, e.2.map Fin.val) ∈ d := by
  induction l generalizing s with
  | nil => exact ⟨_, rfl, fun _ h => h, fun _ h => (List.not_mem_nil h).elim⟩
  | cons e l ih =>
    obtain ⟨d, eq, old, new⟩ := ih (s.failNext e.1.val (e.2.map Fin.val))
    have due : (s.failNext e.1.val (e.2.map Fin.val)).hbm.failDue = if s.hbm.failDue.contains (e.1.val, e.2.map Fin.val) then
        s.hbm.failDue else s.hbm.failDue ++ [(e.1.val, e.2.map Fin.val)] := rfl
    have first : (e.1.val, e.2.map Fin.val) ∈ (s.failNext e.1.val (e.2.map Fin.val)).hbm.failDue := by
      rw [due]
      split
      next h => exact List.contains_iff_mem.mp h
      next => exact List.mem_append_right _ (List.mem_singleton.mpr rfl)
    have keep (x : Nat × Option Nat) (hx : x ∈ s.hbm.failDue) : x ∈ (s.failNext e.1.val (e.2.map Fin.val)).hbm.failDue := by
      rw [due]
      split
      · exact hx
      · exact List.mem_append_left _ hx
    refine ⟨d, eq, fun x hx => old x (keep x hx), fun x hx => ?_⟩
    rcases List.mem_cons.mp hx with rfl | hx
    · exact old _ first
    · exact new x hx

theorem State.releaseHbm_none (h : s.hbm.waiting = []) : s.releaseHbm = s := by
  rw [State.releaseHbm, h]
  exact congrArg (fun w => ({ s with hbm := { s.hbm with waiting := w } } : State)) h.symm

theorem State.bar2Release_none (h : s.paging.bar2Held = []) : s.bar2Release = s := by
  rw [State.bar2Release, h]
  exact congrArg (fun w => ({ s with paging := { s.paging with bar2Held := w } } : State)) h.symm

/-- With nothing held, nothing is released. -/
theorem State.released_none (hw : s.hbm.waiting = []) (hb : s.paging.bar2Held = []) : s.releaseHbm.bar2Release = s := by
  rw [s.releaseHbm_none hw, s.bar2Release_none hb]

/-- R289, R293: the last step. -/
theorem freqChangeRetrained_settled (l : List (StackIx × Option (Fin 32))) (h : s.hbm.phase = .retraining) :
    ∃ v, exec (.freqChangeRetrained l) s = .next v.releaseHbm.bar2Release ∧ v.hbm.phase = .idle ∧
      v.hbm.held = false ∧ v.hbm.op = s.hbm.target ∧ v.hbm.changes = sat 16 (s.hbm.changes + 1) ∧
      (∀ e ∈ l, (e.1.val, e.2.map Fin.val) ∈ v.hbm.failDue) ∧
      (∀ k, k < 12 → (v.stack k).trained = (!(s.stack k).failed && !l.any fun e => e.1.val == k && e.2.isNone)) ∧
      v.hbm.waiting = s.hbm.waiting ∧ v.paging = s.paging ∧ v.hbm.data = s.hbm.data ∧ v.tiles = s.tiles ∧ besidesHbm s v ∧
      (s.hbm.waiting = [] → s.paging.bar2Held = [] → v.releaseHbm.bar2Release = v) := by
  let train (k : Nat) (x : StackSt) : StackSt :=
    { x with trained := !x.failed && !l.any fun e => e.1.val == k && e.2.isNone }
  let current (h : Hbm) : Hbm := { h with phase := .idle, op := h.target, changes := sat 16 (h.changes + 1) }
  have run : exec (.freqChangeRetrained l) s =
      .next (((s.modStacks (List.range 12) train).modHbm current).failAll l).releaseHbm.bar2Release :=
    congrArg _ (if_neg (not_not.mpr h))
  have trained (k : Nat) (hk : k < 12) : ((s.modStacks (List.range 12) train).stack k).trained =
      (!(s.stack k).failed && !l.any fun e => e.1.val == k && e.2.isNone) :=
    congrArg StackSt.trained (s.stack_modStacks_mem _ List.nodup_range train k (List.mem_range.mpr hk))
  obtain ⟨x, e⟩ := s.modStacks_eq (List.range 12) train
  rw [e] at run trained
  obtain ⟨d, e', -, new⟩ := State.failAll_eq (State.modHbm { s with hbm := { s.hbm with stackList := x } } current) l
  generalize State.failAll _ l = v at e' run
  have shape : v = { s with hbm := { current { s.hbm with stackList := x } with failDue := d } } := e'
  have trains (k : Nat) (hk : k < 12) : (v.stack k).trained = (!(s.stack k).failed && !l.any fun e => e.1.val == k && e.2.isNone) :=
    (congrArg (fun v : State => (v.stack k).trained) shape).trans (trained k hk)
  have waiting : v.hbm.waiting = s.hbm.waiting := by rw [shape]
  have paging : v.paging = s.paging := by rw [shape]
  exact ⟨v, run, by rw [shape], by rw [shape]; rfl, by rw [shape], by rw [shape], by rw [shape]; exact new, trains, waiting, paging,
    by rw [shape], by rw [shape], by rw [shape]; exact ⟨rfl, rfl, rfl, rfl, rfl⟩,
    fun hw hb => v.released_none (waiting.trans hw) ((congrArg Paging.bar2Held paging).trans hb)⟩

/-- Settles O42: each command by its own lemma above. -/
theorem retirementFailuresAndFrequencyFollowTheirRules : Obligations.RetirementFailuresAndFrequencyFollowTheirRules := by
  refine ⟨fun s => ⟨hbmRetireCmd_settled s, retirementCopyDone_idle s, fun r hr hd hh => ?_, fun k pc => ?_,
    selfRefreshEntry_settled s⟩, fun s => ⟨fun h => ?_, freqChangeLocked_settled s, freqChangeRetrained_settled s,
    fun h => congrArg _ (if_pos h), fun h => congrArg _ (if_pos h), fun l h => congrArg _ (if_pos h),
    fun a w => ⟨fun ha => if_pos ha, hbmTransactionTimeout_settled s a w⟩⟩⟩
  · intro l
    have copied := retirementCopyDone_of_oldest s r hr hd hh
    refine ⟨fun weak l0 l1 => ?_, fun ok v hv => ⟨fun hok whole => ?_, fun gone => ⟨v.abandon r, ?_, ?_⟩⟩⟩
    · have none_ : ((frameCells l).any fun c => s.hbm.lostGroup c.unit.grp) = false := by
        simp [Hbm.lostGroup, l0, l1]
      rw [copied true s (by rw [weak]; rfl), none_]
      simp [State.modHbm, hr]
    · have none_ : ((frameCells l).any fun c => s.hbm.lostGroup c.unit.grp) = false := by
        simpa using whole
      rw [copied ok v hv, hok, none_]
      rfl
    · have some_ : (ok && !((frameCells l).any fun c => s.hbm.lostGroup c.unit.grp)) = false := by
        rcases gone with rfl | gone
        · rfl
        · rw [List.any_eq_true.mpr gone, Bool.not_true, Bool.and_false]
      rw [copied ok v hv, some_]
      rfl
    · exact ⟨rfl, rfl, rfl, rfl, ⟨_, rfl, rfl, rfl⟩, rfl, rfl, rfl, rfl, rfl, rfl⟩
  · intro due
    refine ⟨fun h => ?_, fun h => ?_, fun h => ?_, fun h hn => ?_, applyFails_stack s k, applyFails_pc s k.val pc⟩
    · exact congrArg _ (if_pos h)
    · exact congrArg _ (if_neg h)
    · exact congrArg _ (if_pos h)
    · exact congrArg _ (if_neg fun either => either.elim h (Nat.not_le_of_lt hn))
  · obtain ⟨t, run, phase, data, op, w0, w1, empty, active, rest⟩ := freqChangeDrained_settled s h
    refine ⟨t, run, phase, data, op, w0, w1, empty, ?_, rest⟩
    cases hs : s.hbm.shadow
    · rw [hs] at active
      exact active
    · rw [hs] at active
      exact active

end Sys2Proof.Machine
end

section
/-! Partial images (R359, R360, R362): the frames that an image writes, and its load. -/
namespace Sys2Proof.Machine
open Sys2Proof

/-! ## Frames and their addresses (R334, R351) -/

/-- The parts of a frame's place fit their fields of its address. -/
structure FrameAt.Fits (f : FrameAt) : Prop where
  minor : f.minor < 32
  band : f.band < 32
  col : f.col < 128
  die : f.die < 4

theorem frameAt_fits (a : Nat) : (frameAt a).Fits :=
  ⟨Nat.mod_lt _ (by decide), Nat.mod_lt _ (by decide), Nat.mod_lt _ (by decide), Nat.mod_lt _ (by decide)⟩

theorem FrameAt.Fits.frameAt_addr {f : FrameAt} (h : f.Fits) : frameAt f.addr = f := by
  obtain ⟨minor, band, col, die⟩ := f
  obtain ⟨hm, hb, hc, hd⟩ := h
  simp only [frameAt, FrameAt.addr, bits, FrameAt.mk.injEq] at *
  omega

theorem minorsOf_le (col : Nat) : minorsOf col ≤ 32 := by
  unfold minorsOf
  split
  · exact Nat.le_refl _
  · split <;> decide

theorem FrameAt.Fits.next {f g : FrameAt} (h : f.Fits) (hn : f.next = some g) : g.Fits := by
  have hle := minorsOf_le f.col
  obtain ⟨hm, hb, hc, hd⟩ := h
  unfold FrameAt.next at hn
  split at hn
  · cases hn
    exact ⟨by dsimp only; omega, hb, hc, hd⟩
  split at hn
  · cases hn
    exact ⟨Nat.zero_lt_succ _, by dsimp only; omega, hc, hd⟩
  split at hn
  · cases hn
    exact ⟨Nat.zero_lt_succ _, Nat.zero_lt_succ _, by dsimp only; omega, hd⟩
  split at hn
  · cases hn
    exact ⟨Nat.zero_lt_succ _, Nat.zero_lt_succ _, Nat.zero_lt_succ _, by dsimp only; omega⟩
  · cases hn

theorem frameRun_fits (n : Nat) (f g : FrameAt) (hf : f.Fits) (hg : g ∈ frameRun n f) : g.Fits := by
  induction n generalizing f with
  | zero => exact List.mem_singleton.mp hg ▸ hf
  | succ n ih =>
    rcases List.mem_cons.mp hg with rfl | hg
    · exact hf
    · split at hg
      next x hx => exact ih x (hf.next hx) hg
      · cases hg

theorem addrFrames_fits (n : Nat) (b : List Byte) (f : FrameAt) (hf : f ∈ (addrFrames n b).1) : f.Fits := by
  induction n generalizing b with
  | zero => cases hf
  | succ n ih =>
    rcases List.mem_append.mp hf with h | h
    · exact frameRun_fits _ _ _ (frameAt_fits _) h
    · exact ih _ h

/-- R351: the frames that the records of a stream name have addresses. -/
theorem parseStream_fits (fuel : Nat) (b : List Byte) (r : ImgRec) (hr : r ∈ (parseStream fuel b).recs) (f : FrameAt)
    (hf : f ∈ r.frames) : f.Fits := by
  induction fuel generalizing b with
  | zero => cases hr
  | succ fuel ih =>
    unfold parseStream at hr
    dsimp only at hr
    split at hr
    · cases hr
    split at hr
    · cases hr
    · rcases List.mem_cons.mp hr with rfl | hr
      · exact addrFrames_fits _ _ _ hf
      · exact ih _ hr

/-! ## The frames of a region (R343, R359) -/

theorem get_blankRegion (q : RegionRect) (m : Table (BitVec 4096)) (a : Nat) (h : q.holds (frameAt a) = false) :
    Table.get 0 (blankRegion q m) a = Table.get 0 m a :=
  (Table.get_filter_key 0 (fun i => !q.holds (frameAt i)) m a).trans (if_pos (by rw [h]; rfl))

/-- A load that nothing stops names frames of its region alone. -/
theorem holds_of_strays_none {q : RegionRect} {l : List ImgRec} (h : strays q l = none) (r : ImgRec) (hr : r ∈ l)
    (f : FrameAt) (hf : f ∈ r.frames) : q.holds f = true := by
  obtain ⟨i, hi, rfl⟩ := List.mem_iff_getElem.mp hr
  have hz : (i, l[i]) ∈ List.zip (List.range l.length) l :=
    List.mem_iff_getElem.mpr ⟨i, by simpa using hi, by simp⟩
  have none_ := List.findSome?_eq_none_iff.mp h _ (List.mem_map_of_mem hz)
  simp only [id_eq] at none_
  split at none_
  · cases none_
  · simpa using List.find?_eq_none.mp (Option.map_eq_none_iff.mp none_) f hf

theorem ImgStream.get_write_other (t : ImgStream) (m : Table (BitVec 4096)) (a : Nat)
    (h : ∀ r ∈ t.recs, ∀ f ∈ r.frames, f.addr ≠ a) : Table.get 0 (t.write m) a = Table.get 0 m a := by
  refine List.foldlRecOn (motive := fun x => Table.get 0 x a = Table.get 0 m a) t.recs _ rfl fun x hx r hr => ?_
  refine List.foldlRecOn (motive := fun x => Table.get 0 x a = Table.get 0 m a) r.frames _ hx fun y hy f hf => ?_
  exact (Table.get_set_other 0 y _ _ _ (h r hr f hf).symm).trans hy

/-- R359: an image whose frames all lie in its region leaves every frame outside it alone. -/
theorem get_image_outside {q : RegionRect} (o : List Byte) (m : Table (BitVec 4096)) (h : strays q (imgStream o).recs = none)
    (a : Nat) (ha : q.holds (frameAt a) = false) :
    Table.get 0 ((imgStream o).write (blankRegion q m)) a = Table.get 0 m a := by
  refine (ImgStream.get_write_other _ _ _ fun r hr f hf e => ?_).trans (get_blankRegion q m a ha)
  have fits : f.Fits := parseStream_fits _ _ r hr f hf
  have inside := holds_of_strays_none h r hr f hf
  rw [← e, fits.frameAt_addr, inside] at ha
  cases ha

variable (s : State)

/-! ## What the conditions of a Muzzle leave alone (R29) -/

theorem State.meetRegion_frame (r : RegionIx) (c : Nat) : ∃ m, s.meetRegion r c = { s with muzzle := m } := by
  obtain ⟨l, p, q, h⟩ := s.meetScope_frame ⟨.region r, c⟩
  simp only [State.meetRegion, State.meet, h]
  split
  · exact ⟨_, rfl⟩
  · exact ⟨_, rfl⟩

theorem State.stalledRegion_frame (r : RegionIx) :
    ∃ l m, s.stalledRegion r = { s with config := { s.config with nwStalled := l }, muzzle := m } := by
  unfold State.stalledRegion
  split
  · dsimp only
    split
    · exact ⟨_, _, rfl⟩
    · obtain ⟨m, h⟩ := ((s.modConfig fun c =>
        { c with nwStalled := c.nwStalled.filter (· != r.val) }).trigger (.region r) 0x04).meetRegion_frame r 0x04
      exact ⟨_, m, h⟩
  · exact ⟨_, _, rfl⟩

theorem State.stalledRegion_none (r : RegionIx) (h : s.config.nwStalled = []) : s.stalledRegion r = s := by
  simp [State.stalledRegion, h]

/-- R29, R359: a load that is done meets the conditions of its region's Muzzle, and changes no frame and no region. -/
theorem State.loadEnds_frame (r : RegionIx) : ∃ l m, ((s.meetRegion r 0x02).meetRegion r 0x03).stalledRegion r =
    { s with config := { s.config with nwStalled := l }, muzzle := m } := by
  obtain ⟨m1, e1⟩ := s.meetRegion_frame r 0x02
  obtain ⟨m2, e2⟩ := (s.meetRegion r 0x02).meetRegion_frame r 0x03
  obtain ⟨l, m, e3⟩ := ((s.meetRegion r 0x02).meetRegion r 0x03).stalledRegion_frame r
  exact ⟨l, m, by rw [e3, e2, e1]⟩

theorem State.region_of_fabric {s t : State} (h : t.fabric = s.fabric) (r : Nat) : t.region r = s.region r := by
  rw [State.region, h, State.region]

@[simp] theorem State.region_trigger (sc : Scope) (c r : Nat) : (s.trigger sc c).region r = s.region r := rfl

@[simp] theorem State.stagingLost_shep (l : PartialLoad) : (s.stagingLost l).shep = s.shep := by
  simp [State.stagingLost, State.plFails]

@[simp] theorem State.stagingLost_tiles (l : PartialLoad) : (s.stagingLost l).tiles = s.tiles := by
  simp [State.stagingLost, State.plFails]

theorem State.region_stagingLost (l : PartialLoad) : ((s.stagingLost l).region l.region.val).st = .blank := by
  simp only [State.stagingLost, State.region_trigger, State.region_modRegion_same]

/-! ## What a load leaves of its region (R359, R360) -/

/-- A region whose frames and user logic a load has replaced, in a state, with what the load says of itself. -/
def State.replaced (s : State) (l : PartialLoad) (c : ConfigSt → ConfigSt) (st : RegionState) : State :=
  ((s.modFab fun f => { f with logic := f.logic.reload (s.regionRect l.region.val) }).modConfig c).modRegion l.region.val
    fun x => { x with st := st }

/-- The configuration once the image stands in its region. -/
def ConfigSt.loaded (r : RegionRect) (l : PartialLoad) (c : ConfigSt) : ConfigSt :=
  { c with
    frames := (imgStream l.image).write (blankRegion r c.frames), load := none, plState := 2, plResult := 0
    lastImage := Table.put c.lastImage l.region.val l.image }

/-- The configuration once record `i` has stopped the load at frame `f`. -/
def ConfigSt.stopped (r : RegionRect) (i f : Nat) (outside : Bool) (c : ConfigSt) : ConfigSt :=
  { c with
    frames := blankRegion r c.frames, load := none, plState := 3, plResult := if outside then 8 else 9, plFault := f
    plFaultRec := i }

theorem State.region_replaced (l : PartialLoad) (c : ConfigSt → ConfigSt) (st : RegionState) :
    ((s.replaced l c st).region l.region.val).st = st := by
  rw [State.replaced, State.region_modRegion_same]

/-! ## The commands -/

theorem exec_partialLoadGo (r : RegionIx) (src : Bool) : exec (.partialLoadGo r src) s = .next (
    if s.config.load.isSome then s.modConfig fun c => { c with plBusyWrite := true }
    else if s.mod.dusk.step ≠ 0 then s.plFails 0xA
    else s.modConfig fun c => { c with load := some ⟨r, src, [], 0⟩, plState := 1, plResult := 0 }) := rfl

section
variable {s} {l : PartialLoad}

theorem exec_partialLoadStaged_idle (ok : Bool) (h : s.config.load = none) : exec (.partialLoadStaged ok) s = .next s := by
  simp only [exec, execPartialLoadStaged, h]

theorem exec_partialLoadWritten_idle (ok : Bool) (h : s.config.load = none) : exec (.partialLoadWritten ok) s = .next s := by
  simp only [exec, execPartialLoadWritten, h]

variable (h : s.config.load = some l)
include h

theorem State.plTick_inUse (h0 : l.step = 0)
    (hst : (s.region l.region.val).st = .active ∨ (s.region l.region.val).st = .loading) : s.plTick = s.plFails 1 := by
  rcases hst with e | e <;> simp [State.plTick, h, h0, e]

section
variable (h0 : l.step = 0) (hst : (s.region l.region.val).st = .isolated ∨ (s.region l.region.val).st = .blank)
include h0 hst

theorem State.plTick_size (hn : s.regN 0x108018 = 0 ∨ 67108864 < s.regN 0x108018) : s.plTick = s.plFails 2 := by
  rcases hst with e | e <;> simp [State.plTick, h, h0, e, hn]

variable (hlo : 0 < s.regN 0x108018) (hhi : s.regN 0x108018 ≤ 67108864)
include hlo hhi

theorem State.plTick_unread (hb : s.plBytes l (s.regN 0x108018) = none) : s.plTick = s.plFails 3 := by
  have size : ¬(s.regN 0x108018 = 0 ∨ 67108864 < s.regN 0x108018) := by omega
  rcases hst with e | e <;> simp [State.plTick, h, h0, e, size, hb]

/-- R359: the image is staged at the tick. -/
theorem State.plTick_staged (b : List Byte) (hb : s.plBytes l (s.regN 0x108018) = some b) :
    s.plTick = s.modConfig fun c => { c with load := some { l with image := b, step := 1 } } := by
  have size : ¬(s.regN 0x108018 = 0 ∨ 67108864 < s.regN 0x108018) := by omega
  rcases hst with e | e <;> simp [State.plTick, h, h0, e, size, hb]

end

theorem exec_partialLoadStaged_other (ok : Bool) (h1 : l.step ≠ 1) : exec (.partialLoadStaged ok) s = .next s := by
  simp [exec, execPartialLoadStaged, h, h1]

theorem exec_partialLoadStaged_lost (h1 : l.step = 1) : exec (.partialLoadStaged false) s = .next (s.stagingLost l) := by
  simp [exec, execPartialLoadStaged, h, h1]

theorem exec_partialLoadStaged_fails (h1 : l.step = 1) (e : BitVec 4) (he : s.plCheck l = some e) :
    exec (.partialLoadStaged true) s = .next (s.plFails e) := by
  simp [exec, execPartialLoadStaged, h, h1, he]

theorem exec_partialLoadStaged_passes (h1 : l.step = 1) (he : s.plCheck l = none) : exec (.partialLoadStaged true) s =
    .next ((s.modConfig fun c => { c with load := some { l with step := 2 } }).modRegion l.region.val fun x =>
      { x with st := .loading, byMuzzle := false }) := by
  simp [exec, execPartialLoadStaged, h, h1, he]

theorem exec_partialLoadWritten_other (ok : Bool) (h2 : l.step ≠ 2) : exec (.partialLoadWritten ok) s = .next s := by
  simp [exec, execPartialLoadWritten, h, h2]

theorem exec_partialLoadWritten_lost (h2 : l.step = 2) :
    exec (.partialLoadWritten false) s = .next ((s.stagingLost l).stalledRegion l.region) := by
  simp [exec, execPartialLoadWritten, h, h2]

/-- R359, R360: the image stands in its region. -/
theorem exec_partialLoadWritten_done (h2 : l.step = 2)
    (hn : strays (s.regionRect l.region.val) (imgStream l.image).recs = none) :
    ∃ t, exec (.partialLoadWritten true) s = .next t ∧ (t.region l.region.val).st = .isolated ∧ t.config.plState = 2 ∧
      t.config.load = none ∧
      t.config.frames = (imgStream l.image).write (blankRegion (s.regionRect l.region.val) s.config.frames) ∧
      t.config.lastImage = Table.put s.config.lastImage l.region.val l.image := by
  have he : exec (.partialLoadWritten true) s = .next ((((((s.replaced l (.loaded (s.regionRect l.region.val) l)
      .isolated).runtimeExtend ([0, BitVec.ofNat 8 l.region.val] ++ hash (signedRegion l.image))).meetRegion l.region
        0x02).meetRegion l.region 0x03).stalledRegion l.region)) := by
    simp only [exec, execPartialLoadWritten, h, h2, hn, ne_eq, not_true_eq_false, if_false, Bool.not_true, Bool.false_eq_true]
    rfl
  obtain ⟨k, m, e⟩ := ((s.replaced l (.loaded (s.regionRect l.region.val) l) .isolated).runtimeExtend
    ([0, BitVec.ofNat 8 l.region.val] ++ hash (signedRegion l.image))).loadEnds_frame l.region
  have hr := s.region_replaced l (.loaded (s.regionRect l.region.val) l) .isolated
  refine ⟨_, he.trans (congrArg _ e), (congrArg RegionSt.st (State.region_of_fabric ?_ _)).trans hr, rfl, rfl, rfl, rfl⟩
  rfl

/-- R359, R360: a frame outside the region, or a record whose CRC fails, blanks the region and Muzzles it. -/
theorem exec_partialLoadWritten_stops (h2 : l.step = 2) (i f : Nat) (outside : Bool)
    (hs : strays (s.regionRect l.region.val) (imgStream l.image).recs = some (i, f, outside)) (hq : s.config.nwStalled = []) :
    ∃ t, exec (.partialLoadWritten true) s = .next t ∧ (t.region l.region.val).st = .blank ∧ t.config.plState = 3 ∧
      t.config.plResult = (if outside = true then 8 else 9) ∧ t.config.plFault = f ∧ t.config.plFaultRec = i ∧
      t.config.frames = blankRegion (s.regionRect l.region.val) s.config.frames ∧
      t.muzzle.triggers = s.muzzle.triggers ++ [⟨.region l.region, if outside = true then 0x03 else 0x02⟩] := by
  have hr := s.region_replaced l (.stopped (s.regionRect l.region.val) i f outside) .blank
  obtain ⟨p, he⟩ : ∃ p, exec (.partialLoadWritten true) s = .next ((((s.replaced l (.stopped (s.regionRect l.region.val) i f
      outside) .blank).raise .log 0x0109 l.region.val p).trigger (.region l.region) (if outside = true then 0x03 else 0x02)).stalledRegion
        l.region) := by
    simp only [exec, execPartialLoadWritten, h, h2, hs, ne_eq, not_true_eq_false, if_false, Bool.not_true, Bool.false_eq_true]
    exact ⟨_, rfl⟩
  exact ⟨_, he.trans (congrArg _ (State.stalledRegion_none _ l.region hq)), hr, rfl, rfl, rfl, rfl, rfl, rfl⟩

end

/-- Settles O52: the branches of the three commands; no frame outside the region changes by `get_image_outside`. -/
theorem partialImagesReplaceTheirRegionAlone : Obligations.PartialImagesReplaceTheirRegionAlone := by
  intro s r src ok l b n
  refine ⟨fun h => ?_, fun h hd => ?_, fun h hd => ?_,
    fun h => ⟨exec_partialLoadStaged_idle ok h, exec_partialLoadWritten_idle ok h⟩, fun h => ?_, ?_, get_blankRegion⟩
  · rw [exec_partialLoadGo, if_pos h]
  · simp [exec_partialLoadGo, h, hd]
  · simp [exec_partialLoadGo, h, hd]
  · refine ⟨fun h0 hst => State.plTick_inUse h h0 hst, fun h0 hst => ⟨State.plTick_size h h0 hst,
        State.plTick_unread h h0 hst, fun hlo hhi hb => State.plTick_staged h h0 hst hlo hhi b hb⟩,
      exec_partialLoadStaged_other h ok, fun h1 => ⟨exec_partialLoadStaged_lost h h1, exec_partialLoadStaged_fails h h1,
        fun hc => ⟨_, exec_partialLoadStaged_passes h h1 hc, congrArg RegionSt.st (State.region_modRegion_same ..), rfl, rfl⟩⟩,
      exec_partialLoadWritten_other h ok, fun h2 => ⟨exec_partialLoadWritten_lost h h2, fun hn => ?_,
        exec_partialLoadWritten_stops h h2⟩⟩
    · obtain ⟨t, he, hst, hpl, hload, hframes, hlast⟩ := exec_partialLoadWritten_done h h2 hn
      refine ⟨t, he, hst, hpl, hload, hframes, fun a ha => ?_, hlast ▸ Table.get_put_same ..⟩
      rw [hframes, get_image_outside _ _ hn a ha]
  · exact ⟨s.region_stagingLost l, rfl, rfl, rfl, rfl, s.stagingLost_shep l, s.stagingLost_tiles l⟩

end Sys2Proof.Machine
end

section
/-! SUPPORT. Where a state's queue stands after a fold, a choice and a command's outcome. -/
namespace Sys2Proof.Machine
open Sys2Proof

@[simp] theorem State.ite_pending (c : Prop) [Decidable c] (s t : State) :
    (if c then s else t).pending = if c then s.pending else t.pending :=
  apply_ite ..

@[simp] theorem State.foldl_pending {α : Type} (f : State → α → State) (l : List α) (s : State)
    (h : ∀ s x, (f s x).pending = s.pending) : (l.foldl f s).pending = s.pending :=
  foldl_keeps State.pending f h l s

@[simp] theorem State.foldl_snd_pending {α β : Type} (f : β × State → α → β × State) (l : List α) (a : β × State)
    (h : ∀ a x, (f a x).2.pending = a.2.pending) : (l.foldl f a).2.pending = a.2.pending :=
  foldl_keeps (fun a => a.2.pending) f h l a

@[simp] theorem State.foldl_fst_pending {α β : Type} (f : State × β → α → State × β) (l : List α) (a : State × β)
    (h : ∀ a x, (f a x).1.pending = a.1.pending) : (l.foldl f a).1.pending = a.1.pending :=
  foldl_keeps (fun a => a.1.pending) f h l a

/-- The state in a pair that a reading operation answers. -/
theorem State.pending_of_eq {α : Type} {r : α × State} {x : α} {t : State} (e : r = (x, t)) : t.pending = r.2.pending := by
  subst e
  rfl

/-- The queue in the state that a command leaves. -/
def Result.queue : Result → Option (List Instr)
  | .next t => some t.pending
  | _ => none

@[simp] theorem Result.queue_next (t : State) : Result.queue (.next t) = some t.pending := rfl

theorem Result.next_of_queue {r : Result} {q : List Instr} (h : r.queue = some q) : ∃ t, r = .next t ∧ t.pending = q := by
  cases r with
  | next t => exact ⟨t, rfl, Option.some.inj h⟩
  | fault => cases h
  | refused => cases h

@[simp] theorem Result.after_pending {r : Result} {s : State} (h : r.queue = some s.pending) :
    (Result.after r s).pending = s.pending := by
  obtain ⟨t, rfl, e⟩ := Result.next_of_queue h
  exact e

end Sys2Proof.Machine
end

section
/-! SUPPORT. Every operation and every command leaves the queue alone: one lemma for each that a step can reach, in the order of
the model's files. A command's lemma also says that it answers a next state. (A fold whose step leaves the queue by `rfl` asks
`simp` for explicit proofs, `-implicitDefEqProofs`: the side condition of `State.foldl_pending` is given one.) -/
namespace Sys2Proof.Machine
open Sys2Proof

variable (s : State)

/-! ### `Machine/Counters.lean` -/

@[simp] theorem State.setUnit_pending (u : Nat) (v : CntUnit × Bool) : (s.setUnit u v).pending = s.pending := rfl
@[simp] theorem State.countEv_pending (unit ev n : Nat) : (s.countEv unit ev n).pending = s.pending := by
  rw [State.countEv_eq]
@[simp] theorem State.cntFreeze_pending (mode : Nat) : (s.cntFreeze mode).pending = s.pending := by
  unfold State.cntFreeze
  split <;> simp
@[simp] theorem State.reseed_pending (seed : BitVec 24) : (s.reseed seed).pending = s.pending := rfl
@[simp] theorem State.tagStep_pending (x : Sample) : (s.tagStep x).pending = s.pending := by
  simp only [State.tagStep]
  (repeat' split) <;> simp

/-! ### `Machine/Ops.lean` -/

@[simp] theorem State.draw_pending : s.draw.2.pending = s.pending := rfl
@[simp] theorem State.modTiles_pending (l : List Nat) (f : TileSt → TileSt) : (s.modTiles l f).pending = s.pending :=
  State.foldl_pending _ _ _ fun _ _ => rfl
@[simp] theorem State.modRing_pending (f r : Nat) (g : RingSt → RingSt) : (s.modRing f r g).pending = s.pending := rfl
@[simp] theorem State.modLink_pending (n : Nat) (f : LinkSt → LinkSt) : (s.modLink n f).pending = s.pending := rfl
@[simp] theorem State.sendMsg_pending (m : OutMsg) : (s.sendMsg m).pending = s.pending := by simp [State.sendMsg]
@[simp] theorem State.hostWriteAs_pending (fn a : Nat) (b : List Byte) : (s.hostWriteAs fn a b).pending = s.pending := rfl
@[simp] theorem State.msixWrite_pending (f v : Nat) : (s.msixWrite f v).pending = s.pending := by simp [State.msixWrite]
@[simp] theorem State.msixSend_leaves_pending (f v : Nat) : (s.msixSend f v).pending = s.pending := by simp [State.msixSend]

/-! ### `Machine/Cues.lean` -/

@[simp] theorem State.cueLevel_pending (c : CueIx) (v : Bool) : (s.cueLevel c v).pending = s.pending := by simp [State.cueLevel]
@[simp] theorem State.cueSafe_pending (c : CueIx) : (s.cueSafe c).pending = s.pending := by simp [State.cueSafe]
@[simp] theorem State.cancelCues_pending (p : CueAction → Bool) : (s.cancelCues p).pending = s.pending := by
  simp [State.cancelCues]
@[simp] theorem State.scheduleCues_pending (d : Desc) : (s.scheduleCues d).pending = s.pending := rfl
@[simp] theorem State.cuePerform_pending (a : CueAction) : (s.cuePerform a).pending = s.pending := by
  unfold State.cuePerform
  (repeat' split) <;> simp
@[simp] theorem State.evalCue_pending (c : CueIx) : (s.evalCue c).pending = s.pending := by
  unfold State.evalCue
  split <;> simp
@[simp] theorem State.evalCues_pending : s.evalCues.pending = s.pending := by simp [State.evalCues]
@[simp] theorem State.newCueTick_pending : s.newCueTick.pending = s.pending := rfl
@[simp] theorem State.cuesAtRecord_pending (d : Desc) (ok valid : Bool) :
    (s.cuesAtRecord d ok valid).pending = s.pending := by simp [State.cuesAtRecord]
@[simp] theorem execCueAction_queue (c : CueIx) : Result.queue (execCueAction c s) = some s.pending := by
  unfold execCueAction
  split <;> simp
@[simp] theorem execCuePulseEnd_queue (c : CueIx) : Result.queue (execCuePulseEnd c s) = some s.pending := by
  unfold execCuePulseEnd
  split <;> simp

/-! ### `Machine/Descriptors.lean` -/

@[simp] theorem State.stopTiles_pending (p : Nat) : (s.stopTiles p).pending = s.pending := State.foldl_pending _ _ _ fun _ _ => rfl
@[simp] theorem State.stopPack_pending (p id : Nat) : (s.stopPack p id).pending = s.pending := by simp [State.stopPack]
@[simp] theorem State.endDesc_pending (id st : Nat) : (s.endDesc id st).pending = s.pending := by
  unfold State.endDesc
  (repeat' split) <;> simp
@[simp] theorem State.taint_pending (t : TileId) (engine pc reason : Nat) (word : QWord) :
    (s.taint t engine pc reason word).pending = s.pending := by
  unfold State.taint
  (repeat' split) <;> simp
@[simp] theorem State.setFlags_pending (p : Nat) (ovf inv : Bool) : (s.setFlags p ovf inv).pending = s.pending := by
  unfold State.setFlags
  split <;> simp

/-! ### `Machine/Cadence.lean` -/

@[simp] theorem State.cadLink_pending (t pos rate : Nat) (hold : Bool) : (s.cadLink t pos rate hold).pending = s.pending := by
  simp [State.cadLink]
@[simp] theorem State.coast_pending : s.coast.pending = s.pending := by simp [State.coast]
@[simp] theorem State.cadFault_pending (f : CadFaults) : (s.cadFault f).pending = s.pending := by simp [State.cadFault]
@[simp] theorem State.cadNear_pending : s.cadNear.pending = s.pending := by simp [State.cadNear]
@[simp] theorem State.cadLatch_pending : s.cadLatch.pending = s.pending := by simp [State.cadLatch]
@[simp] theorem State.cadSet_pending (pos rate : Nat) : (s.cadSet pos rate).2.pending = s.pending := by
  unfold State.cadSet
  (repeat' split) <;> simp
@[simp] theorem State.cadClear_pending (w : Nat) : (s.cadClear w).pending = s.pending := rfl
@[simp] theorem State.cadSourceChanged_pending : s.cadSourceChanged.pending = s.pending := rfl
@[simp] theorem State.sendProbe_pending (t : Nat) : (s.sendProbe t).pending = s.pending := by simp [State.sendProbe]
@[simp] theorem State.hardDeadline_pending (id : Nat) : (s.hardDeadline id).pending = s.pending := by
  unfold State.hardDeadline
  split <;> simp
@[simp] theorem execTimecodeFrame_queue (t : Nat) (bits : BitVec 96) (preambleOk : Bool) :
    Result.queue (execTimecodeFrame t bits preambleOk s) = some s.pending := by simp [execTimecodeFrame]
@[simp] theorem execEncoderTransition_queue (t : Nat) (aLeads : Bool) :
    Result.queue (execEncoderTransition t aLeads s) = some s.pending := by simp [execEncoderTransition]
@[simp] theorem execEncoderIndex_queue (t : Nat) : Result.queue (execEncoderIndex t s) = some s.pending := by
  simp [execEncoderIndex]
@[simp] theorem execCycInEdge_queue (t : Nat) (rising : Bool) (width : Nat) :
    Result.queue (execCycInEdge t rising width s) = some s.pending := by simp [execCycInEdge]
@[simp] theorem execCoasting_queue : Result.queue (execCoasting s) = some s.pending := by simp [execCoasting]
@[simp] theorem execLoss_queue : Result.queue (execLoss s) = some s.pending := by simp [execLoss]
@[simp] theorem execJumpBack_queue : Result.queue (execJumpBack s) = some s.pending := by simp [execJumpBack]
@[simp] theorem execJumpFwd_queue : Result.queue (execJumpFwd s) = some s.pending := by simp [execJumpFwd]
@[simp] theorem execCadStatusClear_queue (w : Word) : Result.queue (execCadStatusClear w s) = some s.pending := rfl
@[simp] theorem execLatencyProbe_queue (t : Nat) : Result.queue (execLatencyProbe t s) = some s.pending := by
  simp [execLatencyProbe]
@[simp] theorem execProbeEcho_queue (t sent : Nat) (src : BitVec 14) :
    Result.queue (execProbeEcho t sent src s) = some s.pending := by
  simp [execProbeEcho]
@[simp] theorem execHardDeadline_queue (id : Nat) : Result.queue (execHardDeadline id s) = some s.pending := by
  simp [execHardDeadline]

/-! ### `Machine/Flags.lean` -/

@[simp] theorem State.numEvents_pending (tile p pc : Nat) (d : Desc) (ev : NumEv) :
    (s.numEvents tile p pc d ev).pending = s.pending := by
  unfold State.numEvents
  split <;> simp
@[simp] theorem State.sampleNans_pending (p : Nat) : (s.sampleNans p).pending = s.pending := by
  simp only [State.sampleNans]
  (repeat' split) <;> simp

/-! ### `Machine/LinkLayer.lean` -/

@[simp] theorem State.queueBytes_pending (n vc : Nat) (b : List Byte) : (s.queueBytes n vc b).pending = s.pending := rfl
@[simp] theorem State.wakeTx_pending (n : Nat) : (s.wakeTx n).pending = s.pending := by simp [State.wakeTx]
@[simp] theorem State.putFlit_pending (n : Nat) (kind : FlitKind) (fseq : BitVec 10) (vc : Nat) (payload : List Byte) :
    (s.putFlit n kind fseq vc payload).pending = s.pending := rfl
@[simp] theorem State.flitStep_pending (n vc : Nat) : (s.flitStep n vc).pending = s.pending := by simp [State.flitStep]
@[simp] theorem State.flitSteps_pending (n vc : Nat) : (s.flitSteps n vc).pending = s.pending := by simp [State.flitSteps]
@[simp] theorem State.controlFlit_pending (n : Nat) : (s.controlFlit n).pending = s.pending := by simp [State.controlFlit]
@[simp] theorem State.flushLink_pending (n : Nat) : (s.flushLink n).pending = s.pending := by simp [State.flushLink]
@[simp] theorem State.flushLinks_pending : s.flushLinks.pending = s.pending := by simp [State.flushLinks]

@[simp] theorem State.resendFlits_pending (n : Nat) : (s.resendFlits n).2.pending = s.pending := by
  have put (s : State) (l : List RetryFlit) :
      (l.foldl (fun s f => s.putFlit n .data f.fseq f.vc f.payload) s).pending = s.pending :=
    State.foldl_pending _ _ _ fun _ _ => rfl
  simp only [State.resendFlits]
  (repeat' split) <;> simp [put]

/-! ### `Machine/Muzzle.lean` -/

@[simp] theorem State.restartSecond_pending (cause : Nat) : (s.restartSecond cause).pending = s.pending := rfl
@[simp] theorem State.cuesSafe_pending (p : CueIx → Bool) : (s.cuesSafe p).pending = s.pending := by simp [State.cuesSafe]
@[simp] theorem State.muzzleModule_pending (cause : Nat) : (s.muzzleModule cause).pending = s.pending := by
  simp [State.muzzleModule]
@[simp] theorem State.muzzlePack_pending (p cause : Nat) (own : Option (Nat × Nat)) :
    (s.muzzlePack p cause own).pending = s.pending := by
  unfold State.muzzlePack
  split <;> simp
@[simp] theorem State.muzzleRegion_pending (r cause : Nat) : (s.muzzleRegion r cause).pending = s.pending := by
  simp [State.muzzleRegion]
@[simp] theorem State.muzzle1_pending (t : Trigger) : (s.muzzle1 t).pending = s.pending := by
  unfold State.muzzle1
  split <;> simp
@[simp] theorem State.evalCauseClear_pending : s.evalCauseClear.pending = s.pending := rfl
@[simp] theorem State.meetScope_pending (t : Trigger) : (s.meetScope t).pending = s.pending := by
  unfold State.meetScope
  split <;> simp
@[simp] theorem State.meet_pending (t : Trigger) : (s.meet t).pending = s.pending := by simp [State.meet]
@[simp] theorem State.meetModule_pending (cause : Nat) : (s.meetModule cause).pending = s.pending := by simp [State.meetModule]
@[simp] theorem State.meetRegion_pending (r : RegionIx) (cause : Nat) : (s.meetRegion r cause).pending = s.pending := by
  simp [State.meetRegion]
@[simp] theorem State.mzResult_pending (fn : Nat) (r : BitVec 2) : (s.mzResult fn r).pending = s.pending := rfl
@[simp] theorem State.mzEnter_pending (fn : Nat) (scope : BitVec 2) (index : BitVec 6) :
    (s.mzEnter fn scope index).pending = s.pending := by
  unfold State.mzEnter
  split <;> simp
@[simp] theorem State.mzRelease_pending (fn : Fn) (scope : BitVec 2) (index : BitVec 6) :
    (s.mzRelease fn scope index).pending = s.pending := by
  unfold State.mzRelease
  split <;> simp
@[simp] theorem State.unmuzzle_pending (a1 : Scope) : (s.unmuzzle a1).pending = s.pending := by
  unfold State.unmuzzle
  split <;> simp
@[simp] theorem State.applyRelease_pending (hit : List Scope) (r : Scope × Fn) :
    (s.applyRelease hit r).pending = s.pending := by simp [State.applyRelease]
@[simp] theorem State.class1_pending : s.class1.pending = s.pending := by simp [State.class1]
@[simp] theorem execMuzzleEnter_queue (fn : Fn) (scope : BitVec 2) (index : BitVec 6) :
    Result.queue (execMuzzleEnter fn scope index s) = some s.pending := by simp [execMuzzleEnter]
@[simp] theorem execMuzzleRelease_queue (fn : Fn) (scope : BitVec 2) (index : BitVec 6) :
    Result.queue (execMuzzleRelease fn scope index s) = some s.pending := by simp [execMuzzleRelease]
@[simp] theorem execMuzzleReleaseApply_queue (scope : BitVec 2) (index : BitVec 6) :
    Result.queue (execMuzzleReleaseApply scope index s) = some s.pending := by
  unfold execMuzzleReleaseApply
  split <;> simp
@[simp] theorem execHubParityError_queue : Result.queue (execHubParityError s) = some s.pending := rfl
@[simp] theorem execReservedStructureReinit_queue : Result.queue (execReservedStructureReinit s) = some s.pending := by
  simp [execReservedStructureReinit]

/-! ### `Machine/Hbm.lean` -/

@[simp] theorem State.cellFresh_pending (c : CellId) : (s.cellFresh c).pending = s.pending := rfl
@[simp] theorem State.unitHit_pending (stripe : Nat) (errs : List UnitErr) : (s.unitHit stripe errs).pending = s.pending :=
  State.foldl_pending _ _ _ fun _ _ => rfl
@[simp] theorem State.retire_pending (frame : Nat) (row : Option Nat) : (s.retire frame row).pending = s.pending := by
  simp only [State.retire]
  (repeat' split) <;> simp

@[simp] theorem State.retireRow_pending (u : UnitId) :
    (s.retireRow u).pending = s.pending := State.foldl_pending _ _ _ fun _ _ => by
  split
  · exact State.retire_pending ..
  · rfl

@[simp] theorem State.corrected_pending (c : CellId) : (s.corrected c).pending = s.pending := by simp [State.corrected]
@[simp] theorem State.codeFailed_pending (c : CellId) : (s.codeFailed c).pending = s.pending := by simp [State.codeFailed]
@[simp] theorem State.memoryDoubt_pending (a : Nat) (owners : List Nat) : (s.memoryDoubt a owners).pending = s.pending :=
  congrArg (fun x => x.1.pending) (s.steady_memoryDoubt a owners)
@[simp] theorem State.touchStack_pending (k : Nat) : (s.touchStack k).pending = s.pending := rfl
@[simp] theorem State.setBufs_pending (g : Nat) (l : List WcBuf) : (s.setBufs g l).pending = s.pending := rfl
@[simp] theorem State.failStack_pending (k : Nat) : (s.failStack k).pending = s.pending := rfl
@[simp] theorem State.declareFail_pending (d : Nat × Option Nat) : (s.declareFail d).pending = s.pending := by
  unfold State.declareFail
  split <;> simp
@[simp] theorem State.retireHeld_pending (g : Nat) : (s.retireHeld g).pending = s.pending := by simp [State.retireHeld]
@[simp] theorem State.checkLoss_pending (g : Nat) : (s.checkLoss g).pending = s.pending := by simp [State.checkLoss]
@[simp] theorem State.applyFails_pending : s.applyFails.pending = s.pending := by simp [State.applyFails]
@[simp] theorem State.freqChange_pending (op : BitVec 2) (shadow : Option (Table Word)) :
    (s.freqChange op shadow).pending = s.pending := by simp [State.freqChange]
@[simp] theorem State.retireCmd_pending (frame : Nat) : (s.retireCmd frame).pending = s.pending := by simp [State.retireCmd]
@[simp] theorem State.abandon_pending (r : RetireSt) : (s.abandon r).pending = s.pending := rfl
@[simp] theorem State.failNext_pending (k : Nat) (pc : Option Nat) : (s.failNext k pc).pending = s.pending := rfl
@[simp] theorem State.sleepStack_pending (k : Nat) : (s.sleepStack k).pending = s.pending := by simp [State.sleepStack]
@[simp] theorem State.srTick_pending : s.srTick.pending = s.pending := by simp [State.srTick]
@[simp] theorem State.decodeCell_pending (c : CellId) : (s.decodeCell c).2.pending = s.pending := by
  simp only [State.decodeCell]
  (repeat' split) <;> simp
@[simp] theorem State.rebuild_pending (c : CellId) : (s.rebuild c).2.pending = s.pending := by
  simp only [State.rebuild]
  (repeat' split) <;> simp
@[simp] theorem State.readCell_pending (c : CellId) : (s.readCell c).2.pending = s.pending :=
  congrArg (fun x => x.1.pending) (s.steady_readCell c)
@[simp] theorem State.readCells_pending (l : List CellId) : (s.readCells l).2.pending = s.pending := by simp [State.readCells]

@[simp] theorem State.checkSpan_pending (a n : Nat) :
    (s.checkSpan a n).2.pending = s.pending := State.foldl_snd_pending _ _ _ fun acc b => by
  dsimp only
  split
  · rfl
  split
  · rfl
  · exact State.readCell_pending ..

@[simp] theorem State.flushBuf_pending (b : WcBuf) : (s.flushBuf b).pending = s.pending :=
  congrArg (fun x => x.1.pending) (s.steady_flushBuf b)
@[simp] theorem State.flushOldest_pending (g : Nat) : (s.flushOldest g).pending = s.pending := by
  unfold State.flushOldest
  split <;> simp
@[simp] theorem State.bufferSpan_pending (l : Nat) (data : List Byte) (writers : List Nat) :
    (s.bufferSpan l data writers).pending = s.pending := by
  simp only [State.bufferSpan]
  (repeat' split) <;> simp
@[simp] theorem State.hbmWrite_pending (writers : List Nat) (a : Nat) (data : List Byte) :
    (s.hbmWrite writers a data).pending = s.pending := by simp [State.hbmWrite]

@[simp] theorem State.hbmRead_pending (owners : List Nat) (a n : Nat) : (s.hbmRead owners a n).2.pending = s.pending := by
  unfold State.hbmRead
  have span := s.checkSpan_pending a n
  split
  · rfl
  split
  next e => exact (State.pending_of_eq e).trans span
  next e => exact (State.memoryDoubt_pending ..).trans ((State.pending_of_eq e).trans span)

@[simp] theorem State.swapRetired_pending (r : RetireSt) : (s.swapRetired r).pending = s.pending := rfl
@[simp] theorem State.swapRetirements_pending : s.swapRetirements.pending = s.pending :=
  State.foldl_pending _ _ _ fun _ _ => State.swapRetired_pending ..
@[simp] theorem State.flushAll_pending : s.flushAll.pending = s.pending := by simp [State.flushAll]
@[simp] theorem State.flushExpired_pending : s.flushExpired.pending = s.pending := by simp [State.flushExpired]
@[simp] theorem State.serveHbm_pending (q : HbmReq) : (s.serveHbm q).pending = s.pending := by
  unfold State.serveHbm
  split <;> simp
@[simp] theorem State.askHbm_pending (q : HbmReq) : (s.askHbm q).pending = s.pending := by simp [State.askHbm]
theorem execHbmRead_queue (a : BitVec 40) (reader : Option Nat) (errs : List UnitErr) (ha : a.toNat < 360 * 2 ^ 30) :
    Result.queue (execHbmRead a reader errs s) = some s.pending := by
  rw [execHbmRead, if_neg (by simp only [hbmEnd]; omega)]
  simp
theorem execHbmWrite_queue (a : BitVec 40) (data : List Byte) (writer : Option Nat) (errs : List UnitErr)
    (ha : a.toNat < 360 * 2 ^ 30) (hd : a.toNat + data.length ≤ 360 * 2 ^ 30) :
    Result.queue (execHbmWrite a data writer errs s) = some s.pending := by
  rw [execHbmWrite, if_neg (by simp only [hbmEnd]; omega)]
  simp
@[simp] theorem execWcBufferFlush_queue (grp : Fin 2) (errs : List UnitErr) :
    Result.queue (execWcBufferFlush grp errs s) = some s.pending := by
  unfold execWcBufferFlush
  split <;> simp

@[simp] theorem State.patrolUnit_pending (u : UnitId) : (s.patrolUnit u).2.pending = s.pending := by
  unfold State.patrolUnit
  split
  · rfl
  refine State.foldl_snd_pending _ _ _ fun acc c => ?_
  have read := acc.2.decodeCell_pending c
  split
  next e => exact (State.pending_of_eq e).trans read
  next t e =>
    have rebuilt := (t.rebuild_pending c).trans ((State.pending_of_eq e).trans read)
    dsimp only
    split
    · exact rebuilt
    · exact (State.memoryDoubt_pending ..).trans rebuilt

@[simp] theorem execPatrolRead_queue (grp : Fin 2) (stripe : Nat) (errs : List UnitErr) :
    Result.queue (execPatrolRead grp stripe errs s) = some s.pending := by
  rw [execPatrolRead, Result.queue_next]
  extract_lets six st s1 s2
  have begun : s2.pending = s.pending := by simp -implicitDefEqProofs [s2, s1]
  split
  · rfl
  split
  next all u e =>
  have units : u.pending = s2.pending :=
    (State.pending_of_eq e).trans (State.foldl_snd_pending _ _ _ fun acc p => State.patrolUnit_pending ..)
  refine congrArg some (Eq.trans ?_ (units.trans begun))
  extract_lets differs checked
  have parity : checked.pending = u.pending := by
    dsimp only [checked]
    split
    · rfl
    · rfl
  split
  · simpa -implicitDefEqProofs using parity
  · exact parity

@[simp] theorem execHbmRetireCmd_queue (frame : BitVec 23) : Result.queue (execHbmRetireCmd frame s) = some s.pending := by
  simp [execHbmRetireCmd]
@[simp] theorem execRetirementCopyDone_queue : Result.queue (execRetirementCopyDone s) = some s.pending := by
  unfold execRetirementCopyDone
  split <;> simp
@[simp] theorem execPseudoChannelFailed_queue (stack : StackIx) (pc : Fin 32) :
    Result.queue (execPseudoChannelFailed stack pc s) = some s.pending := by simp [execPseudoChannelFailed]
@[simp] theorem execStackFailed_queue (stack : StackIx) : Result.queue (execStackFailed stack s) = some s.pending := by
  simp [execStackFailed]
@[simp] theorem execSelfRefreshEntry_queue (stack : StackIx) : Result.queue (execSelfRefreshEntry stack s) = some s.pending := by
  simp [execSelfRefreshEntry]
@[simp] theorem execFreqChangeDrained_queue : Result.queue (execFreqChangeDrained s) = some s.pending := by
  simp only [execFreqChangeDrained]
  (repeat' split) <;> simp
@[simp] theorem execFreqChangeLocked_queue : Result.queue (execFreqChangeLocked s) = some s.pending := by
  simp -implicitDefEqProofs [execFreqChangeLocked]
@[simp] theorem State.releaseHbm_pending : s.releaseHbm.pending = s.pending := by simp [State.releaseHbm]
theorem execHbmTransactionTimeout_queue (a : BitVec 40) (owner : Option Nat) (ha : a.toNat < 360 * 2 ^ 30) :
    Result.queue (execHbmTransactionTimeout a owner s) = some s.pending := by
  rw [execHbmTransactionTimeout, if_neg (by simp only [hbmEnd]; omega)]
  simp

/-! ### `Machine/Paging.lean` -/

@[simp] theorem State.applyEdit_pending (e : PageEdit) : (s.applyEdit e).pending = s.pending := rfl

@[simp] theorem State.pgBatchGo_pending : s.pgBatchGo.pending = s.pending := by
  have edits (s : State) (l : List PageEdit) : (l.foldl State.applyEdit s).pending = s.pending :=
    State.foldl_pending _ _ _ fun _ _ => rfl
  simp only [State.pgBatchGo]
  (repeat' split) <;> simp [edits]

@[simp] theorem State.swapPages_pending : s.swapPages.pending = s.pending := by simp [State.swapPages]
@[simp] theorem State.tileLeaf_pending (ix fn va : Nat) : (s.tileLeaf ix fn va).2.pending = s.pending := by
  unfold State.tileLeaf
  (repeat' split) <;> simp

@[simp] theorem State.xlateTile_pending (ix fn : Nat) (write : Bool) (l : List (Nat × Nat)) :
    (s.xlateTile ix fn write l).2.pending = s.pending := by
  induction l generalizing s with
  | nil => rfl
  | cons p ps ih =>
    simp only [State.xlateTile]
    split <;> simp [ih]

@[simp] theorem State.netOne_pending (ini rd wr : Nat) : (s.netOne ini rd wr).pending = s.pending := rfl
@[simp] theorem State.netReads_pending (ini : Nat) (sizes : List Nat) : (s.netReads ini sizes).pending = s.pending :=
  State.foldl_pending _ _ _ fun _ _ => rfl
@[simp] theorem State.netWrites_pending (ini : Nat) (sizes : List Nat) : (s.netWrites ini sizes).pending = s.pending :=
  State.foldl_pending _ _ _ fun _ _ => rfl
@[simp] theorem State.wantPeer_pending (q : PeerRead) : (s.wantPeer q).pending = s.pending := by simp [State.wantPeer]
@[simp] theorem State.dropPeers_pending (l : List PeerRead) : (s.dropPeers l).pending = s.pending := rfl
@[simp] theorem State.sweepPeers_pending : s.sweepPeers.pending = s.pending := rfl
@[simp] theorem State.countFault_pending (dropped : Bool) : (s.countFault dropped).pending = s.pending := rfl
@[simp] theorem State.bar2Refuse_pending : s.bar2Refuse.pending = s.pending := rfl
@[simp] theorem State.modCrcUnit_pending (u : Nat) (f : CrcUnit → CrcUnit) : (s.modCrcUnit u f).pending = s.pending := rfl
@[simp] theorem State.crcWrite_pending (u : Nat) (reg : CrcReg) (v : Word) : (s.crcWrite u reg v).pending = s.pending := by
  unfold State.crcWrite
  split <;> simp
@[simp] theorem State.crcFeed_pending (u : Nat) (b : List Byte) : (s.crcFeed u b).pending = s.pending := by
  unfold State.crcFeed
  split <;> simp
@[simp] theorem State.wakeDomain_pending (d : Nat) : (s.wakeDomain d).pending = s.pending := rfl
@[simp] theorem State.startWake_pending (d : Nat) : (s.startWake d).pending = s.pending := rfl
@[simp] theorem State.gateDomain_pending (busy : List Nat) (d : Nat) : (s.gateDomain busy d).pending = s.pending := by
  simp [State.gateDomain]
@[simp] theorem State.netStatSel_pending (sel : Nat) : (s.netStatSel sel).pending = s.pending := rfl
@[simp] theorem execPgBatchGo_queue : Result.queue (execPgBatchGo s) = some s.pending := by simp [execPgBatchGo]

@[simp] theorem State.readSegs_pending (owners : List Nat) (peer : List Byte) (l : List Seg) :
    (s.readSegs owners peer l).2.pending = s.pending := by
  induction l generalizing s peer with
  | nil => rfl
  | cons g gs ih =>
    unfold State.readSegs
    split
    next r rest u e =>
    have read : u.pending = s.pending := by
      split at e
      · split at e <;> (cases e; next e1 => exact (State.pending_of_eq e1).trans (s.hbmRead_pending ..))
      · split at e <;> (cases e; rfl)
      · cases e; rfl
    split
    · split
      next e => exact (State.pending_of_eq e).trans ((ih u rest).trans read)
      · exact (ih u rest).trans read
    · exact read

@[simp] theorem State.readVa_pending (d : Desc) (va n : Nat) : (s.readVa d va n).2.pending = s.pending := by
  simp only [State.readVa]
  (repeat' split) <;> simp
@[simp] theorem State.faultRecord_pending (d : Desc) (t : TileId) (ctx : Nat) (f : PgFault) (chunk : Nat) :
    (s.faultRecord d t ctx f chunk).pending = s.pending := by simp [State.faultRecord]

@[simp] theorem State.bar2Serve_pending (write : Bool) (data : List Byte) (len : Nat) (gs : List Seg) :
    (s.bar2Serve write data len gs).pending = s.pending := by
  unfold State.bar2Serve
  split
  · refine (State.netWrites_pending ..).trans (State.foldl_fst_pending _ _ _ fun acc g => ?_)
    split
    · exact State.hbmWrite_pending ..
    · rfl
  · split
    next r u e =>
    have read : u.pending = s.pending := (State.pending_of_eq e).trans (s.readSegs_pending [] [] gs)
    dsimp only
    split <;> simp [read]

@[simp] theorem execBar2Access_queue (off : BitVec 40) (write : Bool) (data : List Byte) (len : Nat) :
    Result.queue (execBar2Access off write data len s) = some s.pending := by
  simp only [execBar2Access]
  (repeat' split) <;> simp
@[simp] theorem State.bar2Release_pending : s.bar2Release.pending = s.pending := by simp [State.bar2Release]

@[simp] theorem execFreqChangeRetrained_queue (failed : List (StackIx × Option (Fin 32))) :
    Result.queue (execFreqChangeRetrained failed s) = some s.pending := by
  have trained (s : State) (f : Nat → StackSt → StackSt) (l : List Nat) :
      (l.foldl (fun s k => s.modStack k (f k)) s).pending = s.pending :=
    State.foldl_pending _ _ _ fun _ _ => rfl
  have due (s : State) (l : List (StackIx × Option (Fin 32))) :
      (l.foldl (fun s e => s.failNext e.1.val (e.2.map Fin.val)) s).pending = s.pending :=
    State.foldl_pending _ _ _ fun _ _ => rfl
  simp [execFreqChangeRetrained, trained, due]

@[simp] theorem execCrcHubValueWrite_queue (u : Fin 8) (reg : CrcReg) (v : Word) :
    Result.queue (execCrcHubValueWrite u reg v s) = some s.pending := by simp [execCrcHubValueWrite]
@[simp] theorem State.crcEnd_pending (u : Nat) (cont : Bool) : (s.crcEnd u cont).pending = s.pending := by
  simp only [State.crcEnd]
  (repeat' split) <;> simp
@[simp] theorem execDomainGate_queue (row : Fin 36) (right : Bool) :
    Result.queue (execDomainGate row right s) = some s.pending := by
  simp [execDomainGate]
@[simp] theorem execNetStatSel_queue (sel : BitVec 11) : Result.queue (execNetStatSel sel s) = some s.pending := rfl

/-! ### `Machine/Kennel.lean` -/

@[simp] theorem State.deferStep_pending : s.deferStep.pending = s.pending := rfl
@[simp] theorem State.stepYields_pending (j : Nat) : (s.stepYields j).pending = s.pending := by
  unfold State.stepYields
  (repeat' split) <;> simp
@[simp] theorem State.schedule_pending (i : Nat) : (s.schedule i).2.pending = s.pending := by
  simp only [State.schedule]
  (repeat' split) <;> simp
@[simp] theorem State.setFaults_pending (i n : Nat) : (s.setFaults i n).pending = s.pending := rfl
@[simp] theorem State.quarantine_pending (i cause job : Nat) : (s.quarantine i cause job).pending = s.pending := by
  simp only [State.quarantine]
  (repeat' split) <;> simp
@[simp] theorem State.quarantineTile_pending (t : TileId) (cause job : Nat) :
    (s.quarantineTile t cause job).pending = s.pending := by simp [State.quarantineTile]
@[simp] theorem State.serveSuspects_pending (c : Nat) : (s.serveSuspects c).pending = s.pending := by simp [State.serveSuspects]
@[simp] theorem State.startMove_pending (m : Move) : (s.startMove m).pending = s.pending := by simp [State.startMove]
@[simp] theorem State.startMoves_pending : s.startMoves.pending = s.pending := by simp [State.startMoves]
@[simp] theorem State.endMove_pending (m : Move) (lost : Bool) : (s.endMove m lost).pending = s.pending := by
  simp only [State.endMove]
  (repeat' split) <;> simp
@[simp] theorem State.finishMoves_pending : s.finishMoves.pending = s.pending := by simp [State.finishMoves]
@[simp] theorem State.knlApply_pending (c : SiteId × Bool) : (s.knlApply c).pending = s.pending := by simp [State.knlApply]
@[simp] theorem State.knlTick_pending : s.knlTick.pending = s.pending := by simp [State.knlTick]
@[simp] theorem State.retireSite_pending (i : Nat) : (s.retireSite i).pending = s.pending := rfl
@[simp] theorem State.spareSite_pending (i : Nat) : (s.spareSite i).pending = s.pending := by simp [State.spareSite]
@[simp] theorem State.selfTest_pending (i : Nat) (pass : Bool) : (s.selfTest i pass).pending = s.pending := by
  simp only [State.selfTest]
  (repeat' split) <;> simp
@[simp] theorem State.rotateHalf_pending (l : List Nat) : (s.rotateHalf l).pending = s.pending := by
  unfold State.rotateHalf
  (repeat' split) <;> simp
@[simp] theorem State.rotTick_pending : s.rotTick.pending = s.pending := by
  simp -implicitDefEqProofs [State.rotTick]
@[simp] theorem State.rotRestart_pending (old : State) : (State.rotRestart old s).pending = s.pending := by simp [State.rotRestart]
@[simp] theorem State.afterG2_pending (old : State) : (State.afterG2 old s).pending = s.pending := by simp [State.afterG2]
@[simp] theorem State.rowCorrected_pending (i : Nat) (m : TileMem) (row : Nat) :
    (s.rowCorrected i m row).pending = s.pending := rfl
@[simp] theorem State.replaceRow_pending (i : Nat) (mem : TileMem) (row : Nat) :
    (s.replaceRow i mem row).pending = s.pending := by simp [State.replaceRow]
@[simp] theorem State.replaceRows_pending (p : Nat) : (s.replaceRows p).pending = s.pending := by simp [State.replaceRows]
@[simp] theorem execMigrationStart_queue (tile : TileId) : Result.queue (execMigrationStart tile s) = some s.pending := by
  simp [execMigrationStart]
@[simp] theorem execMigrationComplete_queue (tile : TileId) (lost : Bool) :
    Result.queue (execMigrationComplete tile lost s) = some s.pending := rfl
@[simp] theorem execKnlQuarantine_queue (site : SiteId) : Result.queue (execKnlQuarantine site s) = some s.pending := rfl
@[simp] theorem execKnlRetest_queue (site : SiteId) : Result.queue (execKnlRetest site s) = some s.pending := rfl
@[simp] theorem execSelfTestDone_queue (site : SiteId) (pass : Bool) :
    Result.queue (execSelfTestDone site pass s) = some s.pending := by
  simp [execSelfTestDone]
@[simp] theorem execRotationStep_queue : Result.queue (execRotationStep s) = some s.pending := by simp [execRotationStep]
@[simp] theorem execRowSpareReplace_queue (tile : TileId) (mem : TileMem) (row : Nat) :
    Result.queue (execRowSpareReplace tile mem row s) = some s.pending := by simp [execRowSpareReplace]

/-! ### `Machine/Rings.lean` -/

@[simp] theorem State.ringLog_pending (f r : Nat) : (s.ringLog f r).pending = s.pending := rfl
@[simp] theorem State.fetchFails_pending (f r : Nat) : (s.fetchFails f r).pending = s.pending := rfl
@[simp] theorem State.summaryFails_pending (f : Nat) : (s.summaryFails f).pending = s.pending := rfl
@[simp] theorem State.readHead_pending (f cq : Nat) : (s.readHead f cq).pending = s.pending := by
  simp only [State.readHead]
  (repeat' split) <;> simp
@[simp] theorem State.findSlot_pending (f cq : Nat) : (s.findSlot f cq).pending = s.pending := by simp [State.findSlot]

@[simp] theorem State.claimSlot_pending (f cq : Nat) : (s.claimSlot f cq).2.pending = s.pending := by
  have claimed (u : State) : (if u.freeSlots f cq = 0 then (false, u)
      else (true, u.modRing f cq fun k => { k with reserved := k.reserved + 1 })).2.pending = u.pending := by
    split <;> rfl
  exact (claimed (s.findSlot f cq)).trans (s.findSlot_pending f cq)

@[simp] theorem State.freeSlot_pending (f cq : Nat) : (s.freeSlot f cq).pending = s.pending := rfl

@[simp] theorem State.fetchOne_pending (f r : Nat) : (s.fetchOne f r).pending = s.pending := by
  unfold State.fetchOne
  extract_lets k cfg cq
  split
  · rfl
  have claimed := s.claimSlot_pending f cq
  generalize s.claimSlot f cq = c at claimed ⊢
  obtain ⟨_ | _, u⟩ := c
  · exact claimed
  · exact (State.countEv_pending ..).trans claimed

@[simp] theorem State.fetchRing_pending (f r : Nat) : (s.fetchRing f r).pending = s.pending := by simp [State.fetchRing]
@[simp] theorem State.readDoorbell_pending (f r : Nat) : (s.readDoorbell f r).pending = s.pending := by
  simp only [State.readDoorbell]
  (repeat' split) <;> simp
@[simp] theorem State.addDesc_pending (d : Desc) : (s.addDesc d).pending = s.pending := rfl
@[simp] theorem State.reject_pending (d : Desc) (st due : Nat) : (s.reject d st due).pending = s.pending := rfl
@[simp] theorem State.admitBlock_pending (d : Desc) (b : List Byte) (due : Nat) :
    (s.admitBlock d b due).pending = s.pending := by
  simp only [State.admitBlock]
  (repeat' split) <;> simp
@[simp] theorem State.wantSpan_pending (d : Desc) (va n : Nat) : (s.wantSpan d va n).pending = s.pending := by
  unfold State.wantSpan
  split <;> simp
@[simp] theorem State.headWriteBack_pending (f r : Nat) : (s.headWriteBack f r).pending = s.pending := by simp [State.headWriteBack]

@[simp] theorem State.readSummary_pending (f w n : Nat) : (s.readSummary f w n).2.pending = s.pending := by
  induction n generalizing s w with
  | zero => rfl
  | succ n ih =>
    unfold State.readSummary
    refine (ih _ (w + 1)).trans ?_
    split
    · split <;> simp
    · simp

@[simp] theorem State.flagged_pending (f : Nat) (on : List Nat) : (s.flagged f on).2.pending = s.pending := by
  unfold State.flagged
  split <;> simp
@[simp] theorem State.sampleFn_pending (f : Nat) : (s.sampleFn f).pending = s.pending := by simp [State.sampleFn]
@[simp] theorem State.sampleDoorbells_pending : s.sampleDoorbells.pending = s.pending := by simp [State.sampleDoorbells]
@[simp] theorem State.readBlock_pending (d : Desc) (due : Nat) : (s.readBlock d due).pending = s.pending := by
  have read := s.readVa_pending d d.f.param.toNat (16 * d.f.paramSize)
  unfold State.readBlock
  split <;> next e => simpa using (State.pending_of_eq e).trans read
@[simp] theorem State.arriveDesc_pending (d : Desc) : (s.arriveDesc d).pending = s.pending := by
  unfold State.arriveDesc
  split <;> simp
@[simp] theorem State.arrive_pending (fn : Fn) (ring : RingIx) (pick : Fields → Bool) :
    (s.arrive fn ring pick).pending = s.pending := by
  unfold State.arrive
  (repeat' split) <;> simp
@[simp] theorem execRingReadError_queue (fn : Fn) (ring : RingIx) (kind : RingRead) :
    Result.queue (execRingReadError fn ring kind s) = some s.pending := by
  unfold execRingReadError
  (repeat' split) <;> simp
@[simp] theorem execRun_queue (fn : Fn) (ring : RingIx) : Result.queue (execRun fn ring s) = some s.pending := by simp [execRun]
@[simp] theorem execCopy_queue (fn : Fn) (ring : RingIx) : Result.queue (execCopy fn ring s) = some s.pending := by simp [execCopy]
@[simp] theorem execFence_queue (fn : Fn) (ring : RingIx) : Result.queue (execFence fn ring s) = some s.pending := by
  simp [execFence]
@[simp] theorem execLoopDescriptor_queue (fn : Fn) (ring : RingIx) :
    Result.queue (execLoopDescriptor fn ring s) = some s.pending := by
  simp [execLoopDescriptor]
@[simp] theorem execCadenceSet_queue (fn : Fn) (ring : RingIx) : Result.queue (execCadenceSet fn ring s) = some s.pending := by
  simp [execCadenceSet]
@[simp] theorem execTableLoad_queue (fn : Fn) (ring : RingIx) : Result.queue (execTableLoad fn ring s) = some s.pending := by
  simp [execTableLoad]
@[simp] theorem execPageReady_queue (fn : Fn) (ring : RingIx) : Result.queue (execPageReady fn ring s) = some s.pending := by
  simp [execPageReady]
@[simp] theorem execCancel_queue (fn : Fn) (ring : RingIx) : Result.queue (execCancel fn ring s) = some s.pending := by
  simp [execCancel]
@[simp] theorem execReservedClass_queue (fn : Fn) (ring : RingIx) :
    Result.queue (execReservedClass fn ring s) = some s.pending := by
  simp [execReservedClass]
@[simp] theorem execParamBlockRead_queue (d : Nat) (ok : Bool) : Result.queue (execParamBlockRead d ok s) = some s.pending := by
  unfold execParamBlockRead
  split <;> simp

/-! ### `Machine/Flows.lean` -/

@[simp] theorem State.reopen_pending (n : Nat) : (s.reopen n).pending = s.pending := rfl
@[simp] theorem State.rerouteNow_pending : s.rerouteNow.pending = s.pending := rfl

@[simp] theorem State.rebuildRoute_pending (e : Nat × DWord) : (s.rebuildRoute e).pending = s.pending := by
  simp only [State.rebuildRoute]
  split
  · rfl
  · exact State.foldl_snd_pending _ _ _ fun a x => by split <;> simp

@[simp] theorem State.repath_pending : s.repath.pending = s.pending := rfl
@[simp] theorem State.swapRouting_pending : s.swapRouting.pending = s.pending := by simp [State.swapRouting]
@[simp] theorem State.usedFlow_pending (id flow token : Nat) : (s.usedFlow id flow token).pending = s.pending := rfl
@[simp] theorem State.sentData_pending (id flow token : Nat) : (s.sentData id flow token).pending = s.pending := rfl
@[simp] theorem State.usedBy_pending (q : LinkReq) : (s.usedBy q).pending = s.pending := by
  unfold State.usedBy
  split <;> simp
@[simp] theorem State.putReq_pending (q : LinkReq) (n vc : Nat) : (s.putReq q n vc).pending = s.pending := by simp [State.putReq]
@[simp] theorem State.trySend_pending (q : LinkReq) : (s.trySend q).pending = s.pending := by
  unfold State.trySend
  (repeat' split) <;> simp
@[simp] theorem State.postMsg_pending (m : OutMsg) : (s.postMsg m).pending = s.pending := by
  unfold State.postMsg
  (repeat' split) <;> simp
@[simp] theorem State.postMsgs_pending : s.postMsgs.pending = s.pending := by simp [State.postMsgs]
@[simp] theorem State.postTransit_pending (t : Transit) : (s.postTransit t).pending = s.pending := by
  simp only [State.postTransit]
  (repeat' split) <;> simp
@[simp] theorem State.postTransits_pending : s.postTransits.pending = s.pending := by
  simp only [State.postTransits]
  (repeat' split) <;> simp
@[simp] theorem State.enqueue_pending (q : LinkReq) : (s.enqueue q).pending = s.pending := rfl
@[simp] theorem State.setPeer_pending (id : Nat) (a : PeerAnswer) : (s.setPeer id a).pending = s.pending := rfl
@[simp] theorem State.askPeer_pending (q : PeerRead) : (s.askPeer q).pending = s.pending := by
  unfold State.askPeer
  (repeat' split) <;> simp
@[simp] theorem State.pump_pending : s.pump.pending = s.pending := by simp [State.pump]
@[simp] theorem State.request_pending (q : LinkReq) : (s.request q).pending = s.pending := by simp [State.request]
@[simp] theorem State.dropReq_pending (q : LinkReq) : (s.dropReq q).pending = s.pending := rfl
@[simp] theorem State.park_pending (t : Option TileId) (x : Inbound) : (s.park t x).pending = s.pending := by
  unfold State.park
  split <;> simp
@[simp] theorem State.expose_pending (device token pack : Nat) (group : Option Nat) (span : Option Nat × Nat × Nat) :
    (s.expose device token pack group span).pending = s.pending := rfl
@[simp] theorem State.exposeAtDispatch_pending (pack id : Nat) : (s.exposeAtDispatch pack id).pending = s.pending := rfl
@[simp] theorem State.exposuresAtRecord_pending (d : Desc) : (s.exposuresAtRecord d).pending = s.pending := rfl
@[simp] theorem State.clearToken_pending (device token : Nat) : (s.clearToken device token).pending = s.pending := rfl
@[simp] theorem State.zeroSpan_pending (sp : Option Nat × Nat × Nat) : (s.zeroSpan sp).pending = s.pending := by
  unfold State.zeroSpan
  split <;> simp
@[simp] theorem State.withdrawFrom_pending (e : Exposure) : (s.withdrawFrom e).pending = s.pending := by
  unfold State.withdrawFrom
  split <;> simp
@[simp] theorem State.withdrawToken_pending (device token : Nat) : (s.withdrawToken device token).pending = s.pending := by
  simp [State.withdrawToken]
@[simp] theorem State.sendOutcome_pending (d : Desc) (t : TxType) : (s.sendOutcome d t).pending = s.pending := by
  unfold State.sendOutcome
  split <;> simp

/-! ### `Machine/Leash.lean` -/

@[simp] theorem State.leashAlarm_pending (code : Nat) : (s.leashAlarm code).pending = s.pending := rfl
@[simp] theorem State.leashLog_pending : s.leashLog.pending = s.pending := rfl
@[simp] theorem State.mismatchTick_pending : s.mismatchTick.pending = s.pending := by simp [State.mismatchTick]
@[simp] theorem State.suspectTick_pending : s.suspectTick.pending = s.pending := by simp [State.suspectTick]
@[simp] theorem State.disagree_pending : s.disagree.pending = s.pending := rfl
@[simp] theorem State.disagreeTick_pending : s.disagreeTick.pending = s.pending := by simp [State.disagreeTick]
@[simp] theorem State.holdAbort_pending : s.holdAbort.pending = s.pending := by simp [State.holdAbort]
@[simp] theorem State.leashLatch_pending (estimate len : Nat) : (s.leashLatch estimate len).pending = s.pending := by
  simp [State.leashLatch]
@[simp] theorem State.clampRung_pending : s.clampRung.pending = s.pending := by simp [State.clampRung]
@[simp] theorem State.capTick_pending : s.capTick.pending = s.pending := by simp [State.capTick]
@[simp] theorem State.ladder_pending : s.ladder.pending = s.pending := by simp [State.ladder]
@[simp] theorem State.peakStall_pending : s.peakStall.pending = s.pending := by simp [State.peakStall]
@[simp] theorem State.hbmOrder_pending (hot cool : Bool) : (s.hbmOrder hot cool).pending = s.pending := by simp [State.hbmOrder]
@[simp] theorem State.hbmStart_pending : s.hbmStart.pending = s.pending := by
  unfold State.hbmStart
  split <;> simp
@[simp] theorem State.class2_pending : s.class2.pending = s.pending := by simp [State.class2]
@[simp] theorem State.occupy_pending (len : Nat) : (s.occupy len).pending = s.pending := State.foldl_pending _ _ _ fun s p => by
  split
  · split <;> rfl
  · rfl
@[simp] theorem State.recordEnergy_pending (d : Desc) : (s.recordEnergy d).2.pending = s.pending := by
  unfold State.recordEnergy
  split <;> simp
@[simp] theorem execSupplyTrip_queue (p : Supply) : Result.queue (execSupplyTrip p s) = some s.pending := by
  unfold execSupplyTrip
  split <;> simp
@[simp] theorem execOpChangeDone_queue : Result.queue (execOpChangeDone s) = some s.pending := by simp [execOpChangeDone]
@[simp] theorem execCapUnmet_queue : Result.queue (execCapUnmet s) = some s.pending := by simp [execCapUnmet]
@[simp] theorem execPowerHoldAbort_queue : Result.queue (execPowerHoldAbort s) = some s.pending := by simp [execPowerHoldAbort]
@[simp] theorem execDroop_queue (die : Fin 4) : Result.queue (execDroop die s) = some s.pending := rfl
@[simp] theorem execDroopRecovered_queue (die : Fin 4) : Result.queue (execDroopRecovered die s) = some s.pending := rfl
@[simp] theorem execPowerSensorSample_queue (sample input : Int) (a2 : Nat) :
    Result.queue (execPowerSensorSample sample input a2 s) = some s.pending := rfl
@[simp] theorem execModelMismatch_queue : Result.queue (execModelMismatch s) = some s.pending := by simp [execModelMismatch]
@[simp] theorem execSensorDisagreement_queue : Result.queue (execSensorDisagreement s) = some s.pending := rfl
@[simp] theorem execSensorSelfCheck_queue (ok : Bool) : Result.queue (execSensorSelfCheck ok s) = some s.pending := rfl

@[simp] theorem execThermalSample_queue (r : Thermal) : Result.queue (execThermalSample r s) = some s.pending := by
  rw [execThermalSample, Result.queue_next]
  split
  · rfl
  extract_lets now tj s1 hot cool trip above raiseIt s2 s3 s4 m pins s5
  have alarmed : s3.pending = s.pending := by
    dsimp only [s3]
    split <;> rfl
  have tripped : s5.pending = s.pending := by
    dsimp only [s5]
    split <;> exact alarmed
  split <;> exact congrArg some tripped

@[simp] theorem execHbmThrottle_queue : Result.queue (execHbmThrottle s) = some s.pending := by simp [execHbmThrottle]
@[simp] theorem execEnergyIntervalClose_queue (r : EnergyIn) : Result.queue (execEnergyIntervalClose r s) = some s.pending :=
  congrArg some ((State.modEnergy_pending ..).trans (State.foldl_pending _ _ _ fun s p => by split <;> rfl))

/-! ### `Machine/Records.lean` -/

@[simp] theorem State.finish_pending (p : Nat) : (s.finish p).pending = s.pending := by
  unfold State.finish
  split <;> simp
@[simp] theorem State.endIfRetired_pending (d : Desc) : (s.endIfRetired d).pending = s.pending := by simp [State.endIfRetired]
@[simp] theorem State.idlePack_pending (p id : Nat) : (s.idlePack p id).pending = s.pending := by simp [State.idlePack]
@[simp] theorem State.recordSlot_pending (d : Desc) : (s.recordSlot d).2.pending = s.pending := by
  unfold State.recordSlot
  split <;> simp
@[simp] theorem State.cancelOne_pending (d : Desc) : (s.cancelOne d).pending = s.pending := by
  unfold State.cancelOne
  split <;> simp
@[simp] theorem State.cancel_pending (c : Desc) : (s.cancel c).pending = s.pending := by simp [State.cancel]
@[simp] theorem State.class4_pending : s.class4.pending = s.pending := by simp [State.class4]
@[simp] theorem State.resetFn_pending (f : Nat) : (s.resetFn f).pending = s.pending := by simp [State.resetFn]
@[simp] theorem execProgramComplete_queue (p : PackIx) : Result.queue (execProgramComplete p s) = some s.pending := by
  simp [execProgramComplete]
@[simp] theorem State.sampleCompletion_pending (d : Desc) : (s.sampleCompletion d).pending = s.pending := by
  simp only [State.sampleCompletion]
  (repeat' split) <;> simp
@[simp] theorem execDescriptorRetired_queue (d : Nat) : Result.queue (execDescriptorRetired d s) = some s.pending := by
  unfold execDescriptorRetired
  split <;> simp
@[simp] theorem State.putRecord_pending (d : Desc) : (s.putRecord d).pending = s.pending := by simp [State.putRecord]
@[simp] theorem State.afterRecord_pending (d : Desc) (more : Bool) : (s.afterRecord d more).pending = s.pending := by
  simp [State.afterRecord]

@[simp] theorem State.record1_pending (id : Nat) : (s.record1 id).pending = s.pending := by
  unfold State.record1
  split
  · rfl
  next d _ =>
  split
  · rfl
  split
  · refine (State.afterRecord_pending ..).trans ?_
    split <;> rfl
  · have slot := s.recordSlot_pending d
    split
    next e => exact (State.pending_of_eq e).trans slot
    next e =>
      exact (State.afterRecord_pending ..).trans ((State.putRecord_pending ..).trans ((State.pending_of_eq e).trans slot))

@[simp] theorem State.record_pending (id : Nat) : (s.record id).pending = s.pending := by simp [State.record]
@[simp] theorem State.recordOther_pending (id : Nat) : (s.recordOther id).pending = s.pending := by
  unfold State.recordOther
  split <;> simp
@[simp] theorem State.writePackRecords_pending : s.writePackRecords.pending = s.pending := by simp [State.writePackRecords]
@[simp] theorem State.writeOtherRecords_pending : s.writeOtherRecords.pending = s.pending := by simp [State.writeOtherRecords]
@[simp] theorem State.moderate_pending (f r : Nat) : (s.moderate f r).pending = s.pending := by simp [State.moderate]
@[simp] theorem State.moderateAll_pending : s.moderateAll.pending = s.pending := by simp [State.moderateAll]
@[simp] theorem execFenceComplete_queue (fn : Fn) (ring : RingIx) :
    Result.queue (execFenceComplete fn ring s) = some s.pending := by
  unfold execFenceComplete
  split <;> simp
@[simp] theorem execCompletionRecord_queue (d : Nat) : Result.queue (execCompletionRecord d s) = some s.pending := by
  unfold execCompletionRecord
  split <;> simp
@[simp] theorem execModTimeExpiry_queue (fn : Fn) (ring : RingIx) :
    Result.queue (execModTimeExpiry fn ring s) = some s.pending := by
  simp [execModTimeExpiry]
@[simp] theorem State.unmask_leaves_pending (f v : Nat) : (s.unmask f v).pending = s.pending := by simp [State.unmask]
@[simp] theorem execMsixUnmask_queue (fn : Fn) (vec : Fin 2048) : Result.queue (execMsixUnmask fn vec s) = some s.pending := by
  simp [execMsixUnmask]
@[simp] theorem State.dropSilent_pending : s.dropSilent.pending = s.pending :=
  State.foldl_pending _ _ _ fun s id => by split <;> simp

/-! ### `Machine/Issue.lean` -/

@[simp] theorem State.advance_pending (c : Issuing) : (s.advance c).pending = s.pending := rfl
@[simp] theorem State.holdAt_pending (c : Issuing) (h : Hold) : (s.holdAt c h).pending = s.pending := rfl
@[simp] theorem State.skip_pending (c : Issuing) (reason : Nat) : (s.skip c reason).pending = s.pending := by simp [State.skip]
@[simp] theorem State.fetchFailed_pending (p : Nat) (d : Desc) : (s.fetchFailed p d).pending = s.pending := by
  simp [State.fetchFailed]
@[simp] theorem State.markIssued_pending (p : Nat) : (s.markIssued p).pending = s.pending := rfl
@[simp] theorem State.tagged_pending (c : Issuing) : (s.tagged c).pending = s.pending := by simp [State.tagged]
@[simp] theorem State.launch_pending (c : Issuing) (reads writes : List Nat) (ctx : Option Nat) :
    (s.launch c reads writes ctx).pending = s.pending := by simp [State.launch]
@[simp] theorem State.semAdd_pending (ix n inc : Nat) : (s.semAdd ix n inc).pending = s.pending := by simp [State.semAdd]
@[simp] theorem State.upset_pending (tile : TileId) (d : Option Desc) (u : Upset) :
    (s.upset tile d u).2.pending = s.pending := by
  unfold State.upset
  (repeat' split) <;> simp -implicitDefEqProofs

@[simp] theorem State.refill_pending (d : Desc) (ix : Nat) (e : Engine) (n : Nat) : (s.refill d ix e n).2.pending = s.pending := by
  unfold State.refill
  extract_lets g
  have read := s.readVa_pending d (g.base + 16 * g.pc) (16 * n)
  split <;> next e => simpa using (State.pending_of_eq e).trans read

@[simp] theorem State.fetchWord_pending (d : Desc) (ix : Nat) (e : Engine) : (s.fetchWord d ix e).2.pending = s.pending := by
  unfold State.fetchWord
  extract_lets g n
  have first := s.refill_pending d ix e n
  split
  · rfl
  split
  next e1 =>
    split
    · exact (State.pending_of_eq e1).trans first
    · exact (State.refill_pending ..).trans ((State.pending_of_eq e1).trans first)
  next e1 =>
    split
    · exact (State.pending_of_eq e1).trans first
    · exact (State.refill_pending ..).trans ((State.pending_of_eq e1).trans first)
  · exact first

theorem State.issue_pending (tile : TileId) (e : Engine) (pick : Nat → Bool) {body : Issuing → TileWord → State → State}
    (hf : ∀ c i s, (body c i s).pending = s.pending) : (s.issue tile e pick body).pending = s.pending := by
  unfold State.issue
  split
  · rfl
  next p d _ =>
  extract_lets g
  split
  · rfl
  have fetched := s.fetchWord_pending d tile.ix e
  split
  next e1 => exact (State.pending_of_eq e1).trans fetched
  next e1 => exact (State.pending_of_eq e1).trans fetched
  next e1 => exact (State.fetchFailed_pending ..).trans ((State.pending_of_eq e1).trans fetched)
  next e1 =>
    have word := (State.pending_of_eq e1).trans fetched
    extract_lets c
    split
    · rfl
    split
    · exact (State.skip_pending ..).trans word
    split
    · exact (State.skip_pending ..).trans word
    split
    · exact (State.skip_pending ..).trans word
    · exact (hf ..).trans word

theorem State.issueOp_pending (tile : TileId) (e : Engine) (op : Nat) {body : Issuing → TileWord → State → State}
    (hf : ∀ c i s, (body c i s).pending = s.pending) : (s.issueOp tile e op body).pending = s.pending := s.issue_pending _ _ _ hf

theorem State.dispatchOp_pending (c : Issuing) (decode : Option Nat) (reads writes : List Nat) (issue : Option Nat)
    {effect : State → State} (hf : ∀ s, (effect s).pending = s.pending) :
    (s.dispatchOp c decode reads writes issue effect).pending = s.pending := by
  rcases s.dispatchOp_cases c decode reads writes issue effect with ⟨r, _, e⟩ | ⟨r, e⟩ | ⟨_, _, _, _, e⟩ <;> rw [e]
  · exact State.skip_pending ..
  · exact State.holdAt_pending ..
  · exact (hf _).trans (State.launch_pending ..)

theorem State.controlOp_pending (c : Issuing) (decode : Option Nat) {effect : State → State}
    (hf : ∀ s, (effect s).pending = s.pending) : (s.controlOp c decode effect).pending = s.pending := by
  rcases s.controlOp_cases c decode effect with ⟨r, _, e⟩ | ⟨_, e⟩ | ⟨_, _, e⟩ <;> rw [e]
  · exact State.skip_pending ..
  · exact State.holdAt_pending ..
  · exact (hf _).trans (State.tagged_pending ..)

theorem State.tileUnder_pending (tile : TileId) (u : Upset) {effect : State → State}
    (hf : ∀ s, (effect s).pending = s.pending) : (s.tileUnder tile u effect).pending = s.pending := by
  have upset := s.upset_pending tile (s.owner tile) u
  unfold State.tileUnder
  split
  next e => exact (hf _).trans ((State.pending_of_eq e).trans upset)
  next e => exact (State.pending_of_eq e).trans upset

theorem State.underUpset_pending (c : Issuing) (u : Upset) {effect : State → State}
    (hf : ∀ s, (effect s).pending = s.pending) : (s.underUpset c u effect).pending = s.pending := by
  have upset := s.upset_pending c.tile (some c.d) u
  unfold State.underUpset
  split
  next e => exact (hf _).trans ((State.pending_of_eq e).trans upset)
  next e => exact (State.pending_of_eq e).trans upset

theorem State.dispatchUnder_pending {c : Issuing} {u : Upset} {decode : Option Nat} {reads writes : List Nat}
    {issue : Option Nat} {effect : State → State} (hf : ∀ s, (effect s).pending = s.pending) :
    (s.dispatchOp c decode reads writes issue fun s => s.underUpset c u effect).pending = s.pending :=
  s.dispatchOp_pending _ _ _ _ _ fun s => s.underUpset_pending _ _ hf
theorem State.controlUnder_pending (c : Issuing) (u : Upset) (decode : Option Nat) {effect : State → State}
    (hf : ∀ s, (effect s).pending = s.pending) : (s.controlUnder c u decode effect).pending = s.pending :=
  s.controlOp_pending c decode fun s => s.underUpset_pending c u hf

/-! ### `Machine/Dsp.lean` -/

@[simp] theorem State.spDone_pending (c : Issuing) (outs : List Int) (ovf : Bool) :
    (s.spDone c outs ovf).pending = s.pending := by simp [State.spDone]
@[simp] theorem State.spfft4_pending (c : Issuing) (u : Upset) (f : Fft) : (s.spfft4 c u f).pending = s.pending := by
  unfold State.spfft4
  exact s.dispatchUnder_pending fun s => by simp
@[simp] theorem State.spmac_pending (c : Issuing) (u : Upset) (f : Mac) : (s.spmac c u f).pending = s.pending := by
  unfold State.spmac
  exact s.dispatchUnder_pending fun s => by simp
@[simp] theorem State.spbexp_pending (c : Issuing) (u : Upset) (f : Blk) : (s.spbexp c u f).pending = s.pending := by
  unfold State.spbexp
  exact s.dispatchUnder_pending fun s => by simp
@[simp] theorem State.spnorm_pending (c : Issuing) (u : Upset) (f : Blk) (amt : BitVec 6) (useHead : Bool) :
    (s.spnorm c u f amt useHead).pending = s.pending := by
  unfold State.spnorm
  exact s.dispatchUnder_pending fun s => by simp
@[simp] theorem State.spexp_pending (c : Issuing) (u : Upset) (f : Blk) (dmem : BitVec 2) (daddr : BitVec 14)
    (beout : Bool) : (s.spexp c u f dmem daddr beout).pending = s.pending := by
  unfold State.spexp
  exact s.dispatchUnder_pending fun s => by simp
@[simp] theorem execSpfft4_queue (tile : TileId) (e : Engine) (u : Upset) :
    Result.queue (execSpfft4 tile e u s) = some s.pending := congrArg some (s.issueOp_pending _ _ _ fun c i s => by split <;> simp)
@[simp] theorem execSpmac_queue (tile : TileId) (e : Engine) (u : Upset) :
    Result.queue (execSpmac tile e u s) = some s.pending := congrArg some (s.issueOp_pending _ _ _ fun c i s => by split <;> simp)
@[simp] theorem execSpbexp_queue (tile : TileId) (e : Engine) (u : Upset) :
    Result.queue (execSpbexp tile e u s) = some s.pending := congrArg some (s.issueOp_pending _ _ _ fun c i s => by split <;> simp)
@[simp] theorem execSpnorm_queue (tile : TileId) (e : Engine) (u : Upset) :
    Result.queue (execSpnorm tile e u s) = some s.pending := congrArg some (s.issueOp_pending _ _ _ fun c i s => by split <;> simp)
@[simp] theorem execSpexp_queue (tile : TileId) (e : Engine) (u : Upset) :
    Result.queue (execSpexp tile e u s) = some s.pending := congrArg some (s.issueOp_pending _ _ _ fun c i s => by split <;> simp)

/-! ### `Machine/Vector.lean` -/

@[simp] theorem State.velem_pending (c : Issuing) (u : Upset) (op : ElemOp) (f : Elem) :
    (s.velem c u op f).pending = s.pending := by
  unfold State.velem
  exact s.dispatchUnder_pending fun s => by simp
@[simp] theorem State.vred_pending (c : Issuing) (u : Upset) (f : Row) : (s.vred c u f).pending = s.pending := by
  unfold State.vred
  exact s.dispatchUnder_pending fun s => by simp
@[simp] theorem State.vtopk_pending (c : Issuing) (u : Upset) (f : Row) : (s.vtopk c u f).pending = s.pending := by
  unfold State.vtopk
  exact s.dispatchUnder_pending fun s => by simp

@[simp] theorem State.vsample_pending (c : Issuing) (u : Upset) (f : Samp) : (s.vsample c u f).pending = s.pending := by
  unfold State.vsample
  exact s.dispatchUnder_pending fun s => by
    dsimp only
    split <;> simp

@[simp] theorem State.issueElem_pending (tile : TileId) (e : Engine) (u : Upset) (op : ElemOp) :
    (s.issueElem tile e u op).pending = s.pending := s.issueOp_pending _ _ _ fun c i s => by split <;> simp
@[simp] theorem execVadd_queue (tile : TileId) (e : Engine) (u : Upset) : Result.queue (execVadd tile e u s) = some s.pending := by
  simp [execVadd]
@[simp] theorem execVmul_queue (tile : TileId) (e : Engine) (u : Upset) : Result.queue (execVmul tile e u s) = some s.pending := by
  simp [execVmul]
@[simp] theorem execVfma_queue (tile : TileId) (e : Engine) (u : Upset) : Result.queue (execVfma tile e u s) = some s.pending := by
  simp [execVfma]
@[simp] theorem execVmax_queue (tile : TileId) (e : Engine) (u : Upset) : Result.queue (execVmax tile e u s) = some s.pending := by
  simp [execVmax]
@[simp] theorem execVmin_queue (tile : TileId) (e : Engine) (u : Upset) : Result.queue (execVmin tile e u s) = some s.pending := by
  simp [execVmin]
@[simp] theorem execVtab_queue (tile : TileId) (e : Engine) (u : Upset) : Result.queue (execVtab tile e u s) = some s.pending := by
  simp [execVtab]
@[simp] theorem execVcvt_queue (tile : TileId) (e : Engine) (u : Upset) : Result.queue (execVcvt tile e u s) = some s.pending := by
  simp [execVcvt]
@[simp] theorem execVred_queue (tile : TileId) (e : Engine) (u : Upset) :
    Result.queue (execVred tile e u s) = some s.pending := congrArg some (s.issueOp_pending _ _ _ fun c i s => by split <;> simp)
@[simp] theorem execVtopk_queue (tile : TileId) (e : Engine) (u : Upset) :
    Result.queue (execVtopk tile e u s) = some s.pending := congrArg some (s.issueOp_pending _ _ _ fun c i s => by split <;> simp)
@[simp] theorem execVsample_queue (tile : TileId) (e : Engine) (u : Upset) :
    Result.queue (execVsample tile e u s) = some s.pending := congrArg some (s.issueOp_pending _ _ _ fun c i s => by split <;> simp)

/-! ### `Machine/Groups.lean` -/

@[simp] theorem State.modGroup_pending (g : Nat) (f : GroupRun → GroupRun) : (s.modGroup g f).pending = s.pending := rfl
@[simp] theorem State.landInTile_pending (device token pack : Nat) (group : Option Nat) (tile addr : Nat)
    (data : List Byte) : (s.landInTile device token pack group tile addr data).pending = s.pending := by simp [State.landInTile]
@[simp] theorem State.deliverLocal_pending (g device token addr : Nat) (data : List Byte) :
    (s.deliverLocal g device token addr data).pending = s.pending := by simp [State.deliverLocal]
@[simp] theorem State.groupSignal_pending (g sem : Nat) : (s.groupSignal g sem).pending = s.pending := by simp [State.groupSignal]
@[simp] theorem State.groupSignals_pending (g : Nat) : (s.groupSignals g).pending = s.pending := by simp [State.groupSignals]
@[simp] theorem State.groupDone_pending (g : Nat) : (s.groupDone g).pending = s.pending := by
  simp only [State.groupDone]
  (repeat' split) <;> simp

@[simp] theorem State.groupStep_pending (g : Nat) : (s.groupStep g).pending = s.pending := by
  have woken (s : State) (l : List TileId) :
      (l.foldl (fun s t => s.startWake (SiteId.domain (s.siteOf t))) s).pending = s.pending :=
    State.foldl_pending _ _ _ fun _ _ => rfl
  simp only [State.groupStep]
  (repeat' split) <;> simp [woken]

@[simp] theorem State.groupPump_pending (g : Nat) : (s.groupPump g).pending = s.pending := by simp [State.groupPump]
@[simp] theorem State.dropPieces_pending (g off : Nat) : (s.dropPieces g off).pending = s.pending := rfl
@[simp] theorem State.groupAck_pending (g : Nat) (p : Nat → Bool) (off : Nat) : (s.groupAck g p off).pending = s.pending := by
  simp [State.groupAck]
@[simp] theorem State.countPrune_pending : s.countPrune.pending = s.pending := rfl

@[simp] theorem State.pruneLocal_pending (g ix : Nat) : (s.pruneLocal g ix).pending = s.pending := by
  simp only [State.pruneLocal]
  split
  · rfl
  exact State.foldl_pending _ _ _ fun s x => by
    split
    · split <;> rfl
    · rfl

@[simp] theorem State.pruneBranch_pending (g ix : Nat) : (s.pruneBranch g ix).pending = s.pending := by simp [State.pruneBranch]
@[simp] theorem State.groupTick_pending (g : Nat) : (s.groupTick g).pending = s.pending := by simp [State.groupTick]

/-! ### `Machine/Streams.lean` -/

@[simp] theorem State.convertChunk_pending (ix : Nat) (r : StreamRec) (inward : Bool) (b : List Byte) :
    (s.convertChunk ix r inward b).2.2.pending = s.pending := by
  unfold State.convertChunk
  split <;> simp
@[simp] theorem State.modCtx_pending (ix c : Nat) (f : CtxSt → CtxSt) : (s.modCtx ix c f).pending = s.pending := rfl
@[simp] theorem State.feed_pending (ix c : Nat) (k : CtxSt) (b : List Byte) : (s.feed ix c k b).pending = s.pending := by
  unfold State.feed
  split <;> simp

@[simp] theorem State.peerRequests_pending (tile : TileId) (d : Desc) (ci : Nat) (k : CtxSt) (ch : ChunkSt) :
    (s.peerRequests tile d ci k ch).pending = s.pending := State.foldl_fst_pending _ _ _ fun a x => by
  dsimp only
  split
  · split <;> simp
  · rfl

@[simp] theorem State.putChunk_pending (tile : TileId) (d : Desc) (ci : Nat) (ch : ChunkSt) (f : Option PgFault) :
    (s.putChunk tile d ci ch f).pending = s.pending := by
  simp only [State.putChunk]
  (repeat' split) <;> simp
@[simp] theorem State.requestGet_pending (tile : TileId) (d : Desc) (ci : Nat) (k : CtxSt) :
    (s.requestGet tile d ci k).pending = s.pending := by simp [State.requestGet]
@[simp] theorem State.requestPut_pending (tile : TileId) (d : Desc) (ci : Nat) (k : CtxSt) :
    (s.requestPut tile d ci k).pending = s.pending := by
  simp only [State.requestPut]
  (repeat' split) <;> simp
@[simp] theorem State.requestRow_pending (tile : TileId) (d : Desc) (ci : Nat) (k : CtxSt) :
    (s.requestRow tile d ci k).pending = s.pending := by simp [State.requestRow]
@[simp] theorem State.ctxStep_pending (tile : TileId) (d : Desc) (ci : Nat) : (s.ctxStep tile d ci).pending = s.pending := by
  simp only [State.ctxStep]
  (repeat' split) <;> simp
@[simp] theorem State.settle_pending (tile : TileId) : (s.settle tile).pending = s.pending := by
  simp only [State.settle]
  (repeat' split) <;> simp
@[simp] theorem State.signal_pending (tile : TileId) (sem inc : Nat) : (s.signal tile sem inc).pending = s.pending := by
  simp [State.signal]

@[simp] theorem State.sendPieces_pending (q : LinkReq) (col row taddr n : Nat) (b : List Byte) :
    (s.sendPieces q col row taddr n b).pending = s.pending := by
  induction n generalizing s taddr b with
  | zero => rfl
  | succ n ih => simp [State.sendPieces, ih]

@[simp] theorem State.sendEffect_pending (c : Issuing) (f : Send) : (s.sendEffect c f).pending = s.pending := by
  unfold State.sendEffect
  (repeat' split) <;> simp
@[simp] theorem State.mcastStart_pending (c : Issuing) (f : Mcast) (ci : Nat) :
    (s.mcastStart c f ci).pending = s.pending := by simp [State.mcastStart]
@[simp] theorem State.resumePage_pending (p fn va : Nat) : (s.resumePage p fn va).2.pending = s.pending := by
  simp [State.resumePage]
@[simp] theorem State.ctxRetire_pending (tile : TileId) (ci : Nat) (k : CtxSt) : (s.ctxRetire tile ci k).pending = s.pending := by
  simp [State.ctxRetire]
@[simp] theorem State.ctxEnd_pending (tile : TileId) (ci : Nat) : (s.ctxEnd tile ci).pending = s.pending := by
  unfold State.ctxEnd
  split <;> simp
@[simp] theorem State.chunkLands_pending (tile : TileId) (d : Desc) (ci : Nat) (k : CtxSt) (ch : ChunkSt) :
    (s.chunkLands tile d ci k ch).pending = s.pending := by
  simp only [State.chunkLands]
  (repeat' split) <;> simp

@[simp] theorem execChunkResident_queue (tile : TileId) (u : Upset) (ctx : Fin 16) :
    Result.queue (execChunkResident tile ctx u s) = some s.pending := by
  rw [execChunkResident, Result.queue_next]
  extract_lets ix
  split
  · rfl
  split
  · rfl
  extract_lets s1 s2 s3
  have begun : s2.pending = s.pending := by simp [s2, s1]
  have landed : s3.pending = s.pending := by
    dsimp only [s3]
    split
    · split
      · exact begun
      · exact (State.tileUnder_pending _ _ _ fun s => by simp).trans begun
    · exact begun
  split
  · rfl
  · simp [landed]

@[simp] theorem State.writeSegs_pending (owners : List Nat) (l : List Seg) (b : List Byte) :
    (s.writeSegs owners l b).pending = s.pending := by
  induction l generalizing s b with
  | nil => rfl
  | cons g gs ih =>
    refine (ih _ _).trans ?_
    split <;> simp

@[simp] theorem execWriteAcknowledged_queue (tile : TileId) (u : Upset) (ctx : Fin 16) :
    Result.queue (execWriteAcknowledged tile ctx u s) = some s.pending := by
  rw [execWriteAcknowledged, Result.queue_next]
  extract_lets ix
  split
  · rfl
  split
  · rfl
  extract_lets n s1 s2
  split
  · rfl
  have written : s1.pending = s.pending := s.tileUnder_pending _ _ fun s => by simp
  simp [s2, written]

theorem State.withRecord_pending (c : Issuing) (addr : Nat) {body : Nat → State} (hf : ∀ n, (body n).pending = s.pending) :
    (s.withRecord c addr body).pending = s.pending := by
  simp only [State.withRecord]
  split
  · simp
  · exact hf _

@[simp] theorem State.issueCtx_pending (c : Issuing) (reads : List Nat) (ci hub : Nat) (k : CtxSt) :
    (s.issueCtx c reads ci hub k).pending = s.pending := by
  simp only [State.issueCtx]
  (repeat' split) <;> simp

@[simp] theorem State.stream_pending (c : Issuing) (u : Upset) (get : Bool) (f : Stream) :
    (s.stream c u get f).pending = s.pending := by
  unfold State.stream
  split
  · simp
  refine s.withRecord_pending _ _ fun x => ?_
  extract_lets r n
  split
  · simp
  split
  · simp
  · exact s.underUpset_pending _ _ fun s => by simp

@[simp] theorem execRget_queue (tile : TileId) (e : Engine) (u : Upset) :
    Result.queue (execRget tile e u s) = some s.pending := congrArg some (s.issueOp_pending _ _ _ fun c i s => by split <;> simp)
@[simp] theorem execRput_queue (tile : TileId) (e : Engine) (u : Upset) :
    Result.queue (execRput tile e u s) = some s.pending := congrArg some (s.issueOp_pending _ _ _ fun c i s => by split <;> simp)

@[simp] theorem State.gather_pending (c : Issuing) (u : Upset) (f : Gather) : (s.gather c u f).pending = s.pending := by
  unfold State.gather
  split
  · simp
  refine s.withRecord_pending _ _ fun x => ?_
  extract_lets tmem rowb
  split
  · simp
  split
  · simp
  · exact s.underUpset_pending _ _ fun s => by simp

@[simp] theorem execRgather_queue (tile : TileId) (e : Engine) (u : Upset) :
    Result.queue (execRgather tile e u s) = some s.pending := congrArg some (s.issueOp_pending _ _ _ fun c i s => by split <;> simp)

@[simp] theorem State.send_pending (c : Issuing) (u : Upset) (f : Send) : (s.send c u f).pending = s.pending := by
  unfold State.send
  extract_lets n sh la ra own gradeB bad
  clear_value bad
  split
  · simp
  refine s.underUpset_pending _ _ fun s => ?_
  dsimp only
  (repeat' split) <;> simp

@[simp] theorem execRsend_queue (tile : TileId) (e : Engine) (u : Upset) :
    Result.queue (execRsend tile e u s) = some s.pending := congrArg some (s.issueOp_pending _ _ _ fun c i s => by split <;> simp)

@[simp] theorem State.mcast_pending (c : Issuing) (u : Upset) (f : Mcast) : (s.mcast c u f).pending = s.pending := by
  unfold State.mcast
  extract_lets n la bad
  clear_value bad
  split
  · simp
  refine s.underUpset_pending _ _ fun s => ?_
  dsimp only
  (repeat' split) <;> simp

@[simp] theorem execRmcast_queue (tile : TileId) (e : Engine) (u : Upset) :
    Result.queue (execRmcast tile e u s) = some s.pending := congrArg some (s.issueOp_pending _ _ _ fun c i s => by split <;> simp)
@[simp] theorem State.sampleFault_pending (tile : TileId) (d : Desc) (ci : Nat) :
    (s.sampleFault tile d ci).pending = s.pending := by
  unfold State.sampleFault
  (repeat' split) <;> simp
@[simp] theorem execPageFault_queue (tile : TileId) (ctx : Fin 16) : Result.queue (execPageFault tile ctx s) = some s.pending := by
  unfold execPageFault
  split <;> simp
@[simp] theorem execPageFaultTimeout_queue (tile : TileId) (ctx : Fin 16) :
    Result.queue (execPageFaultTimeout tile ctx s) = some s.pending := by
  unfold execPageFaultTimeout
  (repeat' split) <;> simp

/-! ### `Machine/Prologue.lean` -/

@[simp] theorem State.hookFail_pending (p : Nat) (h : HookSt) (row event : Nat) :
    (s.hookFail p h row event).pending = s.pending := rfl
@[simp] theorem State.startHook_pending (p : Nat) (h : HookSt) : (s.startHook p h).pending = s.pending := by simp [State.startHook]

/-! ### `Machine/Matrix.lean` -/

@[simp] theorem State.countUnchecked_pending (n : Nat) : (s.countUnchecked n).pending = s.pending := rfl

@[simp] theorem State.mxRows_pending (c : Issuing) (f : MxRun) (pro : Option Pro) (start : Nat) (rest : List RowUpset) :
    (s.mxRows c f pro start rest).pending = s.pending := by
  unfold State.mxRows
  extract_lets plan
  split
  next junk s1 e1 =>
  split
  next side s2 e2 =>
  extract_lets t ctl rows o s3 s4 s5 second s6
  have h1 : s1.pending = s.pending := (State.pending_of_eq e1).trans (by split <;> simp)
  have h2 : s2.pending = s1.pending := (State.pending_of_eq e2).trans (by dsimp only; (repeat' split) <;> rfl)
  have h5 : s5.pending = s.pending := by simp [s5, s4, s3, h2, h1]
  have h6 : s6.pending = s.pending := by
    dsimp only [s6]
    split <;> simpa using h5
  clear_value o s5 s6
  split
  · exact h5
  · exact (State.modPack_pending ..).trans h6

@[simp] theorem State.mxrunEffect_pending (c : Issuing) (u : Upset) (f : MxRun) (pro : Option Pro) :
    (s.mxrunEffect c u f pro).pending = s.pending := by
  unfold State.mxrunEffect
  (repeat' split) <;> simp -implicitDefEqProofs
@[simp] theorem State.stagedHook_pending (h : HookSt) : (s.stagedHook h).pending = s.pending := by
  unfold State.stagedHook
  split <;> simp -implicitDefEqProofs
@[simp] theorem State.recordMiss_pending (p : Nat) (d : Desc) (m : Miss) (whole second : Bool) :
    (s.recordMiss p d m whole second).pending = s.pending := rfl
@[simp] theorem State.countReplay_pending (half : Nat) : (s.countReplay half).pending = s.pending := rfl
@[simp] theorem State.localReplay_pending (p : Nat) (d : Desc) (m : Miss) : (s.localReplay p d m).pending = s.pending := by
  simp only [State.localReplay]
  split <;> simp
@[simp] theorem State.recordMisses_pending (p : Nat) (d : Desc) (l : List Miss) :
    (s.recordMisses p d l).pending = s.pending := State.foldl_pending _ _ _ fun _ _ => rfl
@[simp] theorem State.secondMiss_pending (p : Nat) (d : Desc) (m : Miss) (whole : Bool) (rest : List Miss) :
    (s.secondMiss p d m whole rest).pending = s.pending := by simp [State.secondMiss]
@[simp] theorem State.sampleMisses_pending (p : Nat) : (s.sampleMisses p).pending = s.pending := by
  unfold State.sampleMisses
  split <;> simp

@[simp] theorem State.mxload_pending (c : Issuing) (u : Upset) (f : MxLoad) : (s.mxload c u f).pending = s.pending := by
  unfold State.mxload
  extract_lets bad held
  split
  · rfl
  · exact s.dispatchUnder_pending fun s => by simp

@[simp] theorem execMxload_queue (tile : TileId) (e : Engine) (u : Upset) :
    Result.queue (execMxload tile e u s) = some s.pending := congrArg some (s.issueOp_pending _ _ _ fun c i s => by split <;> simp)

@[simp] theorem execMxswap_queue (tile : TileId) (e : Engine) (u : Upset) :
    Result.queue (execMxswap tile e u s) = some s.pending := congrArg some (s.issueOp_pending _ _ _ fun c _ s => by
  split
  · rfl
  · exact s.controlUnder_pending _ _ _ fun s => by simp)

@[simp] theorem State.mxrunWith_pending (c : Issuing) (u : Upset) (f : MxRun) (pro : Option Pro) :
    (s.mxrunWith c u f pro).pending = s.pending := by
  unfold State.mxrunWith
  exact s.dispatchUnder_pending fun s => by simp
@[simp] theorem State.mxrun_pending (c : Issuing) (u : Upset) (f : MxRun) : (s.mxrun c u f).pending = s.pending := by
  simp only [State.mxrun]
  (repeat' split) <;> simp
@[simp] theorem execMxrun_queue (tile : TileId) (e : Engine) (u : Upset) :
    Result.queue (execMxrun tile e u s) = some s.pending := congrArg some (s.issueOp_pending _ _ _ fun c i s => by split <;> simp)

/-! ### `Machine/Drain.lean` -/

@[simp] theorem State.sendRows_pending (c : Issuing) (e : Epi) (dstride : Nat) (rows : List (List Byte)) :
    (s.sendRows c e dstride rows).pending = s.pending := by simp [State.sendRows]
@[simp] theorem State.sendDone_pending (e : Epi) : (s.sendDone e).pending = s.pending := by simp [State.sendDone]
@[simp] theorem State.finishDrain_pending (c : Issuing) (f : MxDrain) (e : Option Epi) (statOn : Bool)
    (blocks : List DrainBlock) : (s.finishDrain c f e statOn blocks).pending = s.pending := by
  simp only [State.finishDrain]
  (repeat' split) <;> simp
@[simp] theorem State.claimGroup_pending (c : Issuing) (e : Epi) : (s.claimGroup c e).pending = s.pending := by
  simp [State.claimGroup]
@[simp] theorem State.drainOut_pending (c : Issuing) (f : MxDrain) (e : Option Epi) (statOn : Bool)
    (blocks : List DrainBlock) : (s.drainOut c f e statOn blocks).pending = s.pending := by
  unfold State.drainOut
  split <;> simp
@[simp] theorem State.drainEffect_pending (c : Issuing) (f : MxDrain) (e : Option Epi) :
    (s.drainEffect c f e).pending = s.pending := by
  simp only [State.drainEffect]
  (repeat' split) <;> simp
@[simp] theorem State.drainedHook_pending (h : HookSt) : (s.drainedHook h).pending = s.pending := by
  unfold State.drainedHook
  split <;> simp

@[simp] theorem State.drainWith_pending (c : Issuing) (u : Upset) (f : MxDrain) (e : Option Epi) :
    (s.drainWith c u f e).pending = s.pending := by
  unfold State.drainWith
  extract_lets t slot
  split
  dsimp only
  split
  · simp
  · exact s.dispatchUnder_pending fun s => by simp

@[simp] theorem State.drain_pending (c : Issuing) (u : Upset) (f : MxDrain) : (s.drain c u f).pending = s.pending := by
  simp only [State.drain]
  (repeat' split) <;> simp
@[simp] theorem execMxdrain_queue (tile : TileId) (e : Engine) (u : Upset) :
    Result.queue (execMxdrain tile e u s) = some s.pending := congrArg some (s.issueOp_pending _ _ _ fun c i s => by split <;> simp)

/-! ### `Machine/Copying.lean` -/

@[simp] theorem State.copyTaint_pending (p : Nat) : (s.copyTaint p).pending = s.pending := by simp [State.copyTaint]
@[simp] theorem State.copyStops_pending (p : Nat) (e : PgFault) : (s.copyStops p e).pending = s.pending := rfl
@[simp] theorem State.copyReq_pending (p : Nat) (d : Desc) (t : TxType) (f seg a n : Nat) (data : List Byte) :
    (s.copyReq p d t f seg a n data).pending = s.pending := by simp [State.copyReq]

@[simp] theorem State.copyRead_pending (p : Nat) (d : Desc) (src : List Seg) : (s.copyRead p d src).2.pending = s.pending := by
  unfold State.copyRead
  extract_lets step
  split
  next ok l u e =>
  have one (acc : Bool × List (Option (List Byte)) × State) (g : Seg) : (step acc g).2.2.pending = acc.2.2.pending := by
    obtain ⟨ok, l, s⟩ := acc
    dsimp only [step]
    split
    · rfl
    split
    · split
      next e => exact (State.pending_of_eq e).trans (s.hbmRead_pending ..)
      next e => exact (State.pending_of_eq e).trans (s.hbmRead_pending ..)
    · split <;> rfl
    · split <;> simp
  have all : u.pending = s.pending := by
    have kept := foldl_keeps (fun acc : Bool × List (Option (List Byte)) × State => acc.2.2.pending) step one src (true, [], s)
    rwa [e] at kept
  simp [all]

@[simp] theorem State.copyWrite_pending (p : Nat) (d : Desc) (dst : List Seg) : (s.copyWrite p d dst).pending = s.pending := by
  unfold State.copyWrite
  extract_lets data step
  refine (State.netWrites_pending ..).trans (State.foldl_fst_pending _ _ _ fun acc g => ?_)
  obtain ⟨s, b⟩ := acc
  dsimp only [step]
  split
  · simp
  · rfl
  · split <;> simp

@[simp] theorem State.copyStart_pending (p : Nat) (d : Desc) : (s.copyStart p d).2.pending = s.pending := by
  simp only [State.copyStart]
  (repeat' split) <;> simp
@[simp] theorem State.copyEnd_pending (p : Nat) (d : Desc) : (s.copyEnd p d).2.pending = s.pending := by
  unfold State.copyEnd
  (repeat' split) <;> simp

@[simp] theorem State.copyGo_pending (p : Nat) (d : Desc) (n : Nat) : (s.copyGo p d n).pending = s.pending := by
  induction n generalizing s with
  | zero => rfl
  | succ n ih =>
    unfold State.copyGo
    split
    · rfl
    split
    next ok u e =>
    have started : u.pending = s.pending := by
      split at e
      · exact (State.pending_of_eq e).trans (s.copyStart_pending p d)
      · cases e
        rfl
    have ended := (u.copyEnd_pending p d).trans started
    split
    · exact started
    split
    next e => exact (ih _).trans ((State.pending_of_eq e).trans ended)
    next e => exact (State.pending_of_eq e).trans ended

@[simp] theorem State.copyPump_pending (p : Nat) : (s.copyPump p).pending = s.pending := by
  unfold State.copyPump
  split <;> simp
@[simp] theorem State.copyPart_pending (p seg : Nat) (b : List Byte) : (s.copyPart p seg b).pending = s.pending := by
  simp [State.copyPart]
@[simp] theorem State.sampleCopy_pending (p : Nat) (d : Desc) : (s.sampleCopy p d).pending = s.pending := by
  unfold State.sampleCopy
  split <;> simp
@[simp] theorem State.copyPumps_pending : s.copyPumps.pending = s.pending := by simp [State.copyPumps]
@[simp] theorem State.pageReady_pending (p fn va : Nat) : (s.pageReady p fn va).2.pending = s.pending := by simp [State.pageReady]

/-! ### `Machine/LinkLanes.lean` -/

@[simp] theorem State.dropLink_pending (n : Nat) : (s.dropLink n).pending = s.pending := rfl
@[simp] theorem State.trainLink_pending (n : Nat) : (s.trainLink n).pending = s.pending := rfl
@[simp] theorem State.trainFails_pending (n : Nat) : (s.trainFails n).pending = s.pending := rfl
@[simp] theorem State.applyLnkCfg_pending (n : Nat) : (s.applyLnkCfg n).pending = s.pending := by
  simp only [State.applyLnkCfg]
  (repeat' split) <;> simp
@[simp] theorem State.downLink_pending (n : Nat) : (s.downLink n).pending = s.pending := by simp [State.downLink]
@[simp] theorem State.latchLref_pending (present : Bool) : (s.latchLref present).pending = s.pending := by simp [State.latchLref]
@[simp] theorem State.uncorrectable_pending (n : Nat) : (s.uncorrectable n).pending = s.pending := by simp [State.uncorrectable]
@[simp] theorem State.dataCodeword_pending (n : Nat) (sent : List (BitVec 10)) (levels : List (List (Fin 4))) :
    (s.dataCodeword n sent levels).pending = s.pending := by simp [State.dataCodeword]
@[simp] theorem State.laneMsg_pending (n : Nat) (m : LaneMsg) : (s.laneMsg n m).pending = s.pending := rfl
@[simp] theorem State.sendCodewords_pending (n ns : Nat) : (s.sendCodewords n ns).pending = s.pending := by
  simp [State.sendCodewords]
@[simp] theorem State.lanesTick_pending (ns : Nat) : (s.lanesTick ns).pending = s.pending := by simp [State.lanesTick]
@[simp] theorem State.startSwap_pending (n phys : Nat) : (s.startSwap n phys).pending = s.pending := by simp [State.startSwap]
@[simp] theorem State.applyForce_pending (n : Nat) : (s.applyForce n).pending = s.pending := by
  unfold State.applyForce
  split <;> simp
@[simp] theorem execLinkTraining_queue (n : LinkIx) (badRx badTx : List (Fin 5)) (farMode : Bool) (t : Nat) :
    Result.queue (execLinkTraining n badRx badTx farMode t s) = some s.pending := by simp [execLinkTraining]
@[simp] theorem execTrainingStepTimeout_queue (n : LinkIx) : Result.queue (execTrainingStepTimeout n s) = some s.pending := by
  simp [execTrainingStepTimeout]
@[simp] theorem execRetrainTimer_queue (n : LinkIx) : Result.queue (execRetrainTimer n s) = some s.pending := by
  simp [execRetrainTimer]
@[simp] theorem execLnkCfgWrite_queue (n : LinkIx) (v : Word) : Result.queue (execLnkCfgWrite n v s) = some s.pending := by
  simp [execLnkCfgWrite]
@[simp] theorem execSymbolLockLoss_queue (n : LinkIx) (lane : Fin 5) :
    Result.queue (execSymbolLockLoss n lane s) = some s.pending := by
  simp [execSymbolLockLoss]
@[simp] theorem execCodewordReceive_queue (n : LinkIx) (c : Codeword) :
    Result.queue (execCodewordReceive n c s) = some s.pending := by
  unfold execCodewordReceive
  split <;> simp
@[simp] theorem execLaneWindowClose_queue (n : LinkIx) (monitorErrs : Nat) :
    Result.queue (execLaneWindowClose n monitorErrs s) = some s.pending := by
  simp only [execLaneWindowClose]
  (repeat' split) <;> simp
@[simp] theorem execSwapRequest_queue (n : LinkIx) (lane : Fin 5) : Result.queue (execSwapRequest n lane s) = some s.pending := by
  simp [execSwapRequest]
@[simp] theorem execSwapMarker_queue (n : LinkIx) : Result.queue (execSwapMarker n s) = some s.pending := by
  unfold execSwapMarker
  split <;> simp
@[simp] theorem execSwapDone_queue (n : LinkIx) : Result.queue (execSwapDone n s) = some s.pending := by simp [execSwapDone]
@[simp] theorem execSwapTimeout_queue (n : LinkIx) (t : Nat) : Result.queue (execSwapTimeout n t s) = some s.pending := by
  simp [execSwapTimeout]
@[simp] theorem execForce_queue (n : LinkIx) (lane : BitVec 3) : Result.queue (execForce n lane s) = some s.pending := by
  simp [execForce]
@[simp] theorem execLinkSleep_queue (n : LinkIx) (dir : LinkDir) : Result.queue (execLinkSleep n dir s) = some s.pending := by
  unfold execLinkSleep
  split <;> simp
@[simp] theorem execLinkWake_queue (n : LinkIx) (dir : LinkDir) : Result.queue (execLinkWake n dir s) = some s.pending := by
  unfold execLinkWake
  split <;> simp

/-! ### `Machine/LinkFabric.lean` -/

@[simp] theorem State.flitAck_pending (n : Nat) (f : Flit) : (s.flitAck n f).pending = s.pending := by simp [State.flitAck]
@[simp] theorem State.markHeld_pending (n : Nat) (held : Bool) : (s.markHeld n held).pending = s.pending := by simp [State.markHeld]
@[simp] theorem State.refuseReserved_pending (n : LinkIx) (vc : Fin 8) (b : List Byte) :
    (s.refuseReserved n vc b).pending = s.pending := by simp [State.refuseReserved]
@[simp] theorem State.takePayload_pending (n : LinkIx) (vc : Fin 8) (b : List Byte) :
    (s.takePayload n vc b).pending = s.pending := by simp [State.takePayload]
@[simp] theorem State.holdLink_pending (n : Nat) : (s.holdLink n).pending = s.pending := by simp [State.holdLink]
@[simp] theorem State.holdTick_pending : s.holdTick.pending = s.pending := by simp [State.holdTick]
@[simp] theorem State.passOn_pending (h : Header) (ty : TxType) (len : Nat) (data : List Byte) :
    (s.passOn h ty len data).pending = s.pending := by simp [State.passOn]
@[simp] theorem State.parkTx_pending (ty : TxType) (h : Header) (len : Nat) (data : List Byte) :
    (s.parkTx ty h len data).pending = s.pending := by simp [State.parkTx]
@[simp] theorem State.forward_pending (f : Flow) (h : Header) (tile : Nat) (data : List Byte) :
    (s.forward f h tile data).pending = s.pending := by simp [State.forward]
@[simp] theorem State.relay_pending (h : Header) (data : List Byte) (g off n : Nat) :
    (s.relay h data g off n).pending = s.pending := by simp [State.relay]
@[simp] theorem State.mcastTx_pending (h : Header) (data : List Byte) : (s.mcastTx h data).pending = s.pending := by
  simp only [State.mcastTx]
  (repeat' split) <;> simp
@[simp] theorem State.portPart_pending (p ask seg : Nat) (b : Option (List Byte)) :
    (s.portPart p ask seg b).pending = s.pending := rfl
@[simp] theorem State.sendEnds_pending (q : LinkReq) : (s.sendEnds q).pending = s.pending := by
  unfold State.sendEnds
  (repeat' split) <;> simp
@[simp] theorem State.sentCount_pending (q : LinkReq) : (s.sentCount q).pending = s.pending := by simp [State.sentCount]
@[simp] theorem State.loseLink_pending (id : Nat) : (s.loseLink id).pending = s.pending := by
  unfold State.loseLink
  split <;> simp
@[simp] theorem State.reqLost_pending (q : LinkReq) : (s.reqLost q).pending = s.pending := by
  simp only [State.reqLost]
  (repeat' split) <;> simp
@[simp] theorem State.flowTimeouts_pending (which : LinkReq → Bool) : (s.flowTimeouts which).pending = s.pending := by
  simp [State.flowTimeouts]
@[simp] theorem State.exposureTick_pending (p : Nat) : (s.exposureTick p).pending = s.pending := by
  unfold State.exposureTick
  (repeat' split) <;> simp
@[simp] theorem State.lfBatch_pending : s.lfBatch.pending = s.pending := by
  simp only [State.lfBatch]
  (repeat' split) <;> simp
@[simp] theorem execFlitReceive_queue (n : LinkIx) (vc : Fin 8) (bytes : List Byte) :
    Result.queue (execFlitReceive n vc bytes s) = some s.pending := by
  simp only [execFlitReceive]
  (repeat' split) <;> simp
@[simp] theorem execLinkAckTimeout_queue (n : LinkIx) : Result.queue (execLinkAckTimeout n s) = some s.pending := by
  simp [execLinkAckTimeout]

theorem State.serve_pending (hd : Header) {body : Flow → State → State × Nat} (hf : ∀ f s, (body f s).1.pending = s.pending) :
    (s.serve hd body).pending = s.pending := by
  unfold State.serve
  extract_lets f i
  split
  · rfl
  split
  · simp
  split
  · rfl
  · simp
  · simpa using hf f s

theorem State.arriveTx_pending (hd : Header) (ty : TxType) (len : Nat) (data : List Byte) {body : State → State}
    (hf : (body s).pending = s.pending) : (s.arriveTx hd ty len data body).pending = s.pending := by
  unfold State.arriveTx
  split
  · simp
  split
  · simp
  · simpa using hf

@[simp] theorem State.peerRead_pending (f : Flow) (a n : Nat) : (s.peerRead f a n).2.pending = s.pending := by
  unfold State.peerRead
  split
  · rfl
  split
  · split
    next e => exact (State.pending_of_eq e).trans (s.hbmRead_pending ..)
    next e => exact (State.pending_of_eq e).trans (s.hbmRead_pending ..)
  · split <;> rfl

@[simp] theorem State.rreadTx_pending (hd : Header) (len : Nat) :
    (s.rreadTx hd len).pending = s.pending := s.serve_pending _ fun f s => by
  have read := s.peerRead_pending f (bits hd.target.toNat 0 48) len
  split
  next e => exact (State.pending_of_eq e).trans read
  next e => simpa using (State.pending_of_eq e).trans read

@[simp] theorem execRread_queue (hd : Header) (len : Fin 4097) : Result.queue (execRread hd len s) = some s.pending :=
  congrArg some (s.arriveTx_pending _ _ _ _ (s.rreadTx_pending ..))
@[simp] theorem State.rwriteTx_pending (hd : Header) (data : List Byte) :
    (s.rwriteTx hd data).pending = s.pending := s.serve_pending _ fun f s => by
  dsimp only
  (repeat' split) <;> simp
@[simp] theorem execRwrite_queue (hd : Header) (data : List Byte) : Result.queue (execRwrite hd data s) = some s.pending :=
  congrArg some (s.arriveTx_pending _ _ _ _ (s.rwriteTx_pending ..))

@[simp] theorem State.rsignalTx_pending (hd : Header) : (s.rsignalTx hd).pending = s.pending := by
  unfold State.rsignalTx
  extract_lets t
  split
  · split <;> simp
  · refine s.serve_pending _ fun f s => ?_
    (repeat' split) <;> simp

@[simp] theorem execRsignal_queue (hd : Header) : Result.queue (execRsignal hd s) = some s.pending :=
  congrArg some (s.arriveTx_pending _ _ _ _ (s.rsignalTx_pending ..))

@[simp] theorem State.tsendTx_pending (hd : Header) (data : List Byte) :
    (s.tsendTx hd data).pending = s.pending := s.serve_pending _ fun f s => by
  extract_lets a absent s1
  split
  · rfl
  split
  · rfl
  split
  · rfl
  · simp [s1]

@[simp] theorem execTsend_queue (hd : Header) (data : List Byte) : Result.queue (execTsend hd data s) = some s.pending :=
  congrArg some (s.arriveTx_pending _ _ _ _ (s.tsendTx_pending ..))
@[simp] theorem execMcast_queue (hd : Header) (data : List Byte) : Result.queue (execMcast hd data s) = some s.pending :=
  congrArg some (s.arriveTx_pending _ _ _ _ (s.mcastTx_pending ..))
@[simp] theorem execPrune_queue (hd : Header) : Result.queue (execPrune hd s) = some s.pending := by simp [execPrune]
@[simp] theorem State.dataArrives_pending (q : LinkReq) (b : List Byte) : (s.dataArrives q b).pending = s.pending := by
  unfold State.dataArrives
  (repeat' split) <;> simp
@[simp] theorem execReadData_queue (hd : Header) (data : List Byte) : Result.queue (execReadData hd data s) = some s.pending :=
  congrArg some (s.arriveTx_pending _ _ _ _ (by (repeat' split) <;> simp))
@[simp] theorem State.refused_pending (q : LinkReq) : (s.refused q).pending = s.pending := by
  unfold State.refused
  (repeat' split) <;> simp

@[simp] theorem execAck_queue (hd : Header) :
    Result.queue (execAck hd s) = some s.pending := congrArg some (s.arriveTx_pending _ _ _ _ (by
  dsimp only
  split
  · rfl
  split
  · simp
  split
  · rfl
  · (repeat' split) <;> simp))

@[simp] theorem execClear_queue (hd : Header) : Result.queue (execClear hd s) = some s.pending :=
  congrArg some (s.arriveTx_pending _ _ _ _ (by split <;> simp))
@[simp] theorem execWithdraw_queue (hd : Header) : Result.queue (execWithdraw hd s) = some s.pending :=
  congrArg some (s.arriveTx_pending _ _ _ _ (by split <;> simp))
@[simp] theorem execPosition_queue (hd : Header) (t : Nat) (rate : Word) (hold : Bool) :
    Result.queue (execPosition hd t rate hold s) = some s.pending := by simp [execPosition]
@[simp] theorem execFlowTimeout_queue (flow : BitVec 16) : Result.queue (execFlowTimeout flow s) = some s.pending := by
  simp [execFlowTimeout]
@[simp] theorem execExposureTimeout_queue (p : PackIx) : Result.queue (execExposureTimeout p s) = some s.pending := by
  simp [execExposureTimeout]
@[simp] theorem execPruneTimeout_queue (group : BitVec 8) (branch : Nat) :
    Result.queue (execPruneTimeout group branch s) = some s.pending := by
  simp only [execPruneTimeout]
  (repeat' split) <;> simp
@[simp] theorem execLfBatchGo_queue : Result.queue (execLfBatchGo s) = some s.pending := by simp [execLfBatchGo]

/-! ### `Machine/Fabric.lean` -/

@[simp] theorem State.setHook_pending (p : Nat) (h : HookSt) : (s.setHook p h).pending = s.pending := rfl
@[simp] theorem State.endHook_pending (p : Nat) (h : HookSt) : (s.endHook p h).pending = s.pending := rfl
@[simp] theorem State.hookRetry_pending (h : HookSt) : (s.hookRetry h).pending = s.pending := rfl
@[simp] theorem State.rowBack_pending (p : Nat) (h : HookSt) (row : List Byte) : (s.rowBack p h row).pending = s.pending := by
  simp [State.rowBack]
@[simp] theorem State.portAnswer_pending (p : Nat) (b : Option (List Byte)) : (s.portAnswer p b).pending = s.pending := rfl

theorem State.pending_of_portSignal {s t : State} {p : Nat} {k : PackIx} {c rw : Fin 32} {sem : Fin 64}
    {inc : BitVec 16} (h : s.portSignal p k c rw sem inc = some t) : t.pending = s.pending := by
  simp only [State.portSignal] at h
  split at h
  · cases h
  split at h
  all_goals
    cases h
    simp

@[simp] theorem State.stopHooks_pending (p : Nat) : (s.stopHooks p).pending = s.pending := by
  simp -implicitDefEqProofs [State.stopHooks]
@[simp] theorem State.latchGpio_pending (g : BitVec 96) : (s.latchGpio g).pending = s.pending := rfl
@[simp] theorem State.applyIsolate_pending (r : Nat) : (s.applyIsolate r).pending = s.pending := by
  unfold State.applyIsolate
  split <;> simp
@[simp] theorem execHookRowAccepted_queue (port : PortIx) : Result.queue (execHookRowAccepted port s) = some s.pending := by
  simp only [execHookRowAccepted]
  (repeat' split) <;> simp
@[simp] theorem execHookReturnBeat_queue (port : PortIx) (b : Beat) :
    Result.queue (execHookReturnBeat port b s) = some s.pending := by
  simp only [execHookReturnBeat]
  (repeat' split) <;> simp

@[simp] theorem execHookError_queue (port : PortIx) (why : HookFail) :
    Result.queue (execHookError port why s) = some s.pending := by
  have failed (s : State) (p : Nat) (l : List HookSt) :
      (l.foldl (fun s h => s.hookFail p h h.back.length 3) s).pending = s.pending :=
    State.foldl_pending _ _ _ fun _ _ => rfl
  simp only [execHookError, Result.queue_next]
  (repeat' split) <;> simp [failed]

@[simp] theorem PortPass.place_pending (a : PortPass) (p ask fn : Nat) (write : Bool) (g : Seg) :
    (a.place p ask fn write g).s.pending = a.s.pending := by
  unfold PortPass.place
  split
  · rfl
  extract_lets data a1 done
  have does (b : List Byte) (s : State) : (done b s).s.pending = s.pending := by
    dsimp only [done]
    split <;> rfl
  split
  · split
    · exact (does ..).trans (State.hbmWrite_pending ..)
    split
    next e => exact (does ..).trans ((State.pending_of_eq e).trans (State.hbmRead_pending ..))
    next e => exact (State.pending_of_eq e).trans (State.hbmRead_pending ..)
  · split
    · exact does ..
    split
    · exact does ..
    · rfl
  · split
    · rfl
    · exact State.request_pending ..

theorem State.pending_of_portAccess (p : Nat) (write : Bool) (va n : Nat) (data : List Byte) (t : State)
    (e : s.portAccess p write va n data = some t) : t.pending = s.pending := by
  unfold State.portAccess at e
  extract_lets fn ask s1 at e
  split at e
  · cases e
    rfl
  next gs _ =>
  split at e
  · cases e
  extract_lets a at e
  have placed : a.s.pending = s.pending :=
    foldl_keeps (fun a : PortPass => a.s.pending) _ (fun a g => a.place_pending p ask fn write g) gs ⟨s1, [], data, true⟩
  cases e
  (repeat' split) <;> simpa using placed

theorem State.pending_of_portTry (p : Nat) (r : PortRequest) (t : State) (e : s.portTry p r = some t) : t.pending = s.pending := by
  unfold State.portTry at e
  split at e
  · exact State.pending_of_portAccess _ _ _ _ _ _ _ e
  · exact State.pending_of_portAccess _ _ _ _ _ _ _ e
  · exact State.pending_of_portSignal e

@[simp] theorem State.portServe_pending (p : Nat) (l : List PortRequest) : (s.portServe p l).pending = s.pending := by
  induction l generalizing s with
  | nil => rfl
  | cons r rs ih =>
    unfold State.portServe
    split
    next e => exact (ih _).trans (State.pending_of_portTry _ p r _ e)
    · rfl

@[simp] theorem State.portRetry_pending (p : Nat) : (s.portRetry p).pending = s.pending := by simp [State.portRetry]
@[simp] theorem State.portsRetry_pending : s.portsRetry.pending = s.pending := by simp [State.portsRetry]
@[simp] theorem execPortInitiatorRequest_queue (port : PortIx) (r : PortRequest) :
    Result.queue (execPortInitiatorRequest port r s) = some s.pending := by simp [execPortInitiatorRequest]
@[simp] theorem execPllLockLoss_queue (pll : Fin 32) : Result.queue (execPllLockLoss pll s) = some s.pending := by
  simp [execPllLockLoss]
@[simp] theorem execPllRelock_queue (pll : Fin 32) : Result.queue (execPllRelock pll s) = some s.pending := rfl
@[simp] theorem execBankSupplyLost_queue (bank : Fin 4) : Result.queue (execBankSupplyLost bank s) = some s.pending := by
  simp [execBankSupplyLost]
@[simp] theorem execBankSupplyReturn_queue (bank level : Fin 4) :
    Result.queue (execBankSupplyReturn bank level s) = some s.pending :=
  rfl
@[simp] theorem execIsolate_queue (region : RegionIx) : Result.queue (execIsolate region s) = some s.pending := rfl
@[simp] theorem execIsolateRelease_queue (region : RegionIx) : Result.queue (execIsolateRelease region s) = some s.pending := rfl
@[simp] theorem State.irqTick_pending (levels : BitVec 64) : (s.irqTick levels).pending = s.pending := by simp [State.irqTick]

/-! ### `Machine/Logic.lean` -/

@[simp] theorem State.cellClock_pending (cell : Nat) (second ce reset d : Bool) :
    (s.cellClock cell second ce reset d).pending = s.pending := by simp [State.cellClock]
@[simp] theorem State.cellCarry_pending (cell : Nat) (c : Bool) : (s.cellCarry cell c).pending = s.pending := by
  simp [State.cellCarry]
@[simp] theorem State.ramStore_pending (block w : Nat) (x flips : BitVec 72) :
    (s.ramStore block w x flips).pending = s.pending := rfl
@[simp] theorem State.ramWrite_pending (block : Nat) (second : Bool) (a d : Nat) :
    (s.ramWrite block second a d).pending = s.pending := by simp [State.ramWrite]
@[simp] theorem State.ramRead_pending (block : Nat) (second : Bool) (a : Nat) :
    (s.ramRead block second a).pending = s.pending := by
  simp only [State.ramRead]
  (repeat' split) <;> simp
@[simp] theorem State.ramUpset_pending (block w : Nat) (x : BitVec 72) : (s.ramUpset block w x).pending = s.pending := rfl
@[simp] theorem State.seamClock_pending (src dst : Nat) (wires : BitVec 1024) :
    (s.seamClock src dst wires).pending = s.pending := by
  unfold State.seamClock
  split <;> rfl
@[simp] theorem State.userEvent_pending (e : UserEvent) : (s.userEvent e).pending = s.pending := by
  unfold State.userEvent
  split <;> simp
@[simp] theorem State.cfgWrite_pending (c : CfgWrite) : (s.cfgWrite c).pending = s.pending := by
  unfold State.cfgWrite
  split <;> simp

/-! ### `Machine/Dawn.lean` -/

@[simp] theorem State.fixMeas_pending : s.fixMeas.pending = s.pending := rfl
@[simp] theorem State.runtimeExtend_pending (c : List Byte) : (s.runtimeExtend c).pending = s.pending := rfl
@[simp] theorem State.loadImage_pending : s.loadImage.pending = s.pending := by
  simp -implicitDefEqProofs [State.loadImage]
@[simp] theorem State.dawnMuzzle_pending : s.dawnMuzzle.pending = s.pending := by simp [State.dawnMuzzle]
@[simp] theorem State.dawnBanks_pending : s.dawnBanks.pending = s.pending := rfl
@[simp] theorem State.mcStarts_pending : s.mcStarts.pending = s.pending := rfl
@[simp] theorem State.frameLost_pending (f : FrameAt) : (s.frameLost f).pending = s.pending := by
  unfold State.frameLost
  split <;> simp
@[simp] theorem State.nwPass_pending : s.nwPass.pending = s.pending := rfl
@[simp] theorem State.plFails_pending (result : BitVec 4) : (s.plFails result).pending = s.pending := rfl
@[simp] theorem State.plTick_pending : s.plTick.pending = s.pending := by
  simp only [State.plTick]
  (repeat' split) <;> simp
@[simp] theorem State.stagingLost_pending (l : PartialLoad) : (s.stagingLost l).pending = s.pending := by simp [State.stagingLost]
@[simp] theorem State.stalledRegion_pending (r : RegionIx) : (s.stalledRegion r).pending = s.pending := by
  simp only [State.stalledRegion]
  (repeat' split) <;> simp
@[simp] theorem State.dusk_pending (grace : Nat) (thenReset : Bool) : (s.dusk grace thenReset).pending = s.pending := by
  simp [State.dusk]
@[simp] theorem State.duskStop_pending : s.duskStop.pending = s.pending := by simp [State.duskStop]
@[simp] theorem State.enterRecovery_pending (n : Nat) : (s.enterRecovery n).pending = s.pending := rfl
@[simp] theorem State.dawnHbm_pending : s.dawnHbm.pending = s.pending := by
  simp -implicitDefEqProofs [State.dawnHbm]
@[simp] theorem State.dawnOpen_pending : s.dawnOpen.pending = s.pending := by simp [State.dawnOpen]

@[simp] theorem State.dawn_pending : s.dawn.pending = s.pending := by
  unfold State.dawn
  split
  · rfl
  split
  · rfl
  split
  · simp
  extract_lets s1
  have started : s1.pending = s.pending := by
    dsimp only [s1]
    split <;> rfl
  split
  · exact started
  split
  · simpa using started
  · simpa using started

@[simp] theorem execVauxInRange_queue : Result.queue (execVauxInRange s) = some s.pending := by
  rw [execVauxInRange, Result.queue_next]
  split
  · rfl
  extract_lets m s1 s2 s3 s4 s5
  have started : s5.pending = s.pending := by
    dsimp only [s5]
    split <;> rfl
  split
  · exact congrArg some (s5.dawn_pending.trans started)
  · exact congrArg some started

@[simp] theorem execVin48InRange_queue : Result.queue (execVin48InRange s) = some s.pending := by simp [execVin48InRange]
@[simp] theorem execFundamentalReset_queue : Result.queue (execFundamentalReset s) = some s.pending := by
  simp only [execFundamentalReset]
  (repeat' split) <;> simp
@[simp] theorem execPerstNRelease_queue : Result.queue (execPerstNRelease s) = some s.pending := by simp [execPerstNRelease]
@[simp] theorem execModuleReset_queue : Result.queue (execModuleReset s) = some s.pending := by
  unfold execModuleReset
  split <;> simp
@[simp] theorem execNightwatchFrame_queue (e : FrameError) : Result.queue (execNightwatchFrame e s) = some s.pending := by
  unfold execNightwatchFrame
  (repeat' split) <;> simp
@[simp] theorem execNightwatchPassEnd_queue : Result.queue (execNightwatchPassEnd s) = some s.pending := by
  simp [execNightwatchPassEnd]
@[simp] theorem execNightwatchStall_queue : Result.queue (execNightwatchStall s) = some s.pending := by
  simp -implicitDefEqProofs [execNightwatchStall]
@[simp] theorem execPartialLoadGo_queue (region : RegionIx) (source : Bool) :
    Result.queue (execPartialLoadGo region source s) = some s.pending := by simp [execPartialLoadGo]
@[simp] theorem execPartialLoadStaged_queue (readOk : Bool) : Result.queue (execPartialLoadStaged readOk s) = some s.pending := by
  unfold execPartialLoadStaged
  (repeat' split) <;> simp
@[simp] theorem execPartialLoadWritten_queue (readOk : Bool) : Result.queue (execPartialLoadWritten readOk s) = some s.pending := by
  simp only [execPartialLoadWritten]
  (repeat' split) <;> simp
@[simp] theorem execDuskStandby_queue (grace : BitVec 16) : Result.queue (execDuskStandby grace s) = some s.pending := by
  simp [execDuskStandby]
@[simp] theorem execDuskReset_queue (grace : BitVec 16) : Result.queue (execDuskReset grace s) = some s.pending := by
  simp [execDuskReset]

@[simp] theorem State.duskEnd_pending : s.duskEnd.pending = s.pending := by
  unfold State.duskEnd
  extract_lets again s1 s2
  have off : s2.pending = s.pending := s.cuesSafe_pending _
  split
  · simpa using off
  · exact off

@[simp] theorem State.duskDrain_pending : s.duskDrain.pending = s.pending := by simp [State.duskDrain]
@[simp] theorem execDuskGraceExpiry_queue : Result.queue (execDuskGraceExpiry s) = some s.pending := by simp [execDuskGraceExpiry]
@[simp] theorem State.supplyFalls_pending : s.supplyFalls.pending = s.pending := by
  unfold State.supplyFalls
  split <;> rfl

/-! ### `Machine/Security.lean` -/

@[simp] theorem State.modUpd_pending (f : UpdSt → UpdSt) : (s.modUpd f).pending = s.pending := rfl
@[simp] theorem State.modRcv_pending (f : UpdSt → UpdSt) : (s.modRcv f).pending = s.pending := rfl
@[simp] theorem State.nvBroken_pending (kind : Nat) : (s.nvBroken kind).pending = s.pending := rfl
@[simp] theorem execSecUpdGo_queue (kind : BitVec 2) : Result.queue (execSecUpdGo kind s) = some s.pending := by
  simp only [execSecUpdGo]
  (repeat' split) <;> simp
@[simp] theorem State.nvStore_pending (kind : Nat) (b : List Byte) : (s.nvStore kind b).pending = s.pending := rfl
@[simp] theorem State.updTick_pending : s.updTick.pending = s.pending := by
  unfold State.updTick
  split <;> simp
@[simp] theorem execSecSvnCommit_queue : Result.queue (execSecSvnCommit s) = some s.pending := rfl
@[simp] theorem State.debugNew_pending : s.debugNew.pending = s.pending := rfl
@[simp] theorem State.debugSubmit_pending : s.debugSubmit.pending = s.pending := by simp [State.debugSubmit]
@[simp] theorem State.spdm_pending (a : SpdmAnswer) : (s.spdm a).pending = s.pending := rfl
@[simp] theorem State.drainMctp_pending : s.drainMctp.pending = s.pending := rfl
@[simp] theorem State.jtag_pending (i : JtagInstr) (out : BitVec 96) : (s.jtag i out).pending = s.pending := rfl
@[simp] theorem State.extest_pending (i : JtagInstr) : (s.extest i).pending = s.pending := by simp [State.extest]
@[simp] theorem execRecoveryGo_queue (kind : BitVec 2) (changed : Bool) :
    Result.queue (execRecoveryGo kind changed s) = some s.pending := by
  simp only [execRecoveryGo]
  (repeat' split) <;> simp
@[simp] theorem execDebugNew_queue : Result.queue (execDebugNew s) = some s.pending := rfl
@[simp] theorem execDebugSubmit_queue : Result.queue (execDebugSubmit s) = some s.pending := by simp [execDebugSubmit]
@[simp] theorem execGetVersion_queue : Result.queue (execGetVersion s) = some s.pending := rfl
@[simp] theorem execGetCapabilities_queue (v : SpdmVersion) : Result.queue (execGetCapabilities v s) = some s.pending := by
  simp [execGetCapabilities]
@[simp] theorem execNegotiateAlgorithms_queue (v : SpdmVersion) : Result.queue (execNegotiateAlgorithms v s) = some s.pending := by
  simp [execNegotiateAlgorithms]
@[simp] theorem execGetDigests_queue : Result.queue (execGetDigests s) = some s.pending := rfl
@[simp] theorem execGetCertificate_queue (slot off len : Nat) :
    Result.queue (execGetCertificate slot off len s) = some s.pending := by
  simp [execGetCertificate]
@[simp] theorem execChallenge_queue (v : SpdmVersion) (nonce : BitVec 256) :
    Result.queue (execChallenge v nonce s) = some s.pending := rfl
@[simp] theorem execGetMeasurements_queue (v : SpdmVersion) (index : Nat) (signed : Bool) (nonce : BitVec 256) :
    Result.queue (execGetMeasurements v index signed nonce s) = some s.pending := by simp [execGetMeasurements]
@[simp] theorem execMctpWake_queue : Result.queue (execMctpWake s) = some s.pending := by simp [execMctpWake]
@[simp] theorem execMctpStandby_queue : Result.queue (execMctpStandby s) = some s.pending := by simp [execMctpStandby]
@[simp] theorem execMcWatchdogExpiry_queue : Result.queue (execMcWatchdogExpiry s) = some s.pending := by
  simp [execMcWatchdogExpiry]
@[simp] theorem execMcRestart_queue : Result.queue (execMcRestart s) = some s.pending := by simp [execMcRestart]
@[simp] theorem execBypass_queue : Result.queue (execBypass s) = some s.pending := rfl
@[simp] theorem execIdcode_queue : Result.queue (execIdcode s) = some s.pending := rfl
@[simp] theorem execSamplePreload_queue (preload : BitVec 96) : Result.queue (execSamplePreload preload s) = some s.pending := rfl
@[simp] theorem execExtest_queue : Result.queue (execExtest s) = some s.pending := by simp [execExtest]
@[simp] theorem execExtestPulse_queue : Result.queue (execExtestPulse s) = some s.pending := by simp [execExtestPulse]
@[simp] theorem execExtestTrain_queue : Result.queue (execExtestTrain s) = some s.pending := by simp [execExtestTrain]

/-! ### `Machine/Telemetry.lean` -/

@[simp] theorem State.modPath_pending (p : Path) (f : PathSt → PathSt) : (s.modPath p f).pending = s.pending := rfl
@[simp] theorem State.fill_pending (p : Path) : (s.fill p).pending = s.pending := rfl
@[simp] theorem State.useToken_pending (p : Path) : (s.useToken p).pending = s.pending := rfl
@[simp] theorem State.sampleRecord_pending (x : Sample) : (s.sampleRecord x).2.pending = s.pending := rfl
@[simp] theorem State.coalesceNow_pending (p : Path) (l : List TelEvent) : (s.coalesceNow p l).pending = s.pending := by
  simp [State.coalesceNow]
@[simp] theorem State.cntTick_pending : s.cntTick.pending = s.pending := by
  simp -implicitDefEqProofs [State.cntTick]
@[simp] theorem State.writeTel_pending (p : Path) (e : TelEvent) : (s.writeTel p e).pending = s.pending := by
  unfold State.writeTel
  split <;> simp
@[simp] theorem State.flushAlarms_pending (p : Path) : (s.flushAlarms p).pending = s.pending := by simp [State.flushAlarms]
@[simp] theorem State.pathAlarm_pending (e : TelEvent) (p : Path) : (s.pathAlarm e p).pending = s.pending := by
  simp [State.pathAlarm]
@[simp] theorem State.pathLog_pending (e : TelEvent) (p : Path) : (s.pathLog e p).pending = s.pending := by simp [State.pathLog]
@[simp] theorem State.putTrace_pending (e : TelEvent) : (s.putTrace e).pending = s.pending := by simp [State.putTrace]
@[simp] theorem State.trace_pending (e : TelEvent) : (s.trace e).pending = s.pending := by simp [State.trace]
@[simp] theorem State.drainSamples_pending : s.drainSamples.pending = s.pending := by simp [State.drainSamples]
@[simp] theorem State.pathMetric_pending (e : TelEvent) (p : Path) : (s.pathMetric e p).pending = s.pending := by
  simp [State.pathMetric]
@[simp] theorem State.flushMetrics_pending (p : Path) : (s.flushMetrics p).pending = s.pending := by simp [State.flushMetrics]
@[simp] theorem State.emit_pending (e : TelEvent) : (s.emit e).pending = s.pending := by
  unfold State.emit
  split <;> simp
@[simp] theorem State.metricPeriod_pending : s.metricPeriod.pending = s.pending := by simp [State.metricPeriod]
@[simp] theorem execMetricPeriod_queue : Result.queue (execMetricPeriod s) = some s.pending := by simp [execMetricPeriod]
@[simp] theorem State.emitAlarm_pending (tables : List (Path × List TelEvent)) (e : TelEvent) :
    (s.emitAlarm tables e).pending = s.pending := by
  simp -implicitDefEqProofs [State.emitAlarm]
@[simp] theorem State.telModerate_pending : s.telModerate.pending = s.pending := by simp [State.telModerate]
@[simp] theorem State.telTick_pending : s.telTick.pending = s.pending := by
  simp -implicitDefEqProofs [State.telTick]
@[simp] theorem State.counterTick_pending : s.counterTick.pending = s.pending := by simp [State.counterTick]
@[simp] theorem execCntFreeze_queue (mode : BitVec 2) : Result.queue (execCntFreeze mode s) = some s.pending := by
  simp [execCntFreeze]
@[simp] theorem execCntTagSeed_queue (seed : BitVec 24) : Result.queue (execCntTagSeed seed s) = some s.pending := rfl

/-! ### `Machine/Commit.lean` -/

@[simp] theorem State.commitAsk_pending (mask : Word) : (s.commitAsk mask).pending = s.pending := by simp [State.commitAsk]
@[simp] theorem State.discardAsk_pending (mask : Word) : (s.discardAsk mask).pending = s.pending := rfl
@[simp] theorem State.vfCommitAsk_pending (f : Nat) : (s.vfCommitAsk f).pending = s.pending := rfl
@[simp] theorem State.vfDiscardAsk_pending (f : Nat) : (s.vfDiscardAsk f).pending = s.pending := rfl
@[simp] theorem State.viewed_pending (gs : List Nat) (f : Nat) : (s.viewed gs f).pending = s.pending := by simp [State.viewed]
@[simp] theorem State.sqStart_pending (f r : Nat) : (s.sqStart f r).pending = s.pending := rfl
@[simp] theorem State.cqStart_pending (f r : Nat) : (s.cqStart f r).pending = s.pending := rfl
@[simp] theorem State.afterG1_pending (old : State) (f : Nat) : (State.afterG1 old s f).pending = s.pending := by
  simp [State.afterG1]
@[simp] theorem State.cueChanged_pending (c : CueIx) : (s.cueChanged c).pending = s.pending := by simp [State.cueChanged]
@[simp] theorem State.afterG0_pending (old : State) : (State.afterG0 old s).pending = s.pending := by simp [State.afterG0]
@[simp] theorem State.afterG4_pending (old : State) : (State.afterG4 old s).pending = s.pending := by simp [State.afterG4]
@[simp] theorem State.afterG6_pending (old : State) : (State.afterG6 old s).pending = s.pending := by simp [State.afterG6]
@[simp] theorem State.applyGroups_pending (gs : List Nat) (f : Nat) : (s.applyGroups gs f).pending = s.pending := by
  simp [State.applyGroups]
@[simp] theorem State.noteApplied_pending : s.noteApplied.pending = s.pending := rfl
@[simp] theorem State.noteRefused_pending : s.noteRefused.pending = s.pending := rfl
@[simp] theorem State.takeG5_pending : s.takeG5.pending = s.pending := by simp [State.takeG5]
@[simp] theorem State.takePf_pending : s.takePf.pending = s.pending := by
  simp only [State.takePf]
  (repeat' split) <;> simp
@[simp] theorem State.takeVf_pending (f : Nat) : (s.takeVf f).pending = s.pending := by
  unfold State.takeVf
  (repeat' split) <;> simp
@[simp] theorem State.discardGroup_pending (g f : Nat) : (s.discardGroup g f).pending = s.pending := by simp [State.discardGroup]
@[simp] theorem State.discards_pending : s.discards.pending = s.pending := by simp [State.discards]
@[simp] theorem State.commits1_pending : s.commits1.pending = s.pending := by simp [State.commits1]
@[simp] theorem State.commits2_pending : s.commits2.pending = s.pending := by simp [State.commits2]
@[simp] theorem State.dropCommits_pending (f : Nat) : (s.dropCommits f).pending = s.pending := by simp [State.dropCommits]
@[simp] theorem execCommitGroups_queue (mask : Word) : Result.queue (execCommitGroups mask s) = some s.pending := by
  simp [execCommitGroups]
@[simp] theorem execCommitDiscard_queue (mask : Word) : Result.queue (execCommitDiscard mask s) = some s.pending := rfl
@[simp] theorem execVfCommit_queue (fn : Fn) : Result.queue (execVfCommit fn s) = some s.pending := by simp [execVfCommit]
@[simp] theorem execVfDiscard_queue (fn : Fn) : Result.queue (execVfDiscard fn s) = some s.pending := by simp [execVfDiscard]
@[simp] theorem execCommit_queue : Result.queue (execCommit s) = some s.pending := by simp [execCommit]
@[simp] theorem execFunctionLevelReset_queue (fn : Fn) : Result.queue (execFunctionLevelReset fn s) = some s.pending := by
  simp [execFunctionLevelReset]

/-! ### `Machine/Dispatching.lean` -/

@[simp] theorem State.seedTiles_pending (p : Nat) (d : Desc) : (s.seedTiles p d).pending = s.pending := by
  simp -implicitDefEqProofs [State.seedTiles]
@[simp] theorem State.wakePack_pending (p : Nat) : (s.wakePack p).pending = s.pending := by
  simp -implicitDefEqProofs [State.wakePack]
@[simp] theorem State.setLoading_pending (p : Nat) (l : Option Loading) : (s.setLoading p l).pending = s.pending := rfl
@[simp] theorem State.imageFails_pending (p : Nat) (d : Desc) : (s.imageFails p d).pending = s.pending := rfl
@[simp] theorem State.semsDone_pending (p : Nat) (d : Desc) (l : Loading) : (s.semsDone p d l).pending = s.pending := by
  simp [State.semsDone]
@[simp] theorem State.swapDue_pending (w : TableDue) : (s.swapDue w).pending = s.pending := by simp [State.swapDue]
@[simp] theorem State.swapTables_pending (p : Nat) : (s.swapTables p).pending = s.pending := by simp [State.swapTables]

@[simp] theorem State.semsLoad_pending (p : Nat) (d : Desc) (l : Loading) (is : List Nat) :
    (s.semsLoad p d l is).pending = s.pending := by
  induction is generalizing s l with
  | nil => simp [State.semsLoad]
  | cons i rest ih =>
    unfold State.semsLoad
    extract_lets next a
    have loaded (s : State) (sems : Table (BitVec 16)) : (next s sems).pending = s.pending := ih ..
    split
    · exact loaded s []
    split <;> next e => simp [loaded, State.pending_of_eq e]

@[simp] theorem State.startProgram_pending (p : Nat) (d : Desc) (cues : Bool) : (s.startProgram p d cues).pending = s.pending := by
  simp [State.startProgram]
@[simp] theorem State.tableRead_pending (p : Nat) (d : Desc) (x : Nat) (b : List Byte) :
    (s.tableRead p d x b).pending = s.pending := by
  simp -implicitDefEqProofs [State.tableRead]

@[simp] theorem State.headRead_pending (p : Nat) (d : Desc) (x : Nat) : (s.headRead p d x).pending = s.pending := by
  unfold State.headRead
  extract_lets sh va s1
  split
  · simp
  have read : _ = s.pending := s1.readVa_pending d (va + imgTable x) (64 * (sh.width * sh.height))
  split <;> next e => simpa using (State.pending_of_eq e).trans read

@[simp] theorem State.loadProgram_pending (p : Nat) (d : Desc) : (s.loadProgram p d).pending = s.pending := by
  unfold State.loadProgram
  extract_lets s1
  have read : _ = s.pending := s1.readVa_pending d d.f.program.toNat 64
  split <;> next e => simpa using (State.pending_of_eq e).trans read

@[simp] theorem State.loadStep_pending (p : Nat) : (s.loadStep p).pending = s.pending := by
  unfold State.loadStep
  (repeat' split) <;> simp
@[simp] theorem State.startCopy_pending (p : Nat) (d : Desc) : (s.startCopy p d).pending = s.pending := by simp [State.startCopy]
@[simp] theorem State.contentsLost_pending (p : Nat) (d : Desc) : (s.contentsLost p d).pending = s.pending := by
  simp [State.contentsLost]
@[simp] theorem State.lostAgain_pending (p : Nat) (d : Desc) : (s.lostAgain p d).pending = s.pending := by simp [State.lostAgain]
@[simp] theorem State.dispatchDesc_pending (p : Nat) (d : Desc) : (s.dispatchDesc p d).pending = s.pending := by
  simp [State.dispatchDesc]
@[simp] theorem State.lostDispatch_pending (p : Nat) : (s.lostDispatch p).pending = s.pending := by
  unfold State.lostDispatch
  (repeat' split) <;> simp
@[simp] theorem State.dispatchPack_pending (p : Nat) : (s.dispatchPack p).pending = s.pending := by
  unfold State.dispatchPack
  (repeat' split) <;> simp
@[simp] theorem execDispatch_queue (p : PackIx) : Result.queue (execDispatch p s) = some s.pending := by simp [execDispatch]

@[simp] theorem State.nextIteration_pending (p : Nat) : (s.nextIteration p).pending = s.pending := by
  unfold State.nextIteration
  split
  · rfl
  next d _ =>
  split
  · rfl
  split
  · simp
  have claimed := s.claimSlot_pending d.fn.val d.cq
  split
  next e => exact (State.pending_of_eq e).trans claimed
  next e => simpa using (State.pending_of_eq e).trans claimed

@[simp] theorem execLoopResume_queue (p : PackIx) : Result.queue (execLoopResume p s) = some s.pending := by simp [execLoopResume]
@[simp] theorem State.replayStep_pending (p : Nat) : (s.replayStep p).pending = s.pending := by
  unfold State.replayStep
  split <;> simp
@[simp] theorem execWholeReplay_queue (p : PackIx) : Result.queue (execWholeReplay p s) = some s.pending := by
  simp [execWholeReplay]

@[simp] theorem State.tableLoad_pending (d : Desc) : (s.tableLoad d).pending = s.pending := by
  unfold State.tableLoad
  extract_lets begun fails
  have read := s.readVa_pending d d.f.program.toNat tableBytes
  split
  next e => exact (State.pending_of_eq e).trans read
  next e => exact (State.pending_of_eq e).trans read
  next e => exact (State.pending_of_eq e).trans read
  next u e =>
    split <;> exact (State.pending_of_eq e).trans read

@[simp] theorem State.swapTablesLate_pending (p : Nat) : (s.swapTablesLate p).pending = s.pending := by simp [State.swapTablesLate]
@[simp] theorem State.writeRecords_pending : s.writeRecords.pending = s.pending := by simp [State.writeRecords]
@[simp] theorem execTableSwap_queue (w : SwapTable) : Result.queue (execTableSwap w s) = some s.pending := by
  unfold execTableSwap
  split <;> simp

/-! ### `Machine/Sync.lean` -/

@[simp] theorem State.sigx_pending (c : Issuing) (sem : Nat) (via : Bool) (inc col row flow : Nat) :
    (s.sigx c sem via inc col row flow).pending = s.pending := by simp [State.sigx]
@[simp] theorem State.barrier_pending (c : Issuing) (num mask : Nat) : (s.barrier c num mask).pending = s.pending := by
  simp -implicitDefEqProofs [State.barrier]
@[simp] theorem State.logTimeout_pending (ix : Nat) : (s.logTimeout ix).pending = s.pending := rfl
@[simp] theorem execNop_queue (tile : TileId) (e : Engine) (u : Upset) :
    Result.queue (execNop tile e u s) = some s.pending :=
  congrArg some (s.issueOp_pending _ _ _ fun _ _ s => s.controlUnder_pending _ _ _ fun s => by simp)
@[simp] theorem execHalt_queue (tile : TileId) (e : Engine) (u : Upset) :
    Result.queue (execHalt tile e u s) = some s.pending :=
  congrArg some (s.issueOp_pending _ _ _ fun _ _ s => s.controlUnder_pending _ _ _ fun s => by simp)
@[simp] theorem execStreamEnd_queue (tile : TileId) (e : Engine) : Result.queue (execStreamEnd tile e s) = some s.pending := by
  unfold execStreamEnd
  split <;> simp

@[simp] theorem execJmp_queue (tile : TileId) (e : Engine) (u : Upset) :
    Result.queue (execJmp tile e u s) = some s.pending := congrArg some (s.issueOp_pending _ _ _ fun c i s => by
  split
  · exact s.controlUnder_pending _ _ _ fun s => by simp
  · rfl)

@[simp] theorem execBrc_queue (tile : TileId) (e : Engine) (u : Upset) :
    Result.queue (execBrc tile e u s) = some s.pending := congrArg some (s.issueOp_pending _ _ _ fun c i s => by
  split
  · exact s.controlUnder_pending _ _ _ fun s => by split <;> simp
  · rfl)

@[simp] theorem execLoopInstruction_queue (tile : TileId) (e : Engine) (u : Upset) :
    Result.queue (execLoopInstruction tile e u s) = some s.pending := congrArg some (s.issueOp_pending _ _ _ fun c i s => by
  split
  · exact s.controlUnder_pending _ _ _ fun s => by simp
  · rfl)

@[simp] theorem execUndefinedOpcode_queue (tile : TileId) (e : Engine) :
    Result.queue (execUndefinedOpcode tile e s) = some s.pending := congrArg some (s.issue_pending _ _ _ fun _ _ _ => rfl)

@[simp] theorem execSig_queue (tile : TileId) (e : Engine) (u : Upset) :
    Result.queue (execSig tile e u s) = some s.pending := congrArg some (s.issueOp_pending _ _ _ fun c i s => by
  split
  · exact s.controlUnder_pending _ _ _ fun s => by simp
  · rfl)

@[simp] theorem execSigx_queue (tile : TileId) (e : Engine) (u : Upset) :
    Result.queue (execSigx tile e u s) = some s.pending := congrArg some (s.issueOp_pending _ _ _ fun c i s => by
  split
  · exact s.controlUnder_pending _ _ _ fun s => by simp
  · rfl)

@[simp] theorem execSignalArrival_queue (tile : TileId) (u : Upset) :
    Result.queue (execSignalArrival tile u s) = some s.pending := by
  rw [execSignalArrival, Result.queue_next]
  split
  · rfl
  · dsimp only
    split
    · simp
    · exact congrArg some (State.tileUnder_pending _ tile u fun s => by simp)

@[simp] theorem execWait_queue (tile : TileId) (e : Engine) (u : Upset) :
    Result.queue (execWait tile e u s) = some s.pending := congrArg some (s.issueOp_pending _ _ _ fun c i s => by
  split
  · exact s.controlUnder_pending _ _ _ fun s => by simp
  · rfl)

@[simp] theorem execBarrier_queue (tile : TileId) (e : Engine) (u : Upset) :
    Result.queue (execBarrier tile e u s) = some s.pending := congrArg some (s.issueOp_pending _ _ _ fun c i s => by
  split
  · exact s.controlUnder_pending _ _ _ fun s => by split <;> simp
  · rfl)

@[simp] theorem execInstructionRetire_queue (tile : TileId) (e : Engine) :
    Result.queue (execInstructionRetire tile e s) = some s.pending := by
  unfold execInstructionRetire
  (repeat' split) <;> simp
@[simp] theorem State.snapshot_pending (p : Nat) (d : Desc) (cause : Nat) : (s.snapshot p d cause).pending = s.pending := by
  simp [State.snapshot]
@[simp] theorem State.waitTimeouts_pending (p : Nat) : (s.waitTimeouts p).pending = s.pending := by
  unfold State.waitTimeouts
  split <;> simp -implicitDefEqProofs
@[simp] theorem execWaitTimeout_queue (tile : TileId) (e : Engine) : Result.queue (execWaitTimeout tile e s) = some s.pending := by
  unfold execWaitTimeout
  split <;> simp
@[simp] theorem State.deadlock_pending (p : Nat) (d : Desc) : (s.deadlock p d).pending = s.pending := by simp [State.deadlock]
@[simp] theorem State.deadTick_pending (p : Nat) : (s.deadTick p).pending = s.pending := by
  unfold State.deadTick
  split <;> simp
@[simp] theorem execSyncDeadlock_queue (p : PackIx) : Result.queue (execSyncDeadlock p s) = some s.pending := by
  unfold execSyncDeadlock
  split <;> simp

/-! ### `Machine/Network.lean` -/

@[simp] theorem State.waitOn_pending (x : Inbound) : (s.waitOn x).pending = s.pending := rfl
@[simp] theorem State.losePiece_pending (tile : TileId) (ci n : Nat) : (s.losePiece tile ci n).pending = s.pending := rfl
@[simp] theorem State.packetEnds_pending (owner : Option Nat) : (s.packetEnds owner).pending = s.pending := by
  unfold State.packetEnds
  split <;> simp
@[simp] theorem State.dropPacket_pending (load : NetLoad) : (s.dropPacket load).pending = s.pending := by
  unfold State.dropPacket
  (repeat' split) <;> simp
@[simp] theorem State.countRetries_pending (stop : NetStop) (n : Nat) : (s.countRetries stop n).pending = s.pending := by
  unfold State.countRetries
  split <;> simp
@[simp] theorem State.packWakes_pending (p : Nat) : (s.packWakes p).pending = s.pending := by simp [State.packWakes]
@[simp] theorem State.bodyTx_pending (ty : TxType) (hd : Header) (len : Nat) (data : List Byte) :
    (bodyTx ty hd len data s).pending = s.pending := by
  unfold Machine.bodyTx
  split <;> simp
@[simp] theorem State.runInbound_pending (x : Inbound) : (s.runInbound x).pending = s.pending := by
  unfold State.runInbound
  split <;> simp
@[simp] theorem State.releaseInbound_pending : s.releaseInbound.pending = s.pending := by simp [State.releaseInbound]
@[simp] theorem State.retryTick_pending : s.retryTick.pending = s.pending := by simp [State.retryTick]
@[simp] theorem execNetworkPacket_queue (src dest stop : NetStop) (fails : Nat) (load : NetLoad) :
    Result.queue (execNetworkPacket src dest stop fails load s) = some s.pending := by simp [execNetworkPacket]
@[simp] theorem State.wakeDone_pending (d : Nat) : (s.wakeDone d).pending = s.pending := by simp [State.wakeDone]
@[simp] theorem execDomainWakeComplete_queue (row : Fin 36) (right : Bool) :
    Result.queue (execDomainWakeComplete row right s) = some s.pending := by simp [execDomainWakeComplete]
@[simp] theorem State.domainTick_pending : s.domainTick.pending = s.pending := by simp [State.domainTick]

/-! ### `Machine/Registers.lean` -/

@[simp] theorem State.read32_pending (a : Nat) : (s.read32 a).2.pending = s.pending := by
  unfold State.read32
  (repeat' split) <;> simp
@[simp] theorem State.readAt_pending (fn : Fn) (off : Nat) : (s.readAt fn off).2.pending = s.pending := by
  unfold State.readAt
  (repeat' split) <;> simp
@[simp] theorem State.readBar_pending (fn : Fn) (off width : Nat) : (s.readBar fn off width).pending = s.pending := by
  simp [State.readBar]
@[simp] theorem State.writeMzCtrl_pending (fn : Fn) (x : Nat) : (s.writeMzCtrl fn x).pending = s.pending := by
  unfold State.writeMzCtrl
  split <;> simp
@[simp] theorem State.writeCommit_pending (o : Nat) (w : Wr) : (s.writeCommit o w).pending = s.pending := by
  simp [State.writeCommit]
@[simp] theorem State.writeTick_pending (o : Nat) (w : Wr) : (s.writeTick o w).pending = s.pending := by simp [State.writeTick]
@[simp] theorem State.writeWindow_pending (fn : Fn) (o : Nat) (w : Wr) : (s.writeWindow fn o w).pending = s.pending := by
  simp [State.writeWindow]
@[simp] theorem State.writeKnlCmd_pending (x : Nat) : (s.writeKnlCmd x).pending = s.pending := by
  unfold State.writeKnlCmd
  split <;> simp
@[simp] theorem State.modFaultRegs_pending (f : FaultRegs → FaultRegs) : (s.modFaultRegs f).pending = s.pending := rfl
@[simp] theorem State.writePack_pending (o : Nat) (w : Wr) : (s.writePack o w).pending = s.pending := by simp [State.writePack]
@[simp] theorem State.writeNum_pending (o : Nat) (w : Wr) : (s.writeNum o w).pending = s.pending := by simp [State.writeNum]
@[simp] theorem State.writeRtv_pending (o : Nat) (w : Wr) : (s.writeRtv o w).pending = s.pending := by simp [State.writeRtv]
@[simp] theorem State.writeHbm_pending (o : Nat) (w : Wr) : (s.writeHbm o w).pending = s.pending := by simp [State.writeHbm]
@[simp] theorem State.writeLink_pending (n : LinkIx) (o : Nat) (w : Wr) : (s.writeLink n o w).pending = s.pending := by
  simp -implicitDefEqProofs [State.writeLink]
@[simp] theorem State.writeLf_pending (o : Nat) (w : Wr) : (s.writeLf o w).pending = s.pending := by simp [State.writeLf]
@[simp] theorem State.writeFab_pending (o : Nat) (w : Wr) : (s.writeFab o w).pending = s.pending := by simp [State.writeFab]
@[simp] theorem State.writeDusk_pending (x : Nat) : (s.writeDusk x).pending = s.pending := by
  unfold State.writeDusk
  split <;> simp
@[simp] theorem State.writeNwCtrl_pending (w : Wr) : (s.writeNwCtrl w).pending = s.pending := by simp [State.writeNwCtrl]
@[simp] theorem State.writeCfg_pending (o : Nat) (w : Wr) : (s.writeCfg o w).pending = s.pending := by simp [State.writeCfg]
@[simp] theorem State.writeLeash_pending (o : Nat) (w : Wr) : (s.writeLeash o w).pending = s.pending := by simp [State.writeLeash]
@[simp] theorem State.writeTelReg_pending (o : Nat) (w : Wr) : (s.writeTelReg o w).pending = s.pending := by
  simp [State.writeTelReg]
@[simp] theorem State.modCounter_pending (i : Nat) (f : Counter → Counter) : (s.modCounter i f).pending = s.pending := rfl
@[simp] theorem State.writeCnt_pending (o : Nat) (w : Wr) : (s.writeCnt o w).pending = s.pending := by simp [State.writeCnt]
@[simp] theorem State.writeCrc_pending (o : Nat) (w : Wr) : (s.writeCrc o w).pending = s.pending := by simp [State.writeCrc]
@[simp] theorem State.writeStaged_pending (g a : Nat) (w : Wr) : (s.writeStaged g a w).pending = s.pending := by
  simp [State.writeStaged]
@[simp] theorem execLowWordRead_queue (fn : Fn) (off : BitVec 24) (width : Nat) :
    Result.queue (execLowWordRead fn off width s) = some s.pending := by simp [execLowWordRead]
@[simp] theorem State.writeSec_pending (o : Nat) (w : Wr) : (s.writeSec o w).pending = s.pending := by
  simp -implicitDefEqProofs [State.writeSec]
@[simp] theorem State.writeFormed_pending (a : Nat) (w : Wr) : (s.writeFormed a w).pending = s.pending := by
  simp only [State.writeFormed]
  (repeat' split) <;> simp
@[simp] theorem State.writePlain_pending (i : RegInfo) (a : Nat) (w : Wr) : (s.writePlain i a w).pending = s.pending := by
  unfold State.writePlain
  (repeat' split) <;> simp -implicitDefEqProofs
@[simp] theorem State.write32_pending (a : Nat) (en : BitVec 4) (data : Word) : (s.write32 a en data).pending = s.pending := by
  unfold State.write32
  (repeat' split) <;> simp
@[simp] theorem State.writeAt_pending (fn : Fn) (off : Nat) (en : BitVec 4) (data : Word) :
    (s.writeAt fn off en data).pending = s.pending := by
  unfold State.writeAt
  split <;> simp
@[simp] theorem State.writeBar_pending (fn : Fn) (off width : Nat) (en : BitVec 8) (data : DWord) :
    (s.writeBar fn off width en data).pending = s.pending := by simp [State.writeBar]
@[simp] theorem execRegisterWrite_queue (fn : Fn) (off : BitVec 24) (width : Nat) (en : BitVec 8) (data : DWord) :
    Result.queue (execRegisterWrite fn off width en data s) = some s.pending := by simp [execRegisterWrite]
@[simp] theorem execHifEarlySample_queue (fn : Fn) (t : Nat) : Result.queue (execHifEarlySample fn t s) = some s.pending := by
  simp [execHifEarlySample]

/-! ### `Machine/Tick.lean` -/

@[simp] theorem State.newEdge_pending : s.newEdge.pending = s.pending := rfl
@[simp] theorem State.applyWrites_pending : s.applyWrites.pending = s.pending := by simp [State.applyWrites]
@[simp] theorem State.cadenceSet_pending (d : Desc) : (s.cadenceSet d).pending = s.pending := by simp [State.cadenceSet]
@[simp] theorem State.class3_pending : s.class3.pending = s.pending := by simp [State.class3]
@[simp] theorem State.retire1_pending (id : Nat) : (s.retire1 id).pending = s.pending := by
  unfold State.retire1
  split <;> simp
@[simp] theorem State.sampleEnd_pending (p : Nat) (f : FaultEv) : (s.sampleEnd p f).pending = s.pending := by simp [State.sampleEnd]
@[simp] theorem State.atQuiescent_pending (p : Nat) : (s.atQuiescent p).pending = s.pending := by simp [State.atQuiescent]
@[simp] theorem State.sendPosition_pending : s.sendPosition.pending = s.pending := by simp [State.sendPosition]
@[simp] theorem State.latchInputs_pending (i : TickIn) : (s.latchInputs i).pending = s.pending := by simp [State.latchInputs]
@[simp] theorem State.swapsDue_pending : s.swapsDue.pending = s.pending := by simp [State.swapsDue]
@[simp] theorem State.packFaults_pending (p : Nat) : (s.packFaults p).pending = s.pending := by
  unfold State.packFaults
  split <;> simp
@[simp] theorem State.complete_pending (id : Nat) : (s.complete id).pending = s.pending := by
  simp only [State.complete]
  (repeat' split) <;> simp
@[simp] theorem State.class5Pack_pending (l : List FaultEv) (p : Nat) : (State.class5Pack l s p).pending = s.pending := by
  simp [State.class5Pack]
@[simp] theorem State.class5_pending : s.class5.pending = s.pending := by simp [State.class5]
@[simp] theorem State.submit_pending (d : Desc) : (s.submit d).pending = s.pending := by simp [State.submit]
@[simp] theorem State.class6_pending : s.class6.pending = s.pending := by simp [State.class6]
@[simp] theorem State.class7_pending (irq : BitVec 64) : (s.class7 irq).pending = s.pending := by simp [State.class7]
@[simp] theorem State.dispatches_pending : s.dispatches.pending = s.pending := by simp [State.dispatches]
@[simp] theorem State.tickRest_pending (i : TickIn) : (s.tickRest i).pending = s.pending := by simp [State.tickRest]
@[simp] theorem State.tickHead_pending (i : TickIn) (len : Nat) : (s.tickHead i len).pending = s.pending := by simp [State.tickHead]
@[simp] theorem State.oneTick_pending (i : TickIn) : (s.oneTick i).pending = s.pending := by simp [State.oneTick]
@[simp] theorem execTick_queue (inp : TickIn) : Result.queue (execTick inp s) = some s.pending := by simp [execTick]

/-! ### `Machine/Rails.lean` -/

@[simp] theorem State.railsDown_pending (p : Power) : (s.railsDown p).pending = s.pending := rfl

/-! ### Every command -/

/-- R278: a command that names no HBM address beyond the last answers a next state and leaves the queue. -/
theorem exec_queue (c : Instr) (hread : ∀ a r e, c = .hbmRead a r e → a.toNat < 360 * 2 ^ 30)
    (hwrite : ∀ a d w e, c = .hbmWrite a d w e → a.toNat < 360 * 2 ^ 30 ∧ a.toNat + d.length ≤ 360 * 2 ^ 30)
    (htimeout : ∀ a o, c = .hbmTransactionTimeout a o → a.toNat < 360 * 2 ^ 30) : Result.queue (exec c s) = some s.pending := by
  cases c
  case hbmRead a r e => exact execHbmRead_queue s a r e (hread a r e rfl)
  case hbmWrite a d w e =>
    obtain ⟨ha, hd⟩ := hwrite a d w e rfl
    exact execHbmWrite_queue s a d w e ha hd
  case hbmTransactionTimeout a o => exact execHbmTransactionTimeout_queue s a o (htimeout a o rfl)
  all_goals simp [exec]

/-- Settles O4: every command leaves the queue in the state that it answers (`exec_queue`). -/
theorem commandsRunAndLeaveTheQueue : Obligations.CommandsRunAndLeaveTheQueue := fun c s hread hwrite htimeout =>
  Result.next_of_queue (exec_queue s c hread hwrite htimeout)

end Sys2Proof.Machine
end
